-- ==== Sys2Proof/Word.lean ====
section
/-! DEFINITION. The plain word types of the device and the capability record (R8, R121). -/

namespace Sys2Proof

/-- One byte of memory (R8). -/
abbrev Byte := BitVec 8

/-- A sequencer register, a system register, a 64-bit memory word (R10). -/
abbrev Word64 := BitVec 64

/-- A vector register or a load or store queue entry (R10). -/
abbrev Vec := BitVec 2048

/-- A capability: 128 bits plus its tag (R121). -/
structure Cap where
  /-- [127:64], the virtual address it points at -/
  cursor : BitVec 64
  /-- [63:56] -/
  gen : BitVec 8
  /-- [55:48], 0 unsealed -/
  otype : BitVec 8
  /-- [47:36] (R122) -/
  perm : BitVec 12
  /-- [35:30], bounds exponent -/
  e : BitVec 6
  /-- [29:15], base mantissa -/
  b : BitVec 15
  /-- [14:0], top mantissa -/
  t : BitVec 15
  /-- the tag bit -/
  tag : Bool
  deriving DecidableEq, Repr

/-- The untagged capability of all zero bits (R121). -/
def Cap.null : Cap := ⟨0, 0, 0, 0, 0, 0, 0, false⟩

/-- A management hart: its complex and its number within the complex (R42, R454). -/
structure HartId where
  cplx : Fin 2
  hart : Fin 4
  deriving DecidableEq, Repr

end Sys2Proof
end

