-- ==== Sys2Proof/Syntax.lean ====
section
/-! DEFINITION. The instruction type of the device: one constructor per row of the table of operations and events. The
fields of a word carry the letters the table gives them (d, a, b registers, s stage selector, x and y the
block-or-trap bits, o offset, ...); a row without an encoding carries what its event names beside the unit that acts
(the acting core, hart, function or partition stands in State). The rows with operands stand first. -/

namespace Sys2Proof

/-- The five engines, numbered as R24 and FAULTINFO.ENGINE (R171) number them. -/
inductive EngineId where
  | sequencer | vector | matrix | transfer | stratus
  deriving DecidableEq, Repr

/-- Where a register write arrives: the root-of-trust window as one hart sees it (R19), or a page of a virtual
function's BAR0 (R437), any offset of BAR0, BAR2 with the MSI-X table, or the debug page (R49). -/
inductive RegPort where
  | window (h : HartId)
  | queuePage (vf : Nat) (q : Nat)
  | transPage (vf : Nat)
  | errPage (vf : Nat)
  | debugPage
  | bar0 (vf : Nat)
  | bar2 (vf : Nat)
  deriving DecidableEq, Repr

/-- The two fault-ring registers whose write retries a waiting entry (R418). -/
inductive FrReg where
  | frbase | frsize
  deriving DecidableEq, Repr

/-- What the monitors of one die read (R51). -/
structure DieReading where
  die : Nat
  temp : BitVec 16
  vcore : BitVec 16
  proc : BitVec 16
  deriving DecidableEq, Repr

/-- An uncorrectable error on a write, found after the record write of the continuation that made it: the record's
address, and the virtual address written (R179, R198). -/
structure LateError where
  record : Nat
  va : Word64
  deriving DecidableEq, Repr

/-- A host access at the boundary (R53, R54). -/
structure HostAccess where
  vf : Nat
  addr : BitVec 64
  size : Nat
  write : Bool
  data : BitVec 64
  deriving DecidableEq, Repr

/-- What a soft error strikes (R198): a 16-byte granule, a 128-byte line, or the block-state entry of a 256-byte
block. The number is a location of the model's memory. -/
inductive PoisonUnit where
  | granule (loc : Nat)
  | line (loc : Nat)
  | block (loc : Nat)
  | tag (loc : Nat)
  deriving DecidableEq, Repr

/-- The exceptions of a management hart (R455). -/
inductive HartCause where
  | fetchAccess | illegal | breakpoint | loadMisaligned | loadAccess | storeMisaligned | storeAccess | ecall
  deriving DecidableEq, Repr

/-- The kind of a forwarded request (R422). -/
inductive FwdKind where
  | load (n : Nat)
  | store (data : List Byte) (tags : List Bool)
  | amo (f : BitVec 3) (width : BitVec 1) (operand : BitVec 64) (compare : BitVec 64) (scope : BitVec 3)
  deriving DecidableEq, Repr

/-- A line request from another module (R422, R452). -/
structure FwdRequest where
  port : Nat
  part : Nat
  world : Nat
  context : Nat
  cap : Cap
  va : BitVec 64
  pa : Nat
  kind : FwdKind
  source : Nat
  deriving DecidableEq, Repr

/-- A packet that arrives on a pod port (R452). -/
structure FabricPacket where
  port : Nat
  part : Nat
  world : Nat
  addr : BitVec 64
  cause : BitVec 8
  deriving DecidableEq, Repr

/-- The input of a collective's rank on another module, as FP32 words (R444); `withdrawn` when that rank withdrew. -/
structure RemoteInput where
  rank : Nat
  withdrawn : Bool
  lanes : List (BitVec 32)
  deriving DecidableEq, Repr

/-- The operations and events of the device, one constructor per row of the table. -/
inductive Instr where
  /-- ADD, R87 -/
  | add (d : BitVec 5) (a : BitVec 5) (b : BitVec 5)
  /-- SUB, R87 -/
  | sub (d : BitVec 5) (a : BitVec 5) (b : BitVec 5)
  /-- MUL, R87 -/
  | mul (d : BitVec 5) (a : BitVec 5) (b : BitVec 5)
  /-- MULH, R87 -/
  | mulh (d : BitVec 5) (a : BitVec 5) (b : BitVec 5)
  /-- MULHU, R87 -/
  | mulhu (d : BitVec 5) (a : BitVec 5) (b : BitVec 5)
  /-- DIV, R87 -/
  | div (d : BitVec 5) (a : BitVec 5) (b : BitVec 5)
  /-- DIVU, R87 -/
  | divu (d : BitVec 5) (a : BitVec 5) (b : BitVec 5)
  /-- REM, R87 -/
  | rem (d : BitVec 5) (a : BitVec 5) (b : BitVec 5)
  /-- REMU, R87 -/
  | remu (d : BitVec 5) (a : BitVec 5) (b : BitVec 5)
  /-- AND, R87 -/
  | and (d : BitVec 5) (a : BitVec 5) (b : BitVec 5)
  /-- OR, R87 -/
  | or (d : BitVec 5) (a : BitVec 5) (b : BitVec 5)
  /-- XOR, R87 -/
  | xor (d : BitVec 5) (a : BitVec 5) (b : BitVec 5)
  /-- SHL, R87 -/
  | shl (d : BitVec 5) (a : BitVec 5) (b : BitVec 5)
  /-- SHR, R87 -/
  | shr (d : BitVec 5) (a : BitVec 5) (b : BitVec 5)
  /-- SAR, R87 -/
  | sar (d : BitVec 5) (a : BitVec 5) (b : BitVec 5)
  /-- MIN, R88 -/
  | min (d : BitVec 5) (a : BitVec 5) (b : BitVec 5)
  /-- MAX, R88 -/
  | max (d : BitVec 5) (a : BitVec 5) (b : BitVec 5)
  /-- MINU, R88 -/
  | minu (d : BitVec 5) (a : BitVec 5) (b : BitVec 5)
  /-- MAXU, R88 -/
  | maxu (d : BitVec 5) (a : BitVec 5) (b : BitVec 5)
  /-- SEL, R88 -/
  | sel (d : BitVec 5) (a : BitVec 5) (b : BitVec 5)
  /-- CLZ, R89 -/
  | clz (d : BitVec 5) (a : BitVec 5)
  /-- POPC, R89 -/
  | popc (d : BitVec 5) (a : BitVec 5)
  /-- FFS, R89 -/
  | ffs (d : BitVec 5) (a : BitVec 5)
  /-- CMP_CC, R90 -/
  | cmpCc (d : BitVec 5) (a : BitVec 5) (b : BitVec 5) (c : BitVec 3)
  /-- ACQST, R144 -/
  | acqst (r : BitVec 3) (s : BitVec 4)
  /-- RELST, R144 -/
  | relst (r : BitVec 3) (s : BitVec 4)
  /-- DRAIN, R142 -/
  | drain (c : BitVec 4)
  /-- PMTGIVE, R146 -/
  | pmtgive (c : BitVec 4)
  /-- PMTINIT, R146 -/
  | pmtinit (p : BitVec 4) (c : BitVec 4)
  /-- ADDI, R91 -/
  | addi (d : BitVec 5) (a : BitVec 5) (i : BitVec 16)
  /-- ANDI, R91 -/
  | andi (d : BitVec 5) (a : BitVec 5) (i : BitVec 16)
  /-- ORI, R91 -/
  | ori (d : BitVec 5) (a : BitVec 5) (i : BitVec 16)
  /-- XORI, R91 -/
  | xori (d : BitVec 5) (a : BitVec 5) (i : BitVec 16)
  /-- SHLI, R91 -/
  | shli (d : BitVec 5) (a : BitVec 5) (h : BitVec 6)
  /-- SHRI, R91 -/
  | shri (d : BitVec 5) (a : BitVec 5) (h : BitVec 6)
  /-- SARI, R91 -/
  | sari (d : BitVec 5) (a : BitVec 5) (h : BitVec 6)
  /-- MOVI, R91 -/
  | movi (d : BitVec 5) (i : BitVec 16)
  /-- MOVHI, R91 -/
  | movhi (d : BitVec 5) (k : BitVec 2) (i : BitVec 16)
  /-- MBSEND, R146 -/
  | mbsend (a : BitVec 4) (c : BitVec 4)
  /-- MBRECV, R146 -/
  | mbrecv (d : BitVec 4) (c : BitVec 4)
  /-- B_CC, R92 -/
  | bCc (a : BitVec 5) (b : BitVec 5) (c : BitVec 3) (o : BitVec 13)
  /-- J, R93 -/
  | j (o : BitVec 26)
  /-- JAL, R93 -/
  | jal (o : BitVec 26)
  /-- LOOPST, R98 -/
  | loopst (o : BitVec 26)
  /-- JR, R93 -/
  | jr (a : BitVec 5)
  /-- STWIN, R97 -/
  | stwin (a : BitVec 5) (n : BitVec 4) (w : BitVec 8)
  /-- VRUN, R99 -/
  | vrun (s : BitVec 4) (o : BitVec 20)
  /-- MRUN, R99 -/
  | mrun (s : BitVec 4) (o : BitVec 20)
  /-- XRUN, R293 -/
  | xrun (s : BitVec 4) (o : BitVec 20)
  /-- ATTNGO, R99 -/
  | attngo (s : BitVec 4) (o : BitVec 20)
  /-- CQPOP, R103 -/
  | cqpop (d : BitVec 5)
  /-- SWEEPQ, R149 -/
  | sweepq (d : BitVec 5)
  /-- SPAWN, R106 -/
  | spawn (a : BitVec 4)
  /-- SUBMIT, R107 -/
  | submit (a : BitVec 4)
  /-- WAITSEQ, R109 -/
  | waitseq (a : BitVec 5) (b : BitVec 5)
  /-- GBAR, R110 -/
  | gbar (k : BitVec 2)
  /-- GRANK, R111 -/
  | grank (d : BitVec 5) (k : BitVec 2)
  /-- GSIZE, R111 -/
  | gsize (d : BitVec 5) (k : BitVec 2)
  /-- APXBEGIN, R113 -/
  | apxbegin (n : BitVec 4) (v : BitVec 6) (i : BitVec 6)
  /-- APXEND, R113 -/
  | apxend (n : BitVec 4) (v : BitVec 6) (i : BitVec 6)
  /-- APXCTL_START, R114 -/
  | apxctlStart (i : BitVec 6)
  /-- APXCTL_STOP, R114 -/
  | apxctlStop (i : BitVec 6)
  /-- APXCTL_INVAL, R114 -/
  | apxctlInval (i : BitVec 6)
  /-- APXCTL_RESTART, R114 -/
  | apxctlRestart (i : BitVec 6)
  /-- APXQ, R114 -/
  | apxq (d : BitVec 5) (i : BitVec 6)
  /-- TRAP, R115 -/
  | trap (i : BitVec 16)
  /-- SREGR, R117 -/
  | sregr (d : BitVec 5) (n : BitVec 12)
  /-- SREGW, R117 -/
  | sregw (a : BitVec 5) (n : BitVec 12)
  /-- FENCE, R140 -/
  | fence (s : BitVec 3)
  /-- CDERIVE, R126 -/
  | cderive (d : BitVec 4) (a : BitVec 4) (b : BitVec 5)
  /-- CANDPERM, R126 -/
  | candperm (d : BitVec 4) (a : BitVec 4) (b : BitVec 5)
  /-- CINCR, R126 -/
  | cincr (d : BitVec 4) (a : BitVec 4) (b : BitVec 5)
  /-- CSETCUR, R126 -/
  | csetcur (d : BitVec 4) (a : BitVec 4) (b : BitVec 5)
  /-- CSEAL, R127 -/
  | cseal (d : BitVec 4) (a : BitVec 4) (b : BitVec 4)
  /-- CUNSEAL, R127 -/
  | cunseal (d : BitVec 4) (a : BitVec 4) (b : BitVec 4)
  /-- CGETBASE, R128 -/
  | cgetbase (d : BitVec 5) (a : BitVec 4)
  /-- CGETLEN, R128 -/
  | cgetlen (d : BitVec 5) (a : BitVec 4)
  /-- CGETPERM, R128 -/
  | cgetperm (d : BitVec 5) (a : BitVec 4)
  /-- CGETTAG, R128 -/
  | cgettag (d : BitVec 5) (a : BitVec 4)
  /-- CMOV, R128 -/
  | cmov (d : BitVec 4) (a : BitVec 4)
  /-- CTEST, R128 -/
  | ctest (d : BitVec 5) (a : BitVec 4) (b : BitVec 4)
  /-- LDS, R132 -/
  | lds (d : BitVec 5) (a : BitVec 4) (z : BitVec 3) (f : BitVec 2) (k : BitVec 11)
  /-- STS, R132 -/
  | sts (g : BitVec 5) (a : BitVec 4) (z : BitVec 2) (f : BitVec 2) (k : BitVec 11)
  /-- LDC, R132 -/
  | ldc (d : BitVec 4) (a : BitVec 4) (f : BitVec 2) (k : BitVec 11)
  /-- STC, R132 -/
  | stc (s : BitVec 4) (a : BitVec 4) (f : BitVec 2) (k : BitVec 11)
  /-- LDQ, R133 -/
  | ldq (q : BitVec 2) (a : BitVec 4) (b : BitVec 5) (f : BitVec 2)
  /-- STQ, R133 -/
  | stq (q : BitVec 2) (a : BitVec 4) (b : BitVec 5) (f : BitVec 2)
  /-- GATHER, R134 -/
  | gather (q : BitVec 2) (a : BitVec 4) (m : BitVec 1) (z : BitVec 2)
  /-- SCATTER, R134 -/
  | scatter (q : BitVec 2) (a : BitVec 4) (m : BitVec 1) (z : BitVec 2)
  /-- AMOADD, R135 -/
  | amoadd (d : BitVec 5) (a : BitVec 4) (b : BitVec 5) (w : BitVec 1) (s : BitVec 3)
  /-- AMOSWAP, R135 -/
  | amoswap (d : BitVec 5) (a : BitVec 4) (b : BitVec 5) (w : BitVec 1) (s : BitVec 3)
  /-- AMOCAS, R135 -/
  | amocas (d : BitVec 5) (a : BitVec 4) (b : BitVec 5) (w : BitVec 1) (s : BitVec 3)
  /-- AMOMIN, R135 -/
  | amomin (d : BitVec 5) (a : BitVec 4) (b : BitVec 5) (w : BitVec 1) (s : BitVec 3)
  /-- AMOMAX, R135 -/
  | amomax (d : BitVec 5) (a : BitVec 4) (b : BitVec 5) (w : BitVec 1) (s : BitVec 3)
  /-- AMOAND, R135 -/
  | amoand (d : BitVec 5) (a : BitVec 4) (b : BitVec 5) (w : BitVec 1) (s : BitVec 3)
  /-- AMOOR, R135 -/
  | amoor (d : BitVec 5) (a : BitVec 4) (b : BitVec 5) (w : BitVec 1) (s : BitVec 3)
  /-- BIND, R139 -/
  | bind (a : BitVec 4) (b : BitVec 4)
  /-- UNBIND, R139 -/
  | unbind (a : BitVec 4) (b : BitVec 4)
  /-- PUBLISH, R141 -/
  | publish (a : BitVec 4) (b : BitVec 4)
  /-- SYNCINIT, R138 -/
  | syncinit (a : BitVec 4)
  /-- ACQ_SH, R138 -/
  | acqSh (a : BitVec 4)
  /-- ACQ_EX, R138 -/
  | acqEx (a : BitVec 4)
  /-- REL, R138 -/
  | rel (a : BitVec 4)
  /-- REVOKE, R148 -/
  | revoke (a : BitVec 4)
  /-- VEND, R226 -/
  | vend (s : BitVec 4)
  /-- VSHAPE, R200 -/
  | vshape (a : BitVec 6) (s : BitVec 4) (x : BitVec 1)
  /-- VADD, R208 -/
  | vadd (d : BitVec 6) (a : BitVec 6) (b : BitVec 6) (s : BitVec 4) (x : BitVec 1) (y : BitVec 1) (v : BitVec 1)
  /-- VSUB, R208 -/
  | vsub (d : BitVec 6) (a : BitVec 6) (b : BitVec 6) (s : BitVec 4) (x : BitVec 1) (y : BitVec 1) (v : BitVec 1)
  /-- VMUL, R208 -/
  | vmul (d : BitVec 6) (a : BitVec 6) (b : BitVec 6) (s : BitVec 4) (x : BitVec 1) (y : BitVec 1) (v : BitVec 2)
  /-- VFMA, R209 -/
  | vfma (d : BitVec 6) (a : BitVec 6) (b : BitVec 6) (s : BitVec 4) (x : BitVec 1) (y : BitVec 1) (v : BitVec 1)
  /-- VMIN, R209 -/
  | vmin (d : BitVec 6) (a : BitVec 6) (b : BitVec 6) (s : BitVec 4) (x : BitVec 1) (y : BitVec 1) (v : BitVec 1)
  /-- VMAX, R209 -/
  | vmax (d : BitVec 6) (a : BitVec 6) (b : BitVec 6) (s : BitVec 4) (x : BitVec 1) (y : BitVec 1) (v : BitVec 1)
  /-- VABS, R208 -/
  | vabs (d : BitVec 6) (a : BitVec 6) (s : BitVec 4) (x : BitVec 1) (v : BitVec 1)
  /-- VNEG, R208 -/
  | vneg (d : BitVec 6) (a : BitVec 6) (s : BitVec 4) (x : BitVec 1) (v : BitVec 1)
  /-- VCVT, R210 -/
  | vcvt (d : BitVec 6) (a : BitVec 6) (f : BitVec 4) (s : BitVec 4) (x : BitVec 1) (v : BitVec 2)
  /-- VQUANT, R211 -/
  | vquant (d : BitVec 6) (a : BitVec 6) (m : BitVec 4) (s : BitVec 4) (x : BitVec 1)
  /-- VSACC, R213 -/
  | vsacc (d : BitVec 6) (a : BitVec 6) (b : BitVec 6) (s : BitVec 4) (x : BitVec 1) (y : BitVec 1)
  /-- VEXP, R214 -/
  | vexp (d : BitVec 6) (a : BitVec 6) (s : BitVec 4) (x : BitVec 1) (v : BitVec 1)
  /-- VRCP, R214 -/
  | vrcp (d : BitVec 6) (a : BitVec 6) (s : BitVec 4) (x : BitVec 1)
  /-- VRSQ, R214 -/
  | vrsq (d : BitVec 6) (a : BitVec 6) (s : BitVec 4) (x : BitVec 1)
  /-- VRED, R215 -/
  | vred (d : BitVec 6) (a : BitVec 6) (s : BitVec 4) (x : BitVec 1) (v : BitVec 2)
  /-- VCMP, R216 -/
  | vcmp (d : BitVec 6) (a : BitVec 6) (b : BitVec 6) (s : BitVec 4) (x : BitVec 1) (y : BitVec 1) (v : BitVec 2)
  /-- VSEL, R217 -/
  | vsel (d : BitVec 6) (a : BitVec 6) (b : BitVec 6) (s : BitVec 4) (x : BitVec 1) (y : BitVec 1)
  /-- VPART, R221 -/
  | vpart (d : BitVec 6) (a : BitVec 6) (s : BitVec 4) (x : BitVec 1) (v : BitVec 1)
  /-- VPERM, R218 -/
  | vperm (d : BitVec 6) (a : BitVec 6) (b : BitVec 6) (s : BitVec 4) (x : BitVec 1) (y : BitVec 1)
  /-- VSHUF, R218 -/
  | vshuf (d : BitVec 6) (a : BitVec 6) (b : BitVec 6) (s : BitVec 4) (x : BitVec 1) (y : BitVec 1) (v : BitVec 2)
  /-- VBCAST, R218 -/
  | vbcast (d : BitVec 6) (a : BitVec 6) (b : BitVec 6) (s : BitVec 4) (x : BitVec 1) (y : BitVec 1)
  /-- VSPLAT, R218 -/
  | vsplat (d : BitVec 6) (a : BitVec 6) (s : BitVec 4) (x : BitVec 1)
  /-- VIOTA, R218 -/
  | viota (d : BitVec 6) (s : BitVec 4)
  /-- VAND, R219 -/
  | vand (d : BitVec 6) (a : BitVec 6) (b : BitVec 6) (s : BitVec 4) (x : BitVec 1) (y : BitVec 1)
  /-- VOR, R219 -/
  | vor (d : BitVec 6) (a : BitVec 6) (b : BitVec 6) (s : BitVec 4) (x : BitVec 1) (y : BitVec 1)
  /-- VXOR, R219 -/
  | vxor (d : BitVec 6) (a : BitVec 6) (b : BitVec 6) (s : BitVec 4) (x : BitVec 1) (y : BitVec 1)
  /-- VNOT, R219 -/
  | vnot (d : BitVec 6) (a : BitVec 6) (s : BitVec 4) (x : BitVec 1)
  /-- VSHL, R219 -/
  | vshl (d : BitVec 6) (a : BitVec 6) (b : BitVec 6) (s : BitVec 4) (x : BitVec 1) (y : BitVec 1)
  /-- VSHR, R219 -/
  | vshr (d : BitVec 6) (a : BitVec 6) (b : BitVec 6) (s : BitVec 4) (x : BitVec 1) (y : BitVec 1)
  /-- VSAR, R219 -/
  | vsar (d : BitVec 6) (a : BitVec 6) (b : BitVec 6) (s : BitVec 4) (x : BitVec 1) (y : BitVec 1)
  /-- VPOPC, R220 -/
  | vpopc (d : BitVec 6) (a : BitVec 6) (s : BitVec 4) (x : BitVec 1) (v : BitVec 1)
  /-- VPUSHIX, R222 -/
  | vpushix (a : BitVec 6) (s : BitVec 4) (x : BitVec 1) (q : BitVec 1)
  /-- VPUSHC, R223 -/
  | vpushc (a : BitVec 6) (s : BitVec 4) (x : BitVec 1)
  /-- VTOPB8, R224 -/
  | vtopb8 (d : BitVec 6) (a : BitVec 6) (s : BitVec 4) (x : BitVec 1)
  /-- VSHADD, R225 -/
  | vshadd (d : BitVec 6) (a : BitVec 6) (b : BitVec 6) (s : BitVec 4) (x : BitVec 1) (y : BitVec 1)
  /-- VMOV, R218 -/
  | vmov (d : BitVec 6) (a : BitVec 6) (s : BitVec 4) (x : BitVec 1)
  /-- MEND, R287 -/
  | mend (s : BitVec 4)
  /-- MSHAPE, R280 -/
  | mshape (s : BitVec 4) (r : BitVec 8) (c : BitVec 8) (t : BitVec 2)
  /-- TFETCH, R281 -/
  | tfetch (s : BitVec 4) (c : BitVec 4) (t : BitVec 2) (o : BitVec 16)
  /-- TREL, R282 -/
  | trel (s : BitVec 4) (t : BitVec 2)
  /-- HAD, R283 -/
  | had (s : BitVec 4) (t : BitVec 2) (z : BitVec 2)
  /-- ACCZERO, R285 -/
  | acczero (s : BitVec 4) (a : BitVec 4)
  /-- ACCRD, R286 -/
  | accrd (s : BitVec 4) (a : BitVec 4) (c : BitVec 4) (o : BitVec 14)
  /-- ACCWR, R286 -/
  | accwr (s : BitVec 4) (a : BitVec 4) (c : BitVec 4) (o : BitVec 14)
  /-- MWAIT, R287 -/
  | mwait (s : BitVec 4)
  /-- MMUL_LB2, R284 -/
  | mmulLb2 (s : BitVec 4) (a : BitVec 4) (x : BitVec 2) (w : BitVec 2) (c : BitVec 1)
  /-- MMUL_LB3, R284 -/
  | mmulLb3 (s : BitVec 4) (a : BitVec 4) (x : BitVec 2) (w : BitVec 2) (c : BitVec 1)
  /-- MMUL_LB4, R284 -/
  | mmulLb4 (s : BitVec 4) (a : BitVec 4) (x : BitVec 2) (w : BitVec 2) (c : BitVec 1)
  /-- MMUL_LB5, R284 -/
  | mmulLb5 (s : BitVec 4) (a : BitVec 4) (x : BitVec 2) (w : BitVec 2) (c : BitVec 1)
  /-- MMUL_LB6, R284 -/
  | mmulLb6 (s : BitVec 4) (a : BitVec 4) (x : BitVec 2) (w : BitVec 2) (c : BitVec 1)
  /-- MMUL_LB7, R284 -/
  | mmulLb7 (s : BitVec 4) (a : BitVec 4) (x : BitVec 2) (w : BitVec 2) (c : BitVec 1)
  /-- MMUL_LB8, R284 -/
  | mmulLb8 (s : BitVec 4) (a : BitVec 4) (x : BitVec 2) (w : BitVec 2) (c : BitVec 1)
  /-- MMUL_I8, R284 -/
  | mmulI8 (s : BitVec 4) (a : BitVec 4) (x : BitVec 2) (w : BitVec 2) (c : BitVec 1)
  /-- MMUL_E4M3, R284 -/
  | mmulE4m3 (s : BitVec 4) (a : BitVec 4) (x : BitVec 2) (w : BitVec 2) (c : BitVec 1)
  /-- MMUL_E5M2, R284 -/
  | mmulE5m2 (s : BitVec 4) (a : BitVec 4) (x : BitVec 2) (w : BitVec 2) (c : BitVec 1)
  /-- MMUL_FP16, R284 -/
  | mmulFp16 (s : BitVec 4) (a : BitVec 4) (x : BitVec 2) (w : BitVec 2) (c : BitVec 1)
  /-- MMUL_BF16, R284 -/
  | mmulBf16 (s : BitVec 4) (a : BitVec 4) (x : BitVec 2) (w : BitVec 2) (c : BitVec 1)
  /-- MMUL_FP32, R284 -/
  | mmulFp32 (s : BitVec 4) (a : BitVec 4) (x : BitVec 2) (w : BitVec 2) (c : BitVec 1)
  /-- MMUL_FP64, R284 -/
  | mmulFp64 (s : BitVec 4) (a : BitVec 4) (x : BitVec 2) (w : BitVec 2) (c : BitVec 1)
  /-- XLOOP, R291 -/
  | xloop (l : BitVec 3)
  /-- XBOUND, R291 -/
  | xbound (l : BitVec 3) (n : BitVec 25)
  /-- XSSTR, R291 -/
  | xsstr (l : BitVec 3) (s : BitVec 25)
  /-- XDSTR, R291 -/
  | xdstr (l : BitVec 3) (s : BitVec 25)
  /-- XSRC, R291 -/
  | xsrc (c : BitVec 4) (o : BitVec 21)
  /-- XDST, R291 -/
  | xdst (c : BitVec 4) (o : BitVec 21)
  /-- XEMIT, R292 -/
  | xemit (c : BitVec 4) (n : BitVec 16)
  /-- XPROBE, R299 -/
  | xprobe (c : BitVec 4)
  /-- QLOAD, R335 -/
  | qload (c : BitVec 3) (o : BitVec 12)
  /-- BTLD, R335 -/
  | btld (c : BitVec 3) (o : BitVec 12)
  /-- BTGATHER_K, R335 -/
  | btgatherK (c : BitVec 3) (t : BitVec 3)
  /-- BTGATHER_V, R335 -/
  | btgatherV (c : BitVec 3) (t : BitVec 3)
  /-- SCORE, R337 -/
  | score (t : BitVec 3)
  /-- PVACC, R337 -/
  | pvacc (t : BitVec 3)
  /-- MERGE, R357 -/
  | merge (c : BitVec 3) (o : BitVec 12)
  /-- MASK, R338 -/
  | mask (m : BitVec 2)
  /-- LOOP, R339 -/
  | loop (t : BitVec 10) (l : BitVec 2)
  /-- BRCNT, R339 -/
  | brcnt (t : BitVec 10)
  /-- LCSET, R339 -/
  | lcset (l : BitVec 2) (n : BitVec 14)
  /-- OSTORE, R355 -/
  | ostore (c : BitVec 3) (o : BitVec 12)
  /-- JMP, R339 -/
  | jmp (t : BitVec 10)
  /-- FUNCTION_READY, R33 -/
  | functionReady (bit : Nat)
  /-- READINESS_LIMIT_MISSED, R33 -/
  | readinessLimitMissed (bit : Nat)
  /-- FUNCTION_FAILED_IN_SERVICE, R33 -/
  | functionFailedInService (bit : Nat)
  /-- POD_PORT_RETURNS_TO_SERVICE, R33 -/
  | podPortReturnsToService (port : Nat)
  /-- CONFIG_RECORD_APPLY, R38 -/
  | configRecordApply (addr : Nat) (off : Nat)
  /-- REGISTER_WRITE, R19 -/
  | registerWrite (port : RegPort) (off : Nat) (value : BitVec 64)
  /-- HASH_INIT, R19 -/
  | hashInit (ctx : BitVec 1)
  /-- HASH_ABSORB, R19 -/
  | hashAbsorb (ctx : BitVec 1)
  /-- HASH_SQUEEZE, R19 -/
  | hashSqueeze (ctx : BitVec 1)
  /-- MEASUREMENT_EXTEND, R21 -/
  | measurementExtend (index : BitVec 4)
  /-- HARTGO, R19 -/
  | hartgo (addr : BitVec 64)
  /-- RNDW_READ, R19 -/
  | rndwRead (rd : BitVec 5) (n : Nat)
  /-- MBXRLEN_READ, R20 -/
  | mbxrlenRead (rd : BitVec 5)
  /-- MAILBOX_REQUEST_PENDING, R22 -/
  | mailboxRequestPending (req : List Byte)
  /-- MBXSLEN_SEND, R19 -/
  | mbxslenSend (n : BitVec 13)
  /-- MONITOR_UPDATE, R51 -/
  | monitorUpdate (readings : List DieReading)
  /-- VOLTAGE_FAULT_TIMEOUT, R52 -/
  | voltageFaultTimeout (die : Nat)
  /-- HOST_ACCESS_REFUSED, R53 -/
  | hostAccessRefused (acc : HostAccess)
  /-- HOST_WRITE_WEIGHT_REGION, R271 -/
  | hostWriteWeightRegion (acc : HostAccess)
  /-- REVOKE_SWEEP_COMPLETE, R148 -/
  | revokeSweepComplete (idx : Nat)
  /-- VECTOR_WORD_COMPLETION, R201 -/
  | vectorWordCompletion (idx : Nat)
  /-- TFETCH_LANDED, R287 -/
  | tfetchLanded (idx : Nat)
  /-- ACCRD_WRITES_PERFORMED, R287 -/
  | accrdWritesPerformed (idx : Nat)
  /-- TRANSFER_COPY, R295 -/
  | transferCopy (ch : BitVec 4)
  /-- DEFERRED_MEMERR, R179 -/
  | deferredMemerr (e : LateError)
  /-- AGEING, R164 -/
  | ageing (record : Nat)
  /-- BANK_MODE_SWITCH, R192 -/
  | bankModeSwitch (bank : BitVec 4) (mode : BitVec 2)
  /-- BANK_SWITCH_COMPLETE, R192 -/
  | bankSwitchComplete (bank : BitVec 4)
  /-- TASK_ADMISSION, R261 -/
  | taskAdmission (idx : Nat)
  /-- PATIENCE_EXPIRY, R262 -/
  | patienceExpiry (idx : Nat)
  /-- WEIGHT_REMOVAL, R273 -/
  | weightRemoval (ident : BitVec 64)
  /-- IMAGE_REMOVAL, R402 -/
  | imageRemoval (handle : Nat)
  /-- IFRLEN_READ, R406 -/
  | ifrlenRead (rd : BitVec 5)
  /-- IFSLEN_SEND, R406 -/
  | ifslenSend (n : BitVec 13)
  /-- FROZEN_REGISTER_WRITE, R408 -/
  | frozenRegisterWrite (off : Nat) (value : BitVec 64)
  /-- CHANNEL_WORD_CHANGE, R368 -/
  | channelWordChange (ch : Nat)
  /-- FRESUME, R420 -/
  | fresume (token : BitVec 56)
  /-- S2RESUME_RETRY, R421 -/
  | s2resumeRetry (token : BitVec 56)
  /-- S2RESUME_REFLECT, R421 -/
  | s2resumeReflect (token : BitVec 56)
  /-- S2RESUME_END, R421 -/
  | s2resumeEnd (token : BitVec 56)
  /-- ACCVAL_READ, R421 -/
  | accvalRead (rd : BitVec 5)
  /-- FAULT_RING_CONFIG_WRITE, R418 -/
  | faultRingConfigWrite (reg : FrReg) (value : BitVec 64)
  /-- FORWARDED_ACCESS, R422 -/
  | forwardedAccess (req : FwdRequest)
  /-- FORWARDED_ACCESS_TIMEOUT, R422 -/
  | forwardedAccessTimeout (idx : Nat) (nack : Bool)
  /-- FABRIC_PACKET_REFUSED, R452 -/
  | fabricPacketRefused (pkt : FabricPacket)
  /-- DOORBELL_WRITE, R438 -/
  | doorbellWrite (value : BitVec 32)
  /-- LAUNCH_COMPLETION, R442 -/
  | launchCompletion (chain : Nat)
  /-- COLLECTIVE_RESULT, R444 -/
  | collectiveResult (ident : BitVec 64) (remote : List RemoteInput)
  /-- NOT_AN_INSTRUCTION, R74 -/
  | notAnInstruction (engine : EngineId)
  /-- UNCORRECTABLE_SOFT_ERROR, R198 -/
  | uncorrectableSoftError (unit : PoisonUnit)
  /-- MANAGEMENT_HART_EXCEPTION, R455 -/
  | managementHartException (cause : HartCause) (tval : BitVec 64)
  /-- STRATUS_FETCH_COMPLETE, R334 -/
  | stratusFetchComplete (idx : Nat)
  /-- OSTORE_WRITES_PERFORMED, R339 -/
  | ostoreWritesPerformed (idx : Nat)
  /-- FORWARDED_REPLY, R422 -/
  | forwardedReply (idx : Nat) (data : List Byte) (tags : List Bool)
  /-- WEIGHT_REGION_REGISTRATION, R270 -/
  | weightRegionRegistration (base : Nat) (len : Nat) (layout : List Byte)
  /-- IMAGE_ADMISSION, R155 -/
  | imageAdmission (base : Nat) (slot : Nat)
  /-- POWER_ON_RESET, R30 -/
  | powerOnReset
  /-- MODULE_RESET, R30 -/
  | moduleReset
  /-- STAGE_0, R31 -/
  | stage0
  /-- READYCHG_CLEAR, R32 -/
  | readychgClear
  /-- FALCON_VERIFY, R19 -/
  | falconVerify
  /-- FALCON_SIGN, R19 -/
  | falconSign
  /-- MSNAP, R21 -/
  | msnap
  /-- GET_VERSION, R28 -/
  | getVersion
  /-- GET_CAPABILITIES, R27 -/
  | getCapabilities
  /-- NEGOTIATE_ALGORITHMS, R40 -/
  | negotiateAlgorithms
  /-- GET_CERTIFICATE, R27 -/
  | getCertificate
  /-- CHALLENGE, R29 -/
  | challenge
  /-- GET_MEASUREMENTS, R41 -/
  | getMeasurements
  /-- UNSUPPORTED_REQUEST, R27 -/
  | unsupportedRequest
  /-- UPDCTL_STAGE, R45 -/
  | updctlStage
  /-- STANDBY_FIRST_STAGE, R45 -/
  | standbyFirstStage
  /-- UPDCTL_HANDOFF, R45 -/
  | updctlHandoff
  /-- STATE_TABLE_IMPORT, R44 -/
  | stateTableImport
  /-- HANDOFF_TIMEOUT, R45 -/
  | handoffTimeout
  /-- UPDCTL_ABORT, R45 -/
  | updctlAbort
  /-- DBGCTL_NONCE, R49 -/
  | dbgctlNonce
  /-- DBGCTL_OPEN, R49 -/
  | dbgctlOpen
  /-- DBGCTL_CLOSE, R49 -/
  | dbgctlClose
  /-- DEBUG_NONCE_EXPIRY, R48 -/
  | debugNonceExpiry
  /-- NOP, R119 -/
  | nop
  /-- ERET, R116 -/
  | eret
  /-- WFE, R118 -/
  | wfe
  /-- SEV, R118 -/
  | sev
  /-- QFENCE, R102 -/
  | qfence
  /-- MLEASE, R101 -/
  | mlease
  /-- MRELEASE, R101 -/
  | mrelease
  /-- SUSPEND, R105 -/
  | suspend
  /-- YIELD, R105 -/
  | yield
  /-- RETIRE, R105 -/
  | retire
  /-- LOAD_QUEUE_FILL, R133 -/
  | loadQueueFill
  /-- ARRAY_GRANT, R256 -/
  | arrayGrant
  /-- LEASE_GRANT_LIMIT, R101 -/
  | leaseGrantLimit
  /-- XEND, R291 -/
  | xend
  /-- MAXUPD, R354 -/
  | maxupd
  /-- EXPQ, R354 -/
  | expq
  /-- RESCALE, R337 -/
  | rescale
  /-- WAIT, R339 -/
  | wait
  /-- DONE, R339 -/
  | done
  /-- STRATUS_BLOCK_ACCEPT, R331 -/
  | stratusBlockAccept
  /-- PICKUP, R163 -/
  | pickup
  /-- FRAME_EDGE, R375 -/
  | frameEdge
  /-- FORCED_SUSPEND, R167 -/
  | forcedSuspend
  /-- ENGINE_TRAP_DELIVERY, R174 -/
  | engineTrapDelivery
  /-- RUN_PASS, R265 -/
  | runPass
  /-- EPILOGUE_RUN, R266 -/
  | epilogueRun
  /-- WEIGHT_SET_ADVERTISE, R272 -/
  | weightSetAdvertise
  /-- REGION_EXECUTION_COMPLETE, R395 -/
  | regionExecutionComplete
  /-- SURROGATE_ANSWER, R394 -/
  | surrogateAnswer
  /-- TRAIN_STEP, R398 -/
  | trainStep
  /-- VFCMD_LOCK, R408 -/
  | vfcmdLock
  /-- VFCMD_START, R408 -/
  | vfcmdStart
  /-- VFCMD_STOP, R408 -/
  | vfcmdStop
  /-- LOCK_INTERFACE, R409 -/
  | lockInterface
  /-- GET_INTERFACE_REPORT, R410 -/
  | getInterfaceReport
  /-- START_INTERFACE, R409 -/
  | startInterface
  /-- STOP_INTERFACE, R409 -/
  | stopInterface
  /-- GET_INTERFACE_STATE, R409 -/
  | getInterfaceState
  /-- UNKNOWN_INTERFACE_REQUEST, R409 -/
  | unknownInterfaceRequest
  /-- COMMIT, R433 -/
  | commit
  /-- PREEMPT, R434 -/
  | preempt
  /-- RELEASE, R434 -/
  | release
  /-- PARTITION_RESET, R434 -/
  | partitionReset
  /-- PCMD_RECLAIM, R432 -/
  | pcmdReclaim
  /-- QEXPORT, R447 -/
  | qexport
  /-- QIMPORT, R447 -/
  | qimport
  /-- INV2, R425 -/
  | inv2
  /-- INV2W, R424 -/
  | inv2w
  /-- INV1, R425 -/
  | inv1
  /-- INV1C, R424 -/
  | inv1c
  /-- INVALIDATION_COMPLETE, R425 -/
  | invalidationComplete
  /-- MIGRATE, R426 -/
  | migrate
  /-- MIGRATE_COPY, R426 -/
  | migrateCopy
  /-- FAULT_RING_ENTRY_WRITE, R418 -/
  | faultRingEntryWrite
  /-- QCTL_MAP, R438 -/
  | qctlMap
  /-- QCTL_STOP, R438 -/
  | qctlStop
  /-- QCTL_UNMAP, R438 -/
  | qctlUnmap
  /-- LAUNCH, R441 -/
  | launch
  /-- SIGNAL, R441 -/
  | signal
  /-- WAITSIG, R441 -/
  | waitsig
  /-- WAITSIG_REREAD, R441 -/
  | waitsigReread
  /-- COLLECTIVE, R444 -/
  | collective
  /-- BBCOPY, R446 -/
  | bbcopy
  /-- BBARM, R446 -/
  | bbarm
  /-- RECLAIM, R441 -/
  | reclaim
  /-- VF_RESET, R445 -/
  | vfReset
  /-- MRET, R455 -/
  | mret
  /-- MACHINE_EXTERNAL_INTERRUPT, R454 -/
  | machineExternalInterrupt
  deriving DecidableEq, Repr

end Sys2Proof
end

