-- ==== Sys2Proof/WellFormed.lean ====
section
/-! DEFINITION. Which terms of the instruction type are instructions: the field values the opcode maps allow (R17,
R11, R63, R68 to R71), and for an event the numbers that name a unit the module has (R1, R4, R429). -/

namespace Sys2Proof

/-- A stage selector is 0x0 or 0x8 to 0xF (R17). -/
def selOk (s : BitVec 4) : Bool := s.toNat = 0 || 8 ≤ s.toNat

/-- v56 to v59 are no destination (R11). -/
def dstOk (d : BitVec 6) : Bool := d.toNat ≤ 55 || 60 ≤ d.toNat

/-- v60 to v63 are no source (R11). -/
def srcOk (a : BitVec 6) : Bool := a.toNat ≤ 59

/-- Two sources: neither a store port, and not one load port twice (R11). -/
def srcPairOk (a b : BitVec 6) : Bool := srcOk a && srcOk b && (a.toNat ≤ 55 || a != b)

/-- A register port names a virtual function and queue that can exist. -/
def regPortOk : RegPort → Bool
  | .window _ => true
  | .queuePage vf q => vf < 256 && q < 64
  | .transPage vf => vf < 256
  | .errPage vf => vf < 256
  | .debugPage => true
  | .bar0 vf => vf < 256
  | .bar2 vf => vf < 256

/-- The well-formed instructions. -/
def Instr.wf : Instr → Bool
  | .add _ _ _ => true
  | .sub _ _ _ => true
  | .mul _ _ _ => true
  | .mulh _ _ _ => true
  | .mulhu _ _ _ => true
  | .div _ _ _ => true
  | .divu _ _ _ => true
  | .rem _ _ _ => true
  | .remu _ _ _ => true
  | .and _ _ _ => true
  | .or _ _ _ => true
  | .xor _ _ _ => true
  | .shl _ _ _ => true
  | .shr _ _ _ => true
  | .sar _ _ _ => true
  | .min _ _ _ => true
  | .max _ _ _ => true
  | .minu _ _ _ => true
  | .maxu _ _ _ => true
  | .sel _ _ _ => true
  | .clz _ _ => true
  | .popc _ _ => true
  | .ffs _ _ => true
  | .cmpCc _ _ _ _ => true
  | .acqst _ _ => true
  | .relst _ _ => true
  | .drain _ => true
  | .pmtgive _ => true
  | .pmtinit p _ => p.toNat ≤ 8
  | .addi _ _ _ => true
  | .andi _ _ _ => true
  | .ori _ _ _ => true
  | .xori _ _ _ => true
  | .shli _ _ _ => true
  | .shri _ _ _ => true
  | .sari _ _ _ => true
  | .movi _ _ => true
  | .movhi _ _ _ => true
  | .mbsend _ _ => true
  | .mbrecv _ _ => true
  | .bCc _ _ _ _ => true
  | .j _ => true
  | .jal _ => true
  | .loopst _ => true
  | .jr _ => true
  | .stwin _ n _ => n.toNat ≤ 8
  | .vrun s _ => selOk s
  | .mrun s _ => selOk s
  | .xrun s _ => selOk s
  | .attngo s _ => selOk s
  | .cqpop _ => true
  | .sweepq _ => true
  | .spawn _ => true
  | .submit _ => true
  | .waitseq _ _ => true
  | .gbar _ => true
  | .grank _ _ => true
  | .gsize _ _ => true
  | .apxbegin _ _ _ => true
  | .apxend _ _ _ => true
  | .apxctlStart _ => true
  | .apxctlStop _ => true
  | .apxctlInval _ => true
  | .apxctlRestart _ => true
  | .apxq _ _ => true
  | .trap _ => true
  | .sregr _ _ => true
  | .sregw _ _ => true
  | .fence s => s.toNat ≤ 5
  | .cderive _ _ _ => true
  | .candperm _ _ _ => true
  | .cincr _ _ _ => true
  | .csetcur _ _ _ => true
  | .cseal _ _ _ => true
  | .cunseal _ _ _ => true
  | .cgetbase _ _ => true
  | .cgetlen _ _ => true
  | .cgetperm _ _ => true
  | .cgettag _ _ => true
  | .cmov _ _ => true
  | .ctest _ _ _ => true
  | .lds _ _ z f _ => z.toNat ≤ 6 && f.toNat ≤ 2
  | .sts _ _ _ f _ => f.toNat ≤ 2
  | .ldc _ _ f _ => f.toNat ≤ 2
  | .stc _ _ f _ => f.toNat ≤ 2
  | .ldq _ _ _ f => f.toNat ≤ 2
  | .stq _ _ _ f => f.toNat ≤ 2
  | .gather _ _ _ _ => true
  | .scatter _ _ _ _ => true
  | .amoadd _ _ _ _ s => s.toNat ≤ 5
  | .amoswap _ _ _ _ s => s.toNat ≤ 5
  | .amocas _ _ _ _ s => s.toNat ≤ 5
  | .amomin _ _ _ _ s => s.toNat ≤ 5
  | .amomax _ _ _ _ s => s.toNat ≤ 5
  | .amoand _ _ _ _ s => s.toNat ≤ 5
  | .amoor _ _ _ _ s => s.toNat ≤ 5
  | .bind _ _ => true
  | .unbind _ _ => true
  | .publish _ _ => true
  | .syncinit _ => true
  | .acqSh _ => true
  | .acqEx _ => true
  | .rel _ => true
  | .revoke _ => true
  | .vend s => selOk s
  | .vshape a s _ => selOk s && srcOk a
  | .vadd d a b s _ _ _ => selOk s && dstOk d && srcPairOk a b
  | .vsub d a b s _ _ _ => selOk s && dstOk d && srcPairOk a b
  | .vmul d a b s _ _ v => selOk s && dstOk d && srcPairOk a b && v.toNat ≤ 2
  | .vfma d a b s _ _ _ => selOk s && dstOk d && srcPairOk a b && d.toNat ≤ 55
  | .vmin d a b s _ _ _ => selOk s && dstOk d && srcPairOk a b
  | .vmax d a b s _ _ _ => selOk s && dstOk d && srcPairOk a b
  | .vabs d a s _ _ => selOk s && dstOk d && srcOk a
  | .vneg d a s _ _ => selOk s && dstOk d && srcOk a
  | .vcvt d a _ s _ _ => selOk s && dstOk d && srcOk a
  | .vquant d a m s _ => selOk s && dstOk d && srcOk a && 2 ≤ m.toNat && m.toNat ≤ 8
  | .vsacc d a b s _ _ => selOk s && dstOk d && srcPairOk a b
  | .vexp d a s _ _ => selOk s && dstOk d && srcOk a
  | .vrcp d a s _ => selOk s && dstOk d && srcOk a
  | .vrsq d a s _ => selOk s && dstOk d && srcOk a
  | .vred d a s _ _ => selOk s && dstOk d && srcOk a
  | .vcmp d a b s _ _ _ => selOk s && dstOk d && srcPairOk a b
  | .vsel d a b s _ _ => selOk s && dstOk d && srcPairOk a b && d.toNat ≤ 55
  | .vpart d a s _ _ => selOk s && dstOk d && srcOk a
  | .vperm d a b s _ _ => selOk s && dstOk d && srcPairOk a b
  | .vshuf d a b s _ _ _ => selOk s && dstOk d && srcPairOk a b
  | .vbcast d a b s _ _ => selOk s && dstOk d && srcPairOk a b
  | .vsplat d a s _ => selOk s && dstOk d && srcOk a
  | .viota d s => selOk s && dstOk d
  | .vand d a b s _ _ => selOk s && dstOk d && srcPairOk a b
  | .vor d a b s _ _ => selOk s && dstOk d && srcPairOk a b
  | .vxor d a b s _ _ => selOk s && dstOk d && srcPairOk a b
  | .vnot d a s _ => selOk s && dstOk d && srcOk a
  | .vshl d a b s _ _ => selOk s && dstOk d && srcPairOk a b
  | .vshr d a b s _ _ => selOk s && dstOk d && srcPairOk a b
  | .vsar d a b s _ _ => selOk s && dstOk d && srcPairOk a b
  | .vpopc d a s _ _ => selOk s && dstOk d && srcOk a
  | .vpushix a s _ _ => selOk s && srcOk a
  | .vpushc a s _ => selOk s && srcOk a
  | .vtopb8 d a s _ => selOk s && dstOk d && srcOk a
  | .vshadd d a b s _ _ => selOk s && dstOk d && srcPairOk a b && d.toNat ≤ 55
  | .vmov d a s _ => selOk s && dstOk d && srcOk a
  | .mend s => selOk s
  | .mshape s _ _ _ => selOk s
  | .tfetch s _ _ _ => selOk s
  | .trel s _ => selOk s
  | .had s _ z => selOk s && z.toNat ≤ 2
  | .acczero s _ => selOk s
  | .accrd s _ _ _ => selOk s
  | .accwr s _ _ _ => selOk s
  | .mwait s => selOk s
  | .mmulLb2 s _ _ _ _ => selOk s
  | .mmulLb3 s _ _ _ _ => selOk s
  | .mmulLb4 s _ _ _ _ => selOk s
  | .mmulLb5 s _ _ _ _ => selOk s
  | .mmulLb6 s _ _ _ _ => selOk s
  | .mmulLb7 s _ _ _ _ => selOk s
  | .mmulLb8 s _ _ _ _ => selOk s
  | .mmulI8 s _ _ _ _ => selOk s
  | .mmulE4m3 s _ _ _ _ => selOk s
  | .mmulE5m2 s _ _ _ _ => selOk s
  | .mmulFp16 s _ _ _ _ => selOk s
  | .mmulBf16 s _ _ _ _ => selOk s
  | .mmulFp32 s _ _ _ _ => selOk s
  | .mmulFp64 s _ _ _ _ => selOk s
  | .xloop l => l.toNat ≤ 5
  | .xbound l _ => l.toNat ≤ 5
  | .xsstr l _ => l.toNat ≤ 5
  | .xdstr l _ => l.toNat ≤ 5
  | .xsrc _ _ => true
  | .xdst _ _ => true
  | .xemit _ _ => true
  | .xprobe _ => true
  | .qload c _ => c.toNat ≤ 6
  | .btld c _ => c.toNat ≤ 6
  | .btgatherK c _ => c.toNat ≤ 6
  | .btgatherV c _ => c.toNat ≤ 6
  | .score _ => true
  | .pvacc _ => true
  | .merge c _ => c.toNat ≤ 6
  | .mask m => m.toNat ≤ 2
  | .loop _ _ => true
  | .brcnt _ => true
  | .lcset _ _ => true
  | .ostore c _ => c.toNat ≤ 6
  | .jmp _ => true
  | .functionReady bit => bit < 1024
  | .readinessLimitMissed bit => bit < 1024
  | .functionFailedInService bit => bit < 1024
  | .podPortReturnsToService port => port < 36
  | .configRecordApply _ _ => true
  | .registerWrite port _ _ => regPortOk port
  | .hashInit _ => true
  | .hashAbsorb _ => true
  | .hashSqueeze _ => true
  | .measurementExtend _ => true
  | .hartgo _ => true
  | .rndwRead _ _ => true
  | .mbxrlenRead _ => true
  | .mailboxRequestPending _ => true
  | .mbxslenSend _ => true
  | .monitorUpdate readings => readings.all (fun r => r.die < 7)
  | .voltageFaultTimeout die => die < 7
  | .hostAccessRefused acc => acc.vf < 256 && acc.size ≤ 8
  | .hostWriteWeightRegion acc => acc.vf < 256 && acc.size ≤ 8
  | .revokeSweepComplete _ => true
  | .vectorWordCompletion _ => true
  | .tfetchLanded _ => true
  | .accrdWritesPerformed _ => true
  | .transferCopy _ => true
  | .deferredMemerr _ => true
  | .ageing _ => true
  | .bankModeSwitch _ _ => true
  | .bankSwitchComplete _ => true
  | .taskAdmission _ => true
  | .patienceExpiry _ => true
  | .weightRemoval _ => true
  | .imageRemoval _ => true
  | .ifrlenRead _ => true
  | .ifslenSend _ => true
  | .frozenRegisterWrite _ _ => true
  | .channelWordChange ch => ch < 16
  | .fresume _ => true
  | .s2resumeRetry _ => true
  | .s2resumeReflect _ => true
  | .s2resumeEnd _ => true
  | .accvalRead _ => true
  | .faultRingConfigWrite _ _ => true
  | .forwardedAccess req => req.port < 36 && req.part < 16
  | .forwardedAccessTimeout _ _ => true
  | .fabricPacketRefused pkt => pkt.port < 36 && pkt.part < 16
  | .doorbellWrite _ => true
  | .launchCompletion _ => true
  | .collectiveResult _ _ => true
  | .notAnInstruction _ => true
  | .uncorrectableSoftError _ => true
  | .managementHartException _ _ => true
  | .stratusFetchComplete _ => true
  | .ostoreWritesPerformed _ => true
  | .forwardedReply _ _ _ => true
  | .weightRegionRegistration _ _ layout => layout.length = 16
  | .imageAdmission _ _ => true
  | .powerOnReset => true
  | .moduleReset => true
  | .stage0 => true
  | .readychgClear => true
  | .falconVerify => true
  | .falconSign => true
  | .msnap => true
  | .getVersion => true
  | .getCapabilities => true
  | .negotiateAlgorithms => true
  | .getCertificate => true
  | .challenge => true
  | .getMeasurements => true
  | .unsupportedRequest => true
  | .updctlStage => true
  | .standbyFirstStage => true
  | .updctlHandoff => true
  | .stateTableImport => true
  | .handoffTimeout => true
  | .updctlAbort => true
  | .dbgctlNonce => true
  | .dbgctlOpen => true
  | .dbgctlClose => true
  | .debugNonceExpiry => true
  | .nop => true
  | .eret => true
  | .wfe => true
  | .sev => true
  | .qfence => true
  | .mlease => true
  | .mrelease => true
  | .suspend => true
  | .yield => true
  | .retire => true
  | .loadQueueFill => true
  | .arrayGrant => true
  | .leaseGrantLimit => true
  | .xend => true
  | .maxupd => true
  | .expq => true
  | .rescale => true
  | .wait => true
  | .done => true
  | .stratusBlockAccept => true
  | .pickup => true
  | .frameEdge => true
  | .forcedSuspend => true
  | .engineTrapDelivery => true
  | .runPass => true
  | .epilogueRun => true
  | .weightSetAdvertise => true
  | .regionExecutionComplete => true
  | .surrogateAnswer => true
  | .trainStep => true
  | .vfcmdLock => true
  | .vfcmdStart => true
  | .vfcmdStop => true
  | .lockInterface => true
  | .getInterfaceReport => true
  | .startInterface => true
  | .stopInterface => true
  | .getInterfaceState => true
  | .unknownInterfaceRequest => true
  | .commit => true
  | .preempt => true
  | .release => true
  | .partitionReset => true
  | .pcmdReclaim => true
  | .qexport => true
  | .qimport => true
  | .inv2 => true
  | .inv2w => true
  | .inv1 => true
  | .inv1c => true
  | .invalidationComplete => true
  | .migrate => true
  | .migrateCopy => true
  | .faultRingEntryWrite => true
  | .qctlMap => true
  | .qctlStop => true
  | .qctlUnmap => true
  | .launch => true
  | .signal => true
  | .waitsig => true
  | .waitsigReread => true
  | .collective => true
  | .bbcopy => true
  | .bbarm => true
  | .reclaim => true
  | .vfReset => true
  | .mret => true
  | .machineExternalInterrupt => true

end Sys2Proof
end

