-- ==== Sys2Proof/Decode.lean ====
section
/-! DEFINITION. Reading a 32-bit word as an instruction of one engine (R18, R63, R68 to R71), and writing it. Total: a
word no map gives, or whose field holds a value a map refuses, is no instruction. The encodings are those of the
opcode maps; words of different engines share values, and each engine reads its own section only (R58). -/

namespace Sys2Proof

/-- Bits [lo + n − 1 : lo] of a word. -/
def fld (w lo n : Nat) : Nat := w / 2 ^ lo % 2 ^ n

/-- Opcode 0x01: ADD, SUB, MUL, MULH, MULHU, DIV, DIVU, REM, REMU, AND, OR, XOR, SHL, SHR, SAR. -/
def decSeq01 (w : Nat) : Option Instr :=
  if fld w 0 11 = 0 then some (.add (BitVec.ofNat 5 (fld w 21 5)) (BitVec.ofNat 5 (fld w 16 5)) (BitVec.ofNat 5 (fld w 11 5)))
  else if fld w 0 11 = 1 then some (.sub (BitVec.ofNat 5 (fld w 21 5)) (BitVec.ofNat 5 (fld w 16 5)) (BitVec.ofNat 5 (fld w 11 5)))
  else if fld w 0 11 = 2 then some (.mul (BitVec.ofNat 5 (fld w 21 5)) (BitVec.ofNat 5 (fld w 16 5)) (BitVec.ofNat 5 (fld w 11 5)))
  else if fld w 0 11 = 3 then some (.mulh (BitVec.ofNat 5 (fld w 21 5)) (BitVec.ofNat 5 (fld w 16 5)) (BitVec.ofNat 5 (fld w 11 5)))
  else if fld w 0 11 = 4 then some (.mulhu (BitVec.ofNat 5 (fld w 21 5)) (BitVec.ofNat 5 (fld w 16 5)) (BitVec.ofNat 5 (fld w 11 5)))
  else if fld w 0 11 = 5 then some (.div (BitVec.ofNat 5 (fld w 21 5)) (BitVec.ofNat 5 (fld w 16 5)) (BitVec.ofNat 5 (fld w 11 5)))
  else if fld w 0 11 = 6 then some (.divu (BitVec.ofNat 5 (fld w 21 5)) (BitVec.ofNat 5 (fld w 16 5)) (BitVec.ofNat 5 (fld w 11 5)))
  else if fld w 0 11 = 7 then some (.rem (BitVec.ofNat 5 (fld w 21 5)) (BitVec.ofNat 5 (fld w 16 5)) (BitVec.ofNat 5 (fld w 11 5)))
  else if fld w 0 11 = 8 then some (.remu (BitVec.ofNat 5 (fld w 21 5)) (BitVec.ofNat 5 (fld w 16 5)) (BitVec.ofNat 5 (fld w 11 5)))
  else if fld w 0 11 = 9 then some (.and (BitVec.ofNat 5 (fld w 21 5)) (BitVec.ofNat 5 (fld w 16 5)) (BitVec.ofNat 5 (fld w 11 5)))
  else if fld w 0 11 = 10 then some (.or (BitVec.ofNat 5 (fld w 21 5)) (BitVec.ofNat 5 (fld w 16 5)) (BitVec.ofNat 5 (fld w 11 5)))
  else if fld w 0 11 = 11 then some (.xor (BitVec.ofNat 5 (fld w 21 5)) (BitVec.ofNat 5 (fld w 16 5)) (BitVec.ofNat 5 (fld w 11 5)))
  else if fld w 0 11 = 12 then some (.shl (BitVec.ofNat 5 (fld w 21 5)) (BitVec.ofNat 5 (fld w 16 5)) (BitVec.ofNat 5 (fld w 11 5)))
  else if fld w 0 11 = 13 then some (.shr (BitVec.ofNat 5 (fld w 21 5)) (BitVec.ofNat 5 (fld w 16 5)) (BitVec.ofNat 5 (fld w 11 5)))
  else if fld w 0 11 = 14 then some (.sar (BitVec.ofNat 5 (fld w 21 5)) (BitVec.ofNat 5 (fld w 16 5)) (BitVec.ofNat 5 (fld w 11 5)))
  else none

/-- Opcode 0x02: MIN, MAX, MINU, MAXU, SEL. -/
def decSeq02 (w : Nat) : Option Instr :=
  if fld w 0 11 = 0 then some (.min (BitVec.ofNat 5 (fld w 21 5)) (BitVec.ofNat 5 (fld w 16 5)) (BitVec.ofNat 5 (fld w 11 5)))
  else if fld w 0 11 = 1 then some (.max (BitVec.ofNat 5 (fld w 21 5)) (BitVec.ofNat 5 (fld w 16 5)) (BitVec.ofNat 5 (fld w 11 5)))
  else if fld w 0 11 = 2 then some (.minu (BitVec.ofNat 5 (fld w 21 5)) (BitVec.ofNat 5 (fld w 16 5)) (BitVec.ofNat 5 (fld w 11 5)))
  else if fld w 0 11 = 3 then some (.maxu (BitVec.ofNat 5 (fld w 21 5)) (BitVec.ofNat 5 (fld w 16 5)) (BitVec.ofNat 5 (fld w 11 5)))
  else if fld w 0 11 = 4 then some (.sel (BitVec.ofNat 5 (fld w 21 5)) (BitVec.ofNat 5 (fld w 16 5)) (BitVec.ofNat 5 (fld w 11 5)))
  else none

/-- Opcode 0x03: CLZ, POPC, FFS. -/
def decSeq03 (w : Nat) : Option Instr :=
  if fld w 0 16 = 0 then some (.clz (BitVec.ofNat 5 (fld w 21 5)) (BitVec.ofNat 5 (fld w 16 5)))
  else if fld w 0 16 = 1 then some (.popc (BitVec.ofNat 5 (fld w 21 5)) (BitVec.ofNat 5 (fld w 16 5)))
  else if fld w 0 16 = 2 then some (.ffs (BitVec.ofNat 5 (fld w 21 5)) (BitVec.ofNat 5 (fld w 16 5)))
  else none

/-- Opcode 0x04: CMP_CC. -/
def decSeq04 (w : Nat) : Option Instr :=
  if fld w 3 8 = 0 then some (.cmpCc (BitVec.ofNat 5 (fld w 21 5)) (BitVec.ofNat 5 (fld w 16 5)) (BitVec.ofNat 5 (fld w 11 5)) (BitVec.ofNat 3 (fld w 0 3)))
  else none

/-- Opcode 0x05: ACQST, RELST. -/
def decSeq05 (w : Nat) : Option Instr :=
  if fld w 7 19 = 0 then some (.acqst (BitVec.ofNat 3 (fld w 4 3)) (BitVec.ofNat 4 (fld w 0 4)))
  else if fld w 7 19 = 2 then some (.relst (BitVec.ofNat 3 (fld w 4 3)) (BitVec.ofNat 4 (fld w 0 4)))
  else none

/-- Opcode 0x06: DRAIN, PMTGIVE. -/
def decSeq06 (w : Nat) : Option Instr :=
  if fld w 4 22 = 0 then some (.drain (BitVec.ofNat 4 (fld w 0 4)))
  else if fld w 4 22 = 1 then some (.pmtgive (BitVec.ofNat 4 (fld w 0 4)))
  else none

/-- Opcode 0x07: PMTINIT. -/
def decSeq07 (w : Nat) : Option Instr :=
  if fld w 4 4 = 0 ∧ fld w 12 14 = 0 then some (.pmtinit (BitVec.ofNat 4 (fld w 8 4)) (BitVec.ofNat 4 (fld w 0 4)))
  else none

/-- Opcode 0x08: ADDI. -/
def decSeq08 (w : Nat) : Option Instr :=
  some (.addi (BitVec.ofNat 5 (fld w 21 5)) (BitVec.ofNat 5 (fld w 16 5)) (BitVec.ofNat 16 (fld w 0 16)))

/-- Opcode 0x09: ANDI. -/
def decSeq09 (w : Nat) : Option Instr :=
  some (.andi (BitVec.ofNat 5 (fld w 21 5)) (BitVec.ofNat 5 (fld w 16 5)) (BitVec.ofNat 16 (fld w 0 16)))

/-- Opcode 0x0A: ORI. -/
def decSeq0A (w : Nat) : Option Instr :=
  some (.ori (BitVec.ofNat 5 (fld w 21 5)) (BitVec.ofNat 5 (fld w 16 5)) (BitVec.ofNat 16 (fld w 0 16)))

/-- Opcode 0x0B: XORI. -/
def decSeq0B (w : Nat) : Option Instr :=
  some (.xori (BitVec.ofNat 5 (fld w 21 5)) (BitVec.ofNat 5 (fld w 16 5)) (BitVec.ofNat 16 (fld w 0 16)))

/-- Opcode 0x0C: SHLI. -/
def decSeq0C (w : Nat) : Option Instr :=
  if fld w 6 10 = 0 then some (.shli (BitVec.ofNat 5 (fld w 21 5)) (BitVec.ofNat 5 (fld w 16 5)) (BitVec.ofNat 6 (fld w 0 6)))
  else none

/-- Opcode 0x0D: SHRI. -/
def decSeq0D (w : Nat) : Option Instr :=
  if fld w 6 10 = 0 then some (.shri (BitVec.ofNat 5 (fld w 21 5)) (BitVec.ofNat 5 (fld w 16 5)) (BitVec.ofNat 6 (fld w 0 6)))
  else none

/-- Opcode 0x0E: SARI. -/
def decSeq0E (w : Nat) : Option Instr :=
  if fld w 6 10 = 0 then some (.sari (BitVec.ofNat 5 (fld w 21 5)) (BitVec.ofNat 5 (fld w 16 5)) (BitVec.ofNat 6 (fld w 0 6)))
  else none

/-- Opcode 0x0F: MOVI. -/
def decSeq0F (w : Nat) : Option Instr :=
  if fld w 16 5 = 0 then some (.movi (BitVec.ofNat 5 (fld w 21 5)) (BitVec.ofNat 16 (fld w 0 16)))
  else none

/-- Opcode 0x10: MOVHI. -/
def decSeq10 (w : Nat) : Option Instr :=
  if fld w 18 3 = 0 then some (.movhi (BitVec.ofNat 5 (fld w 21 5)) (BitVec.ofNat 2 (fld w 16 2)) (BitVec.ofNat 16 (fld w 0 16)))
  else none

/-- Opcode 0x11: MBSEND. -/
def decSeq11 (w : Nat) : Option Instr :=
  if fld w 4 12 = 0 ∧ fld w 20 6 = 0 then some (.mbsend (BitVec.ofNat 4 (fld w 16 4)) (BitVec.ofNat 4 (fld w 0 4)))
  else none

/-- Opcode 0x12: MBRECV. -/
def decSeq12 (w : Nat) : Option Instr :=
  if fld w 4 17 = 0 ∧ fld w 25 1 = 0 then some (.mbrecv (BitVec.ofNat 4 (fld w 21 4)) (BitVec.ofNat 4 (fld w 0 4)))
  else none

/-- Opcode 0x18: B_CC. -/
def decSeq18 (w : Nat) : Option Instr :=
  some (.bCc (BitVec.ofNat 5 (fld w 21 5)) (BitVec.ofNat 5 (fld w 16 5)) (BitVec.ofNat 3 (fld w 13 3)) (BitVec.ofNat 13 (fld w 0 13)))

/-- Opcode 0x19: J. -/
def decSeq19 (w : Nat) : Option Instr :=
  some (.j (BitVec.ofNat 26 (fld w 0 26)))

/-- Opcode 0x1A: JAL. -/
def decSeq1A (w : Nat) : Option Instr :=
  some (.jal (BitVec.ofNat 26 (fld w 0 26)))

/-- Opcode 0x1B: LOOPST. -/
def decSeq1B (w : Nat) : Option Instr :=
  some (.loopst (BitVec.ofNat 26 (fld w 0 26)))

/-- Opcode 0x1C: JR. -/
def decSeq1C (w : Nat) : Option Instr :=
  if fld w 0 16 = 0 ∧ fld w 21 5 = 0 then some (.jr (BitVec.ofNat 5 (fld w 16 5)))
  else none

/-- Opcode 0x1D: STWIN. -/
def decSeq1D (w : Nat) : Option Instr :=
  if fld w 12 4 = 0 ∧ fld w 21 5 = 0 then some (.stwin (BitVec.ofNat 5 (fld w 16 5)) (BitVec.ofNat 4 (fld w 8 4)) (BitVec.ofNat 8 (fld w 0 8)))
  else none

/-- Opcode 0x20: VRUN, MRUN, XRUN, ATTNGO. -/
def decSeq20 (w : Nat) : Option Instr :=
  if fld w 24 2 = 0 then some (.vrun (BitVec.ofNat 4 (fld w 20 4)) (BitVec.ofNat 20 (fld w 0 20)))
  else if fld w 24 2 = 1 then some (.mrun (BitVec.ofNat 4 (fld w 20 4)) (BitVec.ofNat 20 (fld w 0 20)))
  else if fld w 24 2 = 2 then some (.xrun (BitVec.ofNat 4 (fld w 20 4)) (BitVec.ofNat 20 (fld w 0 20)))
  else if fld w 24 2 = 3 then some (.attngo (BitVec.ofNat 4 (fld w 20 4)) (BitVec.ofNat 20 (fld w 0 20)))
  else none

/-- Opcode 0x21: CQPOP, SWEEPQ. -/
def decSeq21 (w : Nat) : Option Instr :=
  if fld w 0 21 = 0 then some (.cqpop (BitVec.ofNat 5 (fld w 21 5)))
  else if fld w 0 21 = 1 then some (.sweepq (BitVec.ofNat 5 (fld w 21 5)))
  else none

/-- Opcode 0x22: SPAWN, SUBMIT. -/
def decSeq22 (w : Nat) : Option Instr :=
  if fld w 0 16 = 0 ∧ fld w 20 6 = 0 then some (.spawn (BitVec.ofNat 4 (fld w 16 4)))
  else if fld w 0 16 = 1 ∧ fld w 20 6 = 0 then some (.submit (BitVec.ofNat 4 (fld w 16 4)))
  else none

/-- Opcode 0x23: WAITSEQ. -/
def decSeq23 (w : Nat) : Option Instr :=
  if fld w 0 11 = 0 ∧ fld w 21 5 = 0 then some (.waitseq (BitVec.ofNat 5 (fld w 16 5)) (BitVec.ofNat 5 (fld w 11 5)))
  else none

/-- Opcode 0x24: GBAR. -/
def decSeq24 (w : Nat) : Option Instr :=
  if fld w 2 24 = 0 then some (.gbar (BitVec.ofNat 2 (fld w 0 2)))
  else none

/-- Opcode 0x25: GRANK, GSIZE. -/
def decSeq25 (w : Nat) : Option Instr :=
  if fld w 2 19 = 0 then some (.grank (BitVec.ofNat 5 (fld w 21 5)) (BitVec.ofNat 2 (fld w 0 2)))
  else if fld w 2 19 = 4 then some (.gsize (BitVec.ofNat 5 (fld w 21 5)) (BitVec.ofNat 2 (fld w 0 2)))
  else none

/-- Opcode 0x26: APXBEGIN. -/
def decSeq26 (w : Nat) : Option Instr :=
  if fld w 16 10 = 0 then some (.apxbegin (BitVec.ofNat 4 (fld w 12 4)) (BitVec.ofNat 6 (fld w 6 6)) (BitVec.ofNat 6 (fld w 0 6)))
  else none

/-- Opcode 0x27: APXEND. -/
def decSeq27 (w : Nat) : Option Instr :=
  if fld w 16 10 = 0 then some (.apxend (BitVec.ofNat 4 (fld w 12 4)) (BitVec.ofNat 6 (fld w 6 6)) (BitVec.ofNat 6 (fld w 0 6)))
  else none

/-- Opcode 0x28: APXCTL_START, APXCTL_STOP, APXCTL_INVAL, APXCTL_RESTART. -/
def decSeq28 (w : Nat) : Option Instr :=
  if fld w 6 20 = 0 then some (.apxctlStart (BitVec.ofNat 6 (fld w 0 6)))
  else if fld w 6 20 = 1 then some (.apxctlStop (BitVec.ofNat 6 (fld w 0 6)))
  else if fld w 6 20 = 2 then some (.apxctlInval (BitVec.ofNat 6 (fld w 0 6)))
  else if fld w 6 20 = 3 then some (.apxctlRestart (BitVec.ofNat 6 (fld w 0 6)))
  else none

/-- Opcode 0x29: APXQ. -/
def decSeq29 (w : Nat) : Option Instr :=
  if fld w 6 15 = 0 then some (.apxq (BitVec.ofNat 5 (fld w 21 5)) (BitVec.ofNat 6 (fld w 0 6)))
  else none

/-- Opcode 0x2A: TRAP. -/
def decSeq2A (w : Nat) : Option Instr :=
  if fld w 16 10 = 0 then some (.trap (BitVec.ofNat 16 (fld w 0 16)))
  else none

/-- Opcode 0x2B: SREGR. -/
def decSeq2B (w : Nat) : Option Instr :=
  if fld w 12 9 = 0 then some (.sregr (BitVec.ofNat 5 (fld w 21 5)) (BitVec.ofNat 12 (fld w 0 12)))
  else none

/-- Opcode 0x2C: SREGW. -/
def decSeq2C (w : Nat) : Option Instr :=
  if fld w 12 4 = 0 ∧ fld w 21 5 = 0 then some (.sregw (BitVec.ofNat 5 (fld w 16 5)) (BitVec.ofNat 12 (fld w 0 12)))
  else none

/-- Opcode 0x2D: NOP, ERET, WFE, SEV, QFENCE, MLEASE, MRELEASE, SUSPEND, YIELD, RETIRE. -/
def decSeq2D (w : Nat) : Option Instr :=
  if fld w 0 26 = 0 then some (.nop)
  else if fld w 0 26 = 1 then some (.eret)
  else if fld w 0 26 = 2 then some (.wfe)
  else if fld w 0 26 = 3 then some (.sev)
  else if fld w 0 26 = 4 then some (.qfence)
  else if fld w 0 26 = 5 then some (.mlease)
  else if fld w 0 26 = 6 then some (.mrelease)
  else if fld w 0 26 = 7 then some (.suspend)
  else if fld w 0 26 = 8 then some (.yield)
  else if fld w 0 26 = 9 then some (.retire)
  else none

/-- Opcode 0x2E: FENCE. -/
def decSeq2E (w : Nat) : Option Instr :=
  if fld w 3 23 = 0 then some (.fence (BitVec.ofNat 3 (fld w 0 3)))
  else none

/-- Opcode 0x30: CDERIVE, CANDPERM, CINCR, CSETCUR. -/
def decSeq30 (w : Nat) : Option Instr :=
  if fld w 0 11 = 0 ∧ fld w 20 1 = 0 ∧ fld w 25 1 = 0 then some (.cderive (BitVec.ofNat 4 (fld w 21 4)) (BitVec.ofNat 4 (fld w 16 4)) (BitVec.ofNat 5 (fld w 11 5)))
  else if fld w 0 11 = 1 ∧ fld w 20 1 = 0 ∧ fld w 25 1 = 0 then some (.candperm (BitVec.ofNat 4 (fld w 21 4)) (BitVec.ofNat 4 (fld w 16 4)) (BitVec.ofNat 5 (fld w 11 5)))
  else if fld w 0 11 = 2 ∧ fld w 20 1 = 0 ∧ fld w 25 1 = 0 then some (.cincr (BitVec.ofNat 4 (fld w 21 4)) (BitVec.ofNat 4 (fld w 16 4)) (BitVec.ofNat 5 (fld w 11 5)))
  else if fld w 0 11 = 3 ∧ fld w 20 1 = 0 ∧ fld w 25 1 = 0 then some (.csetcur (BitVec.ofNat 4 (fld w 21 4)) (BitVec.ofNat 4 (fld w 16 4)) (BitVec.ofNat 5 (fld w 11 5)))
  else none

/-- Opcode 0x31: CSEAL, CUNSEAL. -/
def decSeq31 (w : Nat) : Option Instr :=
  if fld w 0 11 = 0 ∧ fld w 15 1 = 0 ∧ fld w 20 1 = 0 ∧ fld w 25 1 = 0 then some (.cseal (BitVec.ofNat 4 (fld w 21 4)) (BitVec.ofNat 4 (fld w 16 4)) (BitVec.ofNat 4 (fld w 11 4)))
  else if fld w 0 11 = 1 ∧ fld w 15 1 = 0 ∧ fld w 20 1 = 0 ∧ fld w 25 1 = 0 then some (.cunseal (BitVec.ofNat 4 (fld w 21 4)) (BitVec.ofNat 4 (fld w 16 4)) (BitVec.ofNat 4 (fld w 11 4)))
  else none

/-- Opcode 0x32: CGETBASE, CGETLEN, CGETPERM, CGETTAG. -/
def decSeq32 (w : Nat) : Option Instr :=
  if fld w 0 16 = 0 ∧ fld w 20 1 = 0 then some (.cgetbase (BitVec.ofNat 5 (fld w 21 5)) (BitVec.ofNat 4 (fld w 16 4)))
  else if fld w 0 16 = 1 ∧ fld w 20 1 = 0 then some (.cgetlen (BitVec.ofNat 5 (fld w 21 5)) (BitVec.ofNat 4 (fld w 16 4)))
  else if fld w 0 16 = 2 ∧ fld w 20 1 = 0 then some (.cgetperm (BitVec.ofNat 5 (fld w 21 5)) (BitVec.ofNat 4 (fld w 16 4)))
  else if fld w 0 16 = 3 ∧ fld w 20 1 = 0 then some (.cgettag (BitVec.ofNat 5 (fld w 21 5)) (BitVec.ofNat 4 (fld w 16 4)))
  else none

/-- Opcode 0x33: CMOV. -/
def decSeq33 (w : Nat) : Option Instr :=
  if fld w 0 16 = 0 ∧ fld w 20 1 = 0 ∧ fld w 25 1 = 0 then some (.cmov (BitVec.ofNat 4 (fld w 21 4)) (BitVec.ofNat 4 (fld w 16 4)))
  else none

/-- Opcode 0x34: CTEST. -/
def decSeq34 (w : Nat) : Option Instr :=
  if fld w 0 11 = 0 ∧ fld w 15 1 = 0 ∧ fld w 20 1 = 0 then some (.ctest (BitVec.ofNat 5 (fld w 21 5)) (BitVec.ofNat 4 (fld w 16 4)) (BitVec.ofNat 4 (fld w 11 4)))
  else none

/-- Opcode 0x35: LDS. -/
def decSeq35 (w : Nat) : Option Instr :=
  if fld w 20 1 = 0 then some (.lds (BitVec.ofNat 5 (fld w 21 5)) (BitVec.ofNat 4 (fld w 16 4)) (BitVec.ofNat 3 (fld w 13 3)) (BitVec.ofNat 2 (fld w 11 2)) (BitVec.ofNat 11 (fld w 0 11)))
  else none

/-- Opcode 0x36: STS. -/
def decSeq36 (w : Nat) : Option Instr :=
  if fld w 15 1 = 0 ∧ fld w 20 1 = 0 then some (.sts (BitVec.ofNat 5 (fld w 21 5)) (BitVec.ofNat 4 (fld w 16 4)) (BitVec.ofNat 2 (fld w 13 2)) (BitVec.ofNat 2 (fld w 11 2)) (BitVec.ofNat 11 (fld w 0 11)))
  else none

/-- Opcode 0x37: LDC. -/
def decSeq37 (w : Nat) : Option Instr :=
  if fld w 13 3 = 0 ∧ fld w 20 1 = 0 ∧ fld w 25 1 = 0 then some (.ldc (BitVec.ofNat 4 (fld w 21 4)) (BitVec.ofNat 4 (fld w 16 4)) (BitVec.ofNat 2 (fld w 11 2)) (BitVec.ofNat 11 (fld w 0 11)))
  else none

/-- Opcode 0x38: STC. -/
def decSeq38 (w : Nat) : Option Instr :=
  if fld w 13 3 = 0 ∧ fld w 20 1 = 0 ∧ fld w 25 1 = 0 then some (.stc (BitVec.ofNat 4 (fld w 21 4)) (BitVec.ofNat 4 (fld w 16 4)) (BitVec.ofNat 2 (fld w 11 2)) (BitVec.ofNat 11 (fld w 0 11)))
  else none

/-- Opcode 0x39: LDQ. -/
def decSeq39 (w : Nat) : Option Instr :=
  if fld w 2 9 = 0 ∧ fld w 20 1 = 0 ∧ fld w 23 3 = 0 then some (.ldq (BitVec.ofNat 2 (fld w 21 2)) (BitVec.ofNat 4 (fld w 16 4)) (BitVec.ofNat 5 (fld w 11 5)) (BitVec.ofNat 2 (fld w 0 2)))
  else none

/-- Opcode 0x3A: STQ. -/
def decSeq3A (w : Nat) : Option Instr :=
  if fld w 2 9 = 0 ∧ fld w 20 1 = 0 ∧ fld w 23 3 = 0 then some (.stq (BitVec.ofNat 2 (fld w 21 2)) (BitVec.ofNat 4 (fld w 16 4)) (BitVec.ofNat 5 (fld w 11 5)) (BitVec.ofNat 2 (fld w 0 2)))
  else none

/-- Opcode 0x3B: GATHER. -/
def decSeq3B (w : Nat) : Option Instr :=
  if fld w 2 9 = 0 ∧ fld w 12 4 = 0 ∧ fld w 20 1 = 0 ∧ fld w 23 3 = 0 then some (.gather (BitVec.ofNat 2 (fld w 21 2)) (BitVec.ofNat 4 (fld w 16 4)) (BitVec.ofNat 1 (fld w 11 1)) (BitVec.ofNat 2 (fld w 0 2)))
  else none

/-- Opcode 0x3C: SCATTER. -/
def decSeq3C (w : Nat) : Option Instr :=
  if fld w 2 9 = 0 ∧ fld w 12 4 = 0 ∧ fld w 20 1 = 0 ∧ fld w 23 3 = 0 then some (.scatter (BitVec.ofNat 2 (fld w 21 2)) (BitVec.ofNat 4 (fld w 16 4)) (BitVec.ofNat 1 (fld w 11 1)) (BitVec.ofNat 2 (fld w 0 2)))
  else none

/-- Opcode 0x3D: AMOADD, AMOSWAP, AMOCAS, AMOMIN, AMOMAX, AMOAND, AMOOR. -/
def decSeq3D (w : Nat) : Option Instr :=
  if fld w 0 4 = 0 ∧ fld w 7 1 = 0 ∧ fld w 9 2 = 0 ∧ fld w 20 1 = 0 then some (.amoadd (BitVec.ofNat 5 (fld w 21 5)) (BitVec.ofNat 4 (fld w 16 4)) (BitVec.ofNat 5 (fld w 11 5)) (BitVec.ofNat 1 (fld w 8 1)) (BitVec.ofNat 3 (fld w 4 3)))
  else if fld w 0 4 = 1 ∧ fld w 7 1 = 0 ∧ fld w 9 2 = 0 ∧ fld w 20 1 = 0 then some (.amoswap (BitVec.ofNat 5 (fld w 21 5)) (BitVec.ofNat 4 (fld w 16 4)) (BitVec.ofNat 5 (fld w 11 5)) (BitVec.ofNat 1 (fld w 8 1)) (BitVec.ofNat 3 (fld w 4 3)))
  else if fld w 0 4 = 2 ∧ fld w 7 1 = 0 ∧ fld w 9 2 = 0 ∧ fld w 20 1 = 0 then some (.amocas (BitVec.ofNat 5 (fld w 21 5)) (BitVec.ofNat 4 (fld w 16 4)) (BitVec.ofNat 5 (fld w 11 5)) (BitVec.ofNat 1 (fld w 8 1)) (BitVec.ofNat 3 (fld w 4 3)))
  else if fld w 0 4 = 3 ∧ fld w 7 1 = 0 ∧ fld w 9 2 = 0 ∧ fld w 20 1 = 0 then some (.amomin (BitVec.ofNat 5 (fld w 21 5)) (BitVec.ofNat 4 (fld w 16 4)) (BitVec.ofNat 5 (fld w 11 5)) (BitVec.ofNat 1 (fld w 8 1)) (BitVec.ofNat 3 (fld w 4 3)))
  else if fld w 0 4 = 4 ∧ fld w 7 1 = 0 ∧ fld w 9 2 = 0 ∧ fld w 20 1 = 0 then some (.amomax (BitVec.ofNat 5 (fld w 21 5)) (BitVec.ofNat 4 (fld w 16 4)) (BitVec.ofNat 5 (fld w 11 5)) (BitVec.ofNat 1 (fld w 8 1)) (BitVec.ofNat 3 (fld w 4 3)))
  else if fld w 0 4 = 5 ∧ fld w 7 1 = 0 ∧ fld w 9 2 = 0 ∧ fld w 20 1 = 0 then some (.amoand (BitVec.ofNat 5 (fld w 21 5)) (BitVec.ofNat 4 (fld w 16 4)) (BitVec.ofNat 5 (fld w 11 5)) (BitVec.ofNat 1 (fld w 8 1)) (BitVec.ofNat 3 (fld w 4 3)))
  else if fld w 0 4 = 6 ∧ fld w 7 1 = 0 ∧ fld w 9 2 = 0 ∧ fld w 20 1 = 0 then some (.amoor (BitVec.ofNat 5 (fld w 21 5)) (BitVec.ofNat 4 (fld w 16 4)) (BitVec.ofNat 5 (fld w 11 5)) (BitVec.ofNat 1 (fld w 8 1)) (BitVec.ofNat 3 (fld w 4 3)))
  else none

/-- Opcode 0x3E: BIND, UNBIND, PUBLISH. -/
def decSeq3E (w : Nat) : Option Instr :=
  if fld w 0 11 = 0 ∧ fld w 15 1 = 0 ∧ fld w 20 6 = 0 then some (.bind (BitVec.ofNat 4 (fld w 16 4)) (BitVec.ofNat 4 (fld w 11 4)))
  else if fld w 0 11 = 1 ∧ fld w 15 1 = 0 ∧ fld w 20 6 = 0 then some (.unbind (BitVec.ofNat 4 (fld w 16 4)) (BitVec.ofNat 4 (fld w 11 4)))
  else if fld w 0 11 = 2 ∧ fld w 15 1 = 0 ∧ fld w 20 6 = 0 then some (.publish (BitVec.ofNat 4 (fld w 16 4)) (BitVec.ofNat 4 (fld w 11 4)))
  else none

/-- Opcode 0x3F: SYNCINIT, ACQ_SH, ACQ_EX, REL, REVOKE. -/
def decSeq3F (w : Nat) : Option Instr :=
  if fld w 0 16 = 0 ∧ fld w 20 6 = 0 then some (.syncinit (BitVec.ofNat 4 (fld w 16 4)))
  else if fld w 0 16 = 1 ∧ fld w 20 6 = 0 then some (.acqSh (BitVec.ofNat 4 (fld w 16 4)))
  else if fld w 0 16 = 2 ∧ fld w 20 6 = 0 then some (.acqEx (BitVec.ofNat 4 (fld w 16 4)))
  else if fld w 0 16 = 3 ∧ fld w 20 6 = 0 then some (.rel (BitVec.ofNat 4 (fld w 16 4)))
  else if fld w 0 16 = 4 ∧ fld w 20 6 = 0 then some (.revoke (BitVec.ofNat 4 (fld w 16 4)))
  else none

/-- The word of the sequencer section by its opcode. -/
def rawSeq (w : Nat) : Option Instr :=
  match fld w 26 6 with
  | 1 => decSeq01 w
  | 2 => decSeq02 w
  | 3 => decSeq03 w
  | 4 => decSeq04 w
  | 5 => decSeq05 w
  | 6 => decSeq06 w
  | 7 => decSeq07 w
  | 8 => decSeq08 w
  | 9 => decSeq09 w
  | 10 => decSeq0A w
  | 11 => decSeq0B w
  | 12 => decSeq0C w
  | 13 => decSeq0D w
  | 14 => decSeq0E w
  | 15 => decSeq0F w
  | 16 => decSeq10 w
  | 17 => decSeq11 w
  | 18 => decSeq12 w
  | 24 => decSeq18 w
  | 25 => decSeq19 w
  | 26 => decSeq1A w
  | 27 => decSeq1B w
  | 28 => decSeq1C w
  | 29 => decSeq1D w
  | 32 => decSeq20 w
  | 33 => decSeq21 w
  | 34 => decSeq22 w
  | 35 => decSeq23 w
  | 36 => decSeq24 w
  | 37 => decSeq25 w
  | 38 => decSeq26 w
  | 39 => decSeq27 w
  | 40 => decSeq28 w
  | 41 => decSeq29 w
  | 42 => decSeq2A w
  | 43 => decSeq2B w
  | 44 => decSeq2C w
  | 45 => decSeq2D w
  | 46 => decSeq2E w
  | 48 => decSeq30 w
  | 49 => decSeq31 w
  | 50 => decSeq32 w
  | 51 => decSeq33 w
  | 52 => decSeq34 w
  | 53 => decSeq35 w
  | 54 => decSeq36 w
  | 55 => decSeq37 w
  | 56 => decSeq38 w
  | 57 => decSeq39 w
  | 58 => decSeq3A w
  | 59 => decSeq3B w
  | 60 => decSeq3C w
  | 61 => decSeq3D w
  | 62 => decSeq3E w
  | 63 => decSeq3F w
  | _ => none

/-- Opcode 0x01: VEND. -/
def decVec01 (w : Nat) : Option Instr :=
  if fld w 0 4 = 0 ∧ fld w 8 18 = 0 then some (.vend (BitVec.ofNat 4 (fld w 4 4)))
  else none

/-- Opcode 0x02: VSHAPE. -/
def decVec02 (w : Nat) : Option Instr :=
  if fld w 0 3 = 0 ∧ fld w 8 6 = 0 ∧ fld w 20 6 = 0 then some (.vshape (BitVec.ofNat 6 (fld w 14 6)) (BitVec.ofNat 4 (fld w 4 4)) (BitVec.ofNat 1 (fld w 3 1)))
  else none

/-- Opcode 0x04: VADD. -/
def decVec04 (w : Nat) : Option Instr :=
  if fld w 1 1 = 0 then some (.vadd (BitVec.ofNat 6 (fld w 20 6)) (BitVec.ofNat 6 (fld w 14 6)) (BitVec.ofNat 6 (fld w 8 6)) (BitVec.ofNat 4 (fld w 4 4)) (BitVec.ofNat 1 (fld w 3 1)) (BitVec.ofNat 1 (fld w 2 1)) (BitVec.ofNat 1 (fld w 0 1)))
  else none

/-- Opcode 0x05: VSUB. -/
def decVec05 (w : Nat) : Option Instr :=
  if fld w 1 1 = 0 then some (.vsub (BitVec.ofNat 6 (fld w 20 6)) (BitVec.ofNat 6 (fld w 14 6)) (BitVec.ofNat 6 (fld w 8 6)) (BitVec.ofNat 4 (fld w 4 4)) (BitVec.ofNat 1 (fld w 3 1)) (BitVec.ofNat 1 (fld w 2 1)) (BitVec.ofNat 1 (fld w 0 1)))
  else none

/-- Opcode 0x06: VMUL. -/
def decVec06 (w : Nat) : Option Instr :=
  some (.vmul (BitVec.ofNat 6 (fld w 20 6)) (BitVec.ofNat 6 (fld w 14 6)) (BitVec.ofNat 6 (fld w 8 6)) (BitVec.ofNat 4 (fld w 4 4)) (BitVec.ofNat 1 (fld w 3 1)) (BitVec.ofNat 1 (fld w 2 1)) (BitVec.ofNat 2 (fld w 0 2)))

/-- Opcode 0x07: VFMA. -/
def decVec07 (w : Nat) : Option Instr :=
  if fld w 1 1 = 0 then some (.vfma (BitVec.ofNat 6 (fld w 20 6)) (BitVec.ofNat 6 (fld w 14 6)) (BitVec.ofNat 6 (fld w 8 6)) (BitVec.ofNat 4 (fld w 4 4)) (BitVec.ofNat 1 (fld w 3 1)) (BitVec.ofNat 1 (fld w 2 1)) (BitVec.ofNat 1 (fld w 0 1)))
  else none

/-- Opcode 0x08: VMIN. -/
def decVec08 (w : Nat) : Option Instr :=
  if fld w 1 1 = 0 then some (.vmin (BitVec.ofNat 6 (fld w 20 6)) (BitVec.ofNat 6 (fld w 14 6)) (BitVec.ofNat 6 (fld w 8 6)) (BitVec.ofNat 4 (fld w 4 4)) (BitVec.ofNat 1 (fld w 3 1)) (BitVec.ofNat 1 (fld w 2 1)) (BitVec.ofNat 1 (fld w 0 1)))
  else none

/-- Opcode 0x09: VMAX. -/
def decVec09 (w : Nat) : Option Instr :=
  if fld w 1 1 = 0 then some (.vmax (BitVec.ofNat 6 (fld w 20 6)) (BitVec.ofNat 6 (fld w 14 6)) (BitVec.ofNat 6 (fld w 8 6)) (BitVec.ofNat 4 (fld w 4 4)) (BitVec.ofNat 1 (fld w 3 1)) (BitVec.ofNat 1 (fld w 2 1)) (BitVec.ofNat 1 (fld w 0 1)))
  else none

/-- Opcode 0x0A: VABS. -/
def decVec0A (w : Nat) : Option Instr :=
  if fld w 1 2 = 0 ∧ fld w 8 6 = 0 then some (.vabs (BitVec.ofNat 6 (fld w 20 6)) (BitVec.ofNat 6 (fld w 14 6)) (BitVec.ofNat 4 (fld w 4 4)) (BitVec.ofNat 1 (fld w 3 1)) (BitVec.ofNat 1 (fld w 0 1)))
  else none

/-- Opcode 0x0B: VNEG. -/
def decVec0B (w : Nat) : Option Instr :=
  if fld w 1 2 = 0 ∧ fld w 8 6 = 0 then some (.vneg (BitVec.ofNat 6 (fld w 20 6)) (BitVec.ofNat 6 (fld w 14 6)) (BitVec.ofNat 4 (fld w 4 4)) (BitVec.ofNat 1 (fld w 3 1)) (BitVec.ofNat 1 (fld w 0 1)))
  else none

/-- Opcode 0x0C: VCVT. -/
def decVec0C (w : Nat) : Option Instr :=
  if fld w 2 1 = 0 ∧ fld w 12 2 = 0 then some (.vcvt (BitVec.ofNat 6 (fld w 20 6)) (BitVec.ofNat 6 (fld w 14 6)) (BitVec.ofNat 4 (fld w 8 4)) (BitVec.ofNat 4 (fld w 4 4)) (BitVec.ofNat 1 (fld w 3 1)) (BitVec.ofNat 2 (fld w 0 2)))
  else none

/-- Opcode 0x0D: VQUANT. -/
def decVec0D (w : Nat) : Option Instr :=
  if fld w 0 3 = 0 ∧ fld w 12 2 = 0 then some (.vquant (BitVec.ofNat 6 (fld w 20 6)) (BitVec.ofNat 6 (fld w 14 6)) (BitVec.ofNat 4 (fld w 8 4)) (BitVec.ofNat 4 (fld w 4 4)) (BitVec.ofNat 1 (fld w 3 1)))
  else none

/-- Opcode 0x0E: VSACC. -/
def decVec0E (w : Nat) : Option Instr :=
  if fld w 0 2 = 0 then some (.vsacc (BitVec.ofNat 6 (fld w 20 6)) (BitVec.ofNat 6 (fld w 14 6)) (BitVec.ofNat 6 (fld w 8 6)) (BitVec.ofNat 4 (fld w 4 4)) (BitVec.ofNat 1 (fld w 3 1)) (BitVec.ofNat 1 (fld w 2 1)))
  else none

/-- Opcode 0x0F: VEXP. -/
def decVec0F (w : Nat) : Option Instr :=
  if fld w 1 2 = 0 ∧ fld w 8 6 = 0 then some (.vexp (BitVec.ofNat 6 (fld w 20 6)) (BitVec.ofNat 6 (fld w 14 6)) (BitVec.ofNat 4 (fld w 4 4)) (BitVec.ofNat 1 (fld w 3 1)) (BitVec.ofNat 1 (fld w 0 1)))
  else none

/-- Opcode 0x10: VRCP. -/
def decVec10 (w : Nat) : Option Instr :=
  if fld w 0 3 = 0 ∧ fld w 8 6 = 0 then some (.vrcp (BitVec.ofNat 6 (fld w 20 6)) (BitVec.ofNat 6 (fld w 14 6)) (BitVec.ofNat 4 (fld w 4 4)) (BitVec.ofNat 1 (fld w 3 1)))
  else none

/-- Opcode 0x11: VRSQ. -/
def decVec11 (w : Nat) : Option Instr :=
  if fld w 0 3 = 0 ∧ fld w 8 6 = 0 then some (.vrsq (BitVec.ofNat 6 (fld w 20 6)) (BitVec.ofNat 6 (fld w 14 6)) (BitVec.ofNat 4 (fld w 4 4)) (BitVec.ofNat 1 (fld w 3 1)))
  else none

/-- Opcode 0x12: VRED. -/
def decVec12 (w : Nat) : Option Instr :=
  if fld w 2 1 = 0 ∧ fld w 8 6 = 0 then some (.vred (BitVec.ofNat 6 (fld w 20 6)) (BitVec.ofNat 6 (fld w 14 6)) (BitVec.ofNat 4 (fld w 4 4)) (BitVec.ofNat 1 (fld w 3 1)) (BitVec.ofNat 2 (fld w 0 2)))
  else none

/-- Opcode 0x13: VCMP. -/
def decVec13 (w : Nat) : Option Instr :=
  some (.vcmp (BitVec.ofNat 6 (fld w 20 6)) (BitVec.ofNat 6 (fld w 14 6)) (BitVec.ofNat 6 (fld w 8 6)) (BitVec.ofNat 4 (fld w 4 4)) (BitVec.ofNat 1 (fld w 3 1)) (BitVec.ofNat 1 (fld w 2 1)) (BitVec.ofNat 2 (fld w 0 2)))

/-- Opcode 0x14: VSEL. -/
def decVec14 (w : Nat) : Option Instr :=
  if fld w 0 2 = 0 then some (.vsel (BitVec.ofNat 6 (fld w 20 6)) (BitVec.ofNat 6 (fld w 14 6)) (BitVec.ofNat 6 (fld w 8 6)) (BitVec.ofNat 4 (fld w 4 4)) (BitVec.ofNat 1 (fld w 3 1)) (BitVec.ofNat 1 (fld w 2 1)))
  else none

/-- Opcode 0x15: VPART. -/
def decVec15 (w : Nat) : Option Instr :=
  if fld w 1 2 = 0 ∧ fld w 8 6 = 0 then some (.vpart (BitVec.ofNat 6 (fld w 20 6)) (BitVec.ofNat 6 (fld w 14 6)) (BitVec.ofNat 4 (fld w 4 4)) (BitVec.ofNat 1 (fld w 3 1)) (BitVec.ofNat 1 (fld w 0 1)))
  else none

/-- Opcode 0x16: VPERM. -/
def decVec16 (w : Nat) : Option Instr :=
  if fld w 0 2 = 0 then some (.vperm (BitVec.ofNat 6 (fld w 20 6)) (BitVec.ofNat 6 (fld w 14 6)) (BitVec.ofNat 6 (fld w 8 6)) (BitVec.ofNat 4 (fld w 4 4)) (BitVec.ofNat 1 (fld w 3 1)) (BitVec.ofNat 1 (fld w 2 1)))
  else none

/-- Opcode 0x17: VSHUF. -/
def decVec17 (w : Nat) : Option Instr :=
  some (.vshuf (BitVec.ofNat 6 (fld w 20 6)) (BitVec.ofNat 6 (fld w 14 6)) (BitVec.ofNat 6 (fld w 8 6)) (BitVec.ofNat 4 (fld w 4 4)) (BitVec.ofNat 1 (fld w 3 1)) (BitVec.ofNat 1 (fld w 2 1)) (BitVec.ofNat 2 (fld w 0 2)))

/-- Opcode 0x18: VBCAST. -/
def decVec18 (w : Nat) : Option Instr :=
  if fld w 0 2 = 0 then some (.vbcast (BitVec.ofNat 6 (fld w 20 6)) (BitVec.ofNat 6 (fld w 14 6)) (BitVec.ofNat 6 (fld w 8 6)) (BitVec.ofNat 4 (fld w 4 4)) (BitVec.ofNat 1 (fld w 3 1)) (BitVec.ofNat 1 (fld w 2 1)))
  else none

/-- Opcode 0x19: VSPLAT. -/
def decVec19 (w : Nat) : Option Instr :=
  if fld w 0 3 = 0 ∧ fld w 8 6 = 0 then some (.vsplat (BitVec.ofNat 6 (fld w 20 6)) (BitVec.ofNat 6 (fld w 14 6)) (BitVec.ofNat 4 (fld w 4 4)) (BitVec.ofNat 1 (fld w 3 1)))
  else none

/-- Opcode 0x1A: VIOTA. -/
def decVec1A (w : Nat) : Option Instr :=
  if fld w 0 4 = 0 ∧ fld w 8 12 = 0 then some (.viota (BitVec.ofNat 6 (fld w 20 6)) (BitVec.ofNat 4 (fld w 4 4)))
  else none

/-- Opcode 0x1B: VAND. -/
def decVec1B (w : Nat) : Option Instr :=
  if fld w 0 2 = 0 then some (.vand (BitVec.ofNat 6 (fld w 20 6)) (BitVec.ofNat 6 (fld w 14 6)) (BitVec.ofNat 6 (fld w 8 6)) (BitVec.ofNat 4 (fld w 4 4)) (BitVec.ofNat 1 (fld w 3 1)) (BitVec.ofNat 1 (fld w 2 1)))
  else none

/-- Opcode 0x1C: VOR. -/
def decVec1C (w : Nat) : Option Instr :=
  if fld w 0 2 = 0 then some (.vor (BitVec.ofNat 6 (fld w 20 6)) (BitVec.ofNat 6 (fld w 14 6)) (BitVec.ofNat 6 (fld w 8 6)) (BitVec.ofNat 4 (fld w 4 4)) (BitVec.ofNat 1 (fld w 3 1)) (BitVec.ofNat 1 (fld w 2 1)))
  else none

/-- Opcode 0x1D: VXOR. -/
def decVec1D (w : Nat) : Option Instr :=
  if fld w 0 2 = 0 then some (.vxor (BitVec.ofNat 6 (fld w 20 6)) (BitVec.ofNat 6 (fld w 14 6)) (BitVec.ofNat 6 (fld w 8 6)) (BitVec.ofNat 4 (fld w 4 4)) (BitVec.ofNat 1 (fld w 3 1)) (BitVec.ofNat 1 (fld w 2 1)))
  else none

/-- Opcode 0x1E: VNOT. -/
def decVec1E (w : Nat) : Option Instr :=
  if fld w 0 3 = 0 ∧ fld w 8 6 = 0 then some (.vnot (BitVec.ofNat 6 (fld w 20 6)) (BitVec.ofNat 6 (fld w 14 6)) (BitVec.ofNat 4 (fld w 4 4)) (BitVec.ofNat 1 (fld w 3 1)))
  else none

/-- Opcode 0x1F: VSHL. -/
def decVec1F (w : Nat) : Option Instr :=
  if fld w 0 2 = 0 then some (.vshl (BitVec.ofNat 6 (fld w 20 6)) (BitVec.ofNat 6 (fld w 14 6)) (BitVec.ofNat 6 (fld w 8 6)) (BitVec.ofNat 4 (fld w 4 4)) (BitVec.ofNat 1 (fld w 3 1)) (BitVec.ofNat 1 (fld w 2 1)))
  else none

/-- Opcode 0x20: VSHR. -/
def decVec20 (w : Nat) : Option Instr :=
  if fld w 0 2 = 0 then some (.vshr (BitVec.ofNat 6 (fld w 20 6)) (BitVec.ofNat 6 (fld w 14 6)) (BitVec.ofNat 6 (fld w 8 6)) (BitVec.ofNat 4 (fld w 4 4)) (BitVec.ofNat 1 (fld w 3 1)) (BitVec.ofNat 1 (fld w 2 1)))
  else none

/-- Opcode 0x21: VSAR. -/
def decVec21 (w : Nat) : Option Instr :=
  if fld w 0 2 = 0 then some (.vsar (BitVec.ofNat 6 (fld w 20 6)) (BitVec.ofNat 6 (fld w 14 6)) (BitVec.ofNat 6 (fld w 8 6)) (BitVec.ofNat 4 (fld w 4 4)) (BitVec.ofNat 1 (fld w 3 1)) (BitVec.ofNat 1 (fld w 2 1)))
  else none

/-- Opcode 0x22: VPOPC. -/
def decVec22 (w : Nat) : Option Instr :=
  if fld w 1 2 = 0 ∧ fld w 8 6 = 0 then some (.vpopc (BitVec.ofNat 6 (fld w 20 6)) (BitVec.ofNat 6 (fld w 14 6)) (BitVec.ofNat 4 (fld w 4 4)) (BitVec.ofNat 1 (fld w 3 1)) (BitVec.ofNat 1 (fld w 0 1)))
  else none

/-- Opcode 0x23: VPUSHIX. -/
def decVec23 (w : Nat) : Option Instr :=
  if fld w 1 2 = 0 ∧ fld w 8 6 = 0 ∧ fld w 20 6 = 0 then some (.vpushix (BitVec.ofNat 6 (fld w 14 6)) (BitVec.ofNat 4 (fld w 4 4)) (BitVec.ofNat 1 (fld w 3 1)) (BitVec.ofNat 1 (fld w 0 1)))
  else none

/-- Opcode 0x24: VPUSHC. -/
def decVec24 (w : Nat) : Option Instr :=
  if fld w 0 3 = 0 ∧ fld w 8 6 = 0 ∧ fld w 20 6 = 0 then some (.vpushc (BitVec.ofNat 6 (fld w 14 6)) (BitVec.ofNat 4 (fld w 4 4)) (BitVec.ofNat 1 (fld w 3 1)))
  else none

/-- Opcode 0x25: VTOPB8. -/
def decVec25 (w : Nat) : Option Instr :=
  if fld w 0 3 = 0 ∧ fld w 8 6 = 0 then some (.vtopb8 (BitVec.ofNat 6 (fld w 20 6)) (BitVec.ofNat 6 (fld w 14 6)) (BitVec.ofNat 4 (fld w 4 4)) (BitVec.ofNat 1 (fld w 3 1)))
  else none

/-- Opcode 0x26: VSHADD. -/
def decVec26 (w : Nat) : Option Instr :=
  if fld w 0 2 = 0 then some (.vshadd (BitVec.ofNat 6 (fld w 20 6)) (BitVec.ofNat 6 (fld w 14 6)) (BitVec.ofNat 6 (fld w 8 6)) (BitVec.ofNat 4 (fld w 4 4)) (BitVec.ofNat 1 (fld w 3 1)) (BitVec.ofNat 1 (fld w 2 1)))
  else none

/-- Opcode 0x27: VMOV. -/
def decVec27 (w : Nat) : Option Instr :=
  if fld w 0 3 = 0 ∧ fld w 8 6 = 0 then some (.vmov (BitVec.ofNat 6 (fld w 20 6)) (BitVec.ofNat 6 (fld w 14 6)) (BitVec.ofNat 4 (fld w 4 4)) (BitVec.ofNat 1 (fld w 3 1)))
  else none

/-- The word of the vector section by its opcode. -/
def rawVec (w : Nat) : Option Instr :=
  match fld w 26 6 with
  | 1 => decVec01 w
  | 2 => decVec02 w
  | 4 => decVec04 w
  | 5 => decVec05 w
  | 6 => decVec06 w
  | 7 => decVec07 w
  | 8 => decVec08 w
  | 9 => decVec09 w
  | 10 => decVec0A w
  | 11 => decVec0B w
  | 12 => decVec0C w
  | 13 => decVec0D w
  | 14 => decVec0E w
  | 15 => decVec0F w
  | 16 => decVec10 w
  | 17 => decVec11 w
  | 18 => decVec12 w
  | 19 => decVec13 w
  | 20 => decVec14 w
  | 21 => decVec15 w
  | 22 => decVec16 w
  | 23 => decVec17 w
  | 24 => decVec18 w
  | 25 => decVec19 w
  | 26 => decVec1A w
  | 27 => decVec1B w
  | 28 => decVec1C w
  | 29 => decVec1D w
  | 30 => decVec1E w
  | 31 => decVec1F w
  | 32 => decVec20 w
  | 33 => decVec21 w
  | 34 => decVec22 w
  | 35 => decVec23 w
  | 36 => decVec24 w
  | 37 => decVec25 w
  | 38 => decVec26 w
  | 39 => decVec27 w
  | _ => none

/-- Opcode 0x01: MEND. -/
def decMat01 (w : Nat) : Option Instr :=
  if fld w 0 22 = 0 then some (.mend (BitVec.ofNat 4 (fld w 22 4)))
  else none

/-- Opcode 0x02: MSHAPE. -/
def decMat02 (w : Nat) : Option Instr :=
  if fld w 0 4 = 0 then some (.mshape (BitVec.ofNat 4 (fld w 22 4)) (BitVec.ofNat 8 (fld w 14 8)) (BitVec.ofNat 8 (fld w 6 8)) (BitVec.ofNat 2 (fld w 4 2)))
  else none

/-- Opcode 0x03: TFETCH. -/
def decMat03 (w : Nat) : Option Instr :=
  some (.tfetch (BitVec.ofNat 4 (fld w 22 4)) (BitVec.ofNat 4 (fld w 18 4)) (BitVec.ofNat 2 (fld w 16 2)) (BitVec.ofNat 16 (fld w 0 16)))

/-- Opcode 0x04: TREL. -/
def decMat04 (w : Nat) : Option Instr :=
  if fld w 0 16 = 0 ∧ fld w 18 4 = 0 then some (.trel (BitVec.ofNat 4 (fld w 22 4)) (BitVec.ofNat 2 (fld w 16 2)))
  else none

/-- Opcode 0x05: HAD. -/
def decMat05 (w : Nat) : Option Instr :=
  if fld w 0 14 = 0 ∧ fld w 18 4 = 0 then some (.had (BitVec.ofNat 4 (fld w 22 4)) (BitVec.ofNat 2 (fld w 16 2)) (BitVec.ofNat 2 (fld w 14 2)))
  else none

/-- Opcode 0x06: ACCZERO. -/
def decMat06 (w : Nat) : Option Instr :=
  if fld w 0 18 = 0 then some (.acczero (BitVec.ofNat 4 (fld w 22 4)) (BitVec.ofNat 4 (fld w 18 4)))
  else none

/-- Opcode 0x07: ACCRD. -/
def decMat07 (w : Nat) : Option Instr :=
  some (.accrd (BitVec.ofNat 4 (fld w 22 4)) (BitVec.ofNat 4 (fld w 18 4)) (BitVec.ofNat 4 (fld w 14 4)) (BitVec.ofNat 14 (fld w 0 14)))

/-- Opcode 0x08: ACCWR. -/
def decMat08 (w : Nat) : Option Instr :=
  some (.accwr (BitVec.ofNat 4 (fld w 22 4)) (BitVec.ofNat 4 (fld w 18 4)) (BitVec.ofNat 4 (fld w 14 4)) (BitVec.ofNat 14 (fld w 0 14)))

/-- Opcode 0x09: MWAIT. -/
def decMat09 (w : Nat) : Option Instr :=
  if fld w 0 22 = 0 then some (.mwait (BitVec.ofNat 4 (fld w 22 4)))
  else none

/-- Opcode 0x10: MMUL_LB2. -/
def decMat10 (w : Nat) : Option Instr :=
  if fld w 0 13 = 0 then some (.mmulLb2 (BitVec.ofNat 4 (fld w 22 4)) (BitVec.ofNat 4 (fld w 18 4)) (BitVec.ofNat 2 (fld w 16 2)) (BitVec.ofNat 2 (fld w 14 2)) (BitVec.ofNat 1 (fld w 13 1)))
  else none

/-- Opcode 0x11: MMUL_LB3. -/
def decMat11 (w : Nat) : Option Instr :=
  if fld w 0 13 = 0 then some (.mmulLb3 (BitVec.ofNat 4 (fld w 22 4)) (BitVec.ofNat 4 (fld w 18 4)) (BitVec.ofNat 2 (fld w 16 2)) (BitVec.ofNat 2 (fld w 14 2)) (BitVec.ofNat 1 (fld w 13 1)))
  else none

/-- Opcode 0x12: MMUL_LB4. -/
def decMat12 (w : Nat) : Option Instr :=
  if fld w 0 13 = 0 then some (.mmulLb4 (BitVec.ofNat 4 (fld w 22 4)) (BitVec.ofNat 4 (fld w 18 4)) (BitVec.ofNat 2 (fld w 16 2)) (BitVec.ofNat 2 (fld w 14 2)) (BitVec.ofNat 1 (fld w 13 1)))
  else none

/-- Opcode 0x13: MMUL_LB5. -/
def decMat13 (w : Nat) : Option Instr :=
  if fld w 0 13 = 0 then some (.mmulLb5 (BitVec.ofNat 4 (fld w 22 4)) (BitVec.ofNat 4 (fld w 18 4)) (BitVec.ofNat 2 (fld w 16 2)) (BitVec.ofNat 2 (fld w 14 2)) (BitVec.ofNat 1 (fld w 13 1)))
  else none

/-- Opcode 0x14: MMUL_LB6. -/
def decMat14 (w : Nat) : Option Instr :=
  if fld w 0 13 = 0 then some (.mmulLb6 (BitVec.ofNat 4 (fld w 22 4)) (BitVec.ofNat 4 (fld w 18 4)) (BitVec.ofNat 2 (fld w 16 2)) (BitVec.ofNat 2 (fld w 14 2)) (BitVec.ofNat 1 (fld w 13 1)))
  else none

/-- Opcode 0x15: MMUL_LB7. -/
def decMat15 (w : Nat) : Option Instr :=
  if fld w 0 13 = 0 then some (.mmulLb7 (BitVec.ofNat 4 (fld w 22 4)) (BitVec.ofNat 4 (fld w 18 4)) (BitVec.ofNat 2 (fld w 16 2)) (BitVec.ofNat 2 (fld w 14 2)) (BitVec.ofNat 1 (fld w 13 1)))
  else none

/-- Opcode 0x16: MMUL_LB8. -/
def decMat16 (w : Nat) : Option Instr :=
  if fld w 0 13 = 0 then some (.mmulLb8 (BitVec.ofNat 4 (fld w 22 4)) (BitVec.ofNat 4 (fld w 18 4)) (BitVec.ofNat 2 (fld w 16 2)) (BitVec.ofNat 2 (fld w 14 2)) (BitVec.ofNat 1 (fld w 13 1)))
  else none

/-- Opcode 0x17: MMUL_I8. -/
def decMat17 (w : Nat) : Option Instr :=
  if fld w 0 13 = 0 then some (.mmulI8 (BitVec.ofNat 4 (fld w 22 4)) (BitVec.ofNat 4 (fld w 18 4)) (BitVec.ofNat 2 (fld w 16 2)) (BitVec.ofNat 2 (fld w 14 2)) (BitVec.ofNat 1 (fld w 13 1)))
  else none

/-- Opcode 0x18: MMUL_E4M3. -/
def decMat18 (w : Nat) : Option Instr :=
  if fld w 0 13 = 0 then some (.mmulE4m3 (BitVec.ofNat 4 (fld w 22 4)) (BitVec.ofNat 4 (fld w 18 4)) (BitVec.ofNat 2 (fld w 16 2)) (BitVec.ofNat 2 (fld w 14 2)) (BitVec.ofNat 1 (fld w 13 1)))
  else none

/-- Opcode 0x19: MMUL_E5M2. -/
def decMat19 (w : Nat) : Option Instr :=
  if fld w 0 13 = 0 then some (.mmulE5m2 (BitVec.ofNat 4 (fld w 22 4)) (BitVec.ofNat 4 (fld w 18 4)) (BitVec.ofNat 2 (fld w 16 2)) (BitVec.ofNat 2 (fld w 14 2)) (BitVec.ofNat 1 (fld w 13 1)))
  else none

/-- Opcode 0x1A: MMUL_FP16. -/
def decMat1A (w : Nat) : Option Instr :=
  if fld w 0 13 = 0 then some (.mmulFp16 (BitVec.ofNat 4 (fld w 22 4)) (BitVec.ofNat 4 (fld w 18 4)) (BitVec.ofNat 2 (fld w 16 2)) (BitVec.ofNat 2 (fld w 14 2)) (BitVec.ofNat 1 (fld w 13 1)))
  else none

/-- Opcode 0x1B: MMUL_BF16. -/
def decMat1B (w : Nat) : Option Instr :=
  if fld w 0 13 = 0 then some (.mmulBf16 (BitVec.ofNat 4 (fld w 22 4)) (BitVec.ofNat 4 (fld w 18 4)) (BitVec.ofNat 2 (fld w 16 2)) (BitVec.ofNat 2 (fld w 14 2)) (BitVec.ofNat 1 (fld w 13 1)))
  else none

/-- Opcode 0x1C: MMUL_FP32. -/
def decMat1C (w : Nat) : Option Instr :=
  if fld w 0 13 = 0 then some (.mmulFp32 (BitVec.ofNat 4 (fld w 22 4)) (BitVec.ofNat 4 (fld w 18 4)) (BitVec.ofNat 2 (fld w 16 2)) (BitVec.ofNat 2 (fld w 14 2)) (BitVec.ofNat 1 (fld w 13 1)))
  else none

/-- Opcode 0x1D: MMUL_FP64. -/
def decMat1D (w : Nat) : Option Instr :=
  if fld w 0 13 = 0 then some (.mmulFp64 (BitVec.ofNat 4 (fld w 22 4)) (BitVec.ofNat 4 (fld w 18 4)) (BitVec.ofNat 2 (fld w 16 2)) (BitVec.ofNat 2 (fld w 14 2)) (BitVec.ofNat 1 (fld w 13 1)))
  else none

/-- The word of the matrix section by its opcode. -/
def rawMat (w : Nat) : Option Instr :=
  match fld w 26 6 with
  | 1 => decMat01 w
  | 2 => decMat02 w
  | 3 => decMat03 w
  | 4 => decMat04 w
  | 5 => decMat05 w
  | 6 => decMat06 w
  | 7 => decMat07 w
  | 8 => decMat08 w
  | 9 => decMat09 w
  | 16 => decMat10 w
  | 17 => decMat11 w
  | 18 => decMat12 w
  | 19 => decMat13 w
  | 20 => decMat14 w
  | 21 => decMat15 w
  | 22 => decMat16 w
  | 23 => decMat17 w
  | 24 => decMat18 w
  | 25 => decMat19 w
  | 26 => decMat1A w
  | 27 => decMat1B w
  | 28 => decMat1C w
  | 29 => decMat1D w
  | _ => none

/-- Opcode 0x01: XLOOP. -/
def decXfer01 (w : Nat) : Option Instr :=
  if fld w 0 25 = 0 then some (.xloop (BitVec.ofNat 3 (fld w 25 3)))
  else none

/-- Opcode 0x02: XBOUND. -/
def decXfer02 (w : Nat) : Option Instr :=
  some (.xbound (BitVec.ofNat 3 (fld w 25 3)) (BitVec.ofNat 25 (fld w 0 25)))

/-- Opcode 0x03: XSSTR. -/
def decXfer03 (w : Nat) : Option Instr :=
  some (.xsstr (BitVec.ofNat 3 (fld w 25 3)) (BitVec.ofNat 25 (fld w 0 25)))

/-- Opcode 0x04: XDSTR. -/
def decXfer04 (w : Nat) : Option Instr :=
  some (.xdstr (BitVec.ofNat 3 (fld w 25 3)) (BitVec.ofNat 25 (fld w 0 25)))

/-- Opcode 0x05: XSRC. -/
def decXfer05 (w : Nat) : Option Instr :=
  if fld w 25 3 = 0 then some (.xsrc (BitVec.ofNat 4 (fld w 21 4)) (BitVec.ofNat 21 (fld w 0 21)))
  else none

/-- Opcode 0x06: XDST. -/
def decXfer06 (w : Nat) : Option Instr :=
  if fld w 25 3 = 0 then some (.xdst (BitVec.ofNat 4 (fld w 21 4)) (BitVec.ofNat 21 (fld w 0 21)))
  else none

/-- Opcode 0x07: XEMIT. -/
def decXfer07 (w : Nat) : Option Instr :=
  if fld w 20 8 = 0 then some (.xemit (BitVec.ofNat 4 (fld w 16 4)) (BitVec.ofNat 16 (fld w 0 16)))
  else none

/-- Opcode 0x08: XPROBE. -/
def decXfer08 (w : Nat) : Option Instr :=
  if fld w 0 16 = 0 ∧ fld w 20 8 = 0 then some (.xprobe (BitVec.ofNat 4 (fld w 16 4)))
  else none

/-- Opcode 0x09: XEND. -/
def decXfer09 (w : Nat) : Option Instr :=
  if fld w 0 28 = 0 then some (.xend)
  else none

/-- The word of the transfer section by its opcode. -/
def rawXfer (w : Nat) : Option Instr :=
  match fld w 28 4 with
  | 1 => decXfer01 w
  | 2 => decXfer02 w
  | 3 => decXfer03 w
  | 4 => decXfer04 w
  | 5 => decXfer05 w
  | 6 => decXfer06 w
  | 7 => decXfer07 w
  | 8 => decXfer08 w
  | 9 => decXfer09 w
  | _ => none

/-- Opcode 0x01: QLOAD. -/
def decStrat01 (w : Nat) : Option Instr :=
  if fld w 15 11 = 1 then some (.qload (BitVec.ofNat 3 (fld w 12 3)) (BitVec.ofNat 12 (fld w 0 12)))
  else none

/-- Opcode 0x02: BTLD. -/
def decStrat02 (w : Nat) : Option Instr :=
  if fld w 15 11 = 1 then some (.btld (BitVec.ofNat 3 (fld w 12 3)) (BitVec.ofNat 12 (fld w 0 12)))
  else none

/-- Opcode 0x03: BTGATHER_K, BTGATHER_V. -/
def decStrat03 (w : Nat) : Option Instr :=
  if fld w 0 8 = 0 ∧ fld w 11 1 = 0 ∧ fld w 15 11 = 1 then some (.btgatherK (BitVec.ofNat 3 (fld w 12 3)) (BitVec.ofNat 3 (fld w 8 3)))
  else if fld w 0 8 = 0 ∧ fld w 11 1 = 1 ∧ fld w 15 11 = 1 then some (.btgatherV (BitVec.ofNat 3 (fld w 12 3)) (BitVec.ofNat 3 (fld w 8 3)))
  else none

/-- Opcode 0x04: SCORE. -/
def decStrat04 (w : Nat) : Option Instr :=
  if fld w 0 8 = 0 ∧ fld w 11 15 = 0 then some (.score (BitVec.ofNat 3 (fld w 8 3)))
  else none

/-- Opcode 0x05: MAXUPD. -/
def decStrat05 (w : Nat) : Option Instr :=
  if fld w 0 26 = 0 then some (.maxupd)
  else none

/-- Opcode 0x06: EXPQ. -/
def decStrat06 (w : Nat) : Option Instr :=
  if fld w 0 26 = 0 then some (.expq)
  else none

/-- Opcode 0x07: PVACC. -/
def decStrat07 (w : Nat) : Option Instr :=
  if fld w 0 8 = 0 ∧ fld w 11 15 = 0 then some (.pvacc (BitVec.ofNat 3 (fld w 8 3)))
  else none

/-- Opcode 0x08: RESCALE. -/
def decStrat08 (w : Nat) : Option Instr :=
  if fld w 0 26 = 0 then some (.rescale)
  else none

/-- Opcode 0x09: MERGE. -/
def decStrat09 (w : Nat) : Option Instr :=
  if fld w 15 11 = 1 then some (.merge (BitVec.ofNat 3 (fld w 12 3)) (BitVec.ofNat 12 (fld w 0 12)))
  else none

/-- Opcode 0x0A: MASK. -/
def decStrat0A (w : Nat) : Option Instr :=
  if fld w 2 24 = 0 then some (.mask (BitVec.ofNat 2 (fld w 0 2)))
  else none

/-- Opcode 0x0B: LOOP. -/
def decStrat0B (w : Nat) : Option Instr :=
  if fld w 0 14 = 0 then some (.loop (BitVec.ofNat 10 (fld w 16 10)) (BitVec.ofNat 2 (fld w 14 2)))
  else none

/-- Opcode 0x0C: BRCNT. -/
def decStrat0C (w : Nat) : Option Instr :=
  if fld w 0 16 = 0 then some (.brcnt (BitVec.ofNat 10 (fld w 16 10)))
  else none

/-- Opcode 0x0D: WAIT. -/
def decStrat0D (w : Nat) : Option Instr :=
  if fld w 0 26 = 0 then some (.wait)
  else none

/-- Opcode 0x0E: DONE. -/
def decStrat0E (w : Nat) : Option Instr :=
  if fld w 0 26 = 0 then some (.done)
  else none

/-- Opcode 0x0F: LCSET. -/
def decStrat0F (w : Nat) : Option Instr :=
  if fld w 16 10 = 0 then some (.lcset (BitVec.ofNat 2 (fld w 14 2)) (BitVec.ofNat 14 (fld w 0 14)))
  else none

/-- Opcode 0x10: OSTORE. -/
def decStrat10 (w : Nat) : Option Instr :=
  if fld w 15 11 = 1 then some (.ostore (BitVec.ofNat 3 (fld w 12 3)) (BitVec.ofNat 12 (fld w 0 12)))
  else none

/-- Opcode 0x11: JMP. -/
def decStrat11 (w : Nat) : Option Instr :=
  if fld w 0 16 = 0 then some (.jmp (BitVec.ofNat 10 (fld w 16 10)))
  else none

/-- The word of the Stratus section by its opcode. -/
def rawStrat (w : Nat) : Option Instr :=
  match fld w 26 6 with
  | 1 => decStrat01 w
  | 2 => decStrat02 w
  | 3 => decStrat03 w
  | 4 => decStrat04 w
  | 5 => decStrat05 w
  | 6 => decStrat06 w
  | 7 => decStrat07 w
  | 8 => decStrat08 w
  | 9 => decStrat09 w
  | 10 => decStrat0A w
  | 11 => decStrat0B w
  | 12 => decStrat0C w
  | 13 => decStrat0D w
  | 14 => decStrat0E w
  | 15 => decStrat0F w
  | 16 => decStrat10 w
  | 17 => decStrat11 w
  | _ => none

/-- Keeps a reading only where every field holds a value its map allows. -/
def checked : Option Instr → Option Instr
  | some i => if i.wf then some i else none
  | none => none

/-- The instruction an engine reads from a 32-bit word; none where the word is not an instruction (R18). -/
def decodeFor (e : EngineId) (w : Nat) : Option Instr :=
  checked (match e with
    | .sequencer => rawSeq w
    | .vector => rawVec w
    | .matrix => rawMat w
    | .transfer => rawXfer w
    | .stratus => rawStrat w)

/-- The engine whose words a constructor is one of; none for an operation or event without an encoding. -/
def Instr.engine : Instr → Option EngineId
  | .add _ _ _ => some .sequencer
  | .sub _ _ _ => some .sequencer
  | .mul _ _ _ => some .sequencer
  | .mulh _ _ _ => some .sequencer
  | .mulhu _ _ _ => some .sequencer
  | .div _ _ _ => some .sequencer
  | .divu _ _ _ => some .sequencer
  | .rem _ _ _ => some .sequencer
  | .remu _ _ _ => some .sequencer
  | .and _ _ _ => some .sequencer
  | .or _ _ _ => some .sequencer
  | .xor _ _ _ => some .sequencer
  | .shl _ _ _ => some .sequencer
  | .shr _ _ _ => some .sequencer
  | .sar _ _ _ => some .sequencer
  | .min _ _ _ => some .sequencer
  | .max _ _ _ => some .sequencer
  | .minu _ _ _ => some .sequencer
  | .maxu _ _ _ => some .sequencer
  | .sel _ _ _ => some .sequencer
  | .clz _ _ => some .sequencer
  | .popc _ _ => some .sequencer
  | .ffs _ _ => some .sequencer
  | .cmpCc _ _ _ _ => some .sequencer
  | .acqst _ _ => some .sequencer
  | .relst _ _ => some .sequencer
  | .drain _ => some .sequencer
  | .pmtgive _ => some .sequencer
  | .pmtinit _ _ => some .sequencer
  | .addi _ _ _ => some .sequencer
  | .andi _ _ _ => some .sequencer
  | .ori _ _ _ => some .sequencer
  | .xori _ _ _ => some .sequencer
  | .shli _ _ _ => some .sequencer
  | .shri _ _ _ => some .sequencer
  | .sari _ _ _ => some .sequencer
  | .movi _ _ => some .sequencer
  | .movhi _ _ _ => some .sequencer
  | .mbsend _ _ => some .sequencer
  | .mbrecv _ _ => some .sequencer
  | .bCc _ _ _ _ => some .sequencer
  | .j _ => some .sequencer
  | .jal _ => some .sequencer
  | .loopst _ => some .sequencer
  | .jr _ => some .sequencer
  | .stwin _ _ _ => some .sequencer
  | .vrun _ _ => some .sequencer
  | .mrun _ _ => some .sequencer
  | .xrun _ _ => some .sequencer
  | .attngo _ _ => some .sequencer
  | .cqpop _ => some .sequencer
  | .sweepq _ => some .sequencer
  | .spawn _ => some .sequencer
  | .submit _ => some .sequencer
  | .waitseq _ _ => some .sequencer
  | .gbar _ => some .sequencer
  | .grank _ _ => some .sequencer
  | .gsize _ _ => some .sequencer
  | .apxbegin _ _ _ => some .sequencer
  | .apxend _ _ _ => some .sequencer
  | .apxctlStart _ => some .sequencer
  | .apxctlStop _ => some .sequencer
  | .apxctlInval _ => some .sequencer
  | .apxctlRestart _ => some .sequencer
  | .apxq _ _ => some .sequencer
  | .trap _ => some .sequencer
  | .sregr _ _ => some .sequencer
  | .sregw _ _ => some .sequencer
  | .fence _ => some .sequencer
  | .cderive _ _ _ => some .sequencer
  | .candperm _ _ _ => some .sequencer
  | .cincr _ _ _ => some .sequencer
  | .csetcur _ _ _ => some .sequencer
  | .cseal _ _ _ => some .sequencer
  | .cunseal _ _ _ => some .sequencer
  | .cgetbase _ _ => some .sequencer
  | .cgetlen _ _ => some .sequencer
  | .cgetperm _ _ => some .sequencer
  | .cgettag _ _ => some .sequencer
  | .cmov _ _ => some .sequencer
  | .ctest _ _ _ => some .sequencer
  | .lds _ _ _ _ _ => some .sequencer
  | .sts _ _ _ _ _ => some .sequencer
  | .ldc _ _ _ _ => some .sequencer
  | .stc _ _ _ _ => some .sequencer
  | .ldq _ _ _ _ => some .sequencer
  | .stq _ _ _ _ => some .sequencer
  | .gather _ _ _ _ => some .sequencer
  | .scatter _ _ _ _ => some .sequencer
  | .amoadd _ _ _ _ _ => some .sequencer
  | .amoswap _ _ _ _ _ => some .sequencer
  | .amocas _ _ _ _ _ => some .sequencer
  | .amomin _ _ _ _ _ => some .sequencer
  | .amomax _ _ _ _ _ => some .sequencer
  | .amoand _ _ _ _ _ => some .sequencer
  | .amoor _ _ _ _ _ => some .sequencer
  | .bind _ _ => some .sequencer
  | .unbind _ _ => some .sequencer
  | .publish _ _ => some .sequencer
  | .syncinit _ => some .sequencer
  | .acqSh _ => some .sequencer
  | .acqEx _ => some .sequencer
  | .rel _ => some .sequencer
  | .revoke _ => some .sequencer
  | .vend _ => some .vector
  | .vshape _ _ _ => some .vector
  | .vadd _ _ _ _ _ _ _ => some .vector
  | .vsub _ _ _ _ _ _ _ => some .vector
  | .vmul _ _ _ _ _ _ _ => some .vector
  | .vfma _ _ _ _ _ _ _ => some .vector
  | .vmin _ _ _ _ _ _ _ => some .vector
  | .vmax _ _ _ _ _ _ _ => some .vector
  | .vabs _ _ _ _ _ => some .vector
  | .vneg _ _ _ _ _ => some .vector
  | .vcvt _ _ _ _ _ _ => some .vector
  | .vquant _ _ _ _ _ => some .vector
  | .vsacc _ _ _ _ _ _ => some .vector
  | .vexp _ _ _ _ _ => some .vector
  | .vrcp _ _ _ _ => some .vector
  | .vrsq _ _ _ _ => some .vector
  | .vred _ _ _ _ _ => some .vector
  | .vcmp _ _ _ _ _ _ _ => some .vector
  | .vsel _ _ _ _ _ _ => some .vector
  | .vpart _ _ _ _ _ => some .vector
  | .vperm _ _ _ _ _ _ => some .vector
  | .vshuf _ _ _ _ _ _ _ => some .vector
  | .vbcast _ _ _ _ _ _ => some .vector
  | .vsplat _ _ _ _ => some .vector
  | .viota _ _ => some .vector
  | .vand _ _ _ _ _ _ => some .vector
  | .vor _ _ _ _ _ _ => some .vector
  | .vxor _ _ _ _ _ _ => some .vector
  | .vnot _ _ _ _ => some .vector
  | .vshl _ _ _ _ _ _ => some .vector
  | .vshr _ _ _ _ _ _ => some .vector
  | .vsar _ _ _ _ _ _ => some .vector
  | .vpopc _ _ _ _ _ => some .vector
  | .vpushix _ _ _ _ => some .vector
  | .vpushc _ _ _ => some .vector
  | .vtopb8 _ _ _ _ => some .vector
  | .vshadd _ _ _ _ _ _ => some .vector
  | .vmov _ _ _ _ => some .vector
  | .mend _ => some .matrix
  | .mshape _ _ _ _ => some .matrix
  | .tfetch _ _ _ _ => some .matrix
  | .trel _ _ => some .matrix
  | .had _ _ _ => some .matrix
  | .acczero _ _ => some .matrix
  | .accrd _ _ _ _ => some .matrix
  | .accwr _ _ _ _ => some .matrix
  | .mwait _ => some .matrix
  | .mmulLb2 _ _ _ _ _ => some .matrix
  | .mmulLb3 _ _ _ _ _ => some .matrix
  | .mmulLb4 _ _ _ _ _ => some .matrix
  | .mmulLb5 _ _ _ _ _ => some .matrix
  | .mmulLb6 _ _ _ _ _ => some .matrix
  | .mmulLb7 _ _ _ _ _ => some .matrix
  | .mmulLb8 _ _ _ _ _ => some .matrix
  | .mmulI8 _ _ _ _ _ => some .matrix
  | .mmulE4m3 _ _ _ _ _ => some .matrix
  | .mmulE5m2 _ _ _ _ _ => some .matrix
  | .mmulFp16 _ _ _ _ _ => some .matrix
  | .mmulBf16 _ _ _ _ _ => some .matrix
  | .mmulFp32 _ _ _ _ _ => some .matrix
  | .mmulFp64 _ _ _ _ _ => some .matrix
  | .xloop _ => some .transfer
  | .xbound _ _ => some .transfer
  | .xsstr _ _ => some .transfer
  | .xdstr _ _ => some .transfer
  | .xsrc _ _ => some .transfer
  | .xdst _ _ => some .transfer
  | .xemit _ _ => some .transfer
  | .xprobe _ => some .transfer
  | .qload _ _ => some .stratus
  | .btld _ _ => some .stratus
  | .btgatherK _ _ => some .stratus
  | .btgatherV _ _ => some .stratus
  | .score _ => some .stratus
  | .pvacc _ => some .stratus
  | .merge _ _ => some .stratus
  | .mask _ => some .stratus
  | .loop _ _ => some .stratus
  | .brcnt _ => some .stratus
  | .lcset _ _ => some .stratus
  | .ostore _ _ => some .stratus
  | .jmp _ => some .stratus
  | .functionReady _ => none
  | .readinessLimitMissed _ => none
  | .functionFailedInService _ => none
  | .podPortReturnsToService _ => none
  | .configRecordApply _ _ => none
  | .registerWrite _ _ _ => none
  | .hashInit _ => none
  | .hashAbsorb _ => none
  | .hashSqueeze _ => none
  | .measurementExtend _ => none
  | .hartgo _ => none
  | .rndwRead _ _ => none
  | .mbxrlenRead _ => none
  | .mailboxRequestPending _ => none
  | .mbxslenSend _ => none
  | .monitorUpdate _ => none
  | .voltageFaultTimeout _ => none
  | .hostAccessRefused _ => none
  | .hostWriteWeightRegion _ => none
  | .revokeSweepComplete _ => none
  | .vectorWordCompletion _ => none
  | .tfetchLanded _ => none
  | .accrdWritesPerformed _ => none
  | .transferCopy _ => none
  | .deferredMemerr _ => none
  | .ageing _ => none
  | .bankModeSwitch _ _ => none
  | .bankSwitchComplete _ => none
  | .taskAdmission _ => none
  | .patienceExpiry _ => none
  | .weightRemoval _ => none
  | .imageRemoval _ => none
  | .ifrlenRead _ => none
  | .ifslenSend _ => none
  | .frozenRegisterWrite _ _ => none
  | .channelWordChange _ => none
  | .fresume _ => none
  | .s2resumeRetry _ => none
  | .s2resumeReflect _ => none
  | .s2resumeEnd _ => none
  | .accvalRead _ => none
  | .faultRingConfigWrite _ _ => none
  | .forwardedAccess _ => none
  | .forwardedAccessTimeout _ _ => none
  | .fabricPacketRefused _ => none
  | .doorbellWrite _ => none
  | .launchCompletion _ => none
  | .collectiveResult _ _ => none
  | .notAnInstruction _ => none
  | .uncorrectableSoftError _ => none
  | .managementHartException _ _ => none
  | .stratusFetchComplete _ => none
  | .ostoreWritesPerformed _ => none
  | .forwardedReply _ _ _ => none
  | .weightRegionRegistration _ _ _ => none
  | .imageAdmission _ _ => none
  | .powerOnReset => none
  | .moduleReset => none
  | .stage0 => none
  | .readychgClear => none
  | .falconVerify => none
  | .falconSign => none
  | .msnap => none
  | .getVersion => none
  | .getCapabilities => none
  | .negotiateAlgorithms => none
  | .getCertificate => none
  | .challenge => none
  | .getMeasurements => none
  | .unsupportedRequest => none
  | .updctlStage => none
  | .standbyFirstStage => none
  | .updctlHandoff => none
  | .stateTableImport => none
  | .handoffTimeout => none
  | .updctlAbort => none
  | .dbgctlNonce => none
  | .dbgctlOpen => none
  | .dbgctlClose => none
  | .debugNonceExpiry => none
  | .nop => some .sequencer
  | .eret => some .sequencer
  | .wfe => some .sequencer
  | .sev => some .sequencer
  | .qfence => some .sequencer
  | .mlease => some .sequencer
  | .mrelease => some .sequencer
  | .suspend => some .sequencer
  | .yield => some .sequencer
  | .retire => some .sequencer
  | .loadQueueFill => none
  | .arrayGrant => none
  | .leaseGrantLimit => none
  | .xend => some .transfer
  | .maxupd => some .stratus
  | .expq => some .stratus
  | .rescale => some .stratus
  | .wait => some .stratus
  | .done => some .stratus
  | .stratusBlockAccept => none
  | .pickup => none
  | .frameEdge => none
  | .forcedSuspend => none
  | .engineTrapDelivery => none
  | .runPass => none
  | .epilogueRun => none
  | .weightSetAdvertise => none
  | .regionExecutionComplete => none
  | .surrogateAnswer => none
  | .trainStep => none
  | .vfcmdLock => none
  | .vfcmdStart => none
  | .vfcmdStop => none
  | .lockInterface => none
  | .getInterfaceReport => none
  | .startInterface => none
  | .stopInterface => none
  | .getInterfaceState => none
  | .unknownInterfaceRequest => none
  | .commit => none
  | .preempt => none
  | .release => none
  | .partitionReset => none
  | .pcmdReclaim => none
  | .qexport => none
  | .qimport => none
  | .inv2 => none
  | .inv2w => none
  | .inv1 => none
  | .inv1c => none
  | .invalidationComplete => none
  | .migrate => none
  | .migrateCopy => none
  | .faultRingEntryWrite => none
  | .qctlMap => none
  | .qctlStop => none
  | .qctlUnmap => none
  | .launch => none
  | .signal => none
  | .waitsig => none
  | .waitsigReread => none
  | .collective => none
  | .bbcopy => none
  | .bbarm => none
  | .reclaim => none
  | .vfReset => none
  | .mret => none
  | .machineExternalInterrupt => none

/-- A word from its fixed bits and its fields, each with the place of its lowest bit. -/
def wordOf (fixed : Nat) : List (Nat × Nat) → Nat
  | [] => fixed
  | (x, lo) :: fs => wordOf (fixed + x * 2 ^ lo) fs

/-- The word of an instruction, from the encoding tables; none for an operation or event without an encoding. -/
def encode : Instr → Option Nat
  | .add d a b => some (wordOf 0x04000000 [(d.toNat, 21), (a.toNat, 16), (b.toNat, 11)])
  | .sub d a b => some (wordOf 0x04000001 [(d.toNat, 21), (a.toNat, 16), (b.toNat, 11)])
  | .mul d a b => some (wordOf 0x04000002 [(d.toNat, 21), (a.toNat, 16), (b.toNat, 11)])
  | .mulh d a b => some (wordOf 0x04000003 [(d.toNat, 21), (a.toNat, 16), (b.toNat, 11)])
  | .mulhu d a b => some (wordOf 0x04000004 [(d.toNat, 21), (a.toNat, 16), (b.toNat, 11)])
  | .div d a b => some (wordOf 0x04000005 [(d.toNat, 21), (a.toNat, 16), (b.toNat, 11)])
  | .divu d a b => some (wordOf 0x04000006 [(d.toNat, 21), (a.toNat, 16), (b.toNat, 11)])
  | .rem d a b => some (wordOf 0x04000007 [(d.toNat, 21), (a.toNat, 16), (b.toNat, 11)])
  | .remu d a b => some (wordOf 0x04000008 [(d.toNat, 21), (a.toNat, 16), (b.toNat, 11)])
  | .and d a b => some (wordOf 0x04000009 [(d.toNat, 21), (a.toNat, 16), (b.toNat, 11)])
  | .or d a b => some (wordOf 0x0400000a [(d.toNat, 21), (a.toNat, 16), (b.toNat, 11)])
  | .xor d a b => some (wordOf 0x0400000b [(d.toNat, 21), (a.toNat, 16), (b.toNat, 11)])
  | .shl d a b => some (wordOf 0x0400000c [(d.toNat, 21), (a.toNat, 16), (b.toNat, 11)])
  | .shr d a b => some (wordOf 0x0400000d [(d.toNat, 21), (a.toNat, 16), (b.toNat, 11)])
  | .sar d a b => some (wordOf 0x0400000e [(d.toNat, 21), (a.toNat, 16), (b.toNat, 11)])
  | .min d a b => some (wordOf 0x08000000 [(d.toNat, 21), (a.toNat, 16), (b.toNat, 11)])
  | .max d a b => some (wordOf 0x08000001 [(d.toNat, 21), (a.toNat, 16), (b.toNat, 11)])
  | .minu d a b => some (wordOf 0x08000002 [(d.toNat, 21), (a.toNat, 16), (b.toNat, 11)])
  | .maxu d a b => some (wordOf 0x08000003 [(d.toNat, 21), (a.toNat, 16), (b.toNat, 11)])
  | .sel d a b => some (wordOf 0x08000004 [(d.toNat, 21), (a.toNat, 16), (b.toNat, 11)])
  | .clz d a => some (wordOf 0x0c000000 [(d.toNat, 21), (a.toNat, 16)])
  | .popc d a => some (wordOf 0x0c000001 [(d.toNat, 21), (a.toNat, 16)])
  | .ffs d a => some (wordOf 0x0c000002 [(d.toNat, 21), (a.toNat, 16)])
  | .cmpCc d a b c => some (wordOf 0x10000000 [(d.toNat, 21), (a.toNat, 16), (b.toNat, 11), (c.toNat, 0)])
  | .acqst r s => some (wordOf 0x14000000 [(r.toNat, 4), (s.toNat, 0)])
  | .relst r s => some (wordOf 0x14000100 [(r.toNat, 4), (s.toNat, 0)])
  | .drain c => some (wordOf 0x18000000 [(c.toNat, 0)])
  | .pmtgive c => some (wordOf 0x18000010 [(c.toNat, 0)])
  | .pmtinit p c => some (wordOf 0x1c000000 [(p.toNat, 8), (c.toNat, 0)])
  | .addi d a i => some (wordOf 0x20000000 [(d.toNat, 21), (a.toNat, 16), (i.toNat, 0)])
  | .andi d a i => some (wordOf 0x24000000 [(d.toNat, 21), (a.toNat, 16), (i.toNat, 0)])
  | .ori d a i => some (wordOf 0x28000000 [(d.toNat, 21), (a.toNat, 16), (i.toNat, 0)])
  | .xori d a i => some (wordOf 0x2c000000 [(d.toNat, 21), (a.toNat, 16), (i.toNat, 0)])
  | .shli d a h => some (wordOf 0x30000000 [(d.toNat, 21), (a.toNat, 16), (h.toNat, 0)])
  | .shri d a h => some (wordOf 0x34000000 [(d.toNat, 21), (a.toNat, 16), (h.toNat, 0)])
  | .sari d a h => some (wordOf 0x38000000 [(d.toNat, 21), (a.toNat, 16), (h.toNat, 0)])
  | .movi d i => some (wordOf 0x3c000000 [(d.toNat, 21), (i.toNat, 0)])
  | .movhi d k i => some (wordOf 0x40000000 [(d.toNat, 21), (k.toNat, 16), (i.toNat, 0)])
  | .mbsend a c => some (wordOf 0x44000000 [(a.toNat, 16), (c.toNat, 0)])
  | .mbrecv d c => some (wordOf 0x48000000 [(d.toNat, 21), (c.toNat, 0)])
  | .bCc a b c o => some (wordOf 0x60000000 [(a.toNat, 21), (b.toNat, 16), (c.toNat, 13), (o.toNat, 0)])
  | .j o => some (wordOf 0x64000000 [(o.toNat, 0)])
  | .jal o => some (wordOf 0x68000000 [(o.toNat, 0)])
  | .loopst o => some (wordOf 0x6c000000 [(o.toNat, 0)])
  | .jr a => some (wordOf 0x70000000 [(a.toNat, 16)])
  | .stwin a n w => some (wordOf 0x74000000 [(a.toNat, 16), (n.toNat, 8), (w.toNat, 0)])
  | .vrun s o => some (wordOf 0x80000000 [(s.toNat, 20), (o.toNat, 0)])
  | .mrun s o => some (wordOf 0x81000000 [(s.toNat, 20), (o.toNat, 0)])
  | .xrun s o => some (wordOf 0x82000000 [(s.toNat, 20), (o.toNat, 0)])
  | .attngo s o => some (wordOf 0x83000000 [(s.toNat, 20), (o.toNat, 0)])
  | .cqpop d => some (wordOf 0x84000000 [(d.toNat, 21)])
  | .sweepq d => some (wordOf 0x84000001 [(d.toNat, 21)])
  | .spawn a => some (wordOf 0x88000000 [(a.toNat, 16)])
  | .submit a => some (wordOf 0x88000001 [(a.toNat, 16)])
  | .waitseq a b => some (wordOf 0x8c000000 [(a.toNat, 16), (b.toNat, 11)])
  | .gbar k => some (wordOf 0x90000000 [(k.toNat, 0)])
  | .grank d k => some (wordOf 0x94000000 [(d.toNat, 21), (k.toNat, 0)])
  | .gsize d k => some (wordOf 0x94000010 [(d.toNat, 21), (k.toNat, 0)])
  | .apxbegin n v i => some (wordOf 0x98000000 [(n.toNat, 12), (v.toNat, 6), (i.toNat, 0)])
  | .apxend n v i => some (wordOf 0x9c000000 [(n.toNat, 12), (v.toNat, 6), (i.toNat, 0)])
  | .apxctlStart i => some (wordOf 0xa0000000 [(i.toNat, 0)])
  | .apxctlStop i => some (wordOf 0xa0000040 [(i.toNat, 0)])
  | .apxctlInval i => some (wordOf 0xa0000080 [(i.toNat, 0)])
  | .apxctlRestart i => some (wordOf 0xa00000c0 [(i.toNat, 0)])
  | .apxq d i => some (wordOf 0xa4000000 [(d.toNat, 21), (i.toNat, 0)])
  | .trap i => some (wordOf 0xa8000000 [(i.toNat, 0)])
  | .sregr d n => some (wordOf 0xac000000 [(d.toNat, 21), (n.toNat, 0)])
  | .sregw a n => some (wordOf 0xb0000000 [(a.toNat, 16), (n.toNat, 0)])
  | .fence s => some (wordOf 0xb8000000 [(s.toNat, 0)])
  | .cderive d a b => some (wordOf 0xc0000000 [(d.toNat, 21), (a.toNat, 16), (b.toNat, 11)])
  | .candperm d a b => some (wordOf 0xc0000001 [(d.toNat, 21), (a.toNat, 16), (b.toNat, 11)])
  | .cincr d a b => some (wordOf 0xc0000002 [(d.toNat, 21), (a.toNat, 16), (b.toNat, 11)])
  | .csetcur d a b => some (wordOf 0xc0000003 [(d.toNat, 21), (a.toNat, 16), (b.toNat, 11)])
  | .cseal d a b => some (wordOf 0xc4000000 [(d.toNat, 21), (a.toNat, 16), (b.toNat, 11)])
  | .cunseal d a b => some (wordOf 0xc4000001 [(d.toNat, 21), (a.toNat, 16), (b.toNat, 11)])
  | .cgetbase d a => some (wordOf 0xc8000000 [(d.toNat, 21), (a.toNat, 16)])
  | .cgetlen d a => some (wordOf 0xc8000001 [(d.toNat, 21), (a.toNat, 16)])
  | .cgetperm d a => some (wordOf 0xc8000002 [(d.toNat, 21), (a.toNat, 16)])
  | .cgettag d a => some (wordOf 0xc8000003 [(d.toNat, 21), (a.toNat, 16)])
  | .cmov d a => some (wordOf 0xcc000000 [(d.toNat, 21), (a.toNat, 16)])
  | .ctest d a b => some (wordOf 0xd0000000 [(d.toNat, 21), (a.toNat, 16), (b.toNat, 11)])
  | .lds d a z f k => some (wordOf 0xd4000000 [(d.toNat, 21), (a.toNat, 16), (z.toNat, 13), (f.toNat, 11), (k.toNat, 0)])
  | .sts g a z f k => some (wordOf 0xd8000000 [(g.toNat, 21), (a.toNat, 16), (z.toNat, 13), (f.toNat, 11), (k.toNat, 0)])
  | .ldc d a f k => some (wordOf 0xdc000000 [(d.toNat, 21), (a.toNat, 16), (f.toNat, 11), (k.toNat, 0)])
  | .stc s a f k => some (wordOf 0xe0000000 [(s.toNat, 21), (a.toNat, 16), (f.toNat, 11), (k.toNat, 0)])
  | .ldq q a b f => some (wordOf 0xe4000000 [(q.toNat, 21), (a.toNat, 16), (b.toNat, 11), (f.toNat, 0)])
  | .stq q a b f => some (wordOf 0xe8000000 [(q.toNat, 21), (a.toNat, 16), (b.toNat, 11), (f.toNat, 0)])
  | .gather q a m z => some (wordOf 0xec000000 [(q.toNat, 21), (a.toNat, 16), (m.toNat, 11), (z.toNat, 0)])
  | .scatter q a m z => some (wordOf 0xf0000000 [(q.toNat, 21), (a.toNat, 16), (m.toNat, 11), (z.toNat, 0)])
  | .amoadd d a b w s => some (wordOf 0xf4000000 [(d.toNat, 21), (a.toNat, 16), (b.toNat, 11), (w.toNat, 8), (s.toNat, 4)])
  | .amoswap d a b w s => some (wordOf 0xf4000001 [(d.toNat, 21), (a.toNat, 16), (b.toNat, 11), (w.toNat, 8), (s.toNat, 4)])
  | .amocas d a b w s => some (wordOf 0xf4000002 [(d.toNat, 21), (a.toNat, 16), (b.toNat, 11), (w.toNat, 8), (s.toNat, 4)])
  | .amomin d a b w s => some (wordOf 0xf4000003 [(d.toNat, 21), (a.toNat, 16), (b.toNat, 11), (w.toNat, 8), (s.toNat, 4)])
  | .amomax d a b w s => some (wordOf 0xf4000004 [(d.toNat, 21), (a.toNat, 16), (b.toNat, 11), (w.toNat, 8), (s.toNat, 4)])
  | .amoand d a b w s => some (wordOf 0xf4000005 [(d.toNat, 21), (a.toNat, 16), (b.toNat, 11), (w.toNat, 8), (s.toNat, 4)])
  | .amoor d a b w s => some (wordOf 0xf4000006 [(d.toNat, 21), (a.toNat, 16), (b.toNat, 11), (w.toNat, 8), (s.toNat, 4)])
  | .bind a b => some (wordOf 0xf8000000 [(a.toNat, 16), (b.toNat, 11)])
  | .unbind a b => some (wordOf 0xf8000001 [(a.toNat, 16), (b.toNat, 11)])
  | .publish a b => some (wordOf 0xf8000002 [(a.toNat, 16), (b.toNat, 11)])
  | .syncinit a => some (wordOf 0xfc000000 [(a.toNat, 16)])
  | .acqSh a => some (wordOf 0xfc000001 [(a.toNat, 16)])
  | .acqEx a => some (wordOf 0xfc000002 [(a.toNat, 16)])
  | .rel a => some (wordOf 0xfc000003 [(a.toNat, 16)])
  | .revoke a => some (wordOf 0xfc000004 [(a.toNat, 16)])
  | .vend s => some (wordOf 0x04000000 [(s.toNat, 4)])
  | .vshape a s x => some (wordOf 0x08000000 [(a.toNat, 14), (s.toNat, 4), (x.toNat, 3)])
  | .vadd d a b s x y v => some (wordOf 0x10000000 [(d.toNat, 20), (a.toNat, 14), (b.toNat, 8), (s.toNat, 4), (x.toNat, 3), (y.toNat, 2), (v.toNat, 0)])
  | .vsub d a b s x y v => some (wordOf 0x14000000 [(d.toNat, 20), (a.toNat, 14), (b.toNat, 8), (s.toNat, 4), (x.toNat, 3), (y.toNat, 2), (v.toNat, 0)])
  | .vmul d a b s x y v => some (wordOf 0x18000000 [(d.toNat, 20), (a.toNat, 14), (b.toNat, 8), (s.toNat, 4), (x.toNat, 3), (y.toNat, 2), (v.toNat, 0)])
  | .vfma d a b s x y v => some (wordOf 0x1c000000 [(d.toNat, 20), (a.toNat, 14), (b.toNat, 8), (s.toNat, 4), (x.toNat, 3), (y.toNat, 2), (v.toNat, 0)])
  | .vmin d a b s x y v => some (wordOf 0x20000000 [(d.toNat, 20), (a.toNat, 14), (b.toNat, 8), (s.toNat, 4), (x.toNat, 3), (y.toNat, 2), (v.toNat, 0)])
  | .vmax d a b s x y v => some (wordOf 0x24000000 [(d.toNat, 20), (a.toNat, 14), (b.toNat, 8), (s.toNat, 4), (x.toNat, 3), (y.toNat, 2), (v.toNat, 0)])
  | .vabs d a s x v => some (wordOf 0x28000000 [(d.toNat, 20), (a.toNat, 14), (s.toNat, 4), (x.toNat, 3), (v.toNat, 0)])
  | .vneg d a s x v => some (wordOf 0x2c000000 [(d.toNat, 20), (a.toNat, 14), (s.toNat, 4), (x.toNat, 3), (v.toNat, 0)])
  | .vcvt d a f s x v => some (wordOf 0x30000000 [(d.toNat, 20), (a.toNat, 14), (f.toNat, 8), (s.toNat, 4), (x.toNat, 3), (v.toNat, 0)])
  | .vquant d a m s x => some (wordOf 0x34000000 [(d.toNat, 20), (a.toNat, 14), (m.toNat, 8), (s.toNat, 4), (x.toNat, 3)])
  | .vsacc d a b s x y => some (wordOf 0x38000000 [(d.toNat, 20), (a.toNat, 14), (b.toNat, 8), (s.toNat, 4), (x.toNat, 3), (y.toNat, 2)])
  | .vexp d a s x v => some (wordOf 0x3c000000 [(d.toNat, 20), (a.toNat, 14), (s.toNat, 4), (x.toNat, 3), (v.toNat, 0)])
  | .vrcp d a s x => some (wordOf 0x40000000 [(d.toNat, 20), (a.toNat, 14), (s.toNat, 4), (x.toNat, 3)])
  | .vrsq d a s x => some (wordOf 0x44000000 [(d.toNat, 20), (a.toNat, 14), (s.toNat, 4), (x.toNat, 3)])
  | .vred d a s x v => some (wordOf 0x48000000 [(d.toNat, 20), (a.toNat, 14), (s.toNat, 4), (x.toNat, 3), (v.toNat, 0)])
  | .vcmp d a b s x y v => some (wordOf 0x4c000000 [(d.toNat, 20), (a.toNat, 14), (b.toNat, 8), (s.toNat, 4), (x.toNat, 3), (y.toNat, 2), (v.toNat, 0)])
  | .vsel d a b s x y => some (wordOf 0x50000000 [(d.toNat, 20), (a.toNat, 14), (b.toNat, 8), (s.toNat, 4), (x.toNat, 3), (y.toNat, 2)])
  | .vpart d a s x v => some (wordOf 0x54000000 [(d.toNat, 20), (a.toNat, 14), (s.toNat, 4), (x.toNat, 3), (v.toNat, 0)])
  | .vperm d a b s x y => some (wordOf 0x58000000 [(d.toNat, 20), (a.toNat, 14), (b.toNat, 8), (s.toNat, 4), (x.toNat, 3), (y.toNat, 2)])
  | .vshuf d a b s x y v => some (wordOf 0x5c000000 [(d.toNat, 20), (a.toNat, 14), (b.toNat, 8), (s.toNat, 4), (x.toNat, 3), (y.toNat, 2), (v.toNat, 0)])
  | .vbcast d a b s x y => some (wordOf 0x60000000 [(d.toNat, 20), (a.toNat, 14), (b.toNat, 8), (s.toNat, 4), (x.toNat, 3), (y.toNat, 2)])
  | .vsplat d a s x => some (wordOf 0x64000000 [(d.toNat, 20), (a.toNat, 14), (s.toNat, 4), (x.toNat, 3)])
  | .viota d s => some (wordOf 0x68000000 [(d.toNat, 20), (s.toNat, 4)])
  | .vand d a b s x y => some (wordOf 0x6c000000 [(d.toNat, 20), (a.toNat, 14), (b.toNat, 8), (s.toNat, 4), (x.toNat, 3), (y.toNat, 2)])
  | .vor d a b s x y => some (wordOf 0x70000000 [(d.toNat, 20), (a.toNat, 14), (b.toNat, 8), (s.toNat, 4), (x.toNat, 3), (y.toNat, 2)])
  | .vxor d a b s x y => some (wordOf 0x74000000 [(d.toNat, 20), (a.toNat, 14), (b.toNat, 8), (s.toNat, 4), (x.toNat, 3), (y.toNat, 2)])
  | .vnot d a s x => some (wordOf 0x78000000 [(d.toNat, 20), (a.toNat, 14), (s.toNat, 4), (x.toNat, 3)])
  | .vshl d a b s x y => some (wordOf 0x7c000000 [(d.toNat, 20), (a.toNat, 14), (b.toNat, 8), (s.toNat, 4), (x.toNat, 3), (y.toNat, 2)])
  | .vshr d a b s x y => some (wordOf 0x80000000 [(d.toNat, 20), (a.toNat, 14), (b.toNat, 8), (s.toNat, 4), (x.toNat, 3), (y.toNat, 2)])
  | .vsar d a b s x y => some (wordOf 0x84000000 [(d.toNat, 20), (a.toNat, 14), (b.toNat, 8), (s.toNat, 4), (x.toNat, 3), (y.toNat, 2)])
  | .vpopc d a s x v => some (wordOf 0x88000000 [(d.toNat, 20), (a.toNat, 14), (s.toNat, 4), (x.toNat, 3), (v.toNat, 0)])
  | .vpushix a s x q => some (wordOf 0x8c000000 [(a.toNat, 14), (s.toNat, 4), (x.toNat, 3), (q.toNat, 0)])
  | .vpushc a s x => some (wordOf 0x90000000 [(a.toNat, 14), (s.toNat, 4), (x.toNat, 3)])
  | .vtopb8 d a s x => some (wordOf 0x94000000 [(d.toNat, 20), (a.toNat, 14), (s.toNat, 4), (x.toNat, 3)])
  | .vshadd d a b s x y => some (wordOf 0x98000000 [(d.toNat, 20), (a.toNat, 14), (b.toNat, 8), (s.toNat, 4), (x.toNat, 3), (y.toNat, 2)])
  | .vmov d a s x => some (wordOf 0x9c000000 [(d.toNat, 20), (a.toNat, 14), (s.toNat, 4), (x.toNat, 3)])
  | .mend s => some (wordOf 0x04000000 [(s.toNat, 22)])
  | .mshape s r c t => some (wordOf 0x08000000 [(s.toNat, 22), (r.toNat, 14), (c.toNat, 6), (t.toNat, 4)])
  | .tfetch s c t o => some (wordOf 0x0c000000 [(s.toNat, 22), (c.toNat, 18), (t.toNat, 16), (o.toNat, 0)])
  | .trel s t => some (wordOf 0x10000000 [(s.toNat, 22), (t.toNat, 16)])
  | .had s t z => some (wordOf 0x14000000 [(s.toNat, 22), (t.toNat, 16), (z.toNat, 14)])
  | .acczero s a => some (wordOf 0x18000000 [(s.toNat, 22), (a.toNat, 18)])
  | .accrd s a c o => some (wordOf 0x1c000000 [(s.toNat, 22), (a.toNat, 18), (c.toNat, 14), (o.toNat, 0)])
  | .accwr s a c o => some (wordOf 0x20000000 [(s.toNat, 22), (a.toNat, 18), (c.toNat, 14), (o.toNat, 0)])
  | .mwait s => some (wordOf 0x24000000 [(s.toNat, 22)])
  | .mmulLb2 s a x w c => some (wordOf 0x40000000 [(s.toNat, 22), (a.toNat, 18), (x.toNat, 16), (w.toNat, 14), (c.toNat, 13)])
  | .mmulLb3 s a x w c => some (wordOf 0x44000000 [(s.toNat, 22), (a.toNat, 18), (x.toNat, 16), (w.toNat, 14), (c.toNat, 13)])
  | .mmulLb4 s a x w c => some (wordOf 0x48000000 [(s.toNat, 22), (a.toNat, 18), (x.toNat, 16), (w.toNat, 14), (c.toNat, 13)])
  | .mmulLb5 s a x w c => some (wordOf 0x4c000000 [(s.toNat, 22), (a.toNat, 18), (x.toNat, 16), (w.toNat, 14), (c.toNat, 13)])
  | .mmulLb6 s a x w c => some (wordOf 0x50000000 [(s.toNat, 22), (a.toNat, 18), (x.toNat, 16), (w.toNat, 14), (c.toNat, 13)])
  | .mmulLb7 s a x w c => some (wordOf 0x54000000 [(s.toNat, 22), (a.toNat, 18), (x.toNat, 16), (w.toNat, 14), (c.toNat, 13)])
  | .mmulLb8 s a x w c => some (wordOf 0x58000000 [(s.toNat, 22), (a.toNat, 18), (x.toNat, 16), (w.toNat, 14), (c.toNat, 13)])
  | .mmulI8 s a x w c => some (wordOf 0x5c000000 [(s.toNat, 22), (a.toNat, 18), (x.toNat, 16), (w.toNat, 14), (c.toNat, 13)])
  | .mmulE4m3 s a x w c => some (wordOf 0x60000000 [(s.toNat, 22), (a.toNat, 18), (x.toNat, 16), (w.toNat, 14), (c.toNat, 13)])
  | .mmulE5m2 s a x w c => some (wordOf 0x64000000 [(s.toNat, 22), (a.toNat, 18), (x.toNat, 16), (w.toNat, 14), (c.toNat, 13)])
  | .mmulFp16 s a x w c => some (wordOf 0x68000000 [(s.toNat, 22), (a.toNat, 18), (x.toNat, 16), (w.toNat, 14), (c.toNat, 13)])
  | .mmulBf16 s a x w c => some (wordOf 0x6c000000 [(s.toNat, 22), (a.toNat, 18), (x.toNat, 16), (w.toNat, 14), (c.toNat, 13)])
  | .mmulFp32 s a x w c => some (wordOf 0x70000000 [(s.toNat, 22), (a.toNat, 18), (x.toNat, 16), (w.toNat, 14), (c.toNat, 13)])
  | .mmulFp64 s a x w c => some (wordOf 0x74000000 [(s.toNat, 22), (a.toNat, 18), (x.toNat, 16), (w.toNat, 14), (c.toNat, 13)])
  | .xloop l => some (wordOf 0x10000000 [(l.toNat, 25)])
  | .xbound l n => some (wordOf 0x20000000 [(l.toNat, 25), (n.toNat, 0)])
  | .xsstr l s => some (wordOf 0x30000000 [(l.toNat, 25), (s.toNat, 0)])
  | .xdstr l s => some (wordOf 0x40000000 [(l.toNat, 25), (s.toNat, 0)])
  | .xsrc c o => some (wordOf 0x50000000 [(c.toNat, 21), (o.toNat, 0)])
  | .xdst c o => some (wordOf 0x60000000 [(c.toNat, 21), (o.toNat, 0)])
  | .xemit c n => some (wordOf 0x70000000 [(c.toNat, 16), (n.toNat, 0)])
  | .xprobe c => some (wordOf 0x80000000 [(c.toNat, 16)])
  | .qload c o => some (wordOf 0x04008000 [(c.toNat, 12), (o.toNat, 0)])
  | .btld c o => some (wordOf 0x08008000 [(c.toNat, 12), (o.toNat, 0)])
  | .btgatherK c t => some (wordOf 0x0c008000 [(c.toNat, 12), (t.toNat, 8)])
  | .btgatherV c t => some (wordOf 0x0c008800 [(c.toNat, 12), (t.toNat, 8)])
  | .score t => some (wordOf 0x10000000 [(t.toNat, 8)])
  | .pvacc t => some (wordOf 0x1c000000 [(t.toNat, 8)])
  | .merge c o => some (wordOf 0x24008000 [(c.toNat, 12), (o.toNat, 0)])
  | .mask m => some (wordOf 0x28000000 [(m.toNat, 0)])
  | .loop t l => some (wordOf 0x2c000000 [(t.toNat, 16), (l.toNat, 14)])
  | .brcnt t => some (wordOf 0x30000000 [(t.toNat, 16)])
  | .lcset l n => some (wordOf 0x3c000000 [(l.toNat, 14), (n.toNat, 0)])
  | .ostore c o => some (wordOf 0x40008000 [(c.toNat, 12), (o.toNat, 0)])
  | .jmp t => some (wordOf 0x44000000 [(t.toNat, 16)])
  | .functionReady _ => none
  | .readinessLimitMissed _ => none
  | .functionFailedInService _ => none
  | .podPortReturnsToService _ => none
  | .configRecordApply _ _ => none
  | .registerWrite _ _ _ => none
  | .hashInit _ => none
  | .hashAbsorb _ => none
  | .hashSqueeze _ => none
  | .measurementExtend _ => none
  | .hartgo _ => none
  | .rndwRead _ _ => none
  | .mbxrlenRead _ => none
  | .mailboxRequestPending _ => none
  | .mbxslenSend _ => none
  | .monitorUpdate _ => none
  | .voltageFaultTimeout _ => none
  | .hostAccessRefused _ => none
  | .hostWriteWeightRegion _ => none
  | .revokeSweepComplete _ => none
  | .vectorWordCompletion _ => none
  | .tfetchLanded _ => none
  | .accrdWritesPerformed _ => none
  | .transferCopy _ => none
  | .deferredMemerr _ => none
  | .ageing _ => none
  | .bankModeSwitch _ _ => none
  | .bankSwitchComplete _ => none
  | .taskAdmission _ => none
  | .patienceExpiry _ => none
  | .weightRemoval _ => none
  | .imageRemoval _ => none
  | .ifrlenRead _ => none
  | .ifslenSend _ => none
  | .frozenRegisterWrite _ _ => none
  | .channelWordChange _ => none
  | .fresume _ => none
  | .s2resumeRetry _ => none
  | .s2resumeReflect _ => none
  | .s2resumeEnd _ => none
  | .accvalRead _ => none
  | .faultRingConfigWrite _ _ => none
  | .forwardedAccess _ => none
  | .forwardedAccessTimeout _ _ => none
  | .fabricPacketRefused _ => none
  | .doorbellWrite _ => none
  | .launchCompletion _ => none
  | .collectiveResult _ _ => none
  | .notAnInstruction _ => none
  | .uncorrectableSoftError _ => none
  | .managementHartException _ _ => none
  | .stratusFetchComplete _ => none
  | .ostoreWritesPerformed _ => none
  | .forwardedReply _ _ _ => none
  | .weightRegionRegistration _ _ _ => none
  | .imageAdmission _ _ => none
  | .powerOnReset => none
  | .moduleReset => none
  | .stage0 => none
  | .readychgClear => none
  | .falconVerify => none
  | .falconSign => none
  | .msnap => none
  | .getVersion => none
  | .getCapabilities => none
  | .negotiateAlgorithms => none
  | .getCertificate => none
  | .challenge => none
  | .getMeasurements => none
  | .unsupportedRequest => none
  | .updctlStage => none
  | .standbyFirstStage => none
  | .updctlHandoff => none
  | .stateTableImport => none
  | .handoffTimeout => none
  | .updctlAbort => none
  | .dbgctlNonce => none
  | .dbgctlOpen => none
  | .dbgctlClose => none
  | .debugNonceExpiry => none
  | .nop => some (wordOf 0xb4000000 [])
  | .eret => some (wordOf 0xb4000001 [])
  | .wfe => some (wordOf 0xb4000002 [])
  | .sev => some (wordOf 0xb4000003 [])
  | .qfence => some (wordOf 0xb4000004 [])
  | .mlease => some (wordOf 0xb4000005 [])
  | .mrelease => some (wordOf 0xb4000006 [])
  | .suspend => some (wordOf 0xb4000007 [])
  | .yield => some (wordOf 0xb4000008 [])
  | .retire => some (wordOf 0xb4000009 [])
  | .loadQueueFill => none
  | .arrayGrant => none
  | .leaseGrantLimit => none
  | .xend => some (wordOf 0x90000000 [])
  | .maxupd => some (wordOf 0x14000000 [])
  | .expq => some (wordOf 0x18000000 [])
  | .rescale => some (wordOf 0x20000000 [])
  | .wait => some (wordOf 0x34000000 [])
  | .done => some (wordOf 0x38000000 [])
  | .stratusBlockAccept => none
  | .pickup => none
  | .frameEdge => none
  | .forcedSuspend => none
  | .engineTrapDelivery => none
  | .runPass => none
  | .epilogueRun => none
  | .weightSetAdvertise => none
  | .regionExecutionComplete => none
  | .surrogateAnswer => none
  | .trainStep => none
  | .vfcmdLock => none
  | .vfcmdStart => none
  | .vfcmdStop => none
  | .lockInterface => none
  | .getInterfaceReport => none
  | .startInterface => none
  | .stopInterface => none
  | .getInterfaceState => none
  | .unknownInterfaceRequest => none
  | .commit => none
  | .preempt => none
  | .release => none
  | .partitionReset => none
  | .pcmdReclaim => none
  | .qexport => none
  | .qimport => none
  | .inv2 => none
  | .inv2w => none
  | .inv1 => none
  | .inv1c => none
  | .invalidationComplete => none
  | .migrate => none
  | .migrateCopy => none
  | .faultRingEntryWrite => none
  | .qctlMap => none
  | .qctlStop => none
  | .qctlUnmap => none
  | .launch => none
  | .signal => none
  | .waitsig => none
  | .waitsigReread => none
  | .collective => none
  | .bbcopy => none
  | .bbarm => none
  | .reclaim => none
  | .vfReset => none
  | .mret => none
  | .machineExternalInterrupt => none

/-- A word as it stands in memory: four bytes, least significant first (R8). -/
def wordBytes (w : Nat) : List Byte :=
  [BitVec.ofNat 8 w, BitVec.ofNat 8 (w / 2 ^ 8), BitVec.ofNat 8 (w / 2 ^ 16), BitVec.ofNat 8 (w / 2 ^ 24)]

/-- The word that bytes hold, least significant first (R8). -/
def bytesWord : List Byte → Nat
  | [] => 0
  | b :: bs => b.toNat + 256 * bytesWord bs

/-- The five readings in the order of the engines' numbers: the first engine whose map holds the word. -/
def firstReading (w : Nat) : Option Instr :=
  match decodeFor .sequencer w with
  | some i => some i
  | none =>
    match decodeFor .vector w with
    | some i => some i
    | none =>
      match decodeFor .matrix w with
      | some i => some i
      | none =>
        match decodeFor .transfer w with
        | some i => some i
        | none => decodeFor .stratus w

/-- The instruction read from the bits `w` of a row of `nbits` bits. The engines' maps overlap (0x0400_0000 is ADD,
VEND and MEND), so a word several maps hold is read for the engine of the lowest number (assumption log 6). -/
def decodeTableWord (nbits w : Nat) : Option Instr :=
  if nbits ≤ 32 then firstReading (bytesWord (wordBytes (w % 2 ^ nbits))) else none

end Sys2Proof
end

