-- ==== Sys2Proof/Machine/Sparse.lean ====
section
/-! DEFINITION. Association lists by number, in ascending order of the number: register files, tables and memories of
the machine are held in them as plain data. An absent number reads as the default the reader names. -/

namespace Sys2Proof.Machine

/-- A table by number, ascending; absent numbers stand for the default. -/
abbrev Sparse (α : Type) := List (Nat × α)

/-- What a number is bound to, if anything. -/
def Sparse.find? {α : Type} (k : Nat) : Sparse α → Option α
  | [] => none
  | (j, v) :: l => if j = k then some v else Sparse.find? k l

/-- What a number is bound to, the default where absent. -/
def Sparse.get {α : Type} (l : Sparse α) (d : α) (k : Nat) : α := (Sparse.find? k l).getD d

/-- Binds a number, keeping the order of numbers. -/
def Sparse.set {α : Type} (k : Nat) (v : α) : Sparse α → Sparse α
  | [] => [(k, v)]
  | (j, w) :: l =>
    if j = k then (k, v) :: l
    else if k < j then (k, v) :: (j, w) :: l
    else (j, w) :: Sparse.set k v l

/-- Removes a number. -/
def Sparse.erase {α : Type} (k : Nat) (l : Sparse α) : Sparse α := l.filter (fun p => p.1 != k)

/-- Changes what a number is bound to. -/
def Sparse.modify {α : Type} (d : α) (k : Nat) (f : α → α) (l : Sparse α) : Sparse α :=
  Sparse.set k (f (Sparse.get l d k)) l

/-- A set of numbers, ascending. -/
abbrev Marks := List Nat

/-- Adds a number to a set. -/
def Marks.add (k : Nat) : Marks → Marks
  | [] => [k]
  | j :: l => if j = k then j :: l else if k < j then k :: j :: l else j :: Marks.add k l

/-- Removes a number from a set. -/
def Marks.del (k : Nat) (l : Marks) : Marks := l.filter (fun j => j != k)

/-- Membership in a set. -/
def Marks.has (k : Nat) (l : Marks) : Bool := l.contains k

/-- Adds several numbers. -/
def Marks.addAll (ks : List Nat) (l : Marks) : Marks := ks.foldl (fun m k => Marks.add k m) l

/-- Removes several numbers. -/
def Marks.delAll (ks : List Nat) (l : Marks) : Marks := l.filter (fun j => !ks.contains j)

/-- Removes the numbers of [lo, hi). -/
def Marks.delRange (lo hi : Nat) (l : Marks) : Marks := l.filter (fun j => !(lo ≤ j && j < hi))

/-- The numbers lo, lo + 1, ..., lo + n − 1. -/
def upFrom (lo : Nat) : Nat → List Nat
  | 0 => []
  | n + 1 => lo :: upFrom (lo + 1) n

/-- Replaces element n of a list. -/
def listSet {α : Type} (v : α) : Nat → List α → List α
  | _, [] => []
  | 0, _ :: l => v :: l
  | n + 1, x :: l => x :: listSet v n l

/-- Removes element n of a list. -/
def listDrop {α : Type} : Nat → List α → List α
  | _, [] => []
  | 0, _ :: l => l
  | n + 1, x :: l => x :: listDrop n l

end Sys2Proof.Machine
end

