-- ==== Sys2Proof/Machine/CoreState.lean ====
section
/-! DEFINITION. The state of one core and of one cluster, as plain data: registers, queues, engines, array, Cumulus,
Stratus, stage rings, bank configuration, frame table (files 04, 05, 07 to 09, 12, 13, 16, 20). -/

namespace Sys2Proof.Machine

/-- The unit that acts in a step: which core, management hart, virtual function and queue, partition, port of the
translation commands (the Zenith's or a function's) and path of the debug registers. -/
structure Actor where
  core : Nat
  hart : HartId
  vf : Nat
  queue : Nat
  part : Nat
  /-- a translation or queue command comes from the Zenith, not from a function's page -/
  zenith : Bool
  /-- a debug command comes through the debug page, not through the window (R49) -/
  debugPage : Bool
  deriving DecidableEq, Repr

/-- Core 0, hart 0 of complex 0, function 0, queue 0, partition 0. -/
def Actor.first : Actor := ⟨0, ⟨0, 0⟩, 0, 0, 0, false, false⟩

/-- Who makes an access: partition, world, context (R307, R413). -/
structure Party where
  part : Nat
  world : Nat
  context : Nat
  deriving DecidableEq, Repr

/-- For whom a request to another module goes out: the party, and the capability that was checked, none for what the
device does of itself (R422). -/
structure Asker where
  party : Party
  cap : Option Cap
  deriving DecidableEq, Repr

/-- Where an access lands: a location of the memory, with the key its bytes are held under (R194), or a page of
another module (R415, R422), with the guest-physical page whose counter it adds to, as ACCSEL names it (R421, R423). -/
inductive Place where
  | here (loc : Nat) (key : Nat)
  | away (module : Nat) (addr : Nat) (page : Nat)
  deriving DecidableEq, Repr

/-- A continuation that runs on a core (R155, R156). -/
structure Running where
  /-- partition-physical address of the record -/
  record : Nat
  part : Nat
  world : Nat
  context : Nat
  image : Nat
  groups : List Nat
  cls : Nat
  isSealed : Bool
  /-- number of the launch that made it -/
  launch : Nat
  deriving DecidableEq, Repr

/-- The states of a fitted region (R114). -/
inductive FitState where
  | off | observe | train | shadow | serve | fallback | invalid
  deriving DecidableEq, Repr

/-- One execution of an approximable region (R112, R113, R394): its id, its registers, the state it sampled. -/
structure RegionRun where
  id : Nat
  firstIn : Nat
  nIn : Nat
  firstOut : Nat
  nOut : Nat
  sampled : FitState
  /-- a SERVE execution whose count, taken at its VRUN, is a multiple of 2^K: it runs and is compared -/
  checks : Bool
  /-- word offset of the bracketed block -/
  offset : Nat
  /-- the registers the block has written -/
  written : Marks
  /-- the inputs once read, and the lane format at the start of the block -/
  inputs : Option (List Vec × Nat)
  /-- APXEND has been issued -/
  closed : Bool
  /-- VEND has been reached, or the block is skipped -/
  ended : Bool
  /-- the surrogate alone answers -/
  skipped : Bool
  deriving DecidableEq, Repr

/-- The region sequence state (R112). -/
inductive RegionSeq where
  | closed
  | opened (r : RegionRun)
  | issued (r : RegionRun)
  deriving DecidableEq, Repr

/-- A queued vector or matrix block (R99): the offset of its next word, the stage sample, the capability snapshot. -/
structure Block where
  start : Nat
  next : Nat
  sample : BitVec 8
  snap : Sparse Cap
  image : Nat
  /-- an approximable region's block (R113) -/
  region : Option RegionRun
  /-- its ACCRDs have marked what they will write (R186) -/
  marked : Bool
  deriving DecidableEq, Repr

/-- The loop nest of a transfer block (R291): counts and strides of levels 0 to 5, source and destination. -/
structure Nest where
  top : Nat
  counts : List Nat
  sstr : List Int
  dstr : List Int
  src : Cap
  srcOff : Nat
  dst : Cap
  dstOff : Nat
  /-- snapshot register the source and the destination came from, for a later purge (R298) -/
  srcReg : Nat
  dstReg : Nat
  /-- bytes of the most recent XEMIT, 256 before any (R299) -/
  lastBytes : Nat
  deriving DecidableEq, Repr

/-- A translation a probe holds (R294): the page of the virtual address, the place of the page, for a write or not. -/
structure Hold where
  block : Nat
  vpage : Nat
  write : Bool
  place : Place
  /-- the XEMIT word whose copies need it; none: until the block retires (R299) -/
  emitWord : Option Nat
  /-- the guest-physical addresses that the translation depends on (R425); none for a page of a bank's window -/
  guests : List Nat
  /-- the page's bank has changed its mode since the probe (R193) -/
  stale : Bool
  deriving DecidableEq, Repr

/-- A queued transfer block (R99, R291). -/
structure XferBlock where
  start : Nat
  next : Nat
  ident : Nat
  snap : Sparse Cap
  image : Nat
  nest : Nest
  /-- its copies have marked what they will write (R186) -/
  marked : Bool
  deriving DecidableEq, Repr

/-- The copies of one XEMIT (R292): the nest as it stood, and the number of the next copy. -/
structure Emit where
  block : Nat
  word : Nat
  ch : Nat
  bytes : Nat
  nest : Nest
  next : Nat
  /-- a failing copy traps here and waits for ERET (R298) -/
  failed : Bool
  /-- the remaining copies are probed afresh before they go on (R298) -/
  reprobe : Bool
  /-- what they will write is marked (R186) -/
  marked : Bool
  deriving DecidableEq, Repr

/-- A queued Stratus block with its sampled start registers (R332). -/
structure StratBlock where
  start : Nat
  snap : Sparse Cap
  image : Nat
  cfg : Word64
  scl : Word64
  deriving DecidableEq, Repr

/-- Where a vector word's result goes (R201). -/
inductive VecDest where
  | reg (n : Nat)
  | store (q : Nat)
  | index (m : Nat) (ix : List Int)
  | count
  | nowhere
  deriving DecidableEq, Repr

/-- A vector word between start and completion (R201, R203). -/
structure VecFlight where
  dest : VecDest
  value : Vec
  /-- entry for cq (VPART, VPUSHC) -/
  post : Option Word64
  deriving DecidableEq, Repr

/-- The data of an LDQ or GATHER on its way into a load queue (R133). -/
structure LoadFlight where
  queue : Nat
  data : Vec
  deriving DecidableEq, Repr

/-- An engine trap held for the sequencer, with the cycle of its detection (R174). -/
structure HeldTrap where
  engine : Nat
  code : Nat
  info : Word64
  lane : Option Nat
  word : Nat
  cycle : Nat
  deriving DecidableEq, Repr

/-- The system registers a core keeps (R64, R96, R117, R171, R199, R322, R332, R383). -/
structure CoreSys where
  /-- STATUS.INH -/
  inh : Bool
  /-- STATUS.SCOPEDEMOTED -/
  demoted : Bool
  /-- STATUS.CLASS -/
  cls : Nat
  /-- STATUS.FULLST -/
  fullst : Bool
  /-- STATUS.PENDTRAP -/
  pendtrap : Bool
  /-- STATUS.LEASE: the sequencer's claim -/
  lease : Bool
  faultInfo : Word64
  faultAddr : Word64
  faultPc : BitVec 20
  trapvec : BitVec 20
  eretpc : BitVec 20
  abandon : Bool
  event : Bool
  evwatch : Word64
  stagewin : BitVec 8
  loopCount : BitVec 60
  loopDrain : Nat
  vshape : Nat
  apxRegion : BitVec 6
  apxIndex : BitVec 10
  attncfg : Word64
  attnscl : Word64
  upc : BitVec 10
  region : RegionSeq
  deriving DecidableEq, Repr

/-- A staging slot (R276): 256 rows of 1,024 bytes, a shape, a Hadamard mark, pinned lines. -/
structure Slot where
  rows : Nat
  cols : Nat
  bytes : Sparse Byte
  mark : Nat
  pins : Marks
  deriving DecidableEq, Repr

/-- The kind of the lanes of an accumulator tile (R284, R285). -/
inductive TileKind where
  | i40 | fp32 | fp64
  deriving DecidableEq, Repr

/-- An accumulator tile (R251, R285): lane (i, n) is number 256 i + n. -/
structure Tile where
  rows : Nat
  cols : Nat
  kind : TileKind
  lanes : Sparse Word64
  deriving DecidableEq, Repr

/-- The engines of a core: issue queues, work in flight, held traps (R99, R133, R173, R174, R201, R291, R294). -/
structure CoreEng where
  vecQ : List Block
  matQ : List Block
  xferQ : List XferBlock
  stratQ : List StratBlock
  vecFlight : List VecFlight
  loads : List LoadFlight
  emits : List Emit
  holds : List Hold
  heldTraps : List HeldTrap
  /-- engines stopped by a trap not yet resolved -/
  stopped : Marks
  /-- the engine whose trap the handler is serving, with the faulting word -/
  trapFrom : Option Nat
  nextIdent : Nat
  /-- slots and tiles of a save area that the first kept matrix word finds written back (R289, R380) -/
  restore : Option (Sparse Slot × Sparse Tile)
  deriving DecidableEq, Repr

/-- One core (R10, R204). Registers not listed hold zero; c registers not listed hold the null capability. -/
structure Core where
  g : Sparse Word64
  c : Sparse Cap
  v : Sparse Vec
  /-- the empty ones of v0 to v55 -/
  vEmpty : Marks
  lq : Sparse (List Vec)
  sq : Sparse (List Vec)
  iq : Sparse (List (List Int))
  cq : List Word64
  pc : Word64
  sys : CoreSys
  eng : CoreEng
  run : Option Running
  deriving DecidableEq, Repr

/-- A run of bytes of an access within one granule: its virtual address, its length, its place, and who asks. -/
structure Piece where
  va : Nat
  len : Nat
  place : Place
  asker : Asker
  deriving DecidableEq, Repr

/-- A matrix word whose array phase is over and whose memory traffic is not (R287): the contents that a TFETCH brings
into a slot, or the bytes that an ACCRD writes, with the virtual range it has marked as pending (R186). -/
inductive MatTraffic where
  | fetch (slot : Nat) (bytes : Sparse Byte)
  | store (tile : Nat) (pieces : List Piece) (bytes : List Byte) (range : Option (Nat × Nat))
  deriving DecidableEq, Repr

/-- A matrix word in flight, with its core and word offset (R252, R287), and the guest-physical addresses that its
translations depend on (R425). -/
structure MatFlight where
  core : Nat
  word : Nat
  what : MatTraffic
  guests : List Nat
  /-- the first virtual address of its access and the bytes it covers -/
  span : Nat × Nat
  deriving DecidableEq, Repr

/-- A block slot k0 to k7 of a Stratus unit (R333). -/
structure KSlot where
  rows : List (List Nat)
  kpos : Nat
  len : Nat
  deriving DecidableEq, Repr

/-- What a Stratus fetch brings into the unit's state, or the bytes an OSTORE writes (R334, R335). -/
inductive StratTraffic where
  | query (rows : List (List Nat)) (pos : List (BitVec 32))
  | table (entries : List (BitVec 32)) (base : Nat)
  | block (slot : Nat) (s : KSlot)
  | merge (records : List (List Byte))
  | store (bytes : List Byte)
  deriving DecidableEq, Repr

/-- What a memory microword asks for: its snapshot register, its first address, the bytes its capability check covers and
the bytes it moves (R335). -/
structure StratAsk where
  reg : Nat
  va : Int
  checks : Nat
  bytes : Nat
  deriving DecidableEq, Repr

/-- A memory microword that goes on beside later words: its address, what it asks for, the translated pieces it holds, none
where it is still to be issued again (R334, R342, R359). -/
structure StratFlight where
  word : Nat
  ask : StratAsk
  pieces : List Piece
  what : StratTraffic
  /-- the guest-physical addresses that its translations depend on (R425) -/
  guests : List Nat
  /-- a fetch that a suspension found not landed: it is issued again (R342) -/
  again : Bool
  deriving DecidableEq, Repr

/-- A block that runs on a Stratus unit (R333). -/
structure StratRun where
  core : Nat
  start : Nat
  next : Nat
  snap : Sparse Cap
  image : Nat
  cfg : Word64
  scl : Word64
  /-- the start registers have been checked (R332) -/
  checked : Bool
  q : List (List Nat)
  pos : List (BitVec 32)
  table : List (BitVec 32)
  tb : Nat
  tc : Nat
  bc : Nat
  slots : Sparse KSlot
  s : List (List (BitVec 32))
  p : List (List (BitVec 8))
  m : List (BitVec 32)
  l : List (BitVec 32)
  r : List (BitVec 32)
  o : List (List (BitVec 32))
  nan : List Bool
  empty : List Bool
  mm : Nat
  lc : List Nat
  traffic : List StratFlight
  /-- a SCORE waits for the array: the unit's own claim (R331) -/
  wants : Bool
  /-- its ATTNGO has marked what it may write (R186) -/
  marked : Bool
  /-- the translations that the present microword has made, while its bytes are on their way from another module, and
  the guest-physical addresses that they depend on (R359, R425) -/
  held : Option (List Piece × List Nat)
  deriving DecidableEq, Repr

/-- A task admitted by Cumulus (R259, R261). -/
structure CumTask where
  core : Nat
  part : Nat
  world : Nat
  context : Nat
  act : Cap
  res : Cap
  hash : BitVec 128
  weight : BitVec 64
  cls : Nat
  rows : Nat
  patience : Nat
  admitMode : Nat
  flush : Bool
  rfmt : Nat
  ctr : Nat
  seq : Word64
  /-- arithmetic-clock cycle of the admission -/
  born : Nat
  /-- the launch of the unit that submitted it (R443) -/
  launch : Nat
  deriving DecidableEq, Repr

/-- A submitted descriptor that has not reached Cumulus yet (R107). -/
structure Submit where
  core : Nat
  record : Nat
  part : Nat
  world : Nat
  context : Nat
  isSealed : Bool
  /-- virtual address of the descriptor, and its held translation -/
  va : Word64
  place : Place
  /-- the launch of the record -/
  launch : Nat
  deriving DecidableEq, Repr

/-- A holding list (R261); the world is part of the key for same-world tasks. -/
structure HoldList where
  hash : BitVec 128
  weight : BitVec 64
  cls : Nat
  world : Option Nat
  members : List CumTask
  deriving DecidableEq, Repr

/-- A member of a pass: its rows' accumulators and the results of its epilogue entries so far (R265, R266). -/
structure PassMember where
  task : CumTask
  acc : List (List Word64)
  /-- number of its epilogue entries -/
  entries : Nat
  /-- results of the entries already run -/
  results : List Vec
  /-- the rows are written, and writes to other modules wait for their acknowledgements (R267) -/
  written : Bool
  finished : Bool
  deriving DecidableEq, Repr

/-- A pass formed by a holding list (R262, R265). -/
structure Pass where
  members : List PassMember
  /-- words of its array phase that have run: a fetch for each member, the weight's fetch, the products (R257; log 92) -/
  next : Nat
  /-- lines of activations and weight pinned until the pass retires (R258) -/
  pins : Marks
  /-- cycle in which its next epilogue run entered (R266; log 106) -/
  due : Nat
  deriving DecidableEq, Repr

/-- An entry of a cluster's park buffer (R268): row tag, trap code, the address or cursor that failed. -/
structure ParkEntry where
  tag : BitVec 28
  code : Nat
  addr : Word64
  deriving DecidableEq, Repr

/-- Cumulus of one cluster (R255, R261, R268): its weight, holding lists, passes, descriptors on their way, its two
staging slots, which hold activation rows and weight columns by number (R251, R278), its park buffer, and its last act of
this cycle: the cycle and the core whose task it admitted, 1,024 for a patience that ended (R261, R262). -/
structure Cumulus where
  weight : Nat
  lists : List HoldList
  passes : List Pass
  submits : List Submit
  acts : Sparse (List Byte)
  weights : Sparse (List Byte)
  parked : List ParkEntry
  last : Nat × Nat
  deriving DecidableEq, Repr

/-- A stage ring (R143): length, full bits, owner records by stage. -/
structure Ring where
  len : Nat
  full : BitVec 16
  owners : Sparse Nat
  /-- the launch that configured it (R161) -/
  launch : Nat
  deriving DecidableEq, Repr

/-- A bank of an L2 slice (R189, R192): mode, world, a switch under way (target mode, writing world), FIFO entries. -/
structure Bank where
  mode : Nat
  world : Nat
  switching : Option (Nat × Nat)
  fifo : List Vec
  deriving DecidableEq, Repr

/-- An entry of a frame table (R372). -/
structure FrameEntry where
  owners : List Nat
  lexp : Nat
  last : Bool
  deriving DecidableEq, Repr

/-- The control store of a Stratus unit (R330): the partition and handle of the image it holds, its section's words. -/
structure ControlStore where
  part : Nat
  image : Nat
  words : List Nat
  deriving DecidableEq, Repr

/-- Who holds the array (R256): a core's blocks, the Stratus unit for a core (R331), or Cumulus. -/
inductive Holder where
  | core (n : Nat)
  | strat (n : Nat)
  | cumulus
  deriving DecidableEq, Repr

/-- One cluster (R251 to R257, R143, R189, R330 to R333, R372). Tables list only what differs from reset. -/
structure Cluster where
  slots : Sparse Slot
  tiles : Sparse Tile
  flights : List MatFlight
  /-- cores with a lease claim on the array, sequencer's or still ending (R101) -/
  claims : Marks
  /-- whom the array is granted to, and since which cycle (R101, R256) -/
  granted : Option Holder
  grantedAt : Nat
  /-- last granted position of the rotation (R256) -/
  position : Nat
  /-- step words run under the grant (R101) -/
  steps : Nat
  /-- world and partition of the last grant to a core's own blocks (R254) -/
  lastWorld : Option (Nat × Nat)
  cumulus : Cumulus
  strat : Option StratRun
  /-- blocks of resumed continuations that the unit accepts before any new one (R342) -/
  resumed : List StratRun
  store : Option ControlStore
  /-- core whose block the unit took last (R331) -/
  stratLast : Nat
  rings : Sparse Ring
  banks : Sparse Bank
  frames : List FrameEntry
  frame : Nat
  frameStart : Nat
  /-- handles of the regions whose training runs here, oldest first (R399) -/
  training : List Nat
  deriving DecidableEq, Repr

/-- The region sequence state, system registers and engines of a core that runs nothing. -/
def CoreSys.init : CoreSys :=
  { inh := false, demoted := false, cls := 0, fullst := false, pendtrap := false, lease := false, faultInfo := 0,
    faultAddr := 0, faultPc := 0, trapvec := 0, eretpc := 0, abandon := false, event := false, evwatch := 0,
    stagewin := 0, loopCount := 0, loopDrain := 0, vshape := 10, apxRegion := 0, apxIndex := 0,
    attncfg := 0, attnscl := 0, upc := 0, region := .closed }

/-- Engines with nothing queued and nothing in flight. -/
def CoreEng.init : CoreEng :=
  { vecQ := [], matQ := [], xferQ := [], stratQ := [], vecFlight := [], loads := [], emits := [], holds := [],
    heldTraps := [], stopped := [], trapFrom := none, nextIdent := 0, restore := none }

/-- A core after reset (R104, R121, R163, R204): every register zero, every vector register full, queues empty. -/
def Core.init : Core :=
  { g := [], c := [], v := [], vEmpty := [], lq := [], sq := [], iq := [], cq := [], pc := 0,
    sys := CoreSys.init, eng := CoreEng.init, run := none }

/-- A staging slot after reset (R276). -/
def Slot.init : Slot := { rows := 256, cols := 256, bytes := [], mark := 0, pins := [] }

/-- A tile after reset (R251, R285). -/
def Tile.init : Tile := { rows := 256, cols := 256, kind := .fp32, lanes := [] }

/-- Cumulus after reset (R255). -/
def Cumulus.init : Cumulus :=
  { weight := 0, lists := [], passes := [], submits := [], acts := [], weights := [], parked := [], last := (0, 0) }

/-- A ring that is not configured (R143). -/
def Ring.init : Ring := { len := 0, full := 0, owners := [], launch := 0 }

/-- A bank after reset: cache mode (R189). -/
def Bank.init : Bank := { mode := 0, world := 0, switching := none, fifo := [] }

/-- A cluster after reset. -/
def Cluster.init : Cluster :=
  { slots := [], tiles := [], flights := [], claims := [], granted := none, grantedAt := 0, position := 0, steps := 0,
    lastWorld := none, cumulus := Cumulus.init, strat := none, resumed := [], store := none, stratLast := 0, rings := [],
    banks := [], frames := [], frame := 0, frameStart := 0, training := [] }

end Sys2Proof.Machine
end

