-- ==== Sys2Proof/Machine/Bits.lean ====
section
/-! DEFINITION. Bit fields, sign extension and byte order (R8, R83). -/

namespace Sys2Proof.Machine

/-- Bits [lo + n − 1 : lo] of a number. -/
def bitsAt (x lo n : Nat) : Nat := x / 2 ^ lo % 2 ^ n

/-- Bit i of a number. -/
def bitAt (x i : Nat) : Bool := x / 2 ^ i % 2 = 1

/-- The low n bits of a number read as two's complement. -/
def signedOf (n x : Nat) : Int :=
  if x % 2 ^ n < 2 ^ (n - 1) then (x % 2 ^ n : Int) else (x % 2 ^ n : Int) - 2 ^ n

/-- Sext(x, n) of R83. -/
def sext64 (n x : Nat) : Word64 := BitVec.ofInt 64 (signedOf n x)

/-- An n-byte number as bytes, least significant first (R8). -/
def leBytes (x : Nat) : Nat → List Byte
  | 0 => []
  | n + 1 => BitVec.ofNat 8 x :: leBytes (x / 256) n

/-- Bytes as a number, least significant first (R8). -/
def leNat : List Byte → Nat
  | [] => 0
  | b :: bs => b.toNat + 256 * leNat bs

/-- n bytes of a list from offset o, padded with zeros. -/
def sliceB (o n : Nat) (l : List Byte) : List Byte :=
  let t := (l.drop o).take n
  t ++ List.replicate (n - t.length) 0

/-- The number in n bytes from offset o. -/
def numAt (o n : Nat) (l : List Byte) : Nat := leNat (sliceB o n l)

/-- A vector value from its bytes, and its bytes (R133). -/
def vecOfBytes (l : List Byte) : Vec := BitVec.ofNat 2048 (leNat l)

/-- The 256 bytes of a vector value. -/
def vecBytes (v : Vec) : List Byte := leBytes v.toNat 256

/-- Bit i of a 64-bit value placed as a number: b · 2^i. -/
def bitVal (b : Bool) (i : Nat) : Nat := if b then 2 ^ i else 0

/-- The number of the lowest one bit below n, or n (R89). -/
def lowestOne (x : Nat) : Nat → Nat → Nat
  | _, 0 => 64
  | i, k + 1 => if bitAt x i then i else lowestOne x (i + 1) k

/-- The number of one bits among the low n bits. -/
def onesOf (x : Nat) : Nat → Nat
  | 0 => 0
  | n + 1 => x % 2 + onesOf (x / 2) n

/-- The number of zero bits above the highest one bit among the low n bits; n when there is none. -/
def zerosAbove (x : Nat) : Nat → Nat
  | 0 => 0
  | n + 1 => if bitAt x n then 0 else zerosAbove x n + 1

/-- ⌈a / b⌉. -/
def ceilDiv (a b : Nat) : Nat := (a + b - 1) / b

/-- Rounds down to a multiple. -/
def floorTo (a b : Nat) : Nat := a / b * b

end Sys2Proof.Machine
end

