-- ==== Sys2Proof/Machine/Number.lean ====
section
/-! DEFINITION. Number formats and arithmetic (R67, R233 to R241, R243, R247, R224): exact values, the codes of each
format, the two roundings, sums and products, conversions. -/

namespace Sys2Proof.Machine

/-! ### Exact values -/

/-- An exact value: NaN, an infinity, or ±m·2^e; zero keeps its sign (R234, R240). -/
inductive FVal where
  | nan
  | inf (neg : Bool)
  | fin (neg : Bool) (m : Nat) (e : Int)
  deriving DecidableEq, Repr

/-- +0. -/
def FVal.zero : FVal := .fin false 0 0

/-- An integer as a value. -/
def FVal.ofInt (x : Int) : FVal := .fin (decide (x < 0)) x.natAbs 0

def FVal.isNan : FVal → Bool
  | .nan => true
  | _ => false

def FVal.isInf : FVal → Bool
  | .inf _ => true
  | _ => false

/-- Neither NaN nor infinite. -/
def FVal.isFinite : FVal → Bool
  | .fin _ _ _ => true
  | _ => false

/-- The sign; a NaN has none. -/
def FVal.sign : FVal → Bool
  | .nan => false
  | .inf n => n
  | .fin n _ _ => n

/-- The value with its sign inverted. -/
def FVal.neg : FVal → FVal
  | .nan => .nan
  | .inf n => .inf (!n)
  | .fin n m e => .fin (!n) m e

/-- The exact product; infinity times zero is NaN (R243). An exact zero keeps the exclusive or of the signs, which the manual
presupposes and nowhere states (R209, R240; DEDUCED, log 48). -/
def FVal.mul : FVal → FVal → FVal
  | .nan, _ => .nan
  | _, .nan => .nan
  | .inf n, .inf k => .inf (n != k)
  | .inf n, .fin k m _ => if m = 0 then .nan else .inf (n != k)
  | .fin n m _, .inf k => if m = 0 then .nan else .inf (n != k)
  | .fin n m e, .fin k j d => .fin (n != k) (m * j) (e + d)

/-- The lowest exponent of finite terms. -/
def lowestExp (d : Int) (l : List FVal) : Int :=
  l.foldl (fun a v => match v with | .fin _ m e => if m = 0 then a else min a e | _ => a) d

/-- A finite term in units of 2^d. -/
def FVal.units (d : Int) : FVal → Int
  | .fin n m e => if n then -((m : Int) * 2 ^ (e - d).toNat) else (m : Int) * 2 ^ (e - d).toNat
  | _ => 0

/-- The exact sum (R209, R215, R243): NaN with a NaN or both infinities; an exact zero is +0 unless every term is −0. -/
def FVal.sum (l : List FVal) : FVal :=
  if l.any FVal.isNan then .nan
  else if l.any (fun v => v = .inf false) && l.any (fun v => v = .inf true) then .nan
  else match l.find? FVal.isInf with
    | some v => v
    | none =>
      let d := lowestExp (match l.find? (fun v => match v with | .fin _ m _ => m != 0 | _ => false) with
        | some (.fin _ _ e) => e
        | _ => 0) l
      let t := (l.map (FVal.units d)).sum
      if t = 0 then .fin (!l.isEmpty && l.all FVal.sign) 0 0 else .fin (decide (t < 0)) t.natAbs d

/-- An exact zero as +0 (R240). -/
def FVal.plusZero : FVal → FVal
  | .fin n m e => .fin (n && m != 0) m e
  | v => v

/-- The exact sum under a rule that says nothing of a zero: it is +0 (R240). -/
def FVal.total (l : List FVal) : FVal := (FVal.sum l).plusZero

/-- Order of two values, −0 and +0 alike: −1, 0 or 1; NaN is not ordered. -/
def FVal.cmp (x y : FVal) : Option Int :=
  match x, y with
  | .nan, _ => none
  | _, .nan => none
  | .inf n, .inf k => some (if n = k then 0 else if n then -1 else 1)
  | .inf n, .fin _ _ _ => some (if n then -1 else 1)
  | .fin _ _ _, .inf k => some (if k then 1 else -1)
  | .fin n m e, .fin k j f =>
    let d := min e f
    let a := FVal.units d (.fin n m e)
    let b := FVal.units d (.fin k j f)
    some (if a < b then -1 else if a = b then 0 else 1)

/-! ### Rounding (R240) -/

/-- num / den to an integer: nearest with ties to even, or truncated. -/
def roundQ (rne : Bool) (num den : Nat) : Nat :=
  let q := num / den
  let r := num % den
  if rne && (decide (den < 2 * r) || (decide (2 * r = den) && decide (q % 2 = 1))) then q + 1 else q

/-- ⌊log2 (num / den)⌋, num not zero. -/
def floorLog (num den : Nat) : Int :=
  let l : Int := (Nat.log2 num : Int) - Nat.log2 den
  let below := if 0 ≤ l then decide (num < den * 2 ^ l.toNat) else decide (num * 2 ^ (-l).toNat < den)
  if below then l - 1 else l

/-- num / den in units of 2^k, as a fraction. -/
def inUnits (num den : Nat) (k : Int) : Nat × Nat :=
  if 0 ≤ k then (num, den * 2 ^ k.toNat) else (num * 2 ^ (-k).toNat, den)

/-- m·2^e as a fraction. -/
def asFraction (m : Nat) (e : Int) : Nat × Nat := if 0 ≤ e then (m * 2 ^ e.toNat, 1) else (m, 2 ^ (-e).toNat)

/-! ### Floating-point formats (R233, R234) -/

inductive FloatKind where
  | fp64 | fp32 | fp16 | bf16 | e5m2 | e4m3
  deriving DecidableEq, Repr

/-- Fraction bits. -/
def FloatKind.frac : FloatKind → Nat
  | .fp64 => 52
  | .fp32 => 23
  | .fp16 => 10
  | .bf16 => 7
  | .e5m2 => 2
  | .e4m3 => 3

/-- Exponent bits. -/
def FloatKind.exp : FloatKind → Nat
  | .fp64 => 11
  | .fp32 => 8
  | .fp16 => 5
  | .bf16 => 8
  | .e5m2 => 5
  | .e4m3 => 4

/-- The bias: half the exponent range less one. -/
def FloatKind.bias (k : FloatKind) : Nat := 2 ^ (k.exp - 1) - 1

/-- Bits of a code. -/
def FloatKind.width (k : FloatKind) : Nat := 1 + k.exp + k.frac

/-- The code of +infinity, in the formats that have one. -/
def FloatKind.infCode (k : FloatKind) : Nat := (2 ^ k.exp - 1) * 2 ^ k.frac

/-- The largest finite code. -/
def FloatKind.maxCode (k : FloatKind) : Nat := if k = .e4m3 then 0x7E else k.infCode - 1

/-- The canonical NaN. -/
def FloatKind.nanCode (k : FloatKind) : Nat := if k = .e4m3 then 0x7F else k.infCode + 2 ^ (k.frac - 1)

/-- The code of an overflow to nearest, without its sign: infinity, or in E4M3 the NaN (R234). -/
def FloatKind.overCode (k : FloatKind) : Nat := if k = .e4m3 then 0x7F else k.infCode

/-- Is a magnitude a NaN code? -/
def FloatKind.isNanCode (k : FloatKind) (c : Nat) : Bool := if k = .e4m3 then c = 0x7F else decide (k.infCode < c)

/-- The value of a code (R233). -/
def FloatKind.dec (k : FloatKind) (x : Nat) : FVal :=
  let c := x % 2 ^ (k.width - 1)
  let n := bitAt x (k.width - 1)
  let f := c % 2 ^ k.frac
  let e := c / 2 ^ k.frac
  if k.isNanCode c then .nan
  else if k ≠ .e4m3 ∧ c = k.infCode then .inf n
  else if e = 0 then .fin n f (1 - (k.bias : Int) - k.frac)
  else .fin n (2 ^ k.frac + f) ((e : Int) - k.bias - k.frac)

/-- The magnitude code of num / den rounded with unbounded exponent range; codes go on past the largest finite one. -/
def FloatKind.roundMag (k : FloatKind) (rne : Bool) (num den : Nat) : Nat :=
  if num = 0 then 0
  else
    let lo : Int := 1 - (k.bias : Int) - k.frac
    let u := max lo (floorLog num den - k.frac)
    let q := inUnits num den u
    (u - lo).toNat * 2 ^ k.frac + roundQ rne q.1 q.2

/-- A magnitude code with its sign. -/
def FloatKind.signed (k : FloatKind) (n : Bool) (c : Nat) : Nat := c + bitVal n (k.width - 1)

/-- The code of ±num / den (R240); `sat`: an overflow gives the largest finite value. -/
def FloatKind.encQ (k : FloatKind) (rne sat : Bool) (n : Bool) (num den : Nat) : Nat :=
  let c := k.roundMag rne num den
  k.signed n (if k.maxCode < c then (if rne && !sat then k.overCode else k.maxCode) else c)

/-- The code of a value (R240); `sat`: infinities too give the largest finite value. -/
def FloatKind.enc (k : FloatKind) (rne sat : Bool) : FVal → Nat
  | .nan => k.nanCode
  | .inf n => k.signed n (if sat then k.maxCode else k.overCode)
  | .fin n m e => let q := asFraction m e; k.encQ rne sat n q.1 q.2

/-- RoundRNE to a code. -/
def FloatKind.rne (k : FloatKind) (v : FVal) : Nat := k.enc true false v

/-- RoundRNE as a value. -/
def FloatKind.rneVal (k : FloatKind) (v : FVal) : FVal := k.dec (k.rne v)

/-- Changes a code's sign bit only (R209). -/
def FloatKind.clearSign (k : FloatKind) (x : Nat) : Nat := x % 2 ^ (k.width - 1)
def FloatKind.flipSign (k : FloatKind) (x : Nat) : Nat :=
  k.signed (!bitAt x (k.width - 1)) (x % 2 ^ (k.width - 1))

/-! ### LS20 and PB8 (R236, R238, R239, R247) -/

/-- The value of an LS20 code: E = 0 is zero, E = 255 reads as the largest. -/
def ls20Dec (x : Nat) : FVal :=
  let e := bitsAt x 12 8
  if e = 0 then .zero
  else if e = 255 then .fin false 8191 (254 - 139)
  else .fin false (4096 + x % 4096) ((e : Int) - 139)

/-- The largest LS20 code. -/
def ls20Max : Nat := 0xFEFFF

/-- A positive value to LS20: nearest with ties to even F, or towards zero; below 2^−126 the grid is 0 and 2^−126. -/
def ls20Enc (rne : Bool) (num den : Nat) : Nat :=
  if num = 0 then 0
  else
    let l := floorLog num den
    if l < -126 then (if rne && l = -127 then 0x1000 else 0)
    else
      let q := inUnits num den (l - 12)
      min ((l + 126).toNat * 4096 + roundQ rne q.1 q.2) ls20Max

/-- The smallest LS20 value that is not below a positive value; the largest when none is (R211). -/
def ls20Above (num den : Nat) : Nat :=
  let l := floorLog num den
  if l < -126 then 0x1000
  else
    let q := inUnits num den (l - 12)
    min ((l + 126).toNat * 4096 + ceilDiv q.1 q.2) ls20Max

/-- The value of a PB8 code. -/
def pb8Dec (x : Nat) : FVal :=
  let c := x % 256
  if c = 0xFF then .zero else .fin false (4 + c % 4) (-(c / 4 : Int) - 2)

/-- A positive value to PB8 (R224, R247). -/
def pb8Enc (rne : Bool) (num den : Nat) : Nat :=
  if num = 0 then 0xFF
  else if 7 * den ≤ 4 * num then 0x03
  else
    let l := floorLog num den
    if l < -63 then (if rne && l = -64 then 0xFC else 0xFF)
    else
      let q := inUnits num den (l - 2)
      let n := (l + 63).toNat * 4 + roundQ rne q.1 q.2 - 4
      let n := if n = 3 then (if rne && l = -63 && decide (7 * q.2 ≤ q.1) then 4 else 2) else n
      (63 - n / 4) * 4 + n % 4

/-! ### Lane formats (R67) -/

inductive Fmt where
  | sint (w : Nat)
  | uint (w : Nat)
  | flt (k : FloatKind)
  | pb8
  | ls20
  deriving DecidableEq, Repr

/-- The format of a code. -/
def fmtOf (c : Nat) : Fmt :=
  match c with
  | 0 => .sint 8
  | 1 => .sint 16
  | 2 => .sint 32
  | 3 => .sint 64
  | 4 => .uint 8
  | 5 => .uint 16
  | 6 => .uint 32
  | 7 => .uint 64
  | 8 => .flt .fp16
  | 9 => .flt .bf16
  | 10 => .flt .fp32
  | 11 => .flt .fp64
  | 12 => .flt .e4m3
  | 13 => .flt .e5m2
  | 14 => .pb8
  | _ => .ls20

/-- ElemBits (R83). -/
def Fmt.bits : Fmt → Nat
  | .sint w => w
  | .uint w => w
  | .flt k => k.width
  | .pb8 => 8
  | .ls20 => 32

/-- Lanes of a 2,048-bit register. -/
def Fmt.lanes (f : Fmt) : Nat := 2048 / f.bits

def Fmt.isInt : Fmt → Bool
  | .sint _ => true
  | .uint _ => true
  | _ => false

def Fmt.isFloat : Fmt → Bool
  | .flt _ => true
  | _ => false

/-- The range of an integer format. -/
def Fmt.lo : Fmt → Int
  | .sint w => -(2 ^ (w - 1))
  | _ => 0

def Fmt.hi : Fmt → Int
  | .sint w => 2 ^ (w - 1) - 1
  | .uint w => 2 ^ w - 1
  | _ => 0

/-- An integer lane's value. -/
def Fmt.int (f : Fmt) (x : Nat) : Int :=
  match f with
  | .sint w => signedOf w x
  | _ => (x % 2 ^ f.bits : Nat)

/-- Sat (R83). -/
def sat (x lo hi : Int) : Int := if x < lo then lo else if hi < x then hi else x

/-- The exact value of a lane (R239, R247). -/
def Fmt.dec (f : Fmt) (x : Nat) : FVal :=
  match f with
  | .flt k => k.dec x
  | .pb8 => pb8Dec x
  | .ls20 => ls20Dec x
  | _ => FVal.ofInt (f.int x)

/-- An integer's lane. -/
def wrapInt (w : Nat) (x : Int) : Nat := (x % 2 ^ w).toNat

/-- A finite value rounded to an integer (R240). -/
def roundInt (rne : Bool) (n : Bool) (m : Nat) (e : Int) : Int :=
  let q := asFraction m e
  let i := roundQ rne q.1 q.2
  if n then -(i : Int) else i

/-- A value to a lane of format t (R247). -/
def Fmt.enc (t : Fmt) (rne saturate : Bool) (v : FVal) : Nat :=
  match t with
  | .flt k => k.enc rne saturate v
  | .pb8 =>
    match v with
    | .nan => 0xFF
    | .inf n => if n then 0xFF else 0x03
    | .fin n m e => if n then 0xFF else let q := asFraction m e; pb8Enc rne q.1 q.2
  | .ls20 =>
    match v with
    | .nan => 0
    | .inf n => if n then 0 else ls20Max
    | .fin n m e => if n then 0 else let q := asFraction m e; ls20Enc rne q.1 q.2
  | _ =>
    match v with
    | .nan => 0
    | .inf n => wrapInt t.bits (if n then t.lo else t.hi)
    | .fin n m e => wrapInt t.bits (sat (roundInt rne n m e) t.lo t.hi)

/-- Convert of R210 and R247: integer to integer without .sat keeps the low bits. -/
def convert (f t : Fmt) (rne saturate : Bool) (x : Nat) : Nat :=
  if f.isInt && t.isInt && !saturate then wrapInt t.bits (f.int x) else t.enc rne saturate (f.dec x)

/-! ### Exponentials, reciprocals, roots (R214) -/

/-- Bits of the fixed-point values that the functions below work with. -/
def fixBits : Nat := 400

/-- Σ of the series of 2^bits · atanh(1/n), k terms. -/
def atanhFrom (n : Nat) (p : Nat) (i : Nat) : Nat → Nat
  | 0 => 0
  | k + 1 => p / i + atanhFrom n (p / (n * n)) (i + 2) k

/-- ln 2 in units of 2^−fixBits: 18·atanh(1/26) − 2·atanh(1/4801) + 8·atanh(1/8749). -/
def fixLn2 : Nat :=
  18 * atanhFrom 26 (2 ^ fixBits / 26) 1 48 - 2 * atanhFrom 4801 (2 ^ fixBits / 4801) 1 20
    + 8 * atanhFrom 8749 (2 ^ fixBits / 8749) 1 18

/-- The Taylor series of e^r from term i on, r and the result in units of 2^−fixBits. -/
def expFrom (r term i : Nat) : Nat → Nat
  | 0 => 0
  | k + 1 => term + expFrom r (term * r / 2 ^ fixBits / i) (i + 1) k

/-- e^r for 0 ≤ r < 1. -/
def fixExp (r : Nat) : Nat := expFrom r (2 ^ fixBits) 1 90

/-- Floor of m·2^e in units of 2^−fixBits. -/
def fixOf (m : Nat) (e : Int) : Nat := let q := asFraction m (e + fixBits); q.1 / q.2

/-- 2^n · f / 2^fixBits as a fraction, f made odd so that it never lies on a representable value or a tie. -/
def scaledResult (n : Int) (f : Nat) : Nat × Nat :=
  let e : Int := n - fixBits - 1
  asFraction (2 * f + 1) e

/-- The magnitude of e^x or 2^x for finite x (R214): exact where the value is, else within 2^−380 of it and never on a
tie, which no such value meets. -/
def expQ (base2 : Bool) (n : Bool) (m : Nat) (e : Int) : Nat × Nat :=
  if m = 0 then (1, 1)
  else if 0 ≤ e + Nat.log2 m - 12 then asFraction 1 (if n then -4096 else 4096)
  else
    let x : Nat := fixOf m e
    if base2 then
      let i := x / 2 ^ fixBits
      if 0 ≤ e ∨ m % 2 ^ (-e).toNat = 0 then asFraction 1 (if n then -(i : Int) else i)
      else if n then
        let f := 2 ^ fixBits - 1 - x % 2 ^ fixBits
        scaledResult (-(i : Int) - 1) (fixExp (f * fixLn2 / 2 ^ fixBits))
      else scaledResult i (fixExp (x % 2 ^ fixBits * fixLn2 / 2 ^ fixBits))
    else if n then
      let i := x / fixLn2
      scaledResult (-(i : Int) - 1) (fixExp (fixLn2 - 1 - x % fixLn2))
    else scaledResult (x / fixLn2) (fixExp (x % fixLn2))

/-- Integer square root by bits from the top. -/
def sqrtFrom (n r : Nat) : Nat → Nat
  | 0 => r
  | k + 1 => if (r + 2 ^ k) * (r + 2 ^ k) ≤ n then sqrtFrom n (r + 2 ^ k) k else sqrtFrom n r k

/-- 1 / √(m·2^e): exact where the root is, else never on a tie (R214). -/
def rsqrtQ (m : Nat) (e : Int) : Nat × Nat :=
  let odd := e % 2 ≠ 0
  let m' := if odd then 2 * m else m
  let h : Int := (if odd then e - 1 else e) / 2
  let y := 2 ^ 512 / m'
  let r := sqrtFrom y 0 257
  if r * r * m' = 2 ^ 512 then asFraction r (-h - 256) else asFraction (2 * r + 1) (-h - 257)

/-- VEXP of a value (R214). -/
def FloatKind.expOf (k : FloatKind) (base2 : Bool) : FVal → Nat
  | .nan => k.nanCode
  | .inf n => if n then 0 else k.overCode
  | .fin n m e => let q := expQ base2 n m e; k.encQ true false false q.1 q.2

/-- VRCP of a value (R214). -/
def FloatKind.rcpOf (k : FloatKind) : FVal → Nat
  | .nan => k.nanCode
  | .inf n => k.signed n 0
  | .fin n m e =>
    if m = 0 then k.signed n k.overCode else let q := asFraction m e; k.encQ true false n q.2 q.1

/-- VRSQ of a value (R214). -/
def FloatKind.rsqOf (k : FloatKind) : FVal → Nat
  | .nan => k.nanCode
  | .inf n => if n then k.nanCode else 0
  | .fin n m e =>
    if m = 0 then k.signed n k.overCode
    else if n then k.nanCode
    else let q := rsqrtQ m e; k.encQ true false false q.1 q.2

end Sys2Proof.Machine
end

