-- ==== Sys2Proof/Machine/Lanes.lean ====
section
/-! DEFINITION. What each vector word computes from the values of its sources (R199, R208 to R225): lanes in, lanes
out. -/

namespace Sys2Proof.Machine

/-- The lanes of w bits of a register (R83). -/
def lanesOf (w : Nat) (v : Vec) : List Nat := (upFrom 0 (2048 / w)).map (fun i => bitsAt v.toNat (w * i) w)

/-- Lanes of w bits as one number, lane 0 lowest. -/
def packNat (w : Nat) (l : List Nat) : Nat := l.foldr (fun x acc => x % 2 ^ w + 2 ^ w * acc) 0

/-- A register from lanes of w bits; missing lanes are zero. -/
def packLanes (w : Nat) (l : List Nat) : Vec := BitVec.ofNat 2048 (packNat w l)

/-- Lane-wise functions of one, two and three registers. -/
def mapLanes (w : Nat) (f : Nat → Nat) (a : Vec) : Vec := packLanes w ((lanesOf w a).map f)
def zipLanes (w : Nat) (f : Nat → Nat → Nat) (a b : Vec) : Vec := packLanes w (List.zipWith f (lanesOf w a) (lanesOf w b))
def zip3Lanes (w : Nat) (f : Nat → Nat → Nat → Nat) (d a b : Vec) : Vec :=
  packLanes w (List.zipWith (fun x g => g x) (lanesOf w d)
    (List.zipWith (fun y z => fun x => f x y z) (lanesOf w a) (lanesOf w b)))

/-! ### Integer and float lanes (R208, R209) -/

/-- The exact result of an integer lane, saturated or modulo 2^w. -/
def intResult (f : Fmt) (saturate : Bool) (x : Int) : Nat := wrapInt f.bits (if saturate then sat x f.lo f.hi else x)

/-- The arithmetic words on integers, by code: 0 VADD, 1 VSUB, 2 VMUL. -/
inductive Arith where
  | add | sub | mul
  deriving DecidableEq, Repr

/-- The exact integer result. -/
def Arith.int (o : Arith) (x y : Int) : Int :=
  match o with
  | .add => x + y
  | .sub => x - y
  | .mul => x * y

/-- The exact real result. -/
def Arith.real (o : Arith) (x y : FVal) : FVal :=
  match o with
  | .add => FVal.sum [x, y]
  | .sub => FVal.sum [x, y.neg]
  | .mul => x.mul y

/-- VADD, VSUB, VMUL on a lane, variant 0 or .sat (R208, R209); the sign of a zero product: log 48 (DEDUCED). -/
def arithLane (o : Arith) (f : Fmt) (saturate : Bool) (x y : Nat) : Nat :=
  match f with
  | .flt k => k.enc true saturate (o.real (k.dec x) (k.dec y))
  | _ => intResult f saturate (o.int (f.int x) (f.int y))

/-- VMUL.hi (R208). -/
def mulHiLane (f : Fmt) (x y : Nat) : Nat := wrapInt f.bits (f.int x * f.int y / 2 ^ f.bits)

/-- VFMA and its .neg form (R208, R209). -/
def fmaLane (f : Fmt) (negate : Bool) (d x y : Nat) : Nat :=
  match f with
  | .flt k =>
    let p := (k.dec x).mul (k.dec y)
    k.rne (FVal.sum [k.dec d, if negate then p.neg else p])
  | _ => wrapInt f.bits (if negate then f.int d - f.int x * f.int y else f.int d + f.int x * f.int y)

/-- Order of two float codes with −0 below +0 (R209, R215). -/
def floatLe (k : FloatKind) (x y : Nat) : Bool :=
  match (k.dec x).cmp (k.dec y) with
  | some c => if c = 0 then (k.dec x).sign || !(k.dec y).sign else decide (c < 0)
  | none => false

/-- VMIN and VMAX on a lane (R208, R209). -/
def minMaxLane (f : Fmt) (max num : Bool) (x y : Nat) : Nat :=
  match f with
  | .flt k =>
    let nx := (k.dec x).isNan
    let ny := (k.dec y).isNan
    if nx && ny || ((nx || ny) && !num) then k.nanCode
    else if nx then y
    else if ny then x
    else if floatLe k x y != max then x else y
  | _ => if decide (f.int x ≤ f.int y) != max then x else y

/-- VABS on a lane (R208, R209). -/
def absLane (f : Fmt) (saturate : Bool) (x : Nat) : Nat :=
  match f with
  | .flt k => k.clearSign x
  | _ => intResult f saturate (if f.int x < 0 then -(f.int x) else f.int x)

/-- VNEG on a lane (R208, R209). -/
def negLane (f : Fmt) (saturate : Bool) (x : Nat) : Nat :=
  match f with
  | .flt k => k.flipSign x
  | _ => intResult f saturate (-(f.int x))

/-! ### Conversion and quantisation (R210, R211, R213) -/

/-- VCVT (R210): lanes min(Ls, Lt) and above of the target are zero. -/
def cvtVec (f t : Fmt) (var : Nat) (a : Vec) : Vec :=
  packLanes t.bits (((lanesOf f.bits a).take t.lanes).map (convert f t (var % 2 = 0) (decide (2 ≤ var))))

/-- A lane of VQUANT: NaN counts as 0, infinities as the largest finite value (R211). -/
def quantValue (k : FloatKind) (x : Nat) : FVal :=
  match k.dec x with
  | .nan => .zero
  | .inf n => k.dec (k.signed n k.maxCode)
  | v => v

/-- The magnitude of a finite value as a fraction over 2^−d. -/
def magUnits (d : Int) (v : FVal) : Nat := (FVal.units d v).natAbs

/-- VQUANT on a block of 32 lanes: its mantissas and its scale code (R211). -/
def quantBlock (k : FloatKind) (m : Nat) (xs : List Nat) : List Int × Nat :=
  let vs := xs.map (quantValue k)
  let q := 2 ^ (m - 1) - 1
  let d := lowestExp (1 - (k.bias : Int) - k.frac) vs
  let amax := (vs.map (magUnits d)).foldl max 0
  if amax = 0 then (xs.map (fun _ => 0), 0)
  else
    let r := asFraction amax d
    let code := ls20Above r.1 (r.2 * q)
    match ls20Dec code with
    | .fin _ sm se =>
      (vs.map (fun v =>
        let y := asFraction (magUnits d v) (d - se)
        let i : Int := roundQ true y.1 (y.2 * sm)
        sat (if v.sign then -i else i) (-q) q), code)
    | _ => (xs.map (fun _ => 0), 0)

/-- A list in runs of n, at most k of them. -/
def chunksOf {α : Type} (n : Nat) (l : List α) : Nat → List (List α)
  | 0 => []
  | k + 1 => if l.isEmpty then [] else l.take n :: chunksOf n (l.drop n) k

/-- VQUANT (R211): mantissas in I8 lanes, scales in 32-bit lanes from lane 32. -/
def quantVec (f : Fmt) (m : Nat) (a : Vec) : Vec :=
  match f with
  | .flt k =>
    let bs := (chunksOf 32 (lanesOf k.width a) 64).map (quantBlock k m)
    let bytes := (bs.map (fun b => b.1.map (wrapInt 8))).flatten
    BitVec.ofNat 2048 (packNat 8 bytes + 2 ^ 1024 * packNat 32 (bs.map Prod.snd))
  | _ => 0

/-- VSACC on a lane: partial sum, accumulator, two scales (R213). -/
def saccLane (p acc sa sw : Nat) : Nat :=
  FloatKind.fp32.rne (FVal.sum [FloatKind.fp32.dec acc,
    ((FVal.ofInt (signedOf 40 p)).mul ((ls20Dec sa).mul (ls20Dec sw))).plusZero])

/-- VSACC (R213): v[a], v[a+1], v[b], v[b+1], v[b+2]. -/
def saccVec (a0 a1 b0 b1 b2 : Vec) : Vec :=
  let ps := lanesOf 64 a0 ++ lanesOf 64 a1
  packLanes 32 (List.zipWith (fun p g => g p) ps
    (List.zipWith (fun acc g => fun p => g p acc) (lanesOf 32 b0)
      (List.zipWith (fun x y => fun p acc => saccLane p acc x y) (lanesOf 32 b1) (lanesOf 32 b2))))

/-- VEXP, VRCP, VRSQ on a float register (R214). -/
def funcVec (f : Fmt) (g : FloatKind → FVal → Nat) (a : Vec) : Vec :=
  match f with
  | .flt k => mapLanes k.width (fun x => g k (k.dec x)) a
  | _ => 0

/-! ### Reductions, compares, selects (R215 to R217) -/

/-- The largest or smallest of float codes (R215). -/
def extreme (k : FloatKind) (max : Bool) : List Nat → Nat
  | [] => k.nanCode
  | x :: l => if (x :: l).any (fun y => (k.dec y).isNan) then k.nanCode
    else l.foldl (fun m y => if floatLe k m y = max then y else m) x

/-- VRED's one value: 0 .sum, 1 .max, 2 .min, 3 .ssq (R215). -/
def redValue (f : Fmt) (var : Nat) (xs : List Nat) : Nat :=
  match f with
  | .flt k =>
    match var with
    | 0 => k.rne (FVal.sum (xs.map k.dec))
    | 1 => extreme k true xs
    | 2 => extreme k false xs
    | _ => k.rne (FVal.sum (xs.map (fun x => (k.dec x).mul (k.dec x))))
  | _ =>
    let is := xs.map f.int
    match var with
    | 0 => wrapInt f.bits is.sum
    | 1 => wrapInt f.bits (is.foldl max (is.headD 0))
    | 2 => wrapInt f.bits (is.foldl min (is.headD 0))
    | _ => wrapInt f.bits (is.map (fun x => x * x)).sum

/-- VRED (R215). -/
def redVec (f : Fmt) (var : Nat) (a : Vec) : Vec := packLanes f.bits [redValue f var (lanesOf f.bits a)]

/-- The relations of VCMP on an order: .eq .ne .lt .le; a NaN makes only .ne true (R216). -/
def relHolds (var : Nat) (c : Option Int) : Bool :=
  match c with
  | none => var = 1
  | some c =>
    match var with
    | 0 => c = 0
    | 1 => c ≠ 0
    | 2 => c < 0
    | _ => c ≤ 0

/-- The order of two lanes (R216). -/
def laneOrder (f : Fmt) (x y : Nat) : Option Int :=
  match f with
  | .flt k => (k.dec x).cmp (k.dec y)
  | _ => some (f.int x - f.int y)

/-- VCMP (R216). -/
def cmpVec (f : Fmt) (var : Nat) (a b : Vec) : Vec :=
  zipLanes f.bits (fun x y => if relHolds var (laneOrder f x y) then 2 ^ f.bits - 1 else 0) a b

/-- VSEL (R217): d is the mask. -/
def selVec (w : Nat) (d a b : Vec) : Vec := zip3Lanes w (fun m x y => if m ≠ 0 then x else y) d a b

/-! ### Moves and permutes (R218) -/

/-- The sentinel S: a lane with only its top bit set. -/
def sentinel (w : Nat) : Nat := 2 ^ (w - 1)

/-- VPERM. -/
def permVec (w : Nat) (a b : Vec) : Vec :=
  let as := lanesOf w a
  packLanes w ((lanesOf w b).map (fun k => as.getD k (sentinel w)))

/-- Two lists interleaved. -/
def interleave {α : Type} : List α → List α → List α
  | x :: xs, y :: ys => x :: y :: interleave xs ys
  | xs, [] => xs
  | [], ys => ys

/-- The elements at even places. -/
def evens {α : Type} : List α → List α
  | [] => []
  | [x] => [x]
  | x :: _ :: l => x :: evens l

/-- VSHUF: 0 .lo, 1 .hi, 2 .even, 3 .odd. -/
def shufVec (w var : Nat) (a b : Vec) : Vec :=
  let as := lanesOf w a
  let bs := lanesOf w b
  let h := 2048 / w / 2
  packLanes w (match var with
    | 0 => interleave (as.take h) (bs.take h)
    | 1 => interleave (as.drop h) (bs.drop h)
    | 2 => evens as ++ evens bs
    | _ => evens as.tail ++ evens bs.tail)

/-- VBCAST. -/
def bcastVec (w : Nat) (a b : Vec) : Vec :=
  packLanes w (List.replicate (2048 / w) ((lanesOf w a).getD (bitsAt b.toNat 0 w) (sentinel w)))

/-- VSPLAT. -/
def splatVec (w : Nat) (a : Vec) : Vec := packLanes w (List.replicate (2048 / w) (bitsAt a.toNat 0 w))

/-- VIOTA. -/
def iotaVec (w : Nat) : Vec := packLanes w (upFrom 0 (2048 / w))

/-! ### Bits (R219, R220) -/

/-- VSHL, VSHR, VSAR on a lane; the count is b mod w. -/
def shlLane (w x k : Nat) : Nat := x * 2 ^ (k % w) % 2 ^ w
def shrLane (w x k : Nat) : Nat := x / 2 ^ (k % w)
def sarLane (w x k : Nat) : Nat := wrapInt w (signedOf w x / 2 ^ (k % w))

/-- VPOPC: per lane, or over all 2,048 bits. -/
def popcVec (w var : Nat) (a : Vec) : Vec :=
  if var = 1 then BitVec.ofNat 2048 (onesOf a.toNat 2048) else mapLanes w (fun x => onesOf x w) a

/-! ### Partitioning (R221 to R223) -/

/-- The outcome of a lane for VPART. -/
def partOutcome (four : Bool) (x : Nat) : Nat := if four then x % 4 else if x = 0 then 0 else 1

/-- The lane numbers with outcome k, ascending. -/
def partLanes (outs : List Nat) (k : Nat) : List Nat := (upFrom 0 outs.length).filter (fun i => outs.getD i 0 = k)

/-- VPART: the index lists and the count entry. -/
def partVec (w : Nat) (four : Bool) (a : Vec) : Vec × Word64 :=
  let outs := (lanesOf w a).map (partOutcome four)
  let ls := (upFrom 0 (if four then 4 else 2)).map (partLanes outs)
  let ix := ls.flatten
  (packLanes 16 (ix ++ List.replicate (128 - ix.length) 0x8000), BitVec.ofNat 64 (packNat 16 (ls.map List.length)))

/-- VPUSHIX: the indices before the first sentinel. -/
def indexEntry (w : Nat) (a : Vec) : List Int :=
  ((lanesOf w a).takeWhile (fun x => x != sentinel w)).map (signedOf w)

/-! ### Probability bytes (R224, R225) -/

/-- VTOPB8 on a lane. -/
def topb8Lane (k : FloatKind) (x : Nat) : Nat := Fmt.enc .pb8 true false (k.dec x)

/-- VTOPB8. -/
def topb8Vec (f : Fmt) (a : Vec) : Vec :=
  match f with
  | .flt k => packLanes 8 ((lanesOf k.width a).map (topb8Lane k))
  | _ => 0

/-- The shifted sum of an integer lane and a PB8 byte (R225). -/
def shiftTerm (x : Int) (p : Nat) : Int :=
  if p = 0xFF then 0
  else
    let e := p / 4
    x / 2 ^ e + (if bitAt p 1 then x / 2 ^ (e + 1) else 0) + (if bitAt p 0 then x / 2 ^ (e + 2) else 0)

/-- VSHADD on a lane. -/
def shaddLane (f : Fmt) (d x p : Nat) : Nat :=
  match f with
  | .flt k =>
    if p = 0xFF then k.rne (k.dec d) else k.rne (FVal.total [k.dec d, (k.dec x).mul (pb8Dec p)])
  | _ => wrapInt f.bits (f.int d + shiftTerm (f.int x) p)

/-- VSHADD: the byte for lane i is byte i of b. -/
def shaddVec (f : Fmt) (d a b : Vec) : Vec :=
  packLanes f.bits (List.zipWith (fun x g => g x) (lanesOf f.bits d)
    (List.zipWith (fun y p => fun x => shaddLane f x y p) (lanesOf f.bits a) (lanesOf 8 b)))

/-- A list in groups of n. -/
def groupsOf {α : Type} (n : Nat) (l : List α) : Nat → List (List α)
  | 0 => []
  | k + 1 => if l.isEmpty then [] else l.take n :: groupsOf n (l.drop n) k

/-- The float result of R242: one rounding per chunk of 16 products (R243). Infinities of both signs are looked for in the
accumulator and the products, an infinite input counting through its product only (DEDUCED, log 48). -/
def floatDot (k : FloatKind) : List (List FVal) → FVal → Nat
  | [], acc => k.rne acc
  | c :: cs, acc => floatDot k cs (k.rneVal (FVal.sum (acc :: c)))

end Sys2Proof.Machine
end

