-- ==== Sys2Proof/Machine/StratArith.lean ====
section
/-! DEFINITION. The arithmetic of a Stratus unit on its block state: scores, maxima, probabilities, sums, records, and
what a fetch brings in (R332, R333, R335 to R338, R350 to R358). -/

namespace Sys2Proof.Machine

/-! ### The start registers (R332) -/

/-- ATTNCFG bits that must be zero. -/
def attnMustBeZero : Nat := 0xFFFF000000F0FF0E

/-- D, BS, the bytes of an element and RSTR of a block. -/
def StratRun.dim (u : StratRun) : Nat := 16 * (bitsAt u.cfg.toNat 16 4 + 1)
def StratRun.bs (u : StratRun) : Nat := 16 * 2 ^ bitsAt u.cfg.toNat 6 2
def StratRun.qr (u : StratRun) : Nat := bitsAt u.cfg.toNat 24 8 + 1

/-- The element format (FMT of R332). -/
def StratRun.fmt (u : StratRun) : FloatKind :=
  match bitsAt u.cfg.toNat 4 2 with
  | 0 => .bf16
  | 1 => .fp16
  | _ => .e4m3

def StratRun.elem (u : StratRun) : Nat := u.fmt.width / 8
def StratRun.norm (u : StratRun) : Bool := bitAt u.cfg.toNat 0
def StratRun.rstr (u : StratRun) : Nat := 256 * ceilDiv (16 + 4 * u.dim) 256

/-- The failing start register's sampled value, if one fails (R332): ATTNCFG first. -/
def badStart (cfg scl : Word64) : Option Word64 :=
  let c := cfg.toNat
  if c &&& attnMustBeZero ≠ 0 ∨ bitsAt c 6 2 = 3 ∨ bitsAt c 4 2 = 3 then some cfg
  else match FloatKind.fp32.dec scl.toNat with
    | .fin false m _ => if m = 0 ∨ bitsAt scl.toNat 32 32 ≠ 0 then some scl else none
    | _ => some scl

/-! ### FP32 values as codes -/

abbrev F32 := BitVec 32

def f32 (x : F32) : FVal := FloatKind.fp32.dec x.toNat
def toF32 (v : FVal) : F32 := BitVec.ofNat 32 (FloatKind.fp32.rne v)
def negInf : F32 := 0xFF800000
def oneF : F32 := 0x3F800000
def nanF : F32 := 0x7FC00000

/-- RoundRNE of the product of two FP32 values. -/
def mulF (x y : F32) : F32 := toF32 ((f32 x).mul (f32 y))

/-- e^(x − y) for finite x and y: the magnitude as a fraction. -/
def expDiff (x y : F32) : Nat × Nat :=
  match FVal.total [f32 x, (f32 y).neg] with
  | .fin n m e => expQ false n m e
  | _ => (0, 1)

/-- Factor(x, y) of R353, y at least x. -/
def factor (x y : F32) : F32 :=
  if (f32 x).cmp (f32 y) = some 0 then oneF
  else if f32 x = .inf true ∨ f32 y = .inf false then 0
  else let q := expDiff x y; BitVec.ofNat 32 (FloatKind.fp32.encQ true false false q.1 q.2)

/-- The larger of two values that are not NaN; −0 stands below +0 as in R209. -/
def largerF (x y : F32) : F32 := if floatLe .fp32 y.toNat x.toNat then x else y

/-- P(i, j) of R354 from a score and the row's maximum. -/
def probOf (s m : F32) : BitVec 8 :=
  if (f32 s).isNan ∨ f32 s = .inf true ∨ f32 m = .inf true then 0xFF
  else if f32 m = .inf false then (if f32 s = .inf false then 0x00 else 0xFF)
  else if f32 s = .inf false then 0x03
  else let q := expDiff s m; BitVec.ofNat 8 (pb8Enc true q.1 q.2)

/-- O / l with one rounding, IEEE 754 for zeros and infinities (R355). -/
def quotF (o l : F32) : F32 :=
  match f32 o, f32 l with
  | .nan, _ => nanF
  | _, .nan => nanF
  | .inf _, .inf _ => nanF
  | .inf n, .fin k _ _ => toF32 (.inf (n != k))
  | .fin n _ _, .inf k => toF32 (.fin (n != k) 0 0)
  | .fin n m e, .fin k j d =>
    if j = 0 then (if m = 0 then nanF else toF32 (.inf (n != k)))
    else
      let a := asFraction m e
      let b := asFraction j d
      BitVec.ofNat 32 (FloatKind.fp32.encQ true false (n != k) (a.1 * b.2) (a.2 * b.1))

/-! ### Rows -/

/-- Row i of a table of rows. -/
def rowOf {α : Type} (l : List (List α)) (i : Nat) : List α := l.getD i []

/-- Every row number of a block. -/
def StratRun.rowNos (u : StratRun) : List Nat := upFrom 0 u.qr

/-- RESCALE (R337): each pending factor is applied and becomes 1. -/
def StratRun.rescale (u : StratRun) : StratRun :=
  { u with
    o := u.rowNos.map (fun i => let r := u.r.getD i oneF
      if r = oneF then rowOf u.o i else (rowOf u.o i).map (fun x => mulF x r))
    l := u.rowNos.map (fun i => let r := u.r.getD i oneF
      if r = oneF then u.l.getD i 0 else mulF (u.l.getD i 0) r)
    r := u.rowNos.map (fun _ => oneF) }

/-- Is key j of a slot masked for row i (R338)? -/
def StratRun.masked (u : StratRun) (k : KSlot) (i j : Nat) : Bool :=
  if u.mm = 1 then decide ((u.pos.getD i 0).toNat < k.kpos + j)
  else if u.mm = 2 then decide (k.len ≤ j)
  else false

/-- S(i, j) of SCORE (R337): the product over D in the overwrite form of R242, scaled and rounded. -/
def StratRun.scoreAt (u : StratRun) (k : KSlot) (i j : Nat) : F32 :=
  if u.masked k i j then negInf
  else
    let q := (rowOf u.q i).map u.fmt.dec
    let w := (rowOf k.rows j).map u.fmt.dec
    let ps := List.zipWith FVal.mul q w
    let t := floatDot .fp32 (groupsOf 16 ps ps.length) (.fin true 0 0)
    mulF (BitVec.ofNat 32 t) (u.scl.setWidth 32)

/-- SCORE (R337, R354). -/
def StratRun.score (u : StratRun) (k : KSlot) : StratRun :=
  let s := u.rowNos.map (fun i => (upFrom 0 u.bs).map (u.scoreAt k i))
  { u with s := s
           nan := u.rowNos.map (fun i => u.nan.getD i false || (rowOf s i).any (fun x => (f32 x).isNan)) }

/-- m′ of MAXUPD (R354). -/
def StratRun.newMax (u : StratRun) (i : Nat) : F32 :=
  ((rowOf u.s i).filter (fun x => !(f32 x).isNan)).foldl largerF (u.m.getD i negInf)

/-- MAXUPD (R337, R354). -/
def StratRun.maxupd (u : StratRun) : StratRun :=
  { u with
    r := u.rowNos.map (fun i => mulF (u.r.getD i oneF) (factor (u.m.getD i negInf) (u.newMax i)))
    m := u.rowNos.map u.newMax }

/-- EXPQ (R337, R352, R354). -/
def StratRun.expq (u : StratRun) : StratRun :=
  let p := u.rowNos.map (fun i => (rowOf u.s i).map (fun x => probOf x (u.m.getD i negInf)))
  { u with p := p
           l := u.rowNos.map (fun i =>
             toF32 (FVal.total (f32 (u.l.getD i 0) :: (rowOf p i).map (fun c => pb8Dec c.toNat)))) }

/-- O(i, d) of PVACC (R337): a key whose P is 0xFF takes no part. -/
def StratRun.pvAt (u : StratRun) (k : KSlot) (i d : Nat) : F32 :=
  toF32 (FVal.total (f32 ((rowOf u.o i).getD d 0) ::
    (((rowOf u.p i).zip k.rows).filter (fun q => q.1 != 0xFF)).map (fun q =>
      (pb8Dec q.1.toNat).mul (u.fmt.dec (q.2.getD d 0)))))

/-- PVACC (R337). -/
def StratRun.pvacc (u : StratRun) (k : KSlot) : StratRun :=
  { u with o := u.rowNos.map (fun i => (upFrom 0 u.dim).map (u.pvAt k i)) }

/-- x·fa + y·fb with one rounding (R357). -/
def blend (x fa y fb : F32) : F32 := toF32 (FVal.total [(f32 x).mul (f32 fa), (f32 y).mul (f32 fb)])

/-- Word i of a record (R336). -/
def recWord (b : List Byte) (i : Nat) : F32 := BitVec.ofNat 32 (numAt (4 * i) 4 b)

/-- A record contributes nothing but NAN when m_r or l_r is NaN (R357). -/
def recordNan (b : List Byte) : Bool := (f32 (recWord b 0)).isNan || (f32 (recWord b 1)).isNan

/-- MERGE of one record per row (R357). -/
def StratRun.merge (u : StratRun) (bs : List (List Byte)) : StratRun :=
  let v := u.rescale
  let old := fun i => v.m.getD i negInf
  let new := fun i => let b := rowOf bs i; if recordNan b then old i else largerF (old i) (recWord b 0)
  { v with
    nan := v.rowNos.map (fun i => v.nan.getD i false || bitAt (recWord (rowOf bs i) 2).toNat 0 || recordNan (rowOf bs i))
    empty := v.rowNos.map (fun i => v.empty.getD i false || bitAt (recWord (rowOf bs i) 2).toNat 1)
    l := v.rowNos.map (fun i => let b := rowOf bs i
      if recordNan b then v.l.getD i 0
      else blend (v.l.getD i 0) (factor (old i) (new i)) (recWord b 1) (factor (recWord b 0) (new i)))
    o := v.rowNos.map (fun i => let b := rowOf bs i
      if recordNan b then rowOf v.o i
      else (rowOf v.o i).zipIdx.map (fun q =>
        blend q.1 (factor (old i) (new i)) (recWord b (4 + q.2)) (factor (recWord b 0) (new i))))
    m := v.rowNos.map new }

/-- The D outputs of row i's record (R355). -/
def StratRun.outputs (u : StratRun) (i : Nat) : List F32 :=
  let o := rowOf u.o i
  if u.nan.getD i false then o.map (fun _ => nanF)
  else if f32 (u.m.getD i negInf) = .inf true then o.map (fun _ => 0)
  else if u.norm then o.map (fun x => quotF x (u.l.getD i 0))
  else o

/-- The record of row i (R336). -/
def StratRun.record (u : StratRun) (i : Nat) : List Byte :=
  let flags := bitVal (u.nan.getD i false) 0 + bitVal (u.empty.getD i false) 1
  sliceB 0 u.rstr (leBytes (u.m.getD i negInf).toNat 4 ++ leBytes (u.l.getD i 0).toNat 4 ++ leBytes flags 4
    ++ leBytes 0 4 ++ ((u.outputs i).map (fun x => leBytes x.toNat 4)).flatten)

/-- The state after OSTORE's own changes: pending factors applied, EMPTY recomputed (R335, R355). -/
def StratRun.closeRows (u : StratRun) : StratRun :=
  let v := u.rescale
  { v with empty := v.rowNos.map (fun i => f32 (v.m.getD i negInf) = .inf true) }

/-- The bytes OSTORE writes. -/
def StratRun.records (u : StratRun) : List Byte := (u.rowNos.map u.record).flatten

/-! ### What a fetch brings in (R335) -/

/-- n rows of D elements from bytes. -/
def StratRun.rowsOf (u : StratRun) (n : Nat) (bs : List Byte) : List (List Nat) :=
  (upFrom 0 n).map (fun i => (upFrom 0 u.dim).map (fun d => numAt ((i * u.dim + d) * u.elem) u.elem bs))

/-- n 32-bit values from offset o. -/
def wordsFrom (o n : Nat) (bs : List Byte) : List (BitVec 32) :=
  (upFrom 0 n).map (fun i => BitVec.ofNat 32 (numAt (o + 4 * i) 4 bs))

/-- Bytes of the query rows, up to the positions. -/
def StratRun.queryBytes (u : StratRun) : Nat := 16 * ceilDiv (u.qr * u.dim * u.elem) 16

/-- Bytes of a key or value block. -/
def StratRun.blockBytes (u : StratRun) : Nat := u.bs * u.dim * u.elem

/-- The slot that entry TC fills from bytes. -/
def StratRun.gathered (u : StratRun) (bs : List Byte) : KSlot :=
  let n := bitsAt (u.table.getD u.tc 0).toNat 24 8
  ⟨u.rowsOf u.bs bs, (u.tb + u.tc) * u.bs, if n = 0 ∨ u.bs < n then u.bs else n⟩

/-- What QLOAD, BTLD and MERGE bring in, from their bytes. -/
def StratRun.queryOf (u : StratRun) (bs : List Byte) : StratTraffic :=
  .query (u.rowsOf u.qr bs) (wordsFrom u.queryBytes u.qr bs)
def tableOf (n base : Nat) (bs : List Byte) : StratTraffic := .table (wordsFrom 0 n bs) base
def StratRun.mergeOf (u : StratRun) (bs : List Byte) : StratTraffic :=
  .merge (u.rowNos.map (fun i => sliceB (i * u.rstr) u.rstr bs))

/-- A fetch lands in the unit's state (R334, R335). -/
def StratRun.land (u : StratRun) : StratTraffic → StratRun
  | .query rows pos => { u with q := rows, pos := pos }
  | .table es base => { u with table := es, tb := base, tc := 0 }
  | .block n k => { u with slots := Sparse.set n k u.slots }
  | .merge rs => u.merge rs
  | .store _ => u

end Sys2Proof.Machine
end

