-- ==== Sys2Proof/Machine/Aes.lean ====
section
/-! DEFINITION. The ciphers of the device: AES-256 in XTS mode for memory and save areas (R194, R377, R435), in Galois
counter mode for error records and bounce buffers (R446, R451). The manual names them; their inside is the standards'
(PRESUMED, log 94). Bytes of a block are numbers below 256, block and key lists in byte order. -/

namespace Sys2Proof.Machine

/-! ### Bytes as polynomials -/

/-- x · 2 modulo x⁸ + x⁴ + x³ + x + 1. -/
def polyTwice (x : Nat) : Nat := if x < 128 then 2 * x else 2 * x ^^^ 0x11B

/-- The product of two bytes, over the low n bits of the second. -/
def polyMul (x : Nat) : Nat → Nat → Nat
  | 0, _ => 0
  | n + 1, y => (if y % 2 = 1 then x else 0) ^^^ polyMul (polyTwice x) n (y / 2)

/-- A byte turned left by n bits. -/
def turn8 (x n : Nat) : Nat := (x * 2 ^ n + x / 2 ^ (8 - n)) % 256

/-- The substitution of the bytes 0 to 255, byte x at place x: the inverse of x, turned and added up by `affineByte`. -/
def aesTable : Nat :=
  0x16BB54B00F2D99416842E6BF0D89A18CDF2855CEE9871E9B948ED9691198F8E1 * 2 ^ 1792 +
  0x9E1DC186B95735610EF6034866B53E708A8BBD4B1F74DDE8C6B4A61C2E2578BA * 2 ^ 1536 +
  0x08AE7A65EAF4566CA94ED58D6D37C8E779E4959162ACD3C25C2406490A3A32E0 * 2 ^ 1280 +
  0xDB0B5EDE14B8EE4688902A22DC4F816073195D643D7EA7C41744975FEC130CCD * 2 ^ 1024 +
  0xD2F3FF1021DAB6BCF5389D928F40A351A89F3C507F02F94585334D43FBAAEFD0 * 2 ^ 768 +
  0xCF584C4A39BECB6A5BB1FC20ED00D153842FE329B3D63B52A05A6E1B1A2C8309 * 2 ^ 512 +
  0x75B227EBE28012079A059618C323C7041531D871F1E5A534CCF73F362693FDB7 * 2 ^ 256 +
  0xC072A49CAFA2D4ADF04759FA7DC982CA76ABD7FE2B670130C56F6BF27B777C63

/-- The inverse substitution. -/
def aesUntable : Nat :=
  0x7D0C2155631469E126D677BA7E042B17619953833CBBEBC8B0F52AAE4D3BE0A0 * 2 ^ 1792 +
  0xEF9CC9939F7AE52D0D4AB519A97F51605FEC8027591012B131C7078833A8DD1F * 2 ^ 1536 +
  0xF45ACD78FEC0DB9A2079D2C64B3E56FC1BBE18AA0E62B76F89C5291D711AF147 * 2 ^ 1280 +
  0x6EDF751CE837F9E28535ADE72274AC9673E6B4F0CECFF297EADC674F4111913A * 2 ^ 1024 +
  0x6B8A130103BDAFC1020F3FCA8F1E2CD00645B3B80558E4F70AD3BC8C00ABD890 * 2 ^ 768 +
  0x849D8DA75746155EDAB9EDFD5048706C92B6655DCC5CA4D41698688664F6F872 * 2 ^ 512 +
  0x25D18B6D49A25B76B224D92866A12E084EC3FA420B954CEE3D23C2A632947B54 * 2 ^ 256 +
  0xCBE9DEC444438E3487FF2F9B8239E37CFBD7F3819EA340BF38A53630D56A0952

/-- The sum of a byte, its turns by one to four bits, and 0x63: what the substitution does to the inverse of a byte. -/
def affineByte (b : Nat) : Nat := b ^^^ turn8 b 1 ^^^ turn8 b 2 ^^^ turn8 b 3 ^^^ turn8 b 4 ^^^ 0x63

/-- The substitution of a byte, and its inverse. -/
def aesByte (x : Nat) : Nat := bitsAt aesTable (8 * x) 8
def aesUnbyte (y : Nat) : Nat := bitsAt aesUntable (8 * y) 8

/-! ### Rounds -/

/-- Two lists of bytes, exclusive or. -/
def xorBytes (a b : List Nat) : List Nat := List.zipWith (fun x y => x ^^^ y) a b

/-- A column of four bytes times the matrix whose first row is given; each row is the one above turned right by one. -/
def mixColumn (row c : List Nat) : List Nat :=
  (upFrom 0 4).map (fun i => (upFrom 0 4).foldl (fun x j => x ^^^ polyMul (c.getD j 0) 8 (row.getD ((j + 4 - i) % 4) 0)) 0)

/-- The columns of a block, each mixed. -/
def mixBlock (row b : List Nat) : List Nat := ((upFrom 0 4).map (fun i => mixColumn row ((b.drop (4 * i)).take 4))).flatten

/-- Row r of a block turned left by r places, or by `back` times r. -/
def shiftRows (back : Nat) (b : List Nat) : List Nat := (upFrom 0 16).map (fun i => b.getD ((i + 4 * back * (i % 4)) % 16) 0)

/-- The key words w₀ to w₅₉ as one list of bytes, from the 32 bytes of a key: `n` words are still to come, `i` is the next
one's number, `rc` the next round constant. -/
def expandKey : Nat → Nat → Nat → List Nat → List Nat
  | 0, _, _, w => w
  | n + 1, i, rc, w =>
    let last := (w.drop (4 * i - 4)).take 4
    let old := (w.drop (4 * i - 32)).take 4
    if i % 8 = 0 then
      let t := ((last.drop 1) ++ last.take 1).map aesByte
      expandKey n (i + 1) (polyTwice rc) (w ++ xorBytes old (xorBytes t [rc, 0, 0, 0]))
    else if i % 8 = 4 then expandKey n (i + 1) rc (w ++ xorBytes old (last.map aesByte))
    else expandKey n (i + 1) rc (w ++ xorBytes old last)

/-- The 240 bytes of the round keys of a 32-byte key. -/
def aesKeys (key : List Nat) : List Nat := expandKey 52 8 1 key

/-- Round key i. -/
def roundKey (w : List Nat) (i : Nat) : List Nat := (w.drop (16 * i)).take 16

/-- Rounds i, i + 1, ... before the last one. -/
def aesRounds (w : List Nat) : Nat → Nat → List Nat → List Nat
  | 0, _, b => b
  | n + 1, i, b => aesRounds w n (i + 1) (xorBytes (mixBlock [2, 3, 1, 1] (shiftRows 1 (b.map aesByte))) (roundKey w i))

/-- A block enciphered under round keys. -/
def aesBlock (w b : List Nat) : List Nat :=
  xorBytes (shiftRows 1 ((aesRounds w 13 1 (xorBytes b (roundKey w 0))).map aesByte)) (roundKey w 14)

/-- Rounds n, n − 1, ..., 1 undone. -/
def aesUnrounds (w : List Nat) : Nat → List Nat → List Nat
  | 0, b => b
  | n + 1, b => aesUnrounds w n ((shiftRows 3 (mixBlock [14, 11, 13, 9] (xorBytes b (roundKey w (n + 1))))).map aesUnbyte)

/-- A block deciphered under round keys. -/
def aesUnblock (w b : List Nat) : List Nat :=
  xorBytes (aesUnrounds w 13 ((shiftRows 3 (xorBytes b (roundKey w 14))).map aesUnbyte)) (roundKey w 0)

/-- n bytes of a number, lowest first, as numbers. -/
def numBytes (x n : Nat) : List Nat := (leBytes x n).map BitVec.toNat

/-- Bytes, lowest first, as a number. -/
def bytesNum (b : List Nat) : Nat := b.foldr (fun x y => x + 256 * y) 0

/-! ### XTS -/

/-- The tweak of 16-byte block j of a unit, from that of its first block: doubled j times modulo
x¹²⁸ + x⁷ + x² + x + 1. -/
def xtsTweak : Nat → Nat → Nat
  | 0, t => t
  | j + 1, t => xtsTweak j (if t < 2 ^ 127 then 2 * t else (2 * t - 2 ^ 128) ^^^ 0x87)

/-- Block j of the unit with a tweak number, enciphered or deciphered under a key of 64 bytes, lowest first: its first half
is the data key, its second the tweak key. -/
def xtsBlock (decipher : Bool) (key unit j : Nat) (b : List Byte) : List Byte :=
  let k := numBytes key 64
  let t := numBytes (xtsTweak j (bytesNum (aesBlock (aesKeys (k.drop 32)) (numBytes unit 16)))) 16
  let w := aesKeys (k.take 32)
  let x := xorBytes (b.map BitVec.toNat) t
  (xorBytes (if decipher then aesUnblock w x else aesBlock w x) t).map (BitVec.ofNat 8)

/-! ### Galois counter mode -/

/-- The product of two blocks as polynomials whose highest bit is the constant term: n bits of y are left. -/
def galoisMul : Nat → Nat → Nat → Nat
  | 0, _, _ => 0
  | n + 1, x, y =>
    (if y / 2 ^ n % 2 = 1 then x else 0)
      ^^^ galoisMul n (if x % 2 = 0 then x / 2 else (x / 2) ^^^ (0xE1 * 2 ^ 120)) y

/-- Bytes as a number, highest first, and back. -/
def beNum (b : List Byte) : Nat := leNat b.reverse
def beBytes (x n : Nat) : List Byte := (leBytes x n).reverse

/-- Hashes n blocks of bytes, the last one filled with zeros. -/
def galoisHash (h : Nat) : Nat → Nat → List Byte → Nat
  | 0, y, _ => y
  | n + 1, y, l => galoisHash h n (galoisMul 128 (y ^^^ beNum (sliceB 0 16 l)) h) (l.drop 16)

/-- The block of a counter value under round keys, as bytes. -/
def counterBlock (w : List Nat) (c : Nat) : List Byte :=
  (aesBlock w ((beBytes c 16).map BitVec.toNat)).map (BitVec.ofNat 8)

/-- The next counter value: its low 32 bits go up. -/
def nextCounter (c : Nat) : Nat := c / 2 ^ 32 * 2 ^ 32 + (c + 1) % 2 ^ 32

/-- n blocks of key stream from a counter value. -/
def counterStream (w : List Nat) : Nat → Nat → List Byte
  | 0, _ => []
  | n + 1, c => counterBlock w c ++ counterStream w n (nextCounter c)

/-- Bytes under the key stream from a counter value. -/
def counterCipher (w : List Nat) (c : Nat) (l : List Byte) : List Byte :=
  List.zipWith (fun x y => x ^^^ y) l (counterStream w (ceilDiv l.length 16) c)

/-- The first counter value of an IV: 12 bytes and a one, or the hash of another length. -/
def firstCounter (h : Nat) (iv : List Byte) : Nat :=
  if iv.length = 12 then beNum iv * 2 ^ 32 + 1
  else galoisHash h (ceilDiv iv.length 16 + 1) 0
    (iv ++ List.replicate (16 * ceilDiv iv.length 16 - iv.length) 0 ++ beBytes (8 * iv.length) 16)

/-- The tag of a ciphertext, without further authenticated data. -/
def galoisTag (w : List Nat) (h c : Nat) (l : List Byte) : List Byte :=
  let y := galoisHash h (ceilDiv l.length 16 + 1) 0
    (l ++ List.replicate (16 * ceilDiv l.length 16 - l.length) 0 ++ beBytes (8 * l.length) 16)
  List.zipWith (fun x z => x ^^^ z) (beBytes y 16) (counterBlock w c)

/-- Ciphertext and 16-byte tag of a plaintext under a 32-byte key with an IV. -/
def gcmSeal (key iv l : List Byte) : List Byte :=
  let w := aesKeys (key.map BitVec.toNat)
  let h := beNum (counterBlock w 0)
  let c := firstCounter h iv
  let x := counterCipher w (nextCounter c) l
  x ++ galoisTag w h c x

/-- The plaintext of a ciphertext with its tag; none when the tag does not verify. -/
def gcmOpen (key iv l : List Byte) : Option (List Byte) :=
  let w := aesKeys (key.map BitVec.toNat)
  let h := beNum (counterBlock w 0)
  let c := firstCounter h iv
  let x := l.take (l.length - 16)
  if galoisTag w h c x = l.drop (l.length - 16) then some (counterCipher w (nextCounter c) x) else none

end Sys2Proof.Machine
end

