-- ==== Sys2Proof/Config.lean ====
section
/-! DEFINITION. What an implementation fixes and what the manual leaves open. Every constant here is opaque: nothing in
Lean can evaluate it, so a claim that holds holds for every choice. The assumption log numbers are given with each. -/

namespace Sys2Proof

/-- A fresh random byte of RNDW, by the number of the draw (R19; log 10). -/
opaque Config.randomByte : Nat → Byte

/-- Arithmetic-clock cycles a step takes, by the number of the step's draw (R2; log 11). -/
opaque Config.stepCycles : Nat → Nat

/-- The PUF identity seed of this module (R35; log 12). -/
opaque Config.pufSeed : List Byte

/-- The Falcon-1024 public key (1,793 bytes) of a secret (R35, R36; log 12). -/
opaque Config.falconPublic : List Byte → List Byte

/-- The padded Falcon-1024 signature by a secret of a message, by the number of the draw (R19; log 12). -/
opaque Config.falconSign : List Byte → List Byte → Nat → List Byte

/-- Whether a Falcon-1024 signature of a message verifies under a public key: key, message, signature (R19; log 12). -/
opaque Config.falconVerify : List Byte → List Byte → List Byte → Bool

/-- The root key in ROM under which a device certificate verifies (R36; log 12). -/
opaque Config.romRootKey : List Byte

/-- The Ikinar key in ROM under which the firmware verifies (R23; log 12). -/
opaque Config.vendKey : List Byte

/-- The SHAKE256 digest of the Ikinar root certificate held in ROM (R36; log 12). -/
opaque Config.romRootDigest : List Byte

/-- The address in ROM of the first-stage routine's first instruction, by 4 (R31; log 3). -/
opaque Config.firstStage : BitVec 29

/-- Where hart 0 of the Nadir stands once it has run the first stage of an update (R45; log 98). -/
opaque Config.standbyEntry : Word64

/-- Does memory respond to a hart at an address that the manual does not name (R455; log 98)? -/
opaque Config.hartMemory : Nat → Bool

/-- Does an address of the harts, among those, lie in the Corona memory that both complexes share (R43; log 98)? -/
opaque Config.hartShared : Nat → Bool

/-- The key of a partition's weight memory: world-key root, partition (R271; log 14). -/
opaque Config.weightKey : List Byte → Nat → Nat

/-- The 32-byte key derived from a world key for error records (0) and bounce copies (1) (R446, R451; log 15). -/
opaque Config.derivedKey : Nat → Nat → List Byte

/-- Whether a configuration record's format version is known, by type and version (R38; log 17). -/
opaque Config.recordVersionKnown : Nat → Nat → Bool

/-- Whether a record's value lies within the hardware limits: type and payload (R38; log 17). -/
opaque Config.recordInLimit : Nat → List Byte → Bool

/-- The monitor threshold that a type 3 record sets, if any: 0 TWARN, 1 TTHROT, 2 TTRIP; payload (R37; log 17). -/
opaque Config.recordThreshold : Nat → List Byte → Option (BitVec 16)

/-- The core rail of a die, in mV, that a record sets, if any: type, die, payload (R51; log 17). -/
opaque Config.recordRail : Nat → Nat → List Byte → Option (BitVec 16)

/-- The debug tier and the public key that a type 5 record's payload holds (R37, R49; log 17). -/
opaque Config.recordTier : List Byte → Nat
opaque Config.recordKey : List Byte → List Byte

/-- The address in Zenith memory of an entry of the firmware key store (R49; log 18). -/
opaque Config.keyStoreAddr : Nat → Nat

/-- The major version of the state-table format an importer accepts, and whether it knows a tag (R44; log 19). -/
opaque Config.stateMajor : Nat

/-- Whether an importer knows a tag of the state table beside 0x0101 (R44; log 19). -/
opaque Config.stateTagKnown : Nat → Bool

/-- The virtual address that a MEMERR names where the manual leaves it open, by the number of the draw (R179, R198;
log 26). -/
opaque Config.errorAddr : Nat → Word64

/-- The private bytes of a sync object in memory (R136): object's location and a draw (log 20). -/
opaque Config.syncBytes : Nat → Nat → List Byte

/-- The cycles of a hart's own clock that a step takes (R454; log 11). -/
opaque Config.hartCycles : Nat → Nat

/-- The generation that another module had for a granule of a page it holds before any REVOKE made here: module, granule
(R147; log 24). -/
opaque Config.remoteGeneration : Nat → Nat → BitVec 8

/-- Whether another module's own REVOKEs have made a capability into a granule that it holds stale: module, granule,
number of the draw (R147; log 24). -/
opaque Config.remoteRevoked : Nat → Nat → Nat → Bool

/-- Whether a party of another module has written a granule that a core here watches there: core, number of the draw
(R321; log 4). -/
opaque Config.remoteEvent : Nat → Nat → Bool

/-- What a read that its party has not ordered after a write of its own sees of a granule: 0 the newest of the values that
unordered writes have replaced, and so on, and at their number or above the value that stands: number of the draw,
granule (R309; log 4). -/
opaque Config.seesOlder : Nat → Nat → Nat

/-- Whether a write comes before the write of another unit of its party that is not ordered with it and that has been made:
number of the draw, granule (R309; log 4). -/
opaque Config.writesBefore : Nat → Nat → Bool

/-- Which of a partition's pod ports leads to a module, as a number among them: module (R452; log 35). -/
opaque Config.route : Nat → Nat

/-- The channel whose copy a core performs next, where copies of several channels stand in no order: number of the draw,
number of copies left (R296; log 91). -/
opaque Config.nextCopy : Nat → Nat → Nat

/-- A lane of a surrogate's answer when no network fits the execution any more, by the number of the draw, output and
lane (R394; log 28). -/
opaque Config.unboundAnswer : Nat → Nat → Nat → Nat

/-- The cause byte of a refused fabric packet, by the number of the draw (R54; log 35). -/
opaque Config.fabricCause : Nat → Nat

/-- What the Zenith's firmware chooses for a world's root block, by partition, world, number of the draw and number of the
choice: which image, where it and the memory lie in context 0, the shape, the template (R435; log 32). -/
opaque Config.rootBlock : Nat → Nat → Nat → Nat → Nat

/-- The bank whose cache holds a line of HBM, as 16 times its cluster plus its number: by number of the 128-byte line
(R258; log 51). -/
opaque Config.lineBank : Nat → Nat

/-- Whether a frame meets an uncorrectable error during a scrub: number of the draw, location of the frame (R450;
log 33). -/
opaque Config.scrubError : Nat → Nat → Bool

end Sys2Proof
end

