-- ==== Sys2Proof/Machine/PartState.lean ====
section
/-! DEFINITION. The state of one partition: configuration, worlds, images, groups, launches, ready pool, channels,
generations, sync objects, sequence counters, fitted regions, shadow frames, save areas (files 03, 05, 07, 20, 22, 24,
25). -/

namespace Sys2Proof.Machine

/-- A micro-batch channel (R145, R368): its word, a changed word that waits, the open bit, permits and buffers. -/
structure Channel where
  word : BitVec 32
  pending : Option (BitVec 32)
  isOpen : Bool
  conf : Nat
  avail : Nat
  held : Nat
  /-- buffers sent and not yet received, oldest first -/
  queue : List Cap
  deriving DecidableEq, Repr

/-- A world of a partition (R431, R435). -/
structure World where
  present : Bool
  isSealed : Bool
  tenant : Bool
  l2auth : Bool
  vf : Nat
  dbgKey : Nat
  rootBlk : Nat
  s2root : Nat
  /-- the memory key: number of the world's key among all keys ever drawn; 0 for none (R194, R435) -/
  key : Nat
  /-- the key has been wiped (R50) -/
  wiped : Bool
  /-- per-world counter of sealed error records (R451) -/
  errCount : Nat
  deriving DecidableEq, Repr

/-- An admitted image of a partition (R56, R155): partition-physical base, length in words, code hash. -/
structure Image where
  base : Nat
  words : Nat
  hash : BitVec 128
  deriving DecidableEq, Repr

/-- An entry of the group table (R160, R110): members in index order by record address, those arrived in the current
generation and the next, those waiting, those retired or ended faulted. -/
structure Group where
  members : List Nat
  generation : Nat
  arrived : Marks
  early : Marks
  waiting : Marks
  gone : Marks
  deriving DecidableEq, Repr

/-- A record in the ready pool (R164): class, effective class, cycle of entry. Older entries stand first. -/
structure PoolEntry where
  record : Nat
  cls : Nat
  eff : Nat
  since : Nat
  deriving DecidableEq, Repr

/-- How a unit of a launch has ended (R50, R105, R177, R408, R445). -/
inductive UnitEnd where
  | retired | faulted | aborted | wiped
  deriving DecidableEq, Repr

/-- A launch that has been accepted (R162, R442): records that have not ended, home cluster, groups, rings. -/
structure Launch where
  records : Marks
  home : Option Nat
  groups : List Nat
  rings : List Nat
  /-- number of the host chain it belongs to -/
  chain : Nat
  /-- the worst end among the units that have ended -/
  ended : UnitEnd
  deriving DecidableEq, Repr

/-- Mode of a sync object (R136). -/
inductive SyncMode where
  | free
  | shared (holders : Marks)
  | exclusive (holder : Nat)
  deriving DecidableEq, Repr

/-- A region bound to a sync object (R136, R139): [Base, Top) as the world and context that bound it address it. -/
structure Region where
  lo : Nat
  hi : Nat
  world : Nat
  context : Nat
  deriving DecidableEq, Repr

/-- A marked sync object (R136): mode, bound regions, and waiting requests (record, exclusive), oldest first. -/
structure SyncObj where
  mode : SyncMode
  regions : List Region
  waiting : List (Nat × Bool)
  deriving DecidableEq, Repr

/-- A sequence counter (R108): DONE, the report of SEQF, numbers given out, numbers completed out of order. -/
structure SeqCounter where
  done : Word64
  report : Word64
  given : Nat
  finished : Marks
  /-- records suspended by WAITSEQ, with their targets, until their next pickup (R109) -/
  waiting : List (Nat × Nat)
  deriving DecidableEq, Repr

/-- The binding of a region (R392). -/
structure Binding where
  firstIn : Nat
  nIn : Nat
  firstOut : Nat
  nOut : Nat
  offset : Nat
  format : Nat
  /-- P, the number of masters, and the sizes of the layers, inputs first -/
  params : Nat
  layers : List Nat
  deriving DecidableEq, Repr

/-- One recorded batch: input registers and output registers (R391, R394). -/
structure Batch where
  ins : List Vec
  outs : List Vec
  deriving DecidableEq, Repr

/-- A region entry of Mirage (R383, R384, R391, R393). Working weights are the BF16 rounding of the masters (R396). -/
structure FitEntry where
  world : Nat
  hash : BitVec 128
  id : Nat
  state : FitState
  thresh : BitVec 32
  lr : BitVec 32
  sample : BitVec 24
  words : Sparse (BitVec 32)
  batches : List Batch
  binding : Option Binding
  scount : BitVec 32
  cause : Nat
  shadok : Nat
  obscnt : Nat
  /-- the learning rate read when TRAIN began, and the number of the next batch to train on (R399) -/
  trainLr : BitVec 32
  trainNext : Nat
  /-- cycle and core of the execution that completed last (R395) -/
  last : Nat × Nat
  deriving DecidableEq, Repr

/-- What the device saved in an area (R377 to R380), with the epoch of the save; its sealed bytes stand in memory
(log 8). -/
structure Saved where
  record : Nat
  world : Nat
  context : Nat
  /-- the key that sealed it -/
  key : Nat
  kind : Nat
  cluster : Nat
  /-- the core it was saved on, and what it held -/
  origin : Nat
  core : Core
  l1 : List Host.Cell
  l1tags : Marks
  l1full : Marks
  l1pend : Marks
  /-- poisoned granules of L1, by offset (R198) -/
  l1poison : Marks
  slots : Sparse Slot
  tiles : Sparse Tile
  strat : Option StratRun
  epoch : Word64
  faulted : Bool
  deriving DecidableEq, Repr

/-- An area of the save pool (R378, R379). -/
structure Area where
  epoch : Word64
  saved : Option Saved
  deriving DecidableEq, Repr

/-- A revocation sweep under way (R148): the world and context of its REVOKE, and the granules it was begun for. -/
structure Sweep where
  world : Nat
  context : Nat
  granules : List Nat
  /-- of these, those that other modules hold: module and granule (R147) -/
  away : List (Nat × Nat)
  deriving DecidableEq, Repr

/-- One partition (R429, R430). -/
structure Partition where
  present : Bool
  /-- dispatch is held by PREEMPT (R434) -/
  held : Bool
  clust : List Nat
  hbm : List Nat
  ports : List Nat
  xch : BitVec 16
  weight : Nat
  age : Nat
  saveBase : Nat
  saveCnt : Nat
  opKey : Nat
  channels : Sparse Channel
  worlds : Sparse World
  images : Sparse Image
  groups : Sparse Group
  launches : Sparse Launch
  pool : List PoolEntry
  /-- the address of a MEMERR owed to a record by its DEFCODE (R179) -/
  owed : Sparse Word64
  /-- launch of each live record, and the record's owner data the device keeps (R164) -/
  owner : Sparse Nat
  /-- the world in which each live record was made (R156) -/
  recWorlds : Sparse Nat
  gens : Sparse (BitVec 8)
  sweeps : List Sweep
  syncs : Sparse SyncObj
  seqs : Sparse SeqCounter
  fits : Sparse FitEntry
  /-- shadowed pairs whose second frame is the visible one, by the address of the first frame (R415) -/
  swapped : Marks
  /-- busy counts of held pages (R294) are derived from the holds of the cores -/
  areas : Sparse Area
  deriving DecidableEq, Repr

/-- A channel that is not configured. -/
def Channel.init : Channel :=
  { word := 0, pending := none, isOpen := false, conf := 0, avail := 0, held := 0, queue := [] }

/-- A world that is not present. -/
def World.init : World :=
  { present := false, isSealed := false, tenant := false, l2auth := false, vf := 0, dbgKey := 0, rootBlk := 0, s2root := 0,
    key := 0, wiped := false, errCount := 0 }

/-- A counter on which no task has been admitted (R108). -/
def SeqCounter.init : SeqCounter := { done := 0, report := 0, given := 0, finished := [], waiting := [] }

/-- A group that is not in use. -/
def Group.init : Group := { members := [], generation := 0, arrived := [], early := [], waiting := [], gone := [] }

/-- An area that has never been written. -/
def Area.init : Area := { epoch := 0, saved := none }

/-- A partition that does not exist. AGE reads 16 until a configuration sets it (R164), and every transfer channel
is open (R297). -/
def Partition.init : Partition :=
  { present := false, held := false, clust := [], hbm := [], ports := [], xch := 0xFFFF, weight := 0, age := 16,
    saveBase := 0, saveCnt := 0, opKey := 0, channels := [], worlds := [], images := [], groups := [], launches := [],
    pool := [], owed := [], owner := [], recWorlds := [], gens := [], sweeps := [], syncs := [], seqs := [], fits := [], swapped := [], areas := [] }

end Sys2Proof.Machine
end

