-- ==== Sys2Proof/Machine/MgmtState.lean ====
section
/-! DEFINITION. The state of Corona: management harts and their window registers, mailboxes, measurements, readiness,
live update, debug, monitors, error log; the host adapter's functions and queues; translation commands; weights and
the fabric (files 01, 02, 12, 23 to 25). -/

namespace Sys2Proof.Machine

/-- A hash context (R19, R21): the bytes absorbed since its INIT. -/
abbrev HashCtx := List Byte

/-- A management hart: integer registers, pc, machine CSRs, and its private window registers (R19, R454). -/
structure Hart where
  x : Sparse Word64
  pc : Word64
  /-- MIE and MPIE of mstatus -/
  mieBit : Bool
  mpie : Bool
  mtvec : Word64
  meie : Bool
  mscratch : Word64
  mepc : Word64
  mcause : Word64
  mtval : Word64
  mcycle : Word64
  minstret : Word64
  running : Bool
  hashSrc : Word64
  hashLen : BitVec 32
  hashOut : List Byte
  ctx0 : HashCtx
  ctx1 : HashCtx
  falMsg : Word64
  falSig : Word64
  falKey : Word64
  falPass : Bool
  mextSrc : Word64
  mextLen : BitVec 13
  mrec : List Byte
  /-- what an LR reserved: address, and the bytes it read (log 100) -/
  resv : Option (Nat × List Byte)
  deriving DecidableEq, Repr

/-- A mailbox (R22, R406): the pending request, requests held by the adapter, the reply buffer. -/
structure Mailbox where
  pending : Option (List Byte)
  waiting : List (List Byte)
  out : Sparse Byte
  deriving DecidableEq, Repr

/-- A debug grant that stands open (R47): tier and target. -/
structure DbgOpen where
  tier : Nat
  target : BitVec 32
  deriving DecidableEq, Repr

/-- The debug registers of one path, and what both share (R49). -/
structure Debug where
  target : BitVec 32
  tier : BitVec 2
  pub : Word64
  sig : Word64
  /-- the debug page: key and signature bytes written there -/
  page : Sparse Byte
  nonce : List Byte
  valid : Bool
  nokey : Bool
  stale : Bool
  reject : Bool
  opened : List DbgOpen
  /-- digests registered: key number (tier × 2^32 + target) to the 64-byte digest -/
  digests : Sparse (List Byte)
  deriving DecidableEq, Repr

/-- The monitor registers (R51). -/
structure Monitor where
  temp : Sparse (BitVec 16)
  vcore : Sparse (BitVec 16)
  proc : Sparse (BitVec 16)
  /-- the record value of a die's core rail, in mV (R51) -/
  rail : Sparse (BitVec 16)
  twarn : BitVec 16
  tthrot : BitVec 16
  ttrip : BitVec 16
  warn : BitVec 7
  throt : BitVec 7
  volt : BitVec 7
  /-- dies at or above TTHROT by the last readings (R52) -/
  hot : BitVec 7
  deriving DecidableEq, Repr

/-- The management side of Corona. -/
structure Mgmt where
  /-- which complex is the Zenith (R31) -/
  zenith : Fin 2
  harts : Sparse Hart
  /-- measurement banks: register i of complex c is number 16 c + i (R39) -/
  meas : Sparse (List Byte)
  bootst : BitVec 2
  mbx : Mailbox
  ifm : Mailbox
  /-- SPDM connection state 0 to 3 (R27) -/
  spdm : Nat
  ready : Marks
  failed : Marks
  readychg : Bool
  /-- pod ports failed for want of a far end (R33) -/
  farEnd : Marks
  secrets : Bool
  /-- complexes on which stage 0 has run since the reset (R31) -/
  staged : Marks
  mismatch : Bool
  /-- configuration records applied: type × 2^16 + target to sequence number and payload (R38) -/
  records : Sparse (Nat × List Byte)
  /-- the sequence number that last set a field of the module: 0 to 2 the thresholds, 16 + d the rail of die d (R38) -/
  fieldSeq : Sparse Nat
  updsrc : Word64
  updst : Nat
  staddr : Word64
  /-- hart whose HANDOFF write is stalled (R45) -/
  handoff : Option HartId
  dbg : Debug
  mon : Monitor
  elogBase : Word64
  elogHead : BitVec 10
  elogTail : BitVec 10
  elogLost : BitVec 32
  vfsel : BitVec 8
  pcAddr : Word64
  pcArg : BitVec 32
  pcReason : Nat
  pcRefused : Bool
  deriving DecidableEq, Repr

/-- A host queue of a function (R438, R446). -/
structure Queue where
  rbase : Word64
  rsize : Nat
  head : BitVec 32
  tail : BitVec 32
  /-- 0 UNMAPPED, 1 RUNNING, 2 STOPPED, 3 ERROR -/
  state : Nat
  err : Nat
  runnable : Bool
  gated : Bool
  dorg : Word64
  dbase : Word64
  den : Bool
  dev : Word64
  epoch : BitVec 32
  rearm : Bool
  /-- a STOP waits for the next command boundary (R438) -/
  stopping : Bool
  /-- the BBCOPY under way (R446): units moved, and the bounce bytes staged or still to be written -/
  units : Nat
  bounce : List Byte
  /-- the state before step 1 of an export under way (R448) -/
  before : Option Nat
  deriving DecidableEq, Repr

/-- Registers of a translation command port (R418, R421). -/
structure XlRegs where
  desc : Sparse Byte
  tick : BitVec 32
  done : BitVec 32
  err : BitVec 48
  /-- tickets completed out of order -/
  early : Marks
  deriving DecidableEq, Repr

/-- A fault-ring entry or a Zenith record before it is written (R419, R421). -/
structure FaultRec where
  token : Nat
  record : Nat
  info : Word64
  addr : Word64
  pc : Nat
  kind : Nat
  cause : Nat
  level : Nat
  write : Bool
  seq : Word64
  ctr : Nat
  context : Nat
  world : Nat
  gpa : Word64
  part : Nat
  engine : Nat
  /-- a retry of S2RESUME is due before this entry is tried again (R418) -/
  blocked : Bool
  deriving DecidableEq, Repr

/-- A virtual function: its pages and its configuration space (R406 to R408, R418, R437, R451). -/
structure Vf where
  configured : Bool
  /-- 0 CONFIG_UNLOCKED, 1 CONFIG_LOCKED, 2 RUN, 3 ERROR -/
  state : Nat
  cause : Nat
  refused : Bool
  /-- live base-address registers and sizes, command register, MSI-X vector count -/
  bars : List Word64
  sizes : List Word64
  command : BitVec 16
  msix : BitVec 16
  captured : List Byte
  /-- the configuration space outside the frozen set, by 4-byte word: MSI-X Enable and Function Mask among it (R407) -/
  config : Sparse Nat
  /-- the MSI-X table by 4-byte word, four to a vector, and the pending-bit array (R437; log 108) -/
  vectors : Sparse Nat
  pending : Marks
  queues : Sparse Queue
  ctxtab : Word64
  frbase : Word64
  frsize : Nat
  frhead : BitVec 16
  frtail : BitVec 16
  waiting : List FaultRec
  xl : XlRegs
  erbase : Word64
  ersize : Nat
  erhead : BitVec 12
  ertail : BitVec 12
  erlost : BitVec 32
  deriving DecidableEq, Repr

/-- A continuation suspended by a translation fault (R178, R420): its token's owner. -/
structure Waiter where
  token : Nat
  part : Nat
  world : Nat
  record : Nat
  /-- the token was issued in a Zenith record (R421) -/
  second : Bool
  /-- the fault, for a reflection or an end -/
  fault : FaultRec
  deriving DecidableEq, Repr

/-- A translation command under way (R424 to R426). -/
structure XlCommand where
  /-- issued by the Zenith, else by this function -/
  zenith : Bool
  vf : Nat
  ticket : Nat
  op : Nat
  part : Nat
  world : Nat
  context : Nat
  pages : Nat
  addr : Nat
  leaf : Word64
  /-- a MIGRATE whose page is being copied from or to another module: accesses to the page wait (R426 step 3) -/
  copying : Bool
  deriving DecidableEq, Repr

/-- A forwarded request outstanding on the fabric (R422): who waits, the line, the reply once it is there. -/
structure Forward where
  core : Nat
  engine : Nat
  /-- the engine word that makes the access (R173) -/
  word : Nat
  /-- the continuation it belongs to: partition and record, none for the device's own requests -/
  owner : Option (Nat × Nat)
  module : Nat
  line : Nat
  va : Word64
  kind : FwdKind
  asker : Asker
  /-- the guest-physical page whose counter it adds to (R423) -/
  page : Nat
  /-- its number among the writes of one instruction or word, whose writes of one line go out one after the other (R134) -/
  nth : Nat
  /-- the guest-physical addresses that its translation depends on (R425) -/
  guests : List Nat
  /-- the pod port it goes out on, one of its partition's; none where the partition owns none (R452) -/
  port : Option Nat
  /-- none while outstanding; some none after a NACK; else bytes and tags -/
  reply : Option (Option (List Byte × List Bool))
  deriving DecidableEq, Repr

/-- A chain of launches accepted from a host queue (R442). -/
structure Chain where
  vf : Nat
  queue : Nat
  launches : List (Nat × Nat)
  tag : BitVec 32
  sig : Bool
  iova : Word64
  value : Word64
  deriving DecidableEq, Repr

/-- A rank that has joined a collective (R444). -/
structure Rank where
  ident : BitVec 64
  vf : Nat
  queue : Nat
  rank : Nat
  count : Nat
  input : Word64
  output : Word64
  length : Nat
  tag : BitVec 32
  sig : Bool
  iova : Word64
  value : Word64
  deriving DecidableEq, Repr

/-- A weight region (R270). -/
structure Weight where
  ident : BitVec 64
  part : Nat
  base : Nat
  len : Nat
  layout : List Byte
  deriving DecidableEq, Repr

/-- What the module says to the outside, oldest last. -/
inductive Output where
  | msix (vf vector : Nat)
  | mailbox (bytes : List Byte)
  | interface (bytes : List Byte)
  /-- Unsupported Request to a host access, with what a refused read returns (R53) -/
  | unsupported (vf : Nat) (addr : Nat) (answer : List Byte)
  | nack (port : Nat)
  | forward (f : Forward)
  | forwardReply (source : Nat) (bytes : List Byte) (tags : List Bool)
  | weights (idents : List Nat)
  | collective (r : Rank)
  | withdrawn (ident : BitVec 64) (rank : Nat)
  /-- a REVOKE of a granule that another module holds (R147) -/
  | revoke (module granule : Nat)
  /-- the line of another module that a page copy poisons there (R198, R426) -/
  | poison (module line : Nat)
  | identityMismatch
  /-- the receipt of a scrub that has no receipt area (R450) -/
  | receipt (bytes : List Byte)
  deriving DecidableEq, Repr

/-- The host adapter, the translation unit, the weight table and the fabric. -/
structure Outer where
  vfs : Sparse Vf
  /-- notify latch: function × 64 + queue to the last value (R439) -/
  latch : Sparse (BitVec 32)
  s2base : Word64
  s2head : BitVec 8
  s2tail : BitVec 8
  s2waiting : List FaultRec
  xl : XlRegs
  accsel : Word64
  /-- access counters by page key (R423) -/
  accesses : Sparse (BitVec 16)
  nextToken : Nat
  suspended : List Waiter
  commands : List XlCommand
  forwards : List Forward
  chains : Sparse Chain
  nextChain : Nat
  ranks : List Rank
  /-- withdrawn ranks by collective: ident to the lowest rank (R444) -/
  withdrawn : Sparse Nat
  /-- by number of the table entry -/
  weights : Sparse Weight
  /-- identities the pod router was last told of (R272) -/
  advertised : Marks
  /-- REVOKEs made here of granules that other modules hold, by module × 2^60 + granule (R147) -/
  remoteRevokes : Sparse Nat
  /-- frames never to be assigned again (R450), and retired frames, by their number in the module -/
  never : Marks
  retired : Marks
  outputs : List Output
  deriving DecidableEq, Repr

/-- A hart after reset (R454): mtvec holds the address of the ROM halt handler (assumption log 3). -/
def Hart.init : Hart :=
  { x := [], pc := 0, mieBit := false, mpie := false, mtvec := 0, meie := false, mscratch := 0, mepc := 0, mcause := 0,
    mtval := 0, mcycle := 0, minstret := 0, running := false, hashSrc := 0, hashLen := 0, hashOut := [], ctx0 := [],
    ctx1 := [], falMsg := 0, falSig := 0, falKey := 0, falPass := false, mextSrc := 0, mextLen := 0, mrec := [], resv := none }

/-- A mailbox with nothing in it. -/
def Mailbox.init : Mailbox := { pending := none, waiting := [], out := [] }

/-- Debug registers after reset (R49). -/
def Debug.init : Debug :=
  { target := 0, tier := 0, pub := 0, sig := 0, page := [], nonce := [], valid := false, nokey := false, stale := false,
    reject := false, opened := [], digests := [] }

/-- Monitor registers after reset (R51). -/
def Monitor.init : Monitor :=
  { temp := [], vcore := [], proc := [], rail := [], twarn := 0x05F0, tthrot := 0x0640, ttrip := 0x06E0, warn := 0, throt := 0,
    volt := 0, hot := 0 }

/-- Corona's management side after reset; complex 0 is the Zenith at power-on (R31). -/
def Mgmt.init : Mgmt :=
  { zenith := 0, harts := [], meas := [], bootst := 0, mbx := Mailbox.init, ifm := Mailbox.init, spdm := 0, ready := [],
    failed := [], readychg := false, farEnd := [], secrets := false, staged := [], mismatch := false, records := [], fieldSeq := [], updsrc := 0,
    updst := 0, staddr := 0, handoff := none, dbg := Debug.init, mon := Monitor.init, elogBase := 0, elogHead := 0,
    elogTail := 0, elogLost := 0, vfsel := 0, pcAddr := 0, pcArg := 0, pcReason := 0, pcRefused := false }

/-- A queue that has never been mapped (R438). -/
def Queue.init : Queue :=
  { rbase := 0, rsize := 0, head := 0, tail := 0, state := 0, err := 0, runnable := false, gated := false, dorg := 0,
    dbase := 0, den := false, dev := 0, epoch := 0, rearm := false, stopping := false, units := 0, bounce := [],
    before := none }

/-- A command port on which nothing has been issued. -/
def XlRegs.init : XlRegs := { desc := [], tick := 0, done := 0, err := 0, early := [] }

/-- A virtual function after reset (R406 to R408, R418, R451). -/
def Vf.init : Vf :=
  { configured := false, state := 0, cause := 0, refused := false, bars := [], sizes := [], command := 0, msix := 0,
    captured := [], config := [], vectors := [], pending := [], queues := [], ctxtab := 0, frbase := 0, frsize := 0, frhead := 0, frtail := 0, waiting := [],
    xl := XlRegs.init, erbase := 0, ersize := 0, erhead := 0, ertail := 0, erlost := 0 }

/-- The outer side after reset. -/
def Outer.init : Outer :=
  { vfs := [], latch := [], s2base := 0, s2head := 0, s2tail := 0, s2waiting := [], xl := XlRegs.init, accsel := 0,
    accesses := [], nextToken := 1, suspended := [], commands := [], forwards := [], chains := [], nextChain := 0,
    ranks := [], withdrawn := [], weights := [], advertised := [], remoteRevokes := [], never := [], retired := [], outputs := [] }

end Sys2Proof.Machine
end

