-- ==== Sys2Proof/Machine/State.lean ====
section
/-! DEFINITION. The state of the device, its memory, the reasons a step can stop, and the state after power-on reset
(R30). The structures of its parts stand in CoreState, PartState and MgmtState. -/

namespace Sys2Proof.Machine

/-- The memory (R8): bytes of every address space by location (Mem.lean places the spaces), in the canonical form of
ascending locations without zero bytes; the key each byte is held under where it is not plaintext (R194); tags by
granule, full bits by granule, pending marks by 8-byte word, poisoned units by 16-byte granule (R125, R131, R186,
R198). -/
structure Mem where
  cells : List Host.Cell
  keys : Sparse Nat
  tags : Marks
  full : Marks
  pend : Marks
  poison : Marks
  deriving DecidableEq, Repr

/-- What a stalled core waits for (R131, R166): waiters on one resource are served in the order they came. A granule
and a FIFO bank are waited for on two sides, by those that consume what is there and those that need room. -/
inductive Resource where
  | granule (g : Nat) (room : Bool)
  | fifo (cluster bank : Nat) (room : Bool)
  | bank (cluster bank : Nat)
  | stage (cluster ring stage : Nat)
  | channel (part ch : Nat)
  | other
  deriving DecidableEq, Repr

/-- Whose turn it is: an engine takes its next word, an event occurs, or a management hart runs its next instruction. -/
inductive Turn where
  | word (e : EngineId) (a : Actor)
  | event (i : Instr) (a : Actor)
  | hart (a : Actor)
  deriving DecidableEq, Repr

/-- What stood in a granule of HBM before a write that its party has not ordered yet (R309): the core and the unit that
wrote (0 the sequencer, 4 the Stratus unit, 16 + ch a copy of channel ch), the granule, its key, bytes and tag; `own`: the
party itself can still see it, for no QFENCE stands between (R102). -/
structure Older where
  core : Nat
  unit : Nat
  granule : Nat
  key : Nat
  bytes : List Byte
  tag : Bool
  own : Bool
  deriving DecidableEq, Repr

/-- The state of the device. The fields sched, actor, draws, waiters are the model's own (assumption log 4, 5). -/
structure State where
  mem : Mem
  cores : Sparse Core
  clusters : Sparse Cluster
  parts : Sparse Partition
  mgmt : Mgmt
  outer : Outer
  /-- the module has stopped and waits for module reset (R52) -/
  stopped : Bool
  /-- arithmetic-clock cycles since reset (R53, R454) -/
  time : Nat
  sched : List Turn
  actor : Actor
  draws : Nat
  waiters : List (Resource × Nat)
  /-- what unordered writes of a core have replaced, oldest first (R309) -/
  older : List Older
  deriving DecidableEq, Repr

/-- Why the device stops. -/
inductive Fault where
  /-- Raised by step: TTRIP or a lasting voltage fault has stopped the module, which waits for module reset (R52).
  Safe: the hardware does nothing either until that reset. -/
  | moduleStopped
  deriving DecidableEq, Repr

/-- Why an instruction has no meaning here. -/
inductive Refusal where
  /-- Raised by exec for an instruction without a meaning in this model. Safe: no claim follows. -/
  | notModelled (mnemonic : String)
  deriving DecidableEq, Repr

/-- Memory with nothing listed. -/
def Mem.init : Mem := { cells := [], keys := [], tags := [], full := [], pend := [], poison := [] }

/-- The device after power-on reset (R30): every register, SRAM and key clear, complex 0 the Zenith (R31). -/
def State.reset : State :=
  { mem := Mem.init, cores := [], clusters := [], parts := [], mgmt := Mgmt.init, outer := Outer.init, stopped := false,
    time := 0, sched := [], actor := Actor.first, draws := 0, waiters := [], older := [] }

end Sys2Proof.Machine
end

