-- ==== Sys2Proof/Machine/Mem.lean ====
section
/-! DEFINITION. Reading and writing the memory by location; where each address space lies in it (R8, R125, R131, R181,
R188, R194, R198). -/

namespace Sys2Proof.Machine

/-- What a byte that nothing has written reads as: zero. SRAM is cleared at reset (R30, R182); for HBM and host memory
the manual gives no contents (DESIGN CHOICE, log 1). -/
def Mem.unlisted : Byte := 0

/-- One byte as it stands at a location. -/
def Mem.byte (m : Mem) (l : Nat) : Byte := Sparse.get m.cells Mem.unlisted l

/-- The cells after one byte is written: no entry is kept that equals what an unlisted byte reads as. -/
def Mem.putCell (l : Nat) (b : Byte) (cells : List Host.Cell) : List Host.Cell :=
  if b = Mem.unlisted then Sparse.erase l cells else Sparse.set l b cells

/-- Locations strictly rise. -/
def risingFrom (lo : Nat) : List Host.Cell → Bool
  | [] => true
  | (l, _) :: t => decide (lo ≤ l) && risingFrom (l + 1) t

/-- The canonical form of the cells: locations strictly rise, and no cell equals what an unlisted byte reads as. -/
def Mem.wf (m : Mem) : Bool := risingFrom 0 m.cells && m.cells.all (fun c => c.2 != Mem.unlisted)

/-- The key a byte is held under; 0 is plaintext (R194). -/
def Mem.keyAt (m : Mem) (l : Nat) : Nat := Sparse.get m.keys 0 l

/-- The tweak of the 128-byte line at a location: its partition-physical address, or in a bank its address in the L2
window (R194). -/
def tweakOf (l : Nat) : Nat :=
  let k := (l - 2 ^ 53) / 2 ^ 24
  let die := if k < 64 then k / 16 * 2 ^ 28 + k % 16 * 2 ^ 24 else (4 + (k - 64) / 8) * 2 ^ 28 + (k - 64) % 8 * 2 ^ 24
  if l < 2 ^ 52 then floorTo (l % 2 ^ 48) 128 else 0x7E0000000000 + die + floorTo (l % 2 ^ 24) 128

/-- The 16 bytes of the block of a location as they stand. -/
def Mem.block (m : Mem) (l : Nat) : List Byte := (upFrom (floorTo l 16) 16).map m.byte

/-- A byte read under a key other than the one it is held under: its block's ciphertext, deciphered under that key; key 0
is no cipher (R194, R435; log 14). -/
def Mem.foreignByte (m : Mem) (key l : Nat) : Byte :=
  let held := m.keyAt l
  let text := if held = 0 then m.block l else xtsBlock false held (tweakOf l) (l % 128 / 16) (m.block l)
  (if key = 0 then text else xtsBlock true key (tweakOf l) (l % 128 / 16) text).getD (l % 16) 0

/-- A byte read under a key (R194): as written when the key is the one it is held under. -/
def Mem.byteUnder (m : Mem) (key l : Nat) : Byte := if m.keyAt l = key then m.byte l else m.foreignByte key l

/-- n bytes as they stand. -/
def Mem.raw (m : Mem) (l n : Nat) : List Byte := (upFrom l n).map m.byte

/-- n bytes read under a key. -/
def Mem.readUnder (m : Mem) (key l n : Nat) : List Byte := (upFrom l n).map (m.byteUnder key)

/-- Writes one byte under a key. -/
def Mem.putByte (key : Nat) (m : Mem) (lb : Nat × Byte) : Mem :=
  { m with cells := Mem.putCell lb.1 lb.2 m.cells
           keys := if key = 0 then Sparse.erase lb.1 m.keys else Sparse.set lb.1 key m.keys }

/-- Writes bytes from a location on, under a key. -/
def Mem.putBytes (key l : Nat) (bs : List Byte) (m : Mem) : Mem :=
  ((upFrom l bs.length).zip bs).foldl (Mem.putByte key) m

/-- The 16-byte granules that [l, l + n) touches (R125). -/
def granules (l n : Nat) : List Nat := if n = 0 then [] else upFrom (l / 16) ((l + n - 1) / 16 + 1 - l / 16)

/-- HBM-backed locations of partition p; partition-physical addresses have 44 bits (R413). -/
def hbmLoc (p a : Nat) : Nat := p * 2 ^ 48 + a

/-- One past the last HBM-backed location. -/
def hbmEnd : Nat := 2 ^ 52

/-- The L1 of a core (R181). -/
def l1Loc (core off : Nat) : Nat := 2 ^ 52 + core * 2 ^ 20 + off

/-- A bank of a cluster's L2 slice (R188). -/
def bankLoc (cluster bank off : Nat) : Nat := 2 ^ 53 + cluster * 2 ^ 24 + bank * 2 ^ 20 + off

/-- The address space of the harts of a complex (R19, R36). -/
def mgmtLoc (cplx : Fin 2) (a : Nat) : Nat := 2 ^ 72 + cplx.val * 2 ^ 70 + a

/-- Corona shared memory (R43, R49, R53). -/
def coronaLoc (a : Nat) : Nat := 2 ^ 74 + a

/-- Host memory as a virtual function reaches it by IOVA (R437). -/
def hostLoc (vf iova : Nat) : Nat := 2 ^ 80 + vf * 2 ^ 64 + iova

/-- The first location of the unit an error code protects: a 128-byte line of HBM, a 16-byte granule elsewhere (R198). -/
def unitBase (l : Nat) : Nat := if l < hbmEnd then floorTo l 128 else floorTo l 16

/-- The length of that unit. -/
def unitLen (l : Nat) : Nat := if l < hbmEnd then 128 else 16

/-- The first poisoned unit that [l, l + n) touches. -/
def Mem.poisonIn (m : Mem) (l n : Nat) : Option Nat := m.poison.find? (fun u => u < l + n && l < u + unitLen u)

/-- Poison that a write of [l, l + n) leaves: a unit written whole is replaced (R198). -/
def Mem.healed (l n : Nat) (poison : Marks) : Marks := poison.filter (fun u => !(l ≤ u && u + unitLen u ≤ l + n))

/-- The 16-byte block of a location, held under a key from now on with the bytes that read under it: a write smaller than
a line is merged into what the line reads as under the writer's key (R194; log 14). -/
def Mem.adopt (key l : Nat) (m : Mem) : Mem :=
  if (upFrom (floorTo l 16) 16).all (fun x => m.keyAt x = key) then m
  else m.putBytes key (floorTo l 16) (m.readUnder key (floorTo l 16) 16)

/-- The memory in which the blocks at the two edges of [l, l + n) are held under a key (R194). -/
def Mem.adoptEdges (key l n : Nat) (m : Mem) : Mem := if n = 0 then m else (m.adopt key l).adopt key (l + n - 1)

/-- A plain write: bytes under a key, merged into the lines they lie in (R194); the tags of the granules are cleared (R125)
and units written whole are healed. -/
def Mem.write (key l : Nat) (bs : List Byte) (m : Mem) : Mem :=
  let m' := (m.adoptEdges key l bs.length).putBytes key l bs
  { m' with tags := Marks.delAll (granules l bs.length) m.tags, poison := Mem.healed l bs.length m.poison }

/-- Writes cells from a location on. -/
def Mem.putCells (l : Nat) (bs : List Byte) (cells : List Host.Cell) : List Host.Cell :=
  ((upFrom l bs.length).zip bs).foldl (fun cs lb => Mem.putCell lb.1 lb.2 cs) cells

/-- A device write that keeps each byte's key (records, headers, rings). -/
def Mem.poke (l : Nat) (bs : List Byte) (m : Mem) : Mem :=
  { m with cells := Mem.putCells l bs m.cells
           tags := Marks.delAll (granules l bs.length) m.tags
           poison := Mem.healed l bs.length m.poison }

/-- The tag of a granule; a poisoned tag reads as 0 (R198). -/
def Mem.tagAt (m : Mem) (l : Nat) : Bool := Marks.has (l / 16) m.tags && (m.poisonIn (floorTo l 16) 16).isNone

/-- Sets the tag of a granule. -/
def Mem.setTag (l : Nat) (t : Bool) (m : Mem) : Mem :=
  { m with tags := if t then Marks.add (l / 16) m.tags else Marks.del (l / 16) m.tags }

/-- Marks the granules that [l, l + n) touches full (R131, R183). -/
def Mem.fill (l n : Nat) (m : Mem) : Mem := { m with full := Marks.addAll (granules l n) m.full }

/-- Marks the granules that [l, l + n) touches empty (R131). -/
def Mem.drainBits (l n : Nat) (m : Mem) : Mem := { m with full := Marks.delAll (granules l n) m.full }

/-- Clears every byte, tag, full bit, pending mark and poison of [l, l + n). -/
def Mem.wipe (l n : Nat) (m : Mem) : Mem :=
  { cells := m.cells.filter (fun c => !(l ≤ c.1 && c.1 < l + n))
    keys := m.keys.filter (fun c => !(l ≤ c.1 && c.1 < l + n))
    tags := Marks.delRange (l / 16) ((l + n) / 16) m.tags
    full := Marks.delRange (l / 16) ((l + n) / 16) m.full
    pend := Marks.delRange (l / 8) ((l + n) / 8) m.pend
    poison := Marks.delRange l (l + n) m.poison }

/-- The 8-byte words that [l, l + n) touches (R186). -/
def words8 (l n : Nat) : List Nat := if n = 0 then [] else upFrom (l / 8) ((l + n - 1) / 8 + 1 - l / 8)

end Sys2Proof.Machine
end

