-- ==== Sys2Proof/Machine/Stop.lean ====
section
/-! DEFINITION. How an instruction ends before its effect: a trap (R83, R170), a translation fault (R178), a wait
(WaitUntil of R83), a request to another module that has no reply yet (R422). -/

namespace Sys2Proof.Machine

/-- The trap codes of R170. -/
inductive Trap where
  | illegal | swtrap | nohandler | argrange | align | memmode | earlyread | captag | capseal | capperm | capbounds
  | regempty | nolease | nounit | accbusy | apxseq | contstate | syncstate | ringstate | chanstate | xlate1 | xlate2
  | memerr
  deriving DecidableEq, Repr

/-- Their numbers (R170). -/
def Trap.code : Trap → Nat
  | .illegal => 1
  | .swtrap => 2
  | .nohandler => 3
  | .argrange => 4
  | .align => 5
  | .memmode => 6
  | .earlyread => 7
  | .captag => 8
  | .capseal => 9
  | .capperm => 10
  | .capbounds => 11
  | .regempty => 12
  | .nolease => 13
  | .nounit => 14
  | .accbusy => 15
  | .apxseq => 16
  | .contstate => 17
  | .syncstate => 18
  | .ringstate => 19
  | .chanstate => 20
  | .xlate1 => 24
  | .xlate2 => 25
  | .memerr => 26

/-- A table entry on a page of another module whose line has not come yet: the party whose walk reads it, the module, the
entry's address there, the guest-physical page whose counter the read adds to (R416, R422). -/
structure FarEntry where
  party : Party
  module : Nat
  addr : Nat
  page : Nat
  deriving DecidableEq, Repr

/-- A failed translation (R417, R419): stage, cause, walk level, virtual and guest-physical address, access. -/
structure XFault where
  second : Bool
  cause : Nat
  level : Nat
  va : Nat
  gpa : Nat
  write : Bool
  /-- no failure yet: the walk waits for this entry -/
  remote : Option FarEntry
  deriving DecidableEq, Repr

/-- Why an instruction or engine word has no effect now. -/
inductive Stop where
  | trap (t : Trap) (info : Word64) (lane : Option Nat)
  | xlate (f : XFault)
  | wait (r : Resource)
  | forward (fs : List Forward)
  /-- a trap that names an engine and a word of its own (the probe of R293) -/
  | engineTrap (t : Trap) (info : Word64) (engine word : Nat)
  /-- a failed translation of such a word -/
  | engineXlate (f : XFault) (engine word : Nat)
  deriving DecidableEq, Repr

/-- The outcome of the checks of an instruction. -/
abbrev Chk (α : Type) := Except Stop α

/-- Trap(code, info) of R83. -/
def trap {α : Type} (t : Trap) (info : Word64) : Chk α := .error (.trap t info none)

/-- Trap with a number as info. -/
def trapN {α : Type} (t : Trap) (info : Nat) : Chk α := .error (.trap t (BitVec.ofNat 64 info) none)

/-- The trap that a code of R170 stands for, if any. -/
def trapWithCode (n : Nat) : Option Trap :=
  ([.illegal, .swtrap, .nohandler, .argrange, .align, .memmode, .earlyread, .captag, .capseal, .capperm, .capbounds,
    .regempty, .nolease, .nounit, .accbusy, .apxseq, .contstate, .syncstate, .ringstate, .chanstate, .xlate1, .xlate2,
    .memerr] : List Trap).find? (fun t => t.code = n)

/-- WaitUntil of R83. -/
def waitFor {α : Type} (r : Resource) : Chk α := .error (.wait r)

/-- Raises a trap unless a condition holds. -/
def require (p : Bool) (t : Trap) (info : Nat) : Chk Unit := if p then .ok () else trapN t info

/-- Waits unless a condition holds. -/
def waitUnless (p : Bool) (r : Resource) : Chk Unit := if p then .ok () else waitFor r

/-- Applies a check to each element in order. -/
def checkAll {α : Type} (f : α → Chk Unit) : List α → Chk Unit
  | [] => .ok ()
  | x :: l => match f x with
    | .error e => .error e
    | .ok _ => checkAll f l

/-- Applies a checked function to each element in order. -/
def mapChk {α β : Type} (f : α → Chk β) : List α → Chk (List β)
  | [] => .ok []
  | x :: l => match f x with
    | .error e => .error e
    | .ok y => match mapChk f l with
      | .error e => .error e
      | .ok ys => .ok (y :: ys)

end Sys2Proof.Machine
end

