-- ==== Sys2Proof/Machine/Caps.lean ====
section
/-! DEFINITION. Capabilities (R121 to R127): bounds, representable cursors, the checks of R85, derivation, and their
form in memory. -/

namespace Sys2Proof

open Sys2Proof.Machine

/-- The 128 bits of a capability (R121). -/
def capBits (c : Cap) : Nat :=
  c.t.toNat + c.b.toNat * 2 ^ 15 + c.e.toNat * 2 ^ 30 + c.perm.toNat * 2 ^ 36 + c.otype.toNat * 2 ^ 48
    + c.gen.toNat * 2 ^ 56 + c.cursor.toNat * 2 ^ 64

/-- A capability from 128 bits and a tag (R121). -/
def capOfBits (x : Nat) (tag : Bool) : Cap :=
  { cursor := BitVec.ofNat 64 (x / 2 ^ 64), gen := BitVec.ofNat 8 (x / 2 ^ 56), otype := BitVec.ofNat 8 (x / 2 ^ 48),
    perm := BitVec.ofNat 12 (x / 2 ^ 36), e := BitVec.ofNat 6 (x / 2 ^ 30), b := BitVec.ofNat 15 (x / 2 ^ 15),
    t := BitVec.ofNat 15 x, tag := tag }

/-- The 16 bytes of a capability. -/
def capBytes (c : Cap) : List Byte := leBytes (capBits c) 16

/-- A capability from 16 bytes and a tag. -/
def capOfBytes (l : List Byte) (tag : Bool) : Cap := capOfBits (leNat l) tag

/-- Permission bits (R122). -/
def permLoad : Nat := 1
def permStore : Nat := 2
def permLoadCap : Nat := 4
def permStoreCap : Nat := 8
def permExec : Nat := 16
def permGlobal : Nat := 32
def permEngine : Nat := 64
def permPublish : Nat := 128
def permBind : Nat := 256
def permSubmit : Nat := 512

/-- Whether a capability grants every permission of a mask. -/
def Cap.grants (c : Cap) (p : Nat) : Bool := c.perm &&& BitVec.ofNat 12 p = BitVec.ofNat 12 p

/-- Base and Top of R123, exact; Top is exclusive. -/
def Cap.bounds (c : Cap) : Nat × Nat :=
  if c.e.toNat = 63 then (0, 2 ^ 64)
  else
    let u : Int := 2 ^ c.e.toNat
    let w : Int := 2 ^ (c.e.toNat + 15)
    let g : Int := 2 ^ (c.e.toNat + 13)
    let q : Int := ((c.cursor.toNat : Int) + g - c.b.toNat * u) % w
    let base : Int := (c.cursor.toNat : Int) + g - q
    let top : Int := base + (((c.t.toNat : Int) - c.b.toNat) % 2 ^ 15) * u
    if base < 0 ∨ 2 ^ 64 < top then (0, 0) else (base.toNat, top.toNat)

/-- Base(c). -/
def Cap.base (c : Cap) : Nat := c.bounds.1

/-- Top(c). -/
def Cap.top (c : Cap) : Nat := c.bounds.2

/-- max(1, Top − Base), the length most whole-buffer checks use (R139, R146, R148). -/
def Cap.span (c : Cap) : Nat := max 1 (c.top - c.base)

/-- A cursor value is representable when bounds do not move (R124). -/
def Cap.representable (c : Cap) (x : BitVec 64) : Bool := { c with cursor := x }.bounds = c.bounds

/-- The bounds check of R85; the address is exact. -/
def capRange (c : Cap) (a : Int) (n : Nat) : Chk Unit :=
  if a < c.base ∨ (c.top : Int) < a + n then trap .capbounds (BitVec.ofInt 64 a) else .ok ()

/-- CapCheck of R85: tag, seal, permissions, bounds, in that order; the address is exact. -/
def capCheck (c : Cap) (a : Int) (n : Nat) (perms : Nat) : Chk Unit :=
  let info := BitVec.ofInt 64 a
  if c.tag = false then trap .captag info
  else if c.otype ≠ 0 then trap .capseal info
  else if c.grants perms = false then trap .capperm info
  else capRange c a n

/-- The tag and seal checks of CDERIVE and CANDPERM (R126). -/
def tagAndSeal (c : Cap) : Chk Unit :=
  if c.tag = false then trap .captag c.cursor
  else if c.otype ≠ 0 then trap .capseal c.cursor
  else .ok ()

/-- Rounds up to a multiple of 2^e. -/
def roundUp2 (x e : Nat) : Nat := (x + 2 ^ e - 1) / 2 ^ e * 2 ^ e

/-- The exponent CDERIVE chooses for [lo, hi): the smallest that gives at most 24,575 units, 63 when none (R126). -/
def deriveExp (lo hi : Nat) : Nat → Nat → Nat
  | _, 0 => 63
  | e, k + 1 => if (roundUp2 hi e - lo / 2 ^ e * 2 ^ e) / 2 ^ e ≤ 24575 then e else deriveExp lo hi (e + 1) k

/-- The rounded bounds of CDERIVE. -/
def deriveBounds (lo hi : Nat) : Nat × Nat × Nat :=
  let e := deriveExp lo hi 0 50
  if e = 63 then (63, 0, 2 ^ 64) else (e, lo / 2 ^ e * 2 ^ e, roundUp2 hi e)

/-- CDERIVE's result but for its generation (R126): new bounds [cursor, cursor + n), rounded outwards. -/
def deriveCap (c : Cap) (n : Nat) : Chk Cap :=
  match tagAndSeal c with
  | .error e => .error e
  | .ok _ =>
    let lo := c.cursor.toNat
    let r := deriveBounds lo (lo + n)
    if r.2.1 < c.base ∨ c.top < r.2.2 then trap .capbounds c.cursor
    else
      .ok { c with e := BitVec.ofNat 6 r.1
                   b := if r.1 = 63 then 0 else BitVec.ofNat 15 (r.2.1 / 2 ^ r.1)
                   t := if r.1 = 63 then 0 else BitVec.ofNat 15 (r.2.2 / 2 ^ r.1) }

/-- CINCR and CSETCUR: a new cursor; the tag goes when it is not representable (R126). -/
def moveCursor (c : Cap) (x : BitVec 64) : Chk Cap :=
  if c.tag = true ∧ c.otype ≠ 0 then trap .capseal c.cursor
  else .ok { c with cursor := x, tag := c.tag && c.representable x }

/-- A type authority (R127): tagged, unsealed, bounds within [0x1, 0x100), cursor within them. -/
def Cap.isTypeAuthority (c : Cap) : Bool :=
  c.tag && c.otype = 0 && 1 ≤ c.base && c.top ≤ 0x100 && c.base ≤ c.cursor.toNat && c.cursor.toNat < c.top

end Sys2Proof
end

