-- ==== Sys2Proof/Machine/Access.lean ====
section
/-! DEFINITION. Reading and updating the parts of the state: the one way to each register (R10), to cores, clusters,
partitions, worlds, functions, harts. -/

namespace Sys2Proof.Machine

/-- g_n; g0 reads zero (R10). -/
def Core.getG (c : Core) (n : Nat) : Word64 := if n = 0 then 0 else Sparse.get c.g 0 n

/-- g_n := v; a write to g0 is discarded (R10). -/
def Core.setG (c : Core) (n : Nat) (v : Word64) : Core := if n = 0 then c else { c with g := Sparse.set n v c.g }

/-- c_n (R121). -/
def Core.getC (c : Core) (n : Nat) : Cap := Sparse.get c.c Cap.null n

/-- c_n := v. -/
def Core.setC (c : Core) (n : Nat) (v : Cap) : Core := { c with c := Sparse.set n v c.c }

/-- v_n (R204). -/
def Core.getV (c : Core) (n : Nat) : Vec := Sparse.get c.v 0 n

/-- v_n := x, its full/empty bit as it is. -/
def Core.setV (c : Core) (n : Nat) (x : Vec) : Core := { c with v := Sparse.set n x c.v }

/-- Empty(n) of R83. -/
def Core.isEmpty (c : Core) (n : Nat) : Bool := Marks.has n c.vEmpty

/-- SetEmpty(n). -/
def Core.markEmpty (c : Core) (n : Nat) : Core := { c with vEmpty := Marks.add n c.vEmpty }

/-- SetFull(n). -/
def Core.markFull (c : Core) (n : Nat) : Core := { c with vEmpty := Marks.del n c.vEmpty }

/-- Does a word in flight write one of some registers? -/
def VecFlight.writes (f : VecFlight) (rs : List Nat) : Bool := match f.dest with | .reg n => rs.contains n | _ => false

/-- Entries of load queue q, oldest first (R133). -/
def Core.loadQ (c : Core) (q : Nat) : List Vec := Sparse.get c.lq [] q

/-- Entries of store queue q, oldest first (R133). -/
def Core.storeQ (c : Core) (q : Nat) : List Vec := Sparse.get c.sq [] q

/-- Entries of index queue m, oldest first (R134). -/
def Core.indexQ (c : Core) (m : Nat) : List (List Int) := Sparse.get c.iq [] m

def Core.setLoadQ (c : Core) (q : Nat) (l : List Vec) : Core := { c with lq := Sparse.set q l c.lq }
def Core.setStoreQ (c : Core) (q : Nat) (l : List Vec) : Core := { c with sq := Sparse.set q l c.sq }
def Core.setIndexQ (c : Core) (m : Nat) (l : List (List Int)) : Core := { c with iq := Sparse.set m l c.iq }

/-- Core n of the module. -/
def State.core (s : State) (n : Nat) : Core := Sparse.get s.cores Core.init n

def State.setCore (s : State) (n : Nat) (c : Core) : State := { s with cores := Sparse.set n c s.cores }

/-- The acting core. -/
def State.me (s : State) : Core := s.core s.actor.core

def State.setMe (s : State) (c : Core) : State := s.setCore s.actor.core c

/-- The cluster of a core (R1): eight cores each, numbered as the function bits of R32. -/
def clusterOf (core : Nat) : Nat := core / 8

/-- The die of a cluster (R51): Cirrus 0 to 3, Nimbus 4 and 5. -/
def dieOf (cluster : Nat) : Nat := if cluster < 64 then cluster / 16 else 4 + (cluster - 64) / 8

/-- Number of a cluster within its die. -/
def clusterInDie (cluster : Nat) : Nat := if cluster < 64 then cluster % 16 else (cluster - 64) % 8

/-- A Nimbus cluster has a Stratus unit (R1). -/
def isNimbus (cluster : Nat) : Bool := 64 ≤ cluster

/-- Bytes of a bank: 512 KiB on Cirrus, 1 MiB on Nimbus (R1, R188). -/
def bankSize (cluster : Nat) : Nat := if isNimbus cluster then 2 ^ 20 else 2 ^ 19

/-- Entries a FIFO bank holds (R191). -/
def fifoRoom (cluster : Nat) : Nat := if isNimbus cluster then 4096 else 2048

def State.cluster (s : State) (k : Nat) : Cluster := Sparse.get s.clusters Cluster.init k
def State.setCluster (s : State) (k : Nat) (c : Cluster) : State := { s with clusters := Sparse.set k c s.clusters }

/-- The acting core's cluster. -/
def State.home (s : State) : Nat := clusterOf s.actor.core
def State.myCluster (s : State) : Cluster := s.cluster s.home
def State.setMyCluster (s : State) (c : Cluster) : State := s.setCluster s.home c

def Cluster.bank (c : Cluster) (b : Nat) : Bank := Sparse.get c.banks Bank.init b
def Cluster.setBank (c : Cluster) (b : Nat) (x : Bank) : Cluster := { c with banks := Sparse.set b x c.banks }
def Cluster.ring (c : Cluster) (r : Nat) : Ring := Sparse.get c.rings Ring.init r
def Cluster.setRing (c : Cluster) (r : Nat) (x : Ring) : Cluster := { c with rings := Sparse.set r x c.rings }
def Cluster.slot (c : Cluster) (n : Nat) : Slot := Sparse.get c.slots Slot.init n
def Cluster.setSlot (c : Cluster) (n : Nat) (x : Slot) : Cluster := { c with slots := Sparse.set n x c.slots }
def Cluster.tile (c : Cluster) (n : Nat) : Tile := Sparse.get c.tiles Tile.init n
def Cluster.setTile (c : Cluster) (n : Nat) (x : Tile) : Cluster := { c with tiles := Sparse.set n x c.tiles }

def State.part (s : State) (p : Nat) : Partition := Sparse.get s.parts Partition.init p
def State.setPart (s : State) (p : Nat) (x : Partition) : State := { s with parts := Sparse.set p x s.parts }
def State.modPart (s : State) (p : Nat) (f : Partition → Partition) : State := s.setPart p (f (s.part p))

def Partition.channel (p : Partition) (ch : Nat) : Channel := Sparse.get p.channels Channel.init ch
def Partition.setChannel (p : Partition) (ch : Nat) (x : Channel) : Partition :=
  { p with channels := Sparse.set ch x p.channels }
def Partition.world (p : Partition) (w : Nat) : World := Sparse.get p.worlds World.init w
def Partition.setWorld (p : Partition) (w : Nat) (x : World) : Partition := { p with worlds := Sparse.set w x p.worlds }
def Partition.group (p : Partition) (g : Nat) : Group := Sparse.get p.groups Group.init g
def Partition.setGroup (p : Partition) (g : Nat) (x : Group) : Partition := { p with groups := Sparse.set g x p.groups }

/-- The number of a sequence counter within its partition: world, context, counter (R108). -/
def seqIndex (world context i : Nat) : Nat := (world * 256 + context) * 64 + i

def Partition.seq (p : Partition) (n : Nat) : SeqCounter := Sparse.get p.seqs SeqCounter.init n
def Partition.setSeq (p : Partition) (n : Nat) (x : SeqCounter) : Partition := { p with seqs := Sparse.set n x p.seqs }

/-- The partition that owns a cluster (R429). -/
def State.ownerOf (s : State) (k : Nat) : Option Nat :=
  (upFrom 0 16).find? (fun p => (s.part p).present && (s.part p).clust.contains k)

/-- The partition a core belongs to; 0 when it belongs to none (log 2). -/
def State.partOfCore (s : State) (core : Nat) : Nat := (s.ownerOf (clusterOf core)).getD 0

/-- The party of a core: its running continuation's; world 0, context 0 of its partition when none runs (log 2). -/
def State.partyOf (s : State) (core : Nat) : Party :=
  match (s.core core).run with
  | some r => ⟨r.part, r.world, r.context⟩
  | none => ⟨s.partOfCore core, 0, 0⟩

/-- The world entry of a party. -/
def State.worldOf (s : State) (y : Party) : World := (s.part y.part).world y.world

/-- The memory key of a world (R194): its own when sealed; plaintext otherwise. -/
def State.keyOf (s : State) (part world : Nat) : Nat :=
  let w := (s.part part).world world
  if w.isSealed then w.key else 0

/-- The continuation of a core as its record address, 0 when none runs. -/
def Core.record (c : Core) : Nat := match c.run with | some r => r.record | none => 0

def State.vf (s : State) (v : Nat) : Vf := Sparse.get s.outer.vfs Vf.init v
def State.setVf (s : State) (v : Nat) (x : Vf) : State := { s with outer := { s.outer with vfs := Sparse.set v x s.outer.vfs } }
def Vf.queue (f : Vf) (q : Nat) : Queue := Sparse.get f.queues Queue.init q
def Vf.setQueue (f : Vf) (q : Nat) (x : Queue) : Vf := { f with queues := Sparse.set q x f.queues }

/-- The number of a queue's entry in the notify latch (R439). -/
def latchNo (v q : Nat) : Nat := v * 64 + q

/-- The number of a hart among all eight. -/
def hartNo (h : HartId) : Nat := h.cplx.val * 4 + h.hart.val
def State.hartOf (s : State) (h : HartId) : Hart := Sparse.get s.mgmt.harts Hart.init (hartNo h)
def State.setHart (s : State) (h : HartId) (x : Hart) : State :=
  { s with mgmt := { s.mgmt with harts := Sparse.set (hartNo h) x s.mgmt.harts } }

/-- x_n of a hart; x0 reads zero. -/
def Hart.getX (h : Hart) (n : Nat) : Word64 := if n = 0 then 0 else Sparse.get h.x 0 n
def Hart.setX (h : Hart) (n : Nat) (v : Word64) : Hart := if n = 0 then h else { h with x := Sparse.set n v h.x }

/-- Is this hart of the Zenith (R42)? -/
def State.isZenith (s : State) (h : HartId) : Bool := h.cplx = s.mgmt.zenith

/-- Does a hart stand in its HANDOFF write, which has not returned (R45)? -/
def State.stalled (s : State) (h : HartId) : Bool := s.mgmt.handoff = some h

/-- The location of a hart's address. -/
def hartLoc (h : HartId) (a : Nat) : Nat := mgmtLoc h.cplx a

/-- The location of a Zenith-memory address (R421, R430). -/
def State.zenithLoc (s : State) (a : Nat) : Nat := mgmtLoc s.mgmt.zenith a

/-- Adds to what the module says to the outside. -/
def State.say (s : State) (o : Output) : State := { s with outer := { s.outer with outputs := s.outer.outputs ++ [o] } }

/-- Reads memory as it stands. -/
def State.raw (s : State) (l n : Nat) : List Byte := s.mem.raw l n

/-- Sets the event latch of a core (R118). -/
def Core.latch (c : Core) : Core := { c with sys := { c.sys with event := true } }

/-- A draw of a free value: its number, and the state with the counter advanced. -/
def State.drawNo (s : State) : Nat := s.draws
def State.drew (s : State) (n : Nat) : State := { s with draws := s.draws + n }

/-- Does the engine e of this core stand still because of a trap not yet resolved (R173)? -/
def Core.engineStopped (c : Core) (e : Nat) : Bool := Marks.has e c.eng.stopped

/-- Bytes of memory an HBM channel offers to partitions: its capacity less 9/1,024 (R1, R197). A whole number of 64 KiB
frames. -/
def channelBytes (h : Nat) : Nat := (if h < 256 then 1536 * 2 ^ 20 else 2048 * 2 ^ 20) * 1015 / 1024

/-- The channel and the offset in it of an address counted over channels in their order. -/
def inChannels (a : Nat) : List Nat → Option (Nat × Nat)
  | [] => none
  | h :: hs => if a < channelBytes h then some (h, a) else inChannels (a - channelBytes h) hs

/-- The address, counted over channels in their order, of an offset in a channel. -/
def overChannels (h off : Nat) : List Nat → Option Nat
  | [] => none
  | j :: hs => if j = h then some off else (overChannels h off hs).map (· + channelBytes j)

/-- The number of the 64 KiB frame at a partition-physical address among all frames of the module's HBM, whichever partition
holds its channel: 2^20 times the channel and the frame in it (R450; log 7). -/
def Partition.frameNo (p : Partition) (a : Nat) : Nat :=
  match inChannels a p.hbm with
  | some c => c.1 * 2 ^ 20 + c.2 / 2 ^ 16
  | none => 2 ^ 40

/-- The partition-physical address of a frame of the module, where the partition has its channel. -/
def Partition.frameAddr (p : Partition) (f : Nat) : Option Nat := overChannels (f / 2 ^ 20) (f % 2 ^ 20 * 2 ^ 16) p.hbm

/-- Every core of a cluster. -/
def coresOf (k : Nat) : List Nat := upFrom (8 * k) 8

/-- Every core of a partition. -/
def Partition.cores (p : Partition) : List Nat := (p.clust.map coresOf).flatten

end Sys2Proof.Machine
end

