-- ==== Sys2Proof/Machine/Keccak.lean ====
section
/-! DEFINITION. SHAKE256, the hash of the device (R19, R21, R24, R26, R35, R270, R377). The manual names the function only;
its inside is the standard's (PRESUMED, log 94). A state is one number of 1,600 bits, lane (x, y) its 64 bits from
64 (x + 5 y) up, so that a rate of 136 bytes is its low 1,088 bits. -/

namespace Sys2Proof.Machine

/-- Lane number n of a state. -/
def sponge64 (a n : Nat) : Nat := bitsAt a (64 * n) 64

/-- A lane turned left by n bits, n below 64. -/
def turn64 (w n : Nat) : Nat := (w * 2 ^ n + w / 2 ^ (64 - n)) % 2 ^ 64

/-- The number whose lanes 0 to n − 1 are f 0 to f (n − 1). -/
def lanesFrom (f : Nat → Nat) : Nat → Nat
  | 0 => 0
  | n + 1 => lanesFrom f n + f n * 2 ^ (64 * n)

/-- A row of five lanes, 320 bits, turned by one lane: lane x of the result is lane x + 1. -/
def turnRow (r : Nat) : Nat := r / 2 ^ 64 + r % 2 ^ 64 * 2 ^ 256

/-- Row y of a state. -/
def spongeRow (a y : Nat) : Nat := bitsAt a (320 * y) 320

/-- The rows' exclusive or: the parity of each column. -/
def columnSum (a : Nat) : Nat := spongeRow a 0 ^^^ spongeRow a 1 ^^^ spongeRow a 2 ^^^ spongeRow a 3 ^^^ spongeRow a 4

/-- The first stage of a round: every column takes the parities of the column before it and, turned by one, of the column
after it. -/
def mixColumns1600 (a : Nat) : Nat :=
  let c := columnSum a
  let d := lanesFrom (fun x => sponge64 c ((x + 4) % 5) ^^^ turn64 (sponge64 c ((x + 1) % 5)) 1) 5
  a ^^^ d * (1 + 2 ^ 320 + 2 ^ 640 + 2 ^ 960 + 2 ^ 1280)

/-- The second stage: the lane at (x, y) is turned by the next triangular number and goes to (y, 2x + 3y), along the path
that starts at (1, 0); the lane at (0, 0) stays. `t` counts the lanes moved, `out` holds them. -/
def walkLanes (a : Nat) : Nat → Nat → Nat → Nat → Nat → Nat
  | 0, _, _, _, out => out
  | n + 1, t, x, y, out =>
    let w := turn64 (sponge64 a (x + 5 * y)) ((t + 1) * (t + 2) / 2 % 64)
    let z := (2 * x + 3 * y) % 5
    walkLanes a n (t + 1) y z (out + w * 2 ^ (64 * (y + 5 * z)))

/-- The third stage of a row: each lane takes the two that follow it. -/
def foldRow (r : Nat) : Nat :=
  let n := turnRow r
  r ^^^ ((2 ^ 320 - 1 - n) &&& turnRow n)

/-- The third stage of a state. -/
def foldRows (a : Nat) : Nat :=
  foldRow (spongeRow a 0) + foldRow (spongeRow a 1) * 2 ^ 320 + foldRow (spongeRow a 2) * 2 ^ 640
    + foldRow (spongeRow a 3) * 2 ^ 960 + foldRow (spongeRow a 4) * 2 ^ 1280

/-- One step of the shift register that feeds the round constants: eight bits, x⁸ + x⁶ + x⁵ + x⁴ + 1. -/
def feedStep (r : Nat) : Nat := if r < 128 then 2 * r else 2 * r ^^^ 0x171

/-- The constant of a round from the register: its seven next bits go to places 0, 1, 3, 7, 15, 31 and 63. -/
def roundFeed : Nat → Nat → Nat × Nat
  | 0, r => (0, r)
  | n + 1, r =>
    let q := roundFeed n (feedStep r)
    (q.1 + r % 2 * 2 ^ (2 ^ (6 - n) - 1), q.2)

/-- n rounds, from a state and a register. -/
def spongeRounds : Nat → Nat → Nat → Nat
  | 0, a, _ => a
  | n + 1, a, r =>
    let m := mixColumns1600 a
    let k := roundFeed 7 r
    spongeRounds n (foldRows (walkLanes m 24 0 1 0 (m % 2 ^ 64)) ^^^ k.1) k.2

/-- The permutation of 24 rounds. -/
def permute1600 (a : Nat) : Nat := spongeRounds 24 a 1

/-- Bytes of the rate. -/
def shakeRate : Nat := 136

/-- What follows a message of n bytes to fill its last block: the domain bits 1111, a one, zeros and a last one. -/
def shakePad (n : Nat) : List Byte := leBytes (0x1F + 2 ^ (8 * (shakeRate - n % shakeRate) - 1)) (shakeRate - n % shakeRate)

/-- Takes n blocks of a padded message into a state. -/
def shakeBlocks : Nat → Nat → List Byte → Nat
  | 0, a, _ => a
  | n + 1, a, l => shakeBlocks n (permute1600 (a ^^^ leNat (l.take shakeRate))) (l.drop shakeRate)

/-- The first n bytes, at most 136, of SHAKE256 over a message. -/
def shake256 (l : List Byte) (n : Nat) : List Byte :=
  leBytes (shakeBlocks (l.length / shakeRate + 1) 0 (l ++ shakePad l.length)) n

end Sys2Proof.Machine
end

