-- ==== Sys2Proof/Machine/Secrets.lean ====
section
/-! DEFINITION. The secrets of the root of trust and the keys derived from them (R35, R50, R194, R271, R377, R435). A key is
the number of its 64 bytes; 0 stands for none. Widths that the manual does not give are the model's (log 14). -/

namespace Sys2Proof.Machine

/-- The secret that a label names: SHAKE256 of the identity seed and the label (R35; log 12). -/
def secretOf (label : Nat) : List Byte := shake256 (Config.pufSeed ++ leBytes label 1) 64

/-- The secret of a label as it stands: zeros before stage 0 has derived it and once a wipe has destroyed it (R35, R47). -/
def State.secret (s : State) (label : Nat) : List Byte :=
  if s.mgmt.secrets then secretOf label else List.replicate 64 0

/-- n fresh random bytes of RNDW (R19). -/
def State.random (s : State) (n : Nat) : List Byte := (upFrom s.draws n).map Config.randomByte

/-- A fresh memory key for a world, or for a whole partition under world number 0xFF: SHAKE256 over the world-key root,
the partition, the world and a nonce of eight random bytes, which the caller draws (R35, R435). -/
def State.freshKey (s : State) (p w : Nat) : Nat :=
  leNat (shake256 (s.secret 2 ++ leBytes p 1 ++ leBytes w 1 ++ s.random 8) 64)

/-- The weight key of a partition: derived from the world-key root, the manual does not say how (R271; log 14). -/
def State.weightKey (s : State) (p : Nat) : Nat := Config.weightKey (s.secret 2) p

/-- The key that seals the save areas of a world and context: 64 bytes of SHAKE256 over the save-area root, the partition
number, the world and the context (R35, R377). -/
def State.saveKey (s : State) (p w c : Nat) : Nat :=
  leNat (shake256 (s.secret 3 ++ leBytes p 1 ++ leBytes w 1 ++ leBytes c 1) 64)

end Sys2Proof.Machine
end

