-- ==== Sys2Proof/Machine/SaveArea.lean ====
section
/-! DEFINITION. Save areas in memory: the header, the directory, the sections with what a forced suspension keeps, their
sealing and the digest (R168, R377 to R380). The manual gives each section's contents and largest size; the order of the
bytes within a section, and the zeros that fill it to that size, are the model's (log 8). -/

namespace Sys2Proof.Machine

/-! ### The pool (R378, R379) -/

/-- Bytes of a save area (R378). -/
def areaBytes : Nat := 10752 * 1024

/-- The lowest free area of a partition's pool. -/
def Partition.freeArea (p : Partition) : Option Nat :=
  (upFrom 0 p.saveCnt).find? (fun i => (Sparse.get p.areas Area.init i).saved.isNone)

/-- The handle of area i: its partition-physical address (log 8). -/
def Partition.handle (p : Partition) (i : Nat) : Nat := p.saveBase + i * areaBytes

/-- The area whose base a handle is; none for any other number. -/
def Partition.areaOf (p : Partition) (h : Nat) : Option Nat :=
  if p.saveBase ≤ h ∧ (h - p.saveBase) % areaBytes = 0 ∧ (h - p.saveBase) / areaBytes < p.saveCnt then
    some ((h - p.saveBase) / areaBytes)
  else none

/-! ### Bytes of the parts of a core -/

/-- A number in eight bytes. -/
def quad (x : Nat) : List Byte := leBytes x 8

/-- Sixteen capabilities and the mask of their tags. -/
def capTable (t : Sparse Cap) : List Byte :=
  ((upFrom 0 16).map (fun i => capBytes (Sparse.get t Cap.null i))).flatten
    ++ leBytes (((upFrom 0 16).map (fun i => bitVal (Sparse.get t Cap.null i).tag i)).sum) 2

/-- Numbered marks as n bits. -/
def markBits (m : Marks) (n : Nat) : List Byte := leBytes ((m.map (fun i => 2 ^ i)).sum) (n / 8)

/-- A list with its count. -/
def counted {α : Type} (f : α → List Byte) (l : List α) : List Byte := leBytes l.length 4 ++ (l.map f).flatten

/-- An execution of an approximable region (R112). -/
def regionBytes (r : RegionRun) : List Byte :=
  quad r.id ++ quad r.firstIn ++ quad r.nIn ++ quad r.firstOut ++ quad r.nOut
    ++ leBytes (match r.sampled with
      | .off => 0 | .observe => 1 | .train => 2 | .shadow => 3 | .serve => 4 | .fallback => 5 | .invalid => 6) 1
    ++ leBytes (bitVal r.checks 0 + bitVal r.closed 1 + bitVal r.ended 2 + bitVal r.skipped 3) 1 ++ quad r.offset
    ++ markBits r.written 64
    ++ (match r.inputs with | some i => 1 :: counted vecBytes i.1 ++ quad i.2 | none => [0])

/-- A region sequence state (R112). -/
def regionSeqBytes (r : RegionSeq) : List Byte :=
  match r with
  | .closed => [0]
  | .opened x => 1 :: regionBytes x
  | .issued x => 2 :: regionBytes x

/-- The system registers that a forced suspension keeps (R64, R168). -/
def sysBytes (y : CoreSys) : List Byte :=
  leBytes (bitVal y.inh 0 + bitVal y.demoted 1 + bitVal y.fullst 2 + bitVal y.pendtrap 3 + bitVal y.abandon 4
      + bitVal y.event 5 + y.cls % 4 * 2 ^ 6) 8
    ++ quad y.faultInfo.toNat ++ quad y.faultAddr.toNat ++ quad y.faultPc.toNat ++ quad y.trapvec.toNat
    ++ quad y.eretpc.toNat ++ quad y.evwatch.toNat ++ quad y.stagewin.toNat ++ quad y.loopCount.toNat ++ quad y.loopDrain
    ++ quad y.vshape ++ quad y.apxRegion.toNat ++ quad y.apxIndex.toNat ++ quad y.attncfg.toNat ++ quad y.attnscl.toNat
    ++ quad y.upc.toNat

/-- A held trap (R174, R180). -/
def heldTrapBytes (h : HeldTrap) : List Byte :=
  leBytes h.engine 1 ++ leBytes h.code 1 ++ (match h.lane with | some n => [1, BitVec.ofNat 8 n] | none => [0, 0])
    ++ leBytes h.word 4 ++ quad h.info.toNat ++ quad h.cycle

/-- Section 1: registers, system registers, region sequence, claim, resume offset, held traps. -/
def coreSection (c : Core) : List Byte :=
  ((upFrom 0 32).map (fun i => quad (c.getG i).toNat)).flatten ++ capTable c.c ++ sysBytes c.sys ++ leBytes (bitVal c.sys.lease 0) 1
    ++ quad c.pc.toNat ++ counted heldTrapBytes c.eng.heldTraps ++ leBytes (c.eng.stopped.map (fun i => 2 ^ i)).sum 1
    ++ leBytes (match c.eng.trapFrom with | some e => e + 1 | none => 0) 1 ++ regionSeqBytes c.sys.region

/-- Section 2: v0 to v55 with their empty marks. -/
def vregSection (c : Core) : List Byte := ((upFrom 0 56).map (fun i => vecBytes (c.getV i))).flatten ++ markBits c.vEmpty 56

/-- Bytes that each index of an entry takes: the least of 1, 2, 4 and 8 that holds them all. An entry that VPUSHIX pushed
under lanes of w bytes has at most 256 / w indices (R222), so it takes at most 256 bytes. -/
def indexWidth (ix : List Int) : Nat :=
  let fits := fun (w : Nat) => ix.all (fun i => decide (-(2 ^ (8 * w - 1) : Int) ≤ i) && decide (i < (2 ^ (8 * w - 1) : Int)))
  if fits 1 then 1 else if fits 2 then 2 else if fits 4 then 4 else 8

/-- An entry of an index queue: the width of its indices, their number, the indices. -/
def indexBytes (ix : List Int) : List Byte :=
  leBytes (indexWidth ix) 1 ++ counted (fun i => leBytes (i % 2 ^ 64).toNat (indexWidth ix)) ix

/-- Section 3: load and store queues, index queues, cq. -/
def queueSection (c : Core) : List Byte :=
  ((upFrom 0 4).map (fun q => counted vecBytes (c.loadQ q))).flatten
    ++ ((upFrom 0 4).map (fun q => counted vecBytes (c.storeQ q))).flatten
    ++ ((upFrom 0 2).map (fun q => counted indexBytes (c.indexQ q))).flatten
    ++ counted (fun (w : Word64) => quad w.toNat) c.cq

/-- Section 4: L1 with its tags, full bits and pending marks. -/
def l1Section (x : Saved) : List Byte :=
  (upFrom 0 (2 ^ 18)).map (fun o => Sparse.get x.l1 Mem.unlisted o)
    ++ markBits x.l1tags (2 ^ 14) ++ markBits x.l1full (2 ^ 14) ++ markBits x.l1pend (2 ^ 15)

/-- A place of the memory. -/
def placeBytes (p : Place) : List Byte :=
  match p with
  | .here l k => 0 :: leBytes l 16 ++ leBytes k 64
  | .away m a g => 1 :: leBytes m 4 ++ leBytes a 12 ++ quad g

/-- A kept vector or matrix block (R99). -/
def blockBytes (b : Block) : List Byte :=
  leBytes b.start 4 ++ leBytes b.next 4 ++ leBytes b.sample.toNat 1 ++ leBytes b.image 4 ++ leBytes (bitVal b.marked 0) 1
    ++ capTable b.snap ++ (match b.region with | some r => 1 :: regionBytes r | none => [0])

/-- A loop nest (R291). -/
def nestBytes (n : Nest) : List Byte :=
  quad n.top ++ counted quad n.counts ++ counted (fun i => quad (i % 2 ^ 64).toNat) n.sstr
    ++ counted (fun i => quad (i % 2 ^ 64).toNat) n.dstr ++ capBytes n.src ++ capBytes n.dst
    ++ leBytes (bitVal n.src.tag 0 + bitVal n.dst.tag 1) 1 ++ quad n.srcOff ++ quad n.dstOff ++ leBytes n.srcReg 1
    ++ leBytes n.dstReg 1 ++ quad n.lastBytes

/-- A kept transfer block. -/
def xferBytes (b : XferBlock) : List Byte :=
  leBytes b.start 4 ++ leBytes b.next 4 ++ quad b.ident ++ leBytes b.image 4 ++ leBytes (bitVal b.marked 0) 1
    ++ capTable b.snap ++ nestBytes b.nest

/-- The copies of a word that are left, with the number of the next one. -/
def emitBytes (m : Emit) : List Byte :=
  quad m.block ++ leBytes m.word 4 ++ leBytes m.ch 1 ++ quad m.bytes ++ nestBytes m.nest ++ quad m.next
    ++ leBytes (bitVal m.failed 0 + bitVal m.reprobe 1 + bitVal m.marked 2) 1

/-- A held translation (R294). -/
def holdBytes (h : Hold) : List Byte :=
  quad h.block ++ quad h.vpage ++ leBytes (bitVal h.write 0 + bitVal h.stale 1) 1 ++ placeBytes h.place
    ++ (match h.emitWord with | some w => 1 :: leBytes w 4 | none => [0]) ++ counted quad h.guests

/-- Section 5: the kept blocks of the vector, matrix and transfer engines, copies left, held translations. -/
def engineSection (c : Core) : List Byte :=
  counted blockBytes c.eng.vecQ ++ counted blockBytes c.eng.matQ ++ counted xferBytes c.eng.xferQ
    ++ counted emitBytes c.eng.emits ++ counted holdBytes c.eng.holds ++ quad c.eng.nextIdent

/-- Section 6: the staging slots with shape and mark (R289). -/
def stageSection (x : Saved) : List Byte :=
  ((upFrom 0 4).map (fun n =>
    let t := Sparse.get x.slots Slot.init n
    quad t.rows ++ quad t.cols ++ quad t.mark ++ List.replicate 1000 0
      ++ (upFrom 0 (2 ^ 18)).map (fun o => Sparse.get t.bytes (0 : Byte) o))).flatten

/-- Section 7: one tile with its number. -/
def tileSection (q : Nat × Tile) : List Byte :=
  let t := q.2
  quad q.1 ++ quad t.rows ++ quad t.cols
    ++ quad (match t.kind with | .i40 => 0 | .fp32 => 1 | .fp64 => 2) ++ List.replicate 4064 0
    ++ ((upFrom 0 65536).map (fun i => quad (Sparse.get t.lanes 0 i).toNat)).flatten

/-- Rows of elements of n bytes each. -/
def rowsBytes (n : Nat) (l : List (List Nat)) : List Byte := counted (counted (fun x => leBytes x n)) l

/-- A Stratus memory microword that is to be issued again: its address in the control store. -/
def stratFlightBytes (f : StratFlight) : List Byte := leBytes f.word 4

/-- Section 8: the state of a Stratus block, its start registers, snapshot and next address (R333, R342). -/
def stratSection (u : StratRun) : List Byte :=
  let words := fun (l : List (BitVec 32)) => counted (fun (x : BitVec 32) => leBytes x.toNat 4) l
  let n := if bitsAt u.cfg.toNat 4 2 = 2 then 1 else 2
  leBytes u.start 4 ++ leBytes u.next 4 ++ leBytes u.image 4 ++ capTable u.snap ++ quad u.cfg.toNat ++ quad u.scl.toNat
    ++ leBytes (bitVal u.checked 0 + bitVal u.wants 1 + bitVal u.marked 2) 1 ++ rowsBytes n u.q ++ words u.pos ++ words u.table
    ++ quad u.tb ++ quad u.tc ++ quad u.bc
    ++ counted (fun (k : Nat × KSlot) => quad k.1 ++ rowsBytes n k.2.rows ++ quad k.2.kpos ++ quad k.2.len) u.slots
    ++ counted words u.s ++ counted (counted (fun (x : BitVec 8) => [x])) u.p ++ words u.m ++ words u.l ++ words u.r
    ++ counted words u.o ++ counted (fun b => leBytes (bitVal b 0) 1) u.nan ++ counted (fun b => leBytes (bitVal b 0) 1) u.empty ++ quad u.mm
    ++ counted quad u.lc ++ counted stratFlightBytes u.traffic

/-! ### The area (R377, R378) -/

/-- Does a save keep a block of an engine? -/
def Saved.keepsBlock (x : Saved) : Bool :=
  x.core.eng.vecQ ≠ [] || x.core.eng.matQ ≠ [] || x.core.eng.xferQ ≠ [] || x.core.eng.emits ≠ []

/-- The sections a save has, in ascending kind: kind, length in bytes, contents (R378). -/
def Saved.sections (x : Saved) : List (Nat × Nat × List Byte) :=
  [(1, 4096, coreSection x.core), (2, 16384, vregSection x.core), (3, 20480, queueSection x.core), (4, 270336, l1Section x)]
    ++ (if x.keepsBlock then [(5, 65536, engineSection x.core)] else [])
    ++ (if x.slots ≠ [] then [(6, 1052672, stageSection x)] else [])
    ++ x.tiles.map (fun t => (7, 528384, tileSection t))
    ++ (match x.strat with | some u => [(8, 917504, stratSection u)] | none => [])

/-- Kinds and lengths of the sections. -/
def sectionsOf (x : Saved) : List (Nat × Nat) := x.sections.map (fun t => (t.1, t.2.1))

/-- Bytes of an area that a save writes: the header's 4 KiB and the sections, each a multiple of 4 KiB. -/
def Saved.length (x : Saved) : Nat := 4096 + ((sectionsOf x).map Prod.snd).sum

/-- The directory of a save area: kinds of the sections present, with lengths and offsets. -/
def directory (kinds : List (Nat × Nat)) : Nat → List Byte
  | off => match kinds with
    | [] => []
    | (k, n) :: ks => leBytes k 2 ++ leBytes 0 2 ++ leBytes n 4 ++ leBytes off 8
        ++ directory ks (off + (n + 4095) / 4096 * 4096)

/-- The header of a save with a digest. -/
def saveHeader (x : Saved) (digest : List Byte) : List Byte :=
  let kinds := sectionsOf x
  leBytes 0x53415645 4 ++ leBytes 1 2 ++ leBytes kinds.length 2 ++ leBytes x.record 8 ++ leBytes x.epoch.toNat 8
    ++ [BitVec.ofNat 8 x.world, BitVec.ofNat 8 x.context, BitVec.ofNat 8 x.kind, BitVec.ofNat 8 (dieOf x.cluster),
        BitVec.ofNat 8 (clusterInDie x.cluster), BitVec.ofNat 8 (x.origin % 8), 0, 0]
    ++ sliceB 0 64 digest ++ directory kinds 4096

/-- Bytes enciphered in blocks of 16, from a partition-physical address on (R377). -/
def sealBytes (key : Nat) : Nat → List Byte → Nat → List Byte
  | 0, _, _ => []
  | n + 1, l, a => xtsBlock false key (floorTo a 128) (a % 128 / 16) (l.take 16) ++ sealBytes key n (l.drop 16) (a + 16)

/-- The ciphertext of every section, in directory order, of an area at a partition-physical base. -/
def Saved.cipher (x : Saved) (key base : Nat) : List Byte :=
  let plain := (x.sections.map (fun t => sliceB 0 t.2.1 t.2.2)).flatten
  sealBytes key (plain.length / 16) plain (base + 4096)

/-- The digest over an area's bytes: SHAKE256 of the key material, the header with its digest field zero, the sections as
they stand. -/
def areaDigest (key : Nat) (area : List Byte) : List Byte :=
  shake256 (leBytes key 64 ++ area.take 32 ++ List.replicate 64 (0 : Byte) ++ area.drop 96) 64

/-- The bytes a save writes into an area at a base. -/
def Saved.area (x : Saved) (key base : Nat) : List Byte :=
  let body := x.cipher key base
  sliceB 0 4096 (saveHeader x (areaDigest key (sliceB 0 4096 (saveHeader x []) ++ body))) ++ body

/-- The checks of a restore over the bytes of an area: the digest, the device's epoch for the area, the record address
and the world (R380). -/
def areaGood (key : Nat) (area : List Byte) (epoch record world : Nat) : Bool :=
  sliceB 32 64 area = areaDigest key area && numAt 16 8 area = epoch && numAt 8 8 area = record && numAt 24 1 area = world

end Sys2Proof.Machine
end

