-- ==== Sys2Proof/Machine/Translate.lean ====
section
/-! DEFINITION. Address translation (R413 to R417), the windows (R181, R188), and the pieces an access falls into. -/

namespace Sys2Proof.Machine

/-- What a virtual address names before translation (R181, R188, R413). -/
inductive Window where
  | l1 (off : Nat)
  | bank (cluster bank off : Nat)
  | nowhere
  | translated
  deriving DecidableEq, Repr

/-- The cluster of die d, number k; none where the die has no such cluster. -/
def clusterAt (d k : Nat) : Option Nat :=
  if d < 4 then some (16 * d + k)
  else if d < 6 ∧ k < 8 then some (64 + 8 * (d - 4) + k)
  else none

/-- The window of a virtual address. -/
def windowOf (va : Nat) : Window :=
  if va / 2 ^ 40 = 0x7F then
    if va - 0x7F0000000000 < 2 ^ 18 then .l1 (va - 0x7F0000000000) else .nowhere
  else if va / 2 ^ 40 = 0x7E then
    let o := va - 0x7E0000000000
    match clusterAt (o / 2 ^ 28) (o / 2 ^ 24 % 16) with
    | some k => if o % 2 ^ 20 < bankSize k then .bank k (o / 2 ^ 20 % 16) (o % 2 ^ 20) else .nowhere
    | none => .nowhere
  else .translated

/-- Bytes of a partition's memory; partition-physical addresses run from 0 (log 7). -/
def Partition.memSize (p : Partition) : Nat := (p.hbm.map channelBytes).sum

/-- What a table entry is, once it passes R415. -/
inductive Entry where
  | table (next : Nat)
  | leaf (page : Nat) (w : Bool)
  | leafOf (page : Nat) (w : Bool) (world : Nat) (weightKey : Bool) (shadowed : Bool)
  | remote (module page : Nat) (w : Bool)
  deriving DecidableEq, Repr

/-- Bytes a leaf of level L maps (R414). -/
def pageBytes (L : Nat) : Nat := 2 ^ (16 + if L = 0 then 0 else 5 + 9 * (L - 1))

/-- Checks an entry read at a level (R415, R417): the cause of its failure, or what it is. -/
def checkEntry (second : Bool) (L e : Nat) : Except Nat Entry :=
  if bitAt e 0 = false then .error 1
  else if bitAt e 1 then
    if L = 0 ∨ bitsAt e 2 6 ≠ 0 ∨ bitsAt e 48 16 ≠ 0 ∨ (2 ≤ L ∧ bitsAt e 8 4 ≠ 0) then .error 3
    else .ok (.table (bitsAt e 8 40 * 2 ^ 8))
  else if L = 3 ∨ bitsAt e 4 12 ≠ 0 ∨ (bitsAt e 16 28 * 2 ^ 16) % pageBytes L ≠ 0 then .error 3
  else if second = false then
    if bitAt e 3 ∨ bitsAt e 48 16 ≠ 0 then .error 3 else .ok (.leaf (bitsAt e 16 32 * 2 ^ 16) (bitAt e 2))
  else if bitAt e 3 then
    if 786431 < bitsAt e 44 20 then .error 3
    else .ok (.remote (bitsAt e 44 20) (bitsAt e 16 28 * 2 ^ 16) (bitAt e 2))
  else if bitsAt e 44 11 ≠ 0 ∨ bitAt e 63 then .error 3
  else .ok (.leafOf (bitsAt e 16 28 * 2 ^ 16) (bitAt e 2) (bitsAt e 56 6) (bitAt e 55) (bitAt e 62))

/-- The index of an address at a level, as a byte offset into the table (R414). -/
def entryOffset (a L : Nat) : Nat := if L = 0 then 8 * bitsAt a 16 5 else 8 * bitsAt a (21 + 9 * (L - 1)) 9

/-- A frame of the partition that may be mapped: within its memory, and not in the never-reassignable map (R417, R450). -/
def State.frameOk (s : State) (p a n : Nat) : Bool :=
  a + n ≤ (s.part p).memSize && !(s.outer.never.any (fun f =>
    match (s.part p).frameAddr f with | some b => a < b + 2 ^ 16 && b < a + n | none => false))

/-- The model's own cause of a walk that met a poisoned table entry: its access raises MEMERR and no translation fault
(R198). The causes of R417 are 1 to 5. -/
def badWalk : Nat := 6

/-- Does an entry with V = 1, a local leaf of level L whatever else it says, name a page outside the memory that may be
mapped? RANGE comes before RESERVED (R417). -/
def State.leafOutside (s : State) (p L e : Nat) : Bool :=
  let n := pageBytes L
  L < 3 && bitAt e 0 && !bitAt e 1 && !bitAt e 3 && !s.frameOk p (bitsAt e 16 28 * 2 ^ 16) (if bitAt e 62 then 2 * n else n)

/-- Walks the second stage from a table of level L (R416, R417): the level of the leaf and the leaf, or a cause. -/
def State.walk2 (s : State) (p gpa : Nat) : Nat → Nat → Except Nat (Nat × Entry)
  | L, table =>
    if s.frameOk p table 256 = false then .error 4
    else if (s.mem.poisonIn (hbmLoc p (table + entryOffset gpa L)) 8).isSome then .error badWalk
    else
      let e := leNat (s.raw (hbmLoc p (table + entryOffset gpa L)) 8)
      match checkEntry true L e with
      | .error c => .error (if s.leafOutside p L e then 4 else c)
      | .ok (.table next) =>
        match L with
        | 0 => .error 3
        | L + 1 => State.walk2 s p gpa L next
      | .ok leaf => .ok (L, leaf)

/-- The key that encrypts a page (R194, R271): the world's that its leaf names, or the partition's weight key. -/
def State.pageKey (s : State) (p world : Nat) (weightKey : Bool) : Nat :=
  if weightKey then s.weightKey p else s.keyOf p world

/-- Does [l, l + n) of a partition's memory meet a registered weight region (R271)? -/
def State.inWeights (s : State) (p l n : Nat) : Bool :=
  s.outer.weights.any (fun w =>
    w.2.part = p && hbmLoc p w.2.base < l + n && l < hbmLoc p (w.2.base + w.2.len))

/-- Does [l, l + n) meet an admitted image of a partition, which cannot be changed (R57)? -/
def State.inImage (s : State) (p l n : Nat) : Bool :=
  (s.part p).images.any (fun q => hbmLoc p q.2.base < l + n && l < hbmLoc p (q.2.base + 4 * q.2.words))

/-- Translates a guest-physical address at the second stage (R415 to R417). An entry that maps weight memory denies
writes (R271), and a granule of an admitted image denies them as such an entry does (R57; log 97). `shadow`: an engine write,
which reaches the shadow frame of a shadowed pair (R141, R415). -/
def State.translate2 (s : State) (y : Party) (gpa : Nat) (write shadow : Bool) : Except Nat Place :=
  if 2 ^ 48 ≤ gpa then .error 4
  else match s.walk2 y.part gpa 3 (s.worldOf y).s2root with
  | .error c => .error c
  | .ok (L, .leafOf page w world k sh) =>
    let n := pageBytes L
    if s.frameOk y.part page (if sh then 2 * n else n) = false then .error 4
    else if write && (!w || s.inWeights y.part (hbmLoc y.part page) (if sh then 2 * n else n)) then .error 2
    else
      let second := sh && (Marks.has page (s.part y.part).swapped != shadow)
      let l := hbmLoc y.part (page + (if second then n else 0) + gpa % n)
      if write && s.inImage y.part (floorTo l 16) 16 then .error 2 else .ok (.here l (s.pageKey y.part world k))
  | .ok (L, .remote m page w) =>
    if write && !w then .error 2
    else .ok (.away m (page + gpa % pageBytes L) (gpa / 2 ^ 16 * 2 ^ 16 + y.part * 2 ^ 8 + y.world))
  | .ok _ => .error 3

/-- The failure of a stage. -/
def xfail {α : Type} (second : Bool) (cause level va gpa : Nat) (write : Bool) : Except XFault α :=
  .error ⟨second, cause, level, va, gpa, write, none⟩

/-- The line of a page of another module that the device has read for a party of itself: none where no such request is
under way; then none while it is unanswered; then none after a NACK (R422). -/
def State.farLine (s : State) (y : Party) (m a : Nat) : Option (Option (Option (List Byte × List Bool))) :=
  (s.outer.forwards.find? (fun f => f.asker = ⟨y, none⟩ && f.module = m && f.line = floorTo a 64 && f.kind = .load 64)).map
    Forward.reply

/-- Is the leaf page of a guest-physical address the page of a MIGRATE under way (R294, R426)? -/
def State.migrating (s : State) (y : Party) (gpa : Nat) : Bool :=
  match s.walk2 y.part gpa 3 (s.worldOf y).s2root with
  | .ok (L, _) => s.outer.commands.any (fun c =>
      c.op = 3 && c.part = y.part && c.world = y.world && c.addr / pageBytes L = gpa / pageBytes L)
  | .error _ => false

/-- Read2 of R416: a first-stage table entry, through the second stage; one on a page of another module is read over the
fabric, and a NACK counts as a poisoned entry (R198, R422; log 38). -/
def State.read2 (s : State) (y : Party) (g L va : Nat) (write : Bool) : Except XFault Nat :=
  match s.translate2 y g false false with
  | .error c => xfail true c L va g write
  | .ok (.here l k) =>
    if (s.mem.poisonIn l 8).isSome then xfail false badWalk L va g write else .ok (leNat (s.mem.readUnder k l 8))
  | .ok (.away m a page) =>
    match s.farLine y m a with
    | some (some (some r)) => .ok (leNat (sliceB (a % 64) 8 r.1))
    | some (some none) => xfail false badWalk L va g write
    | _ => .error ⟨false, 0, L, va, g, write, some ⟨y, m, a, page⟩⟩

/-- The first-stage loop of R416 from the table of level L. -/
def State.walk1 (s : State) (y : Party) (va : Nat) (write : Bool) : Nat → Nat → Except XFault (Nat × Nat × Bool)
  | L, table =>
    match s.read2 y (table + entryOffset va L) L va write with
    | .error f => .error f
    | .ok e =>
      match checkEntry false L e with
      | .error c => xfail false c L va 0 write
      | .ok (.table next) =>
        match L with
        | 0 => xfail false 3 0 va 0 write
        | L + 1 => State.walk1 s y va write L next
      | .ok (.leaf page w) => .ok (L, page, w)
      | .ok _ => xfail false 3 L va 0 write

/-- The first stage of R416: the guest-physical address of a virtual address. Addresses below 0x100 never map memory: a
leaf found for one counts as not valid (R127; log 89). -/
def State.guestOf (s : State) (y : Party) (va : Nat) (write : Bool) : Except XFault Nat :=
  let tab := (s.vf (s.worldOf y).vf).ctxtab.toNat
  if va / 2 ^ 48 ≠ 0 then xfail false 4 4 va 0 write
  else if bitAt tab 0 = false then xfail false 5 4 va 0 write
  else
    match s.read2 y (bitsAt tab 12 36 * 2 ^ 12 + 8 * y.context) 4 va write with
    | .error f => .error f
    | .ok e =>
      if bitAt e 0 = false then xfail false 5 4 va 0 write
      else if bitsAt e 1 11 ≠ 0 ∨ bitsAt e 48 16 ≠ 0 then xfail false 3 4 va 0 write
      else
        match s.walk1 y va write 3 (bitsAt e 12 36 * 2 ^ 12) with
        | .error f => .error f
        | .ok (L, page, w) =>
          if va < 0x100 then xfail false 1 L va 0 write
          else if write && !w then xfail false 2 L va 0 write else .ok (page + va % pageBytes L)

/-- Translates a virtual address outside the windows (R413 to R417). -/
def State.translate (s : State) (y : Party) (va : Nat) (write shadow : Bool) : Except XFault Place :=
  match s.guestOf y va write with
  | .error f => .error f
  | .ok gpa =>
    match s.translate2 y gpa write shadow with
    | .error c => xfail true c 0xFF va gpa write
    | .ok pl => .ok pl

/-- The guest-physical addresses that a walk from the first-stage table of level L reads, and the one it ends at. -/
def State.walkReads (s : State) (y : Party) (va : Nat) : Nat → Nat → List Nat
  | L, table =>
    let g := table + entryOffset va L
    match s.read2 y g L va false with
    | .error _ => [g]
    | .ok e =>
      match checkEntry false L e with
      | .ok (.table next) => (match L with | 0 => [g] | L + 1 => g :: State.walkReads s y va L next)
      | .ok (.leaf page _) => [g, page + va % pageBytes L]
      | _ => [g]

/-- The guest-physical addresses that the translation of a virtual address depends on (R425). -/
def State.guestReads (s : State) (y : Party) (va : Nat) : List Nat :=
  let tab := (s.vf (s.worldOf y).vf).ctxtab.toNat
  let g := bitsAt tab 12 36 * 2 ^ 12 + 8 * y.context
  match s.read2 y g 4 va false with
  | .error _ => [g]
  | .ok e => g :: s.walkReads y va 3 (bitsAt e 12 36 * 2 ^ 12)

/-- The guest-physical addresses that the translations of [x, x + n) depend on, page by page (R425). -/
def State.guestsOf (s : State) (y : Party) (x n : Nat) : List Nat :=
  if n = 0 then []
  else (((upFrom (x / 2 ^ 16) ((x + n - 1) / 2 ^ 16 + 1 - x / 2 ^ 16)).map (fun p => max x (p * 2 ^ 16))).map (fun a =>
    match windowOf a with | .translated => s.guestReads y a | _ => [])).flatten

/-! ### Watches (R321, R322) -/

/-- The number of a granule of a page that another module holds, above every granule of this one. -/
def awayGranule (module addr : Nat) : Nat := 2 ^ 100 + module * 2 ^ 60 + addr / 16

/-- The granule that a core's EVWATCH names, translated as it stands (R322). -/
def State.watched (s : State) (n : Nat) (c : Core) : Option Nat :=
  let va := c.sys.evwatch.toNat / 16 * 16
  if c.sys.evwatch.toNat % 2 = 0 then none
  else match windowOf va with
    | .l1 off => some (l1Loc n off / 16)
    | .bank k b off => some (bankLoc k b off / 16)
    | .nowhere => none
    | .translated =>
      match s.translate (s.partyOf n) va false false with
      | .ok (.here l _) => some (l / 16)
      | .ok (.away m a _) => some (awayGranule m a)
      | .error _ => none

/-- Sets the latch of each core that watches one of these granules, but for the core whose own sequencer wrote it
(R321). -/
def State.wake (s : State) (writer : Option Nat) (gs : List Nat) : State :=
  { s with cores := s.cores.map (fun p =>
      match s.watched p.1 p.2 with
      | some g => if gs.contains g && writer != some p.1 then (p.1, p.2.latch) else p
      | none => p) }

/-- A write by the device: bytes keep the keys their locations have; watching cores see an event (R321). -/
def State.poke (s : State) (l : Nat) (bs : List Byte) : State :=
  ({ s with mem := s.mem.poke l bs }).wake none (granules l bs.length)

/-- The first frame of the shadowed pair that maps an address, and a frame's size, if a shadowed leaf maps it (R141,
R415). -/
def State.shadowPair (s : State) (y : Party) (va : Nat) : Option (Nat × Nat) :=
  match windowOf va with
  | .translated =>
    match s.guestOf y va false with
    | .error _ => none
    | .ok gpa =>
      match s.walk2 y.part gpa 3 (s.worldOf y).s2root with
      | .ok (L, .leafOf page _ _ _ true) => some (page, pageBytes L)
      | _ => none
  | _ => none

/-- [x, x + n) cut at 16-byte granules. -/
def cutFrom (x n : Nat) : Nat → List (Nat × Nat)
  | 0 => []
  | k + 1 =>
    if n = 0 then []
    else
      let m := min n (16 - x % 16)
      (x, m) :: cutFrom (x + m) (n - m) k

/-- The granule runs of [x, x + n). -/
def cuts (x n : Nat) : List (Nat × Nat) := cutFrom x n (n / 16 + 2)

/-- Which memories an access may reach (R181, R188, R190). -/
structure Reach where
  l1 : Bool
  scratch : Bool
  fifo : Bool
  hbm : Bool
  deriving DecidableEq, Repr

/-- Sequencer loads and stores, and engine accesses without FIFO (R190). -/
def Reach.plain : Reach := ⟨true, true, false, true⟩

/-- The bank rules of R188: the bank belongs to the partition, is not in cache mode, and its WORLD is the accessor's. -/
def State.bankOk (s : State) (y : Party) (k b : Nat) (r : Reach) : Bool :=
  let x := (s.cluster k).bank b
  s.ownerOf k = some y.part && x.world = y.world && ((x.mode = 1 && r.scratch) || (x.mode = 2 && r.fifo))

/-- The memory-kind check of one address (R129 step 4). -/
def State.kindOk (s : State) (y : Party) (r : Reach) (va : Nat) : Bool :=
  match windowOf va with
  | .l1 _ => r.l1
  | .bank k b _ => s.bankOk y k b r
  | .nowhere => false
  | .translated => r.hbm

/-- A bank whose mode is being switched accepts no access (R192 step 1): the access waits. -/
def State.bankBusy (s : State) (va : Nat) : Bool :=
  match windowOf va with
  | .bank k b _ => ((s.cluster k).bank b).switching.isSome
  | _ => false

/-- The number under which an engine of a core waits for a resource; its sequencer, engine 0, waits under the core's. -/
def waiterOf (core engine : Nat) : Nat := core + 1024 * engine

/-- Is this waiter the first for a resource (R131, R144)? -/
def State.firstFor (s : State) (r : Resource) (who : Nat) : Bool :=
  match r with
  | .other => true
  | _ => match s.waiters.find? (fun w => w.1 = r) with
    | none => true
    | some w => w.2 = who

/-- The bank of an address, when a mode switch holds it or other waiters came first (R192). -/
def State.bankHeld (s : State) (who va : Nat) : Option (Nat × Nat) :=
  match windowOf va with
  | .bank k b _ => if s.bankBusy va || !s.firstFor (.bank k b) who then some (k, b) else none
  | _ => none

/-- The MEMMODE check of an access (R129 step 4): its info is the access's first address. An access to a bank whose mode
is being switched waits, in arrival order (R192). -/
def State.checkKind (s : State) (who : Nat) (y : Party) (r : Reach) (x n info : Nat) : Chk Unit :=
  match (cuts x n).findSome? (fun c => s.bankHeld who c.1) with
  | some (k, b) => waitFor (.bank k b)
  | none =>
    if (cuts x n).all (fun c => s.kindOk y r c.1) then .ok () else trapN .memmode info

/-- What a failed translation raises: a fault of its stage, or MEMERR at the access's address where a table entry is
poisoned (R198; log 26). -/
def XFault.stop (f : XFault) : Stop := if f.cause = badWalk then .trap .memerr (BitVec.ofNat 64 f.va) none else .xlate f

/-- Does an address lie in a page that a MIGRATE is copying from or to another module (R426 step 3)? -/
def State.pageCopying (s : State) (y : Party) (va : Nat) : Bool :=
  s.outer.commands.any (fun c => c.copying && c.part = y.part && c.world = y.world &&
    match s.guestOf y va false with
    | .error _ => false
    | .ok g => match s.walk2 y.part g 3 (s.worldOf y).s2root with
      | .ok (L, _) => decide (c.addr / pageBytes L = g / pageBytes L)
      | .error _ => false)

/-- The place of one address of a core (R129 step 5). An access to a page that is being moved waits (R426). -/
def State.placeOf (s : State) (core : Nat) (y : Party) (va : Nat) (write shadow : Bool) : Chk Place :=
  match windowOf va with
  | .l1 off => .ok (.here (l1Loc core off) 0)
  | .bank k b off => .ok (.here (bankLoc k b off) (s.keyOf y.part ((s.cluster k).bank b).world))
  | .nowhere => trapN .memmode va
  | .translated =>
    match s.translate y va write shadow with
    | .error f => .error f.stop
    | .ok pl => if s.pageCopying y va then waitFor .other else .ok pl

/-- The pieces of an access through a capability, translated in ascending address order. -/
def State.piecesOf (s : State) (core : Nat) (y : Party) (c : Cap) (x n : Nat) (write shadow : Bool) : Chk (List Piece) :=
  mapChk (fun q => match s.placeOf core y q.1 write shadow with
    | .error e => .error e
    | .ok pl => .ok ⟨q.1, q.2, pl, y, some c⟩) (cuts x n)

end Sys2Proof.Machine
end

