-- ==== Sys2Proof/Machine/Ops.lean ====
section
/-! DEFINITION. The operations that instructions share: waits, reads and writes of memory, continuation records, forced
suspension and save areas, fault routing, taking a trap (R125, R131, R155, R167, R172 to R178, R321). -/

namespace Sys2Proof.Machine

/-! ### Waits -/

/-- A waiter waits for nothing any more. -/
def State.noWait (s : State) (who : Nat) : State := { s with waiters := s.waiters.filter (fun w => w.2 != who) }

/-- Nothing of a core waits any more, its engines included; what Cumulus does for its tasks goes on. -/
def State.noWaits (s : State) (core : Nat) : State :=
  { s with waiters := s.waiters.filter (fun w => w.2 % 1024 != core || 5 * 1024 ≤ w.2) }

/-- A waiter joins the queue of a resource, unless it stands there already (R131); it leaves any other queue, for it waits
for one thing at a time. -/
def State.queueUp (s : State) (r : Resource) (who : Nat) : State :=
  if s.waiters.contains (r, who) then s else { s.noWait who with waiters := (s.noWait who).waiters ++ [(r, who)] }

/-! ### Writes that their party has not ordered (R309) -/

/-- Is this the sequencer, the Stratus unit or a copy, whose writes are ordered only by what R309 names? An ACCRD is
performed at its retirement (R310). -/
def leavesOlder (unit : Nat) : Bool := unit = 0 || unit = 4 || 16 ≤ unit

/-- The unit under which copies of a channel write and read. -/
def copyUnit (ch : Nat) : Nat := 16 + ch

/-- Keeps what a write of a unit of a core to [l, l + n) of HBM replaces, granule by granule. -/
def State.keepOlder (s : State) (core unit l key n : Nat) : State :=
  if leavesOlder unit && l < hbmEnd then
    { s with older := s.older ++ (granules l n).map (fun g =>
        ⟨core, unit, g, key, s.mem.readUnder key (16 * g) 16, s.mem.tagAt (16 * g), true⟩) }
  else s

/-- What is left of it when the writes of some units of a core are performed: what such a write replaced goes, and with it
everything older in its granule (R310). -/
def performOlder (core : Nat) (units : Nat → Bool) : List Older → List Older
  | [] => []
  | e :: es =>
    if e.core = core && (units e.unit || es.any (fun f => f.core = core && f.granule = e.granule && units f.unit)) then
      performOlder core units es
    else e :: performOlder core units es

/-- The writes of some units of a core are performed. -/
def State.perform (s : State) (core : Nat) (units : Nat → Bool) : State := { s with older := performOlder core units s.older }

/-- A QFENCE orders every write of a core with what its party does afterwards (R102, R309). -/
def State.orderOwn (s : State) (core : Nat) : State :=
  { s with older := s.older.map (fun e => if e.core = core then { e with own := false } else e) }

/-- A release has finished its wait: the stores of the core's sequencer and of its Stratus unit are performed, and its queued
blocks are done (R102, R310, R311). -/
def State.releaseOlder (s : State) (core : Nat) : State := (s.perform core (fun u => u = 0 || u = 4)).orderOwn core

/-- What a read of a granule by a unit of a core may see beside what stands there, newest first: what other units of the
core have replaced, since the unit itself wrote last, and what copies of other cores have replaced (R305, R309, R310). -/
def State.olderThan (s : State) (core unit l key : Nat) : List Older :=
  s.older.foldl (fun acc e =>
    if e.granule = l / 16 then
      if e.core = core && e.unit = unit then []
      else if e.key = key && ((e.core = core && e.own) || (e.core != core && 16 ≤ e.unit)) then e :: acc
      else acc
    else acc) []

/-- What this read sees of it, if it does not see what stands. -/
def State.seesOld (s : State) (core unit l key : Nat) : Option Older :=
  if hbmEnd ≤ l then none
  else match s.olderThan core unit l key with
    | [] => none
    | es => es[Config.seesOlder s.draws (l / 16)]?

/-- The newest thing kept of a granule for a core, if another unit than this one replaced it and no QFENCE stands between:
a write of the two units is not ordered (R309). -/
def State.unordered (s : State) (core unit l : Nat) : Bool :=
  l < hbmEnd && match (s.older.filter (fun e => e.core = core && e.granule = l / 16)).getLast? with
  | some e => e.unit != unit && e.own
  | none => false

/-- Bytes put over others from an offset on. -/
def overlay (o : Nat) (bs old : List Byte) : List Byte := old.take o ++ bs ++ old.drop (o + bs.length)

/-- A write that comes before the newest one kept of its granule: what that one replaced is now the write's result, and the
write replaced what stood before. -/
def slipUnder (core unit l : Nat) (bs : List Byte) : List Older → List Older
  | [] => []
  | e :: es =>
    if e.core = core && e.granule = l / 16 && !es.any (fun f => f.core = core && f.granule = l / 16) then
      { e with unit := unit } :: { e with bytes := overlay (l % 16) bs e.bytes, tag := false } :: es
    else e :: slipUnder core unit l bs es

/-! ### Writing -/

/-- A store at a location under a key (R125, R183, R321). `fill` marks granules of L1 and scratchpads full. -/
def State.storeAt (s : State) (writer : Option Nat) (fill : Bool) (l key : Nat) (bs : List Byte) : State :=
  let m := s.mem.write key l bs
  let m := if fill && hbmEnd ≤ l then m.fill l bs.length else m
  { s with mem := m }.wake writer (granules l bs.length)

/-- Sends a request to another module; it counts in its page's counter (R422, R423). -/
def State.sendForward (s : State) (f : Forward) : State :=
  let n : BitVec 16 := Sparse.get s.outer.accesses 0 f.page
  ({ s with outer := { s.outer with
      forwards := s.outer.forwards ++ [f]
      accesses := Sparse.set f.page (if n = BitVec.allOnes 16 then n else n + 1) s.outer.accesses } }).say (.forward f)

/-- Whom a request of the device itself names as its core; the engines of its page copies between modules and of the entries
of a function's fault ring. -/
def deviceCore : Nat := 640
def migrateEngine : Nat := 65700
def ringEngine (v : Nat) : Nat := 65800 + v

/-- The pod port on which a partition reaches a module: one of its own (R452). -/
def State.portTo (s : State) (p module : Nat) : Option Nat :=
  let ports := (s.part p).ports
  ports[Config.route module % ports.length]?

/-- The continuation that a core runs: its partition and record. -/
def State.ownerNow (s : State) (core : Nat) : Option (Nat × Nat) := (s.core core).run.map (fun r => (r.part, r.record))

/-- A request of a core's engine to another module, not answered yet (R422). -/
def State.request (s : State) (core engine word module line : Nat) (va : Word64) (kind : FwdKind) (page : Nat)
    (asker : Asker) : Forward :=
  { core := core, engine := engine, word := word, owner := if 5 ≤ engine then none else s.ownerNow core,
    module := module, line := line, va := va, kind := kind, asker := asker, page := page, nth := 0
    guests := if deviceCore ≤ core then [] else match windowOf va.toNat with
      | .translated => s.guestReads asker.party va.toNat
      | _ => []
    port := s.portTo asker.party.part module
    reply := none }

/-- The request for a table entry that a walk waits for (R416, R422). -/
def State.tableRequest (s : State) (core engine word : Nat) (f : XFault) (e : FarEntry) : Forward :=
  s.request core engine word e.module (floorTo e.addr 64) (BitVec.ofNat 64 f.va) (.load 64) e.page ⟨e.party, none⟩

/-- A write to a page of another module goes out as a request (R422). -/
def State.sendStore (s : State) (core engine module addr page : Nat) (va : Word64) (bs : List Byte)
    (tags : List Bool) (asker : Asker) (word : Nat := 0) : State :=
  s.sendForward (s.request core engine word module addr va (.store bs tags) page asker)

/-- One piece of a write of a unit of a core within this module. Where another unit of its party has written a granule and
nothing orders the two, the granule ends whole from one of them (R309). -/
def State.putHere (s : State) (core unit : Nat) (fill : Bool) (l key : Nat) (bs : List Byte) : State :=
  let writer := if unit = 0 then some core else none
  if leavesOlder unit && (granules l bs.length).any (fun g => s.unordered core unit (16 * g)) then
    (cuts l bs.length).foldl (fun t c =>
      let part := sliceB (c.1 - l) c.2 bs
      if t.unordered core unit c.1 && Config.writesBefore s.draws (c.1 / 16) then
        { t with older := slipUnder core unit c.1 part t.older }
      else (t.keepOlder core unit c.1 key c.2).storeAt writer fill c.1 key part) s
  else (s.keepOlder core unit l key bs.length).storeAt writer fill l key bs

/-- A sequencer's write that comes after every write made before it (R309). -/
def State.putLast (s : State) (core : Nat) (fill : Bool) (l key : Nat) (bs : List Byte) : State :=
  (s.keepOlder core 0 l key bs.length).storeAt (some core) fill l key bs

/-- One piece of a write. The writes of a core's sequencer and engines to other modules have been acknowledged before the
instruction or word takes effect (State.awaitStores); those of Cumulus and of the device itself go out here. -/
def State.putPiece (s : State) (core engine : Nat) (fill : Bool) (pc : Piece) (bs : List Byte) (word : Nat := 0)
    (unit : Nat := engine) : State :=
  match pc.place with
  | .here l key => s.putHere core unit fill l key bs
  | .away m a g => if engine < 5 then s else s.sendStore core engine m a g (BitVec.ofNat 64 pc.va) bs [] pc.asker word

/-- Are two neighbouring pieces written together: they follow each other in the memory, so that a unit they cover
between them is written whole (R198), or they share a 64-byte line of another module, a request of its own (R422)? -/
def sameLine (p q : Piece) : Bool :=
  match p.place, q.place with
  | .here a j, .here b k => j = k && b = a + p.len
  | .away m a _, .away n b _ => m = n && b = a + p.len && a / 64 = b / 64
  | _, _ => false

/-- The pieces of an access with those that are written together joined. -/
def joinLines : List Piece → List Piece
  | [] => []
  | p :: ps =>
    match joinLines ps with
    | [] => [p]
    | q :: qs => if sameLine p q then ⟨p.va, p.len + q.len, p.place, p.asker⟩ :: qs else p :: q :: qs

/-- Writes bytes over pieces, in ascending order. -/
def State.putRuns (s : State) (core engine : Nat) (fill : Bool) (word unit : Nat) : List Piece → List Byte → State
  | [], _ => s
  | p :: ps, bs =>
    State.putRuns (s.putPiece core engine fill p (bs.take p.len) word unit) core engine fill word unit ps (bs.drop p.len)

/-- Writes bytes over the pieces of an access (R422); `word` is the engine word that makes it, `unit` what R309
orders it as. -/
def State.putPieces (s : State) (core engine : Nat) (fill : Bool) (ps : List Piece) (bs : List Byte) (word : Nat := 0)
    (unit : Nat := engine) : State :=
  s.putRuns core engine fill word unit (joinLines ps) bs

/-! ### Writes of a core to other modules (R172, R173, R422) -/

/-- Is this the request that another one would repeat? -/
def Forward.same (f g : Forward) : Bool :=
  f.core = g.core && f.engine = g.engine && f.module = g.module && f.line = g.line && f.kind = g.kind && f.asker = g.asker
    && f.nth = g.nth && f.owner = g.owner

/-- The requests that a write over joined pieces makes at other modules, for a word of an engine. -/
def State.storeRequests (s : State) (core engine word : Nat) : List Piece → List Byte → List Forward
  | [], _ => []
  | p :: ps, bs =>
    (match p.place with
      | .away m a g => [s.request core engine word m a (BitVec.ofNat 64 p.va) (.store (bs.take p.len) []) g p.asker]
      | .here _ _ => []) ++ s.storeRequests core engine word ps (bs.drop p.len)

/-- Requests numbered from n on. -/
def numbered (n : Nat) : List Forward → List Forward
  | [] => []
  | f :: fs => { f with nth := n } :: numbered (n + 1) fs

/-- The request that stands for one of an instruction's writes, if it has gone out. -/
def State.sent (s : State) (f : Forward) : Option Forward := s.outer.forwards.find? f.same

/-- The writes that can go out now: those that have not, but for one whose line an earlier write of the same instruction
goes to and has not been acknowledged at (R134). -/
def State.sendable (s : State) : List Forward → List Forward → List Forward
  | _, [] => []
  | before, f :: fs =>
    let held := before.any (fun g => g.module = f.module && g.line / 64 = f.line / 64 && ((s.sent g).bind Forward.reply).isNone)
    (if (s.sent f).isNone && !held then [f] else []) ++ State.sendable s (before ++ [f]) fs

/-- An instruction or word that writes to other modules takes effect once every one of its writes has been acknowledged;
a NACK is a MEMERR there, with the first address of the line (R172, R173, R198, R422; log 90). -/
def State.awaitStores (s : State) (gs : List Forward) : Chk Unit :=
  let fs := numbered 0 gs
  match s.sendable [] fs with
  | [] =>
    let replies := fs.map (fun f => ((s.sent f).bind Forward.reply))
    if replies.any Option.isNone then waitFor .other
    else match fs.find? (fun f => ((s.sent f).bind Forward.reply) == some none) with
      | some f => trapN .memerr (floorTo f.va.toNat 64)
      | none => .ok ()
  | missing => .error (.forward missing)

/-- The wait for the acknowledgements of a word's write of bytes over pieces; engine 0 is the sequencer. -/
def State.awaitWrite (s : State) (core engine word : Nat) (ps : List Piece) (bs : List Byte) : Chk Unit :=
  s.awaitStores (s.storeRequests core engine word (joinLines ps) bs)

/-! ### Reading -/

/-- The forwarded request that answers a read of a remote granule, if one stands (R422). -/
def State.answer? (s : State) (core engine module addr : Nat) (k : FwdKind) (asker : Asker) : Option Forward :=
  s.outer.forwards.find? (fun f =>
    f.core = core && f.engine = engine && f.module = module && f.line = floorTo addr 64 && f.kind = k && f.asker = asker)

/-- The bytes of one piece: MEMERR where a unit is poisoned (R198) or the fabric answered with a NACK; a request where
no reply is there yet (R422). `unit`: under which R309 orders the read. -/
def State.readPiece (s : State) (core engine : Nat) (p : Piece) (unit : Nat := engine) : Chk (List Byte) :=
  match p.place with
  | .here l key =>
    match s.mem.poisonIn l p.len with
    | some u => trapN .memerr (p.va + u - l)
    | none =>
      match s.seesOld core unit l key with
      | some e => .ok (sliceB (l % 16) p.len e.bytes)
      | none => .ok (s.mem.readUnder key l p.len)
  | .away m a g =>
    match s.answer? core engine m a (.load 64) p.asker with
    | none => .error (.forward [s.request core engine 0 m (floorTo a 64) (BitVec.ofNat 64 (floorTo p.va 64)) (.load 64) g
        p.asker])
    | some f =>
      match f.reply with
      | none => waitFor .other
      | some none => trapN .memerr (floorTo p.va 64)
      | some (some (bs, _)) => .ok (sliceB (a % 64) p.len bs)

/-- The bytes of an access. -/
def State.readPieces (s : State) (core engine : Nat) (ps : List Piece) (unit : Nat := engine) : Chk (List Byte) :=
  match mapChk (fun p => s.readPiece core engine p unit) ps with
  | .error e => .error e
  | .ok bss => .ok bss.flatten

/-- The tag of the granule of a piece, read as one with its bytes (R125). -/
def State.tagOf (s : State) (core engine : Nat) (p : Piece) (unit : Nat := engine) : Bool :=
  match p.place with
  | .here l key => (match s.seesOld core unit l key with | some e => e.tag | none => s.mem.tagAt l)
  | .away m a _ =>
    match s.answer? core engine m a (.load 64) p.asker with
    | some f => (match f.reply with | some (some (_, ts)) => ts.getD (a % 64 / 16) false | _ => false)
    | none => false

/-- A write or an atomic under way at another module whose instruction or word has trapped meanwhile: nothing of the core
waits for it any more. -/
def Forward.leave (f : Forward) : Forward := { f with engine := 16 + f.engine, owner := none }

/-- A request of a core's engine when its word traps: its reads, and every reply it has, are given up (R166, R173). -/
def Forward.atTrap (core engine : Nat) (f : Forward) : Option Forward :=
  if f.core = core && f.engine = engine then
    if f.reply.isSome || (match f.kind with | .load _ => true | _ => false) then none else some f.leave
  else some f

/-- What this core's engine gives up at a trap. -/
def State.dropLoads (s : State) (core engine : Nat) : State :=
  { s with outer := { s.outer with forwards := s.outer.forwards.filterMap (Forward.atTrap core engine) } }

/-- Replies that this core's engine has used up. -/
def State.dropAnswers (s : State) (core engine : Nat) : State :=
  { s with outer := { s.outer with forwards := s.outer.forwards.filter (fun f =>
      !(f.core = core && f.engine = engine && f.reply.isSome)) } }

/-- Posts requests of a core that are not outstanding yet (R422); each counts in its page's counter (R423). -/
def State.post (s : State) : List Forward → State
  | [] => s
  | f :: fs =>
    if (s.sent f).isSome then State.post s fs
    else State.post (s.sendForward f) fs

/-- A walk of a unit of the device that runs for no continuation asks for the table entry it waits for (R416, R422). -/
def State.walkAway (s : State) (core engine : Nat) (f : XFault) : State :=
  match f.remote with
  | some e => s.post [s.tableRequest core engine 0 f e]
  | none => s

/-- A check of such a unit, in which a walk that waits for a table entry is the request for it. -/
def State.farWalk {α : Type} (s : State) (core engine : Nat) (r : Chk α) : Chk α :=
  match r with
  | .error (.xlate f) => (match f.remote with
    | some e => .error (.forward [s.tableRequest core engine 0 f e])
    | none => .error (.xlate f))
  | _ => r

/-! ### Generations (R147) -/

/-- The number of a granule that another module holds, for the count of the REVOKEs made of it here. -/
def awayGen (module addr : Nat) : Nat := module * 2 ^ 60 + addr / 4096

/-- The generation of the granule that holds an address, for a party: 0 in a window or without translation; what the
holding module has for a page held by another one, which each REVOKE made here advances (log 24). -/
def State.genAt (s : State) (y : Party) (va : Nat) : BitVec 8 :=
  match windowOf va with
  | .translated =>
    match s.translate y va false false with
    | .ok (.here l _) => Sparse.get (s.part y.part).gens 0 ((l - hbmLoc y.part 0) / 4096)
    | .ok (.away m a _) =>
      Config.remoteGeneration m (a / 4096) + BitVec.ofNat 8 (Sparse.get s.outer.remoteRevokes 0 (awayGen m a))
    | .error _ => 0
  | _ => 0

/-- Has the module that holds the page of an address made a capability into it stale by a REVOKE of its own (R147, R422;
log 24)? -/
def State.farStale (s : State) (y : Party) (va : Nat) : Bool :=
  match windowOf va with
  | .translated =>
    match s.translate y va false false with
    | .ok (.away m a _) => Config.remoteRevoked m (a / 4096) s.draws
    | _ => false
  | _ => false

/-- The wait of an instruction that looks a generation up for the table entries that lie on other modules; looking it up
raises no fault (R147, R416). -/
def State.awaitGen (s : State) (y : Party) (va : Nat) : Chk Unit :=
  match windowOf va with
  | .translated =>
    match s.translate y va false false with
    | .error f => if f.remote.isSome then .error (.xlate f) else .ok ()
    | .ok _ => .ok ()
  | _ => .ok ()

/-- The 64 KiB pages of [lo, hi), each by an address in it that can map memory: addresses below 0x100 never do (R127), so that
page 0 is looked up at 0x100, a choice of the model (DESIGN CHOICE, log 89). -/
def pagesOf (lo hi : Nat) : List Nat :=
  if hi ≤ lo then []
  else (upFrom (lo / 2 ^ 16) ((hi - 1) / 2 ^ 16 + 1 - lo / 2 ^ 16)).map (fun p => max 0x100 (p * 2 ^ 16))

/-- A capability as a party reads it: a stale one arrives without its tag (R125, R147). -/
def State.freshCap (s : State) (y : Party) (c : Cap) : Cap :=
  if c.tag && (s.genAt y c.base != c.gen || s.farStale y c.base) then { c with tag := false } else c

/-! ### The capabilities that a core and its queued blocks hold (R148) -/

/-- A table of capabilities, each changed. -/
def mapCaps (f : Cap → Cap) (t : Sparse Cap) : Sparse Cap := t.map (fun q => (q.1, f q.2))

/-- A nest, its capabilities changed. -/
def Nest.mapCaps (f : Cap → Cap) (n : Nest) : Nest := { n with src := f n.src, dst := f n.dst }

/-- A core, the capabilities of its registers, snapshots and nests changed. -/
def Core.mapCaps (f : Cap → Cap) (c : Core) : Core :=
  let e := c.eng
  { c with
    c := Machine.mapCaps f c.c
    eng := { e with
      matQ := e.matQ.map (fun b => { b with snap := Machine.mapCaps f b.snap })
      xferQ := e.xferQ.map (fun b => { b with snap := Machine.mapCaps f b.snap, nest := b.nest.mapCaps f })
      stratQ := e.stratQ.map (fun b => { b with snap := Machine.mapCaps f b.snap })
      emits := e.emits.map (fun m => { m with nest := m.nest.mapCaps f }) } }

/-- A Stratus block, the capabilities of its snapshot changed. -/
def StratRun.mapCaps (f : Cap → Cap) (u : StratRun) : StratRun := { u with snap := Machine.mapCaps f u.snap }

/-- The capabilities that Cumulus holds for the tasks of a partition, each changed for its task's world and context. -/
def Cumulus.mapCaps (u : Cumulus) (p : Nat) (f : Nat → Nat → Cap → Cap) : Cumulus :=
  let task := fun (t : CumTask) =>
    if t.part = p then { t with act := f t.world t.context t.act, res := f t.world t.context t.res } else t
  { u with
    lists := u.lists.map (fun l => { l with members := l.members.map task })
    passes := u.passes.map (fun x => { x with members := x.members.map (fun m => { m with task := task m.task }) }) }

/-- Is the array phase of a pass over? -/
def Pass.ran (p : Pass) : Bool := p.members.length + 2 ≤ p.next

/-! ### Continuation records (R155, R156) -/

def recImage (l : List Byte) : Nat := numAt 16 4 l
def recResume (l : List Byte) : Nat := numAt 20 4 l % 2 ^ 20
def recGroups (l : List Byte) : List Nat := (sliceB 24 4 l).map BitVec.toNat
def recCtl (l : List Byte) : Nat := numAt 28 4 l
def recArg (l : List Byte) (i : Nat) : Word64 := BitVec.ofNat 64 (numAt (32 + 8 * i) 8 l)

def ctlState (c : Nat) : Nat := bitsAt c 0 3
def ctlClass (c : Nat) : Nat := bitsAt c 3 2
def ctlWorld (c : Nat) : Nat := bitsAt c 5 6
def ctlWake (c : Nat) : Bool := bitAt c 11
def ctlFull (c : Nat) : Bool := bitAt c 12
def ctlSealed (c : Nat) : Bool := bitAt c 13
def ctlContext (c : Nat) : Nat := bitsAt c 16 8
def ctlDef (c : Nat) : Nat := bitsAt c 24 8

/-- Replaces n bits of a number from bit lo. -/
def putBits (x lo n v : Nat) : Nat := x - bitsAt x lo n * 2 ^ lo + v % 2 ^ n * 2 ^ lo

/-- The 64 bytes of a record of partition p. -/
def State.record (s : State) (p a : Nat) : List Byte := s.raw (hbmLoc p a) 64

/-- The control word of a record. -/
def State.ctl (s : State) (p a : Nat) : Nat := recCtl (s.record p a)

/-- The world of a record: that of the launch or SPAWN that made it runnable, whatever a program writes into the record
afterwards, for the device owns it (R106, R156: isolation holds). -/
def State.recWorld (s : State) (p a : Nat) : Nat :=
  match Sparse.find? a (s.part p).recWorlds with
  | some w => w
  | none => ctlWorld (s.ctl p a)

/-- A launch or a SPAWN gives a record its world. -/
def State.setRecWorld (s : State) (p a w : Nat) : State :=
  s.modPart p (fun x => { x with recWorlds := Sparse.set a w x.recWorlds })

/-- Writes bytes of a record: the tags of the granules they lie in go (R125); the cores that watch them see an event. -/
def State.setRecBytesBy (s : State) (writer : Option Nat) (p a o : Nat) (bs : List Byte) : State :=
  let l := hbmLoc p a + o
  ({ s with mem := s.mem.poke l bs }).wake writer (granules l bs.length)

/-- The device writes bytes of a record. -/
def State.setRecBytes (s : State) (p a o : Nat) (bs : List Byte) : State := s.setRecBytesBy none p a o bs

/-- The device writes a record's control word. -/
def State.setCtl (s : State) (p a c : Nat) : State := s.setRecBytes p a 28 (leBytes c 4)

/-- Writes the state field of a record (R156). -/
def State.setRecState (s : State) (p a st : Nat) : State := s.setCtl p a (putBits (s.ctl p a) 0 3 st)

/-- A record enters the ready pool at its own class (R164). -/
def State.enterPool (s : State) (p a : Nat) : State :=
  let c := ctlClass (s.ctl p a)
  s.modPart p (fun x => { x with pool := x.pool ++ [⟨a, c, c, s.time⟩] })

/-- Makes a record runnable; one that has retired or is faulted never runs again (R105, R157). -/
def State.makeRunnable (s : State) (p a : Nat) : State :=
  if 5 ≤ ctlState (s.ctl p a) then s else (s.setRecState p a 1).enterPool p a

/-! ### Code (R56, R58) -/

/-- Word i of an image, as it stands in memory. -/
def State.imageWord (s : State) (p base i : Nat) : Nat := leNat (s.raw (hbmLoc p (base + 4 * i)) 4)

/-- The number an engine's section has in the header (R24). -/
def sectionNo : EngineId → Nat
  | .sequencer => 0
  | .vector => 1
  | .matrix => 2
  | .transfer => 3
  | .stratus => 4

/-- Words in an engine's section of an image. -/
def State.sectionCount (s : State) (p handle : Nat) (e : EngineId) : Nat :=
  match Sparse.find? handle (s.part p).images with
  | some im => s.imageWord p im.base (3 + 2 * sectionNo e)
  | none => 0

/-- The word an engine fetches at an offset of its section: zero outside it (R58). -/
def State.fetch (s : State) (p handle : Nat) (e : EngineId) (off : Nat) : Nat :=
  match Sparse.find? handle (s.part p).images with
  | some im =>
    if off < s.imageWord p im.base (3 + 2 * sectionNo e) then
      s.imageWord p im.base (s.imageWord p im.base (2 + 2 * sectionNo e) + off)
    else 0
  | none => 0

/-- Is the word that an engine fetches at an offset of its section poisoned (R198)? -/
def State.fetchBad (s : State) (p handle : Nat) (e : EngineId) (off : Nat) : Bool :=
  match Sparse.find? handle (s.part p).images with
  | some im =>
    decide (off < s.imageWord p im.base (3 + 2 * sectionNo e)) &&
      (s.mem.poisonIn (hbmLoc p (im.base + 4 * (s.imageWord p im.base (2 + 2 * sectionNo e) + off))) 4).isSome
  | none => false

/-- The words of a block from an offset to its first end word, at most n of them (R59). -/
def State.blockWords (s : State) (p handle : Nat) (e : EngineId) (isEnd : Nat → Bool) (off : Nat) : Nat → List Nat
  | 0 => []
  | n + 1 =>
    let w := s.fetch p handle e off
    if w = 0 ∨ isEnd w then [w] else w :: State.blockWords s p handle e isEnd (off + 1) n

/-! ### Fault routing (R417 to R421) -/

/-- A record for the Zenith's queue (R421); a full queue holds it in arrival order. -/
def State.zenithFault (s : State) (f : FaultRec) : State :=
  { s with outer := { s.outer with s2waiting := s.outer.s2waiting ++ [f] } }

/-- An entry that goes to the Zenith for want of a ring: kinds 1 and 2 keep their token, which S2RESUME serves (R418, R419). -/
def FaultRec.toZenith (f : FaultRec) : FaultRec :=
  if f.kind = 1 then { f with kind := 2, cause := 5 } else if f.kind = 2 then f else { f with token := 0 }

/-- An entry for a world's fault ring (R418): without a ring it goes to the Zenith instead. -/
def State.guestFault (s : State) (f : FaultRec) : State :=
  let v := ((s.part f.part).world f.world).vf
  if (s.vf v).frsize = 0 then s.zenithFault f.toZenith
  else s.setVf v { s.vf v with waiting := (s.vf v).waiting ++ [f] }

/-- FAULTINFO of R171. -/
def faultInfoOf (code : Nat) (lane : Option Nat) (engine word : Nat) (more : Bool) : Word64 :=
  BitVec.ofNat 64 (code % 256 + engine % 8 * 2 ^ 8 + (match lane with | some n => 2 ^ 11 + n % 256 * 2 ^ 12 | none => 0)
    + word % 2 ^ 20 * 2 ^ 20 + bitVal more 40)

/-! ### Ends of continuations: groups, launches, rings (R110, R160, R161, R177) -/

/-- Completes a group's generation when every member has arrived, retired or ended faulted: the waiting members
become runnable and the next generation opens (R110). -/
def State.closeGroup (s : State) (p g : Nat) : State :=
  let x := (s.part p).group g
  if x.members ≠ [] ∧ x.members.all (fun m => Marks.has m x.arrived || Marks.has m x.gone) then
    let s' := (x.waiting.filter (fun a => !Marks.has a x.early)).foldl (fun t a => t.makeRunnable p a) s
    s'.modPart p (fun y => y.setGroup g { x with generation := x.generation + 1, arrived := x.early, early := [],
                                                  waiting := x.waiting.filter (fun a => Marks.has a x.early) })
  else s

/-- A unit is gone from its groups; a group all of whose members are gone is free again (R160). -/
def State.leaveGroups (s : State) (p a : Nat) (gs : List Nat) : State :=
  gs.foldl (fun t g =>
    if g = 0xFF then t
    else
      let x := (t.part p).group g
      let x' := { x with gone := Marks.add a x.gone }
      if x'.members.all (fun m => Marks.has m x'.gone) then t.modPart p (fun y => y.setGroup g Group.init)
      else (t.modPart p (fun y => y.setGroup g x')).closeGroup p g) s

/-- The rings of a launch return to LEN 0 when its last unit has ended (R161). -/
def Cluster.freeRings (c : Cluster) (n : Nat) : Cluster :=
  { c with rings := c.rings.filter (fun r => r.2.launch != n) }

/-- The worse of two ends. -/
def UnitEnd.worse (x y : UnitEnd) : UnitEnd :=
  if x = .wiped ∨ y = .wiped then .wiped
  else if x = .aborted ∨ y = .aborted then .aborted
  else if x = .faulted ∨ y = .faulted then .faulted
  else .retired

/-- No sequence counter of the partition waits for a record any more (R109). -/
def Partition.forgetWaits (p : Partition) (a : Nat) : Partition :=
  { p with seqs := p.seqs.map (fun q => (q.1, { q.2 with waiting := q.2.waiting.filter (fun w => w.1 != a) })) }

/-- A unit of a launch has retired or ended otherwise (R161, R442). -/
def State.endUnit (s : State) (p a : Nat) (e : UnitEnd) : State :=
  let s := s.modPart p (fun x => x.forgetWaits a)
  match Sparse.find? a (s.part p).owner with
  | none => s
  | some n =>
    match Sparse.find? n (s.part p).launches with
    | none => s
    | some l =>
      let l' := { l with records := Marks.del a l.records, ended := l.ended.worse e }
      let s' := s.modPart p (fun x => { x with launches := Sparse.set n l' x.launches })
      if l'.records = [] then
        match l'.home with
        | some k => s'.setCluster k ((s'.cluster k).freeRings n)
        | none => s'
      else s'

/-! ### Work in flight that a suspension finishes (R167) -/

/-- The registers first, first + 1, ... of an execution (R112, R113). -/
def regRange (first n : Nat) : List Nat := upFrom first n

/-- A vector word completes: its destination is written and full, or its entry is pushed (R201). -/
def Core.complete (c : Core) (f : VecFlight) : Core :=
  let c := match f.dest with
    | .reg n => (c.setV n f.value).markFull n
    | .store q => c.setStoreQ q (c.storeQ q ++ [f.value])
    | .index m ix => c.setIndexQ m (c.indexQ m ++ [ix])
    | .count => c
    | .nowhere => c
  match f.post with
  | some w => { c with cq := c.cq ++ [w] }
  | none => c

/-- Every vector word in flight completes, every load in flight enters its queue, and an ATTNGO not yet accepted counts
as not executed (R166). -/
def Core.settle (c : Core) : Core :=
  let c := c.eng.vecFlight.foldl Core.complete c
  let c := c.eng.loads.foldl (fun d l => d.setLoadQ l.queue (d.loadQ l.queue ++ [l.data])) c
  { c with eng := { c.eng with vecFlight := [], loads := [], stratQ := [] } }

/-- Marks the pending words of L1 from virtual address x up to a virtual end (R186). -/
def State.markPending (s : State) (core x top : Nat) : State :=
  let lo := 0x7F0000000000
  let a := max x lo
  let b := min top (lo + 2 ^ 18)
  if a < b then { s with mem := { s.mem with pend := Marks.addAll (words8 (l1Loc core (a - lo)) (b - a)) s.mem.pend } } else s

/-- Clears the pending words of the same range. -/
def State.unmarkPending (s : State) (core x top : Nat) : State :=
  let lo := 0x7F0000000000
  let a := max x lo
  let b := min top (lo + 2 ^ 18)
  if a < b then { s with mem := { s.mem with pend := Marks.delAll (words8 (l1Loc core (a - lo)) (b - a)) s.mem.pend } } else s

/-- Clears the range that a word has marked, if it has. -/
def State.clearMarks (s : State) (core : Nat) (r : Option (Nat × Nat)) : State :=
  match r with
  | some q => s.unmarkPending core q.1 q.2
  | none => s

/-- The 8-byte words of this module that pieces touch. -/
def pieceWords (ps : List Piece) : List Nat :=
  (ps.map (fun p => match p.place with | .here l _ => words8 l p.len | .away _ _ _ => [])).flatten

/-- A write of an engine completes (R183, R186): granules of L1 and scratchpads full, pending words cleared. -/
def State.engineWrite (s : State) (core engine word : Nat) (ps : List Piece) (bs : List Byte) (unit : Nat := engine) :
    State :=
  let t := s.putPieces core engine true ps bs word unit
  { t with mem := { t.mem with pend := Marks.delAll (pieceWords ps) t.mem.pend } }

/-- Traffic whose ACCRD has no marks to clear. -/
def MatTraffic.unmarked : MatTraffic → MatTraffic
  | .store t ps bs _ => .store t ps bs none
  | w => w

/-- The memory traffic of a matrix word is done (R287): staging holds the tile, or the writes are performed. -/
def State.landMatrix (s : State) (k : Nat) (f : MatFlight) : State :=
  match f.what with
  | .fetch n bytes =>
    let c := s.cluster k
    s.setCluster k (c.setSlot n { c.slot n with bytes := bytes })
  | .store _ ps bs range =>
    (s.engineWrite f.core 2 f.word ps bs).clearMarks f.core range

/-- All matrix traffic of a core is done. -/
def State.settleMatrix (s : State) (core : Nat) : State :=
  let k := clusterOf core
  let mine := (s.cluster k).flights.filter (fun f => f.core = core)
  let t := mine.foldl (fun t f => t.landMatrix k f) s
  t.setCluster k { t.cluster k with flights := (t.cluster k).flights.filter (fun f => f.core != core) }

/-! ### The Stratus block of a core -/

/-- The L1 ranges that an ATTNGO marks: those of c8 to c14 that carry STORE (R186). -/
def stratRanges (snap : Sparse Cap) : List (Nat × Nat) :=
  (snap.filter (fun q => 8 ≤ q.1 && q.1 ≤ 14 && q.2.grants permStore)).map (fun q => (q.2.base, q.2.top))

/-- The block of a core that runs on its unit, or that a resumed continuation has waiting there (R331, R342). -/
def Cluster.stratOf (c : Cluster) (core : Nat) : Option StratRun :=
  match c.strat with
  | some u => if u.core = core then some u else c.resumed.find? (fun v => v.core = core)
  | none => c.resumed.find? (fun v => v.core = core)

/-- The unit without a core's block; a grant made to it ends (R331, R342). -/
def Cluster.dropStrat (c : Cluster) (core : Nat) : Cluster :=
  { c with strat := (match c.strat with | some u => if u.core = core then none else some u | none => none)
           resumed := c.resumed.filter (fun v => v.core != core)
           granted := if c.granted = some (.strat core) then none else c.granted }

/-- The oldest traffic of a Stratus block is done: the fetch lands, or the writes are performed, granules of L1 and
scratchpads full and their pending words cleared (R183, R186, R334, R336; log 101); the microword has retired (R332). -/
def State.landStrat (s : State) (u : StratRun) (f : StratFlight) : State :=
  let t := match f.what with
    | .store bs => s.engineWrite u.core 4 f.word f.pieces bs
    | _ => s
  let c := t.core u.core
  t.setCore u.core { c with sys := { c.sys with upc := BitVec.ofNat 10 f.word } }

/-- Does some piece of traffic fill the same state as another one? They take effect in their order. -/
def sameTarget (x y : StratTraffic) : Bool :=
  match x, y with
  | .query _ _, .query _ _ => true
  | .table _ _, .table _ _ => true
  | .merge _, .merge _ => true
  | .store _, .store _ => true
  | .block m _, .block n _ => m = n
  | _, _ => false

/-- Does a translation command that is under way meet a party (R425)? -/
def State.commandMeets (s : State) (y : Party) : Bool :=
  s.outer.commands.any (fun c => c.part = y.part && c.world = y.world && (c.op ≤ 3 || c.context = y.context))

/-- Is a fetch of a Stratus block given up at a suspension, to be issued again: it has not landed, and it is to be issued
again already, or it is not of the microword issued last and no translation command waits for it (R342, R360)? -/
def State.givesUp (s : State) (u : StratRun) (f : StratFlight) : Bool :=
  (match f.what with | .store _ => false | _ => true) &&
    (f.again || (f.word + 1 != u.next && !s.commandMeets (s.partyOf u.core)))

/-- A fetch to be issued again: it holds no translation (R342). -/
def StratFlight.asNew (f : StratFlight) : StratFlight := { f with again := true, pieces := [], guests := [] }

/-- One piece of traffic at a suspension: done, or left to be issued again, as is what fills the same state after it. -/
def State.settleFlight (s : State) (u : StratRun) (f : StratFlight) : State × StratRun :=
  if s.givesUp u f || u.traffic.any (fun g => sameTarget g.what f.what) then
    (s, { u with traffic := u.traffic ++ [f.asNew] })
  else (s.landStrat u f, u.land f.what)

/-- A suspended core's Stratus block: the microword under way has completed, every write is performed, fetches that had
not landed are left to be issued again (R342). -/
def State.settleStrat (s : State) (core : Nat) : State :=
  let k := clusterOf core
  match (s.cluster k).strat with
  | none => s
  | some u =>
    if u.core = core then
      let r := u.traffic.foldl (fun r f => r.1.settleFlight r.2 f) (s, { u with traffic := [], wants := false, held := none })
      r.1.setCluster k { r.1.cluster k with strat := some r.2 }
    else s

/-- The tiles that matrix words name (R168): those of MMUL, ACCZERO, ACCRD, ACCWR. -/
def tileNamed (w : Nat) : List Nat :=
  let op := bitsAt w 26 6
  if op = 6 ∨ op = 7 ∨ op = 8 ∨ (0x10 ≤ op ∧ op ≤ 0x1D) then [bitsAt w 18 4] else []

/-- The tiles that the kept matrix blocks of a core name. -/
def State.keptTiles (s : State) (p : Nat) (bs : List Block) : List Nat :=
  (bs.map (fun b => ((s.blockWords p b.image .matrix (fun w => bitsAt w 26 6 = 1) b.next
    (s.sectionCount p b.image .matrix + 1)).map tileNamed).flatten)).flatten

/-! ### Saving a core (R167, R168, R377 to R379) -/

/-- Saves a core into the lowest free area (R167, R168, R378): the state with the area written, and its handle. -/
def State.save (s : State) (core kind : Nat) (faulted : Bool) : State × Nat :=
  match (s.core core).run with
  | none => (s, 0)
  | some r =>
    let p := s.part r.part
    match p.freeArea with
    | none => (s, 0)
    | some i =>
      let c := (s.core core).settle
      let k := clusterOf core
      let cl := s.cluster k
      let old := Sparse.get p.areas Area.init i
      let epoch := old.epoch + 1
      let lo := l1Loc core 0
      let matrix := c.eng.matQ ≠ []
      let x : Saved :=
        { record := r.record, world := r.world, context := r.context, key := s.saveKey r.part r.world r.context, kind := kind,
          cluster := k, origin := core, core := c,
          l1 := (s.mem.cells.filter (fun q => lo ≤ q.1 && q.1 < lo + 2 ^ 18)).map (fun q => (q.1 - lo, q.2)),
          l1tags := (s.mem.tags.filter (fun g => lo / 16 ≤ g && g < (lo + 2 ^ 18) / 16)).map (fun g => g - lo / 16),
          l1full := (s.mem.full.filter (fun g => lo / 16 ≤ g && g < (lo + 2 ^ 18) / 16)).map (fun g => g - lo / 16),
          l1pend := (s.mem.pend.filter (fun g => lo / 8 ≤ g && g < (lo + 2 ^ 18) / 8)).map (fun g => g - lo / 8),
          l1poison := (s.mem.poison.filter (fun l => lo ≤ l && l < lo + 2 ^ 18)).map (fun l => l - lo),
          slots := match c.eng.restore with
            | some w => w.1
            | none => if matrix then (upFrom 0 4).map (fun n => (n, cl.slot n)) else [],
          tiles := match c.eng.restore with
            | some w => w.2
            | none => if matrix then (s.keptTiles r.part c.eng.matQ).foldl (fun t n => Sparse.set n (cl.tile n) t) []
              else [],
          strat := cl.stratOf core,
          epoch := epoch, faulted := faulted }
      let s := s.setPart r.part { p with areas := Sparse.set i ⟨epoch, some x⟩ p.areas }
      let cl := s.cluster k
      let cl : Cluster := { cl with
        claims := Marks.del core cl.claims
        granted := if cl.granted = some (.core core) then none else cl.granted
        slots := if matrix then cl.slots.map (fun q => (q.1, { q.2 with pins := [] })) else cl.slots }
      let s := s.setCluster k (cl.dropStrat core)
      (s.poke (hbmLoc r.part (p.handle i)) (x.area x.key (p.handle i)), p.handle i)

/-- Is an AMO or a store of a core's sequencer or engines under way at another module? Its atomic step may have passed, so
the core is neither suspended nor interrupted before the answer has come and its word has taken effect (R146, R167, R422;
log 42). -/
def State.amoOut (s : State) (core : Nat) : Bool :=
  s.outer.forwards.any (fun f => f.core = core && f.engine < 5 && match f.kind with | .load _ => false | _ => true)

/-- Does the Stratus unit, for a core's block, hold the translation of a microword whose bytes are on their way from another
module? Such a microword completes before a suspension (R342, R359, R360). -/
def State.stratReads (s : State) (core : Nat) : Bool :=
  match (s.cluster (clusterOf core)).strat with
  | none => false
  | some u => u.core = core && !(s.core core).engineStopped 4 &&
      (u.held.isSome || u.traffic.any (fun f => f.again && f.pieces != []))

/-- Must a core's words go on before it can be suspended (R146, R342)? -/
def State.mustGoOn (s : State) (core : Nat) : Bool := s.amoOut core || s.stratReads core

/-- A core that is forced out gives up what its sequencer and engines have under way at other modules; what Cumulus fetches
for its tasks goes on (log 42). -/
def State.dropReads (s : State) (core : Nat) : State :=
  { s with outer := { s.outer with forwards := s.outer.forwards.filterMap (fun f =>
      if f.engine < 5 then f.atTrap core f.engine else some f) } }

/-- Is there an area for the state of a core's continuation? A suspension waits for one (R379). -/
def State.canSave (s : State) (core : Nat) : Bool :=
  match (s.core core).run with
  | none => true
  | some r => (s.part r.part).freeArea.isSome

/-- A MEMERR is owed to a record, with the address it names (R179). -/
def State.oweMemerr (s : State) (p a : Nat) (info : Word64) : State :=
  let t := s.setCtl p a (putBits (s.ctl p a) 24 8 Trap.memerr.code)
  t.modPart p (fun x => { x with owed := Sparse.set a info x.owed })

/-- A core that its continuation has left: nothing queued, no lease; its registers stand until the next pickup or the
clearing of a frame edge writes them (R104, R167, R375). -/
def Core.idle (c : Core) : Core := { c with run := none, eng := CoreEng.init, sys := { c.sys with lease := false } }

/-- Takes a core away from its continuation (R167): engines finish their words, the state is saved, the record takes
state `st`, full state and the save-area handle, and the core is left idle. Its writes are performed (R310, R311). -/
def State.forceOut (s : State) (core kind st : Nat) : State :=
  match (s.core core).run with
  | none => s
  | some r =>
    let s := (s.setCore core (s.core core).latch).settleMatrix core
    let s := (s.settleStrat core).dropReads core
    let sh := s.save core kind (st = 6)
    let s := sh.1
    let ctl := putBits (putBits (s.ctl r.part r.record) 0 3 st) 12 1 1
    let s := (s.setCtl r.part r.record ctl).setRecBytes r.part r.record 32 (leBytes sh.2 8 ++ List.replicate 24 0)
    ((s.setCore core (s.core core).settle.idle).noWaits core).perform core (fun _ => true)

/-- Forced suspension: the record is runnable again (R167). -/
def State.forceSuspend (s : State) (core kind : Nat) : State :=
  match (s.core core).run with
  | none => s
  | some r =>
    if !s.canSave core || s.mustGoOn core then s else (s.forceOut core kind 1).enterPool r.part r.record

/-- EndFaulted of R177. -/
def State.endFaulted (s : State) (core code : Nat) (info : Word64) (lane : Option Nat) (engine word : Nat) (more : Bool)
    (pc : Nat) : State :=
  match (s.core core).run with
  | none => s
  | some r =>
    if !s.canSave core then s else
    let s := s.forceOut core 4 6
    let s := s.guestFault
      { token := 0, record := r.record, info := faultInfoOf code lane engine word more, addr := info, pc := pc % 2 ^ 20,
        kind := 3, cause := 0, level := 0xFF, write := false, seq := 0, ctr := 0, context := r.context, world := r.world,
        gpa := 0, part := r.part, engine := engine, blocked := false }
    ((s.leaveGroups r.part r.record r.groups).endUnit r.part r.record .faulted)

/-- Suspension by a translation fault (R178): the instruction or word is not executed, the record waits, the report
goes to the guest's ring or to the Zenith with a fresh token. -/
def State.faultOut (s : State) (core engine word : Nat) (f : XFault) : State :=
  match (s.core core).run with
  | none => s
  | some r =>
    if !s.canSave core || (engine != 0 && s.amoOut core) || s.stratReads core then s else
    let pc := (s.core core).pc.toNat % 2 ^ 20
    let code := if f.second then Trap.xlate2.code else Trap.xlate1.code
    let token := s.outer.nextToken
    let rec_ : FaultRec :=
      { token := token, record := r.record, info := faultInfoOf code none engine word false,
        addr := BitVec.ofNat 64 f.va, pc := pc, kind := if f.second then 2 else 1, cause := f.cause, level := f.level,
        write := f.write, seq := 0, ctr := 0, context := r.context, world := r.world, gpa := BitVec.ofNat 64 f.gpa,
        part := r.part, engine := engine, blocked := false }
    let noRing := (s.vf ((s.part r.part).world r.world).vf).frsize = 0
    let s := s.forceOut core 3 4
    let w : Waiter := ⟨token, r.part, r.world, r.record, f.second || noRing, rec_⟩
    let s := { s with outer := { s.outer with nextToken := token + 1, suspended := s.outer.suspended ++ [w] } }
    if f.second then s.zenithFault rec_ else s.guestFault rec_

/-! ### Taking a trap (R172 to R175) -/

/-- TrapEntry of R175 on a core. `more`: another engine trap stays held. A stalled instruction counts as not executed, so
its reads at other modules are given up and an ATTNGO's offer to the Stratus unit is withdrawn (R166). -/
def State.trapEntry (s : State) (core : Nat) (t : Trap) (info : Word64) (lane : Option Nat) (engine word : Nat)
    (more : Bool) (pc : Word64) : State :=
  let c := s.core core
  if c.sys.inh || c.sys.trapvec = 0 then s.endFaulted core t.code info lane engine word more pc.toNat
  else
    let sys := { c.sys with
      faultInfo := faultInfoOf t.code lane engine word more, faultAddr := info, faultPc := pc.setWidth 20,
      eretpc := (if t = .swtrap then pc + 1 else pc).setWidth 20, inh := true }
    let eng := { c.eng with stratQ := [], trapFrom := none }
    ((s.setCore core { c with sys := sys, eng := eng, pc := c.sys.trapvec.setWidth 64 }).noWait core).dropLoads core 0

/-- Have the engine's words of a core before the present one taken effect (R173)? The writes of an engine's word to other
modules are acknowledged before it takes effect, and a failed copy stands first among the copies that are left. -/
def State.earlierDone (s : State) (core e : Nat) : Bool :=
  let c := s.core core
  (match e with
    | 1 => c.eng.vecFlight.isEmpty
    | 2 => (s.cluster (clusterOf core)).flights.all (fun f => f.core != core)
    | 3 => match c.eng.emits with | [] => true | m :: _ => m.failed
    | 4 => match (s.cluster (clusterOf core)).stratOf core with | some u => u.traffic.all (fun f => f.again) | none => true
    | _ => true)

/-- Can the oldest held trap of a core be taken: INH is 0, its engine's earlier words are done, and no atomic or store
of the core is under way at another module (R173, R174)? -/
def State.trapReady (s : State) (core : Nat) : Bool :=
  let c := s.core core
  !c.sys.inh && !s.amoOut core &&
    match c.eng.heldTraps with | h :: _ => s.earlierDone core h.engine | [] => false

/-- A trap joins the held ones: the one detected first goes first, and traps of one cycle go in ascending ENGINE (R174). -/
def holdInOrder (h : HeldTrap) : List HeldTrap → List HeldTrap
  | [] => [h]
  | x :: l => if h.cycle = x.cycle && h.engine < x.engine then h :: x :: l else x :: holdInOrder h l

/-- An engine word raises a trap (R173): it is held for the sequencer, the engine stands still, and what the word reads
at other modules is given up, for it will run afresh. -/
def State.holdTrap (s : State) (core engine : Nat) (t : Trap) (info : Word64) (lane : Option Nat) (word : Nat) : State :=
  let c := s.core core
  let h : HeldTrap := ⟨engine, t.code, info, lane, word, s.time⟩
  let eng := { c.eng with heldTraps := holdInOrder h c.eng.heldTraps, stopped := Marks.add engine c.eng.stopped }
  ((s.setCore core { c with eng := eng }).noWait (waiterOf core engine)).dropLoads core engine

/-- A walk of an engine's word ends: it waits for a table entry that it asks for at another module (R416, R422), or its
failure suspends the continuation (R178). -/
def State.walkEnds (s : State) (core engine word : Nat) (f : XFault) : State :=
  match f.remote with
  | some e => s.post [s.tableRequest core engine word f e]
  | none => s.faultOut core engine word f

/-- Does a core hold an engine trap (R171, R174)? -/
def Core.holdsTrap (c : Core) : Bool := !c.eng.heldTraps.isEmpty

/-- A sequencer instruction of the acting core: its effect, its trap, its suspension, or its wait. -/
def State.runSeq (s : State) (r : Chk State) : Host.Outcome State Fault Refusal :=
  let core := s.actor.core
  let pc := s.me.pc
  match r with
  | .ok t => .next (t.noWait core)
  | .error (.trap t info lane) => .next (s.trapEntry core t info lane 0 pc.toNat s.me.holdsTrap pc)
  | .error (.engineTrap t info e w) => .next (s.trapEntry core t info none e w s.me.holdsTrap pc)
  | .error (.xlate f) => .next (s.walkEnds core 0 pc.toNat f)
  | .error (.engineXlate f e w) => .next (s.walkEnds core e w f)
  | .error (.wait w) => .next (s.queueUp w core)
  | .error (.forward fs) => .next (s.post fs)

/-- An engine's wait: it takes its place among the waiters of what it waits for. -/
def State.engineWait (s : State) (r : Resource) (who : Nat) : State :=
  if r = .other then s.noWait who else s.queueUp r who

/-- A word of another engine of a core: its effect, a held trap, the suspension of the core's continuation, or a
wait, which leaves the engine where it is. -/
def State.runWord (s : State) (core engine word : Nat) (r : Chk State) : Host.Outcome State Fault Refusal :=
  match r with
  | .ok t => .next (t.noWait (waiterOf core engine))
  | .error (.trap t info lane) => .next (s.holdTrap core engine t info lane word)
  | .error (.engineTrap t info e w) => .next (s.holdTrap core e t info none w)
  | .error (.xlate f) => .next (s.walkEnds core engine word f)
  | .error (.engineXlate f e w) => .next (s.walkEnds core e w f)
  | .error (.wait w) => .next (s.engineWait w (waiterOf core engine))
  | .error (.forward fs) => .next (s.post fs)

/-- The acting core with its next word after the present one (R61). -/
def State.advance (s : State) : State := s.setMe { s.me with pc := s.me.pc + 1 }

/-- Writes g_d of the acting core and goes to the next word. -/
def State.writeG (s : State) (d : BitVec 5) (v : Word64) : State :=
  s.setMe { s.me.setG d.toNat v with pc := s.me.pc + 1 }

/-- Writes c_d of the acting core and goes to the next word. -/
def State.writeC (s : State) (d : BitVec 4) (v : Cap) : State :=
  s.setMe { s.me.setC d.toNat v with pc := s.me.pc + 1 }

/-- g_a of the acting core. -/
def State.g (s : State) (a : BitVec 5) : Word64 := s.me.getG a.toNat

/-- c_a of the acting core. -/
def State.c (s : State) (a : BitVec 4) : Cap := s.me.getC a.toNat

/-- The party of the acting core. -/
def State.party (s : State) : Party := s.partyOf s.actor.core

end Sys2Proof.Machine
end

