-- ==== Sys2Proof/Machine/Fetch.lean ====
section
/-! DEFINITION. Which word an engine of the acting core takes next (R58, R59, R74, R173), and how a word is laid out as
the only word of an image. -/

namespace Sys2Proof.Machine

/-- The word of the acting core's engine, none when the engine has nothing to do: no continuation, no block, or a trap
not yet resolved (R173). -/
def State.nextWord (s : State) (e : EngineId) : Option Nat :=
  match s.me.run with
  | none => none
  | some r =>
    match e with
    | .sequencer => some (s.fetch r.part r.image .sequencer s.me.pc.toNat)
    | .vector =>
      match s.me.eng.vecQ with
      | b :: _ => if s.me.engineStopped 1 then none else some (s.fetch r.part b.image .vector b.next)
      | [] => none
    | .matrix =>
      match s.me.eng.matQ with
      | b :: _ => if s.me.engineStopped 2 then none else some (s.fetch r.part b.image .matrix b.next)
      | [] => none
    | .transfer =>
      match s.me.eng.xferQ with
      | b :: _ => if s.me.engineStopped 3 then none else some (s.fetch r.part b.image .transfer b.next)
      | [] => none
    | .stratus =>
      match s.myCluster.strat with
      | some u =>
        if u.core = s.actor.core ∧ s.me.engineStopped 4 = false then
          some (match s.myCluster.store with | some x => x.words.getD u.next 0 | none => 0)
        else none
      | none => none

/-- Does the engine's next word come from a poisoned unit (R198)? A control store that could not be loaded from one holds
no words. -/
def State.codeBad (s : State) (e : EngineId) : Bool :=
  match s.me.run with
  | none => false
  | some r =>
    let head := fun (q : List (Nat × Nat)) => match q with | b :: _ => s.fetchBad r.part b.1 e b.2 | [] => false
    match e with
    | .sequencer => s.fetchBad r.part r.image .sequencer s.me.pc.toNat
    | .vector => head (s.me.eng.vecQ.map (fun b => (b.image, b.next)))
    | .matrix => head (s.me.eng.matQ.map (fun b => (b.image, b.next)))
    | .transfer => head (s.me.eng.xferQ.map (fun b => (b.image, b.next)))
    | .stratus => s.myCluster.store.isNone

/-- What the acting core's engine does in its turn: a held trap comes before the sequencer's next instruction (R174); a
word that is not an instruction raises ILLEGAL (R74), one that cannot be read MEMERR (R198). -/
def State.pick (s : State) (e : EngineId) : Option Instr :=
  if e = .sequencer ∧ s.trapReady s.actor.core then some .engineTrapDelivery
  else
    match s.nextWord e with
    | none => none
    | some w =>
      if s.codeBad e then some (.notAnInstruction e)
      else match decodeFor e w with
        | some i => some i
        | none => some (.notAnInstruction e)

/-- The engine whose map `firstReading` takes a word from; the sequencer where none has it. -/
def engineOfWord (w : Nat) : EngineId :=
  match firstReading w with
  | some i => i.engine.getD .sequencer
  | none => .sequencer

/-- The words of an image whose only code word is w, in the section of engine e (R56). -/
def oneWordImage (e : EngineId) (w : Nat) : List Nat :=
  [0x4D49414C, 13] ++ ((upFrom 0 5).map (fun n => [12, if n = sectionNo e then 1 else 0])).flatten ++ [w]

/-- The bytes of an image. -/
def imageBytes (ws : List Nat) : List Byte := (ws.map (fun w => leBytes w 4)).flatten

/-- The core that runs a placed word: a Nimbus core for a Stratus word, core 0 otherwise. -/
def placeCore (e : EngineId) : Nat := if e = .stratus then 512 else 0

/-- A continuation of world 0, context 0 of partition 0 that runs image 1, its record at address 0. -/
def placedRun : Running :=
  { record := 0, part := 0, world := 0, context := 0, image := 1, groups := [0xFF, 0xFF, 0xFF, 0xFF], cls := 0,
    isSealed := false, launch := 0 }

/-- A Stratus block in the state of R333 at its start, with its start registers already checked. -/
def freshStrat (core start : Nat) (snap : Sparse Cap) (image : Nat) (cfg scl : Word64) : StratRun :=
  let qr := bitsAt cfg.toNat 24 8 + 1
  let d := 16 * (bitsAt cfg.toNat 16 4 + 1)
  let bs := 16 * 2 ^ bitsAt cfg.toNat 6 2
  { core := core, start := start, next := start, snap := snap, image := image, cfg := cfg, scl := scl, checked := false,
    q := List.replicate qr (List.replicate d 0), pos := List.replicate qr 0, table := [], tb := 0, tc := 0,
    bc := bitsAt cfg.toNat 32 16, slots := [], s := List.replicate qr (List.replicate bs 0),
    p := List.replicate qr (List.replicate bs 0xFF), m := List.replicate qr 0xFF800000, l := List.replicate qr 0,
    r := List.replicate qr 0x3F800000, o := List.replicate qr (List.replicate d 0), nan := List.replicate qr false,
    empty := List.replicate qr false, mm := 0, lc := [0, 0, 0, 0], traffic := [], wants := false,
    marked := false, held := none }

/-- The queues of a core with one block of one word for engine e. -/
def placedEng (e : EngineId) : CoreEng :=
  let b : Block := ⟨0, 0, 0, [], 1, none, false⟩
  let nest : Nest := ⟨0, [1, 1, 1, 1, 1, 1], [0, 0, 0, 0, 0, 0], [0, 0, 0, 0, 0, 0], Cap.null, 0, Cap.null, 0, 16, 16, 256⟩
  match e with
  | .sequencer => CoreEng.init
  | .vector => { CoreEng.init with vecQ := [b] }
  | .matrix => { CoreEng.init with matQ := [b] }
  | .transfer => { CoreEng.init with xferQ := [⟨0, 0, 0, [], 1, nest, false⟩] }
  | .stratus => CoreEng.init

end Sys2Proof.Machine
end

