-- ==== Sys2Proof/Machine/Operands.lean ====
section
/-! DEFINITION. The operand forms of sequencer words (R60, R61, R63): immediates, offsets, sizes, qualifiers. -/

namespace Sys2Proof.Machine

/-- imm16, sign-extended (R61). -/
def immS (i : BitVec 16) : Word64 := i.signExtend 64

/-- imm16, zero-extended, as ANDI, ORI and XORI take it (R61). -/
def immZ (i : BitVec 16) : Word64 := i.zeroExtend 64

/-- A shift count g_b[5:0] (R87). -/
def shiftOf (b : Word64) : Nat := b.toNat % 64

/-- The word `own + Sext(off, n)` that a branch or jump goes to (R61, R92, R93). -/
def targetOf {n : Nat} (own : Word64) (off : BitVec n) : Word64 := own + off.signExtend 64

/-- MOVHI's result: chunk k of the old value replaced by imm16 (R91). -/
def replaceChunk (v : Word64) (k : BitVec 2) (i : BitVec 16) : Word64 :=
  (v &&& ~~~(0xFFFF#64 <<< (16 * k.toNat))) ||| (i.zeroExtend 64 <<< (16 * k.toNat))

/-- Bytes of a load of size code z, and whether it sign-extends: .n8 .n16 .n32 .i64 .i8 .i16 .i32 (R63). -/
def loadSize (z : Nat) : Nat × Bool :=
  if z = 0 then (1, false) else if z = 1 then (2, false) else if z = 2 then (4, false) else if z = 3 then (8, true)
  else if z = 4 then (1, true) else if z = 5 then (2, true) else (4, true)

/-- Bytes of a store of size code z, and of an element of size code z (R63). -/
def plainSize (z : Nat) : Nat := 2 ^ z

/-- cursor + Sext(k, 11) · n, exact (R132). -/
def scaledAddr (c : Cap) (k : BitVec 11) (n : Nat) : Int := c.cursor.toNat + k.toInt * n

/-- cursor + g_b, exact, as LDQ and STQ form it (R133). -/
def indexedAddr (c : Cap) (g : Word64) : Int := c.cursor.toNat + g.toNat

end Sys2Proof.Machine
end

