-- ==== Sys2Proof/Machine/Suspend.lean ====
section
/-! DEFINITION. The QFENCE wait, the lease, the record write of a suspension, grants of sync objects, waits on sequence
counters (R101, R102, R104, R108, R109, R136, R138). -/

namespace Sys2Proof.Machine

/-! ### Blocks and leases -/

/-- Every block that a core queued has completed (R102). -/
def State.quiet (s : State) (core : Nat) : Bool :=
  let e := (s.core core).eng
  let k := s.cluster (clusterOf core)
  e.vecQ.isEmpty && e.matQ.isEmpty && e.xferQ.isEmpty && e.stratQ.isEmpty && e.vecFlight.isEmpty && e.emits.isEmpty
    && k.flights.all (fun f => f.core != core)
    && (k.stratOf core).isNone

/-- The wait of R102. -/
def State.waitQuiet (s : State) : Chk Unit := waitUnless (s.quiet s.actor.core) .other

/-- Does a request belong to the continuation that a core runs, on whichever core it was made? -/
def State.ownForward (s : State) (core : Nat) (f : Forward) : Bool := f.owner = s.ownerNow core && f.owner.isSome

/-- Every access of the sequencer of a core's continuation is performed: no request to another module is outstanding
(R140, R310, R422). -/
def State.performed (s : State) (core : Nat) : Bool :=
  s.outer.forwards.all (fun f => !(s.ownForward core f && f.engine = 0))

/-- Every access of a core's continuation, its engines' included, is performed. -/
def State.allPerformed (s : State) (core : Nat) : Bool := s.outer.forwards.all (fun f => !s.ownForward core f)

/-- The wait of a release: the queued blocks, and the sequencer's accesses performed (R102, R144, R146, R311). Copies to
another module that are written and not yet acknowledged are not waited for: DRAIN does that (R142, R305). -/
def State.waitRelease (s : State) : Chk Unit :=
  waitUnless (s.quiet s.actor.core && s.performed s.actor.core) .other

/-- A core's claim on the array ends when its sequencer claims it no more and every matrix word it queued has retired
(R101). -/
def State.endClaim (s : State) (core : Nat) : State :=
  let k := clusterOf core
  let c := s.cluster k
  if (s.core core).sys.lease || !(s.core core).eng.matQ.isEmpty || c.flights.any (fun f => f.core = core) then s
  else
    s.setCluster k { c with claims := Marks.del core c.claims
                            granted := if c.granted = some (.core core) then none else c.granted }

/-- MRELEASE: the sequencer's claim ends at once (R101). -/
def State.releaseLease (s : State) (core : Nat) : State :=
  let c := s.core core
  (s.setCore core { c with sys := { c.sys with lease := false } }).endClaim core

/-! ### The record write (R104) -/

/-- A core that runs nothing, as a continuation leaves it (R104). -/
def State.idleCore (s : State) (core : Nat) : State := (s.setCore core (s.core core).idle).noWaits core

/-- The 64 bytes that a voluntary suspension writes: c15, the image and the resume offset, the control word with its new
state, g1 to g4. -/
def suspendedBytes (old : List Byte) (c : Core) (image st : Nat) (resume : Word64) : List Byte :=
  capBytes (c.getC 15) ++ leBytes image 4 ++ leBytes (resume.toNat % 2 ^ 20) 4 ++ sliceB 24 4 old
    ++ leBytes (putBits (putBits (recCtl old) 0 3 st) 12 1 0) 4
    ++ leBytes (c.getG 1).toNat 8 ++ leBytes (c.getG 2).toNat 8 ++ leBytes (c.getG 3).toNat 8 ++ leBytes (c.getG 4).toNat 8

/-- The record write of Suspend, with the frame's tag; then the core is idle, and its writes are performed (R104, R310). -/
def State.leaveCore (s : State) (core : Nat) (r : Running) (st : Nat) (resume : Word64) : State :=
  let s := s.releaseLease core
  let c := s.core core
  let bs := suspendedBytes (s.record r.part r.record) c r.image st resume
  let s := s.setRecBytes r.part r.record 0 bs
  let s := { s with mem := s.mem.setTag (hbmLoc r.part r.record) (c.getC 15).tag }
  (s.idleCore core).perform core (fun _ => true)

/-- The checks and the wait of Suspend: no open region, then every queued block and access (R104, R311). -/
def State.canSuspend (s : State) : Chk Unit :=
  match s.me.sys.region with
  | .closed => s.waitRelease
  | _ => trap .apxseq 0

/-- Suspend(state, resume) of R104 on the acting core; with no continuation nothing happens. -/
def State.suspendAs (s : State) (st : Nat) (resume : Word64) : Chk State :=
  match s.me.run with
  | none => .ok s
  | some r =>
    match s.canSuspend with
    | .error e => .error e
    | .ok _ => .ok (s.leaveCore s.actor.core r st resume)

/-! ### Grants of a sync object (R138) -/

/-- The waiters that a free object grants: one exclusive request, or every shared one up to the first exclusive. -/
def grantHead : List (Nat × Bool) → List Nat × Bool × List (Nat × Bool)
  | [] => ([], false, [])
  | (a, true) :: l => ([a], true, l)
  | (a, false) :: l =>
    let sh := l.takeWhile (fun w => !w.2)
    (a :: sh.map Prod.fst, false, l.drop sh.length)

/-- A free object after its grants, and the records granted. -/
def SyncObj.grant (o : SyncObj) : SyncObj × List Nat :=
  match o.mode with
  | .free =>
    let g := grantHead o.waiting
    let mode := if g.1 = [] then .free
      else if g.2.1 then .exclusive (g.1.headD 0) else .shared (Marks.addAll g.1 [])
    ({ o with mode := mode, waiting := g.2.2 }, g.1)
  | _ => (o, [])

/-- Does a record hold an object? -/
def SyncObj.heldBy (o : SyncObj) (a : Nat) : Bool :=
  match o.mode with
  | .free => false
  | .shared hs => Marks.has a hs
  | .exclusive h => h = a

/-- The object without a holder. -/
def SyncObj.drop (o : SyncObj) (a : Nat) : SyncObj :=
  match o.mode with
  | .free => o
  | .shared hs =>
    let hs' := Marks.del a hs
    { o with mode := if hs' = [] then .free else .shared hs' }
  | .exclusive h => if h = a then { o with mode := .free } else o

/-- REL's effect on the object at a location: the holder leaves, and what becomes free is granted (R138). -/
def State.releaseSync (s : State) (p loc a : Nat) : State :=
  match Sparse.find? loc (s.part p).syncs with
  | none => s
  | some o =>
    let g := (o.drop a).grant
    let s := s.modPart p (fun x => { x with syncs := Sparse.set loc g.1 x.syncs })
    g.2.foldl (fun t b => t.makeRunnable p b) s

/-- The locations of the objects that a record holds. -/
def Partition.heldSyncs (p : Partition) (a : Nat) : List Nat :=
  (p.syncs.filter (fun q => q.2.heldBy a)).map Prod.fst

/-- RETIRE releases every object the continuation holds (R136). -/
def State.releaseAllSyncs (s : State) (p a : Nat) : State :=
  ((s.part p).heldSyncs a).foldl (fun t loc => t.releaseSync p loc a) s

/-! ### Sequence counters (R108, R109) -/

/-- What WAITSEQ puts into g1, and the report left: one atomic read and clear (R109). -/
def SeqCounter.takeReport (c : SeqCounter) (target : Nat) : Word64 × SeqCounter :=
  if bitsAt c.report.toNat 0 8 ≠ 0 ∧ bitsAt c.report.toNat 16 48 ≤ target then (c.report, { c with report := 0 })
  else (0, c)

/-- The waiting records of a counter whose target is met become runnable (R109). -/
def State.wakeSeq (s : State) (p n : Nat) : State :=
  let c := (s.part p).seq n
  (c.waiting.filter (fun w => w.2 ≤ c.done.toNat && ctlState (s.ctl p w.1) = 4)).foldl (fun t w => t.makeRunnable p w.1) s

/-- DONE advanced over the numbers completed out of order, at most k of them. -/
def SeqCounter.advance (c : SeqCounter) : Nat → SeqCounter
  | 0 => c
  | k + 1 =>
    if Marks.has (c.done.toNat + 1) c.finished then
      SeqCounter.advance { c with done := c.done + 1, finished := Marks.del (c.done.toNat + 1) c.finished } k
    else c

/-- A task completes: DONE advances in sequence order (R108). -/
def State.completeTask (s : State) (p n number : Nat) : State :=
  let c := (s.part p).seq n
  let c := { c with finished := Marks.add number c.finished }
  let c := c.advance c.finished.length
  (s.modPart p (fun x => x.setSeq n c)).wakeSeq p n

/-- A parked row is recorded in SEQF: the first in FSEQ and CODE, a later one in MORE (R108). -/
def State.reportFault (s : State) (p n number code : Nat) : State :=
  let c := (s.part p).seq n
  let old := c.report.toNat
  let new := if bitsAt old 0 8 = 0 then number % 2 ^ 48 * 2 ^ 16 + code % 256
    else putBits old 15 1 1
  s.modPart p (fun x => x.setSeq n { c with report := BitVec.ofNat 64 new })

end Sys2Proof.Machine
end

