-- ==== Sys2Proof/Machine/Regions.lean ====
section
/-! DEFINITION. The region table of Mirage: entries, their settings and state words, transitions (R383, R384, R391 to
R395, R402). -/

namespace Sys2Proof.Machine

/-- The state codes of R114. -/
def FitState.code : FitState → Nat
  | .off => 0
  | .observe => 1
  | .train => 2
  | .shadow => 3
  | .serve => 4
  | .fallback => 5
  | .invalid => 6

/-- An entry just made: OFF, settings and words zero (R391). -/
def FitEntry.fresh (world : Nat) (hash : BitVec 128) (id : Nat) : FitEntry :=
  { world := world, hash := hash, id := id, state := .off, thresh := 0, lr := 0, sample := 0, words := [], batches := [],
    binding := none, scount := 0, cause := 0, shadok := 0, obscnt := 0, trainLr := 0, trainNext := 0,
    last := (0, 0) }

/-- The slot and entry of a region: world, code hash, id (R391). -/
def Partition.findFit (p : Partition) (world : Nat) (hash : BitVec 128) (id : Nat) : Option (Nat × FitEntry) :=
  List.find? (fun (q : Nat × FitEntry) => q.2.world = world && q.2.hash = hash && q.2.id = id) p.fits

def Partition.setFit (p : Partition) (n : Nat) (f : FitEntry) : Partition := { p with fits := Sparse.set n f p.fits }

/-- The lowest free slot of the 256. -/
def Partition.freeFit (p : Partition) : Option Nat := (upFrom 0 256).find? (fun n => (Sparse.find? n p.fits).isNone)

/-- The slot and entry of a region, made where there is none; none when the table is full (R391). -/
def Partition.ensureFit (p : Partition) (world : Nat) (hash : BitVec 128) (id : Nat) : Option (Nat × FitEntry) :=
  match p.findFit world hash id with
  | some q => some q
  | none =>
    match p.freeFit with
    | some n => some (n, FitEntry.fresh world hash id)
    | none => none

/-- The code hash of the image that a core runs. -/
def State.hashOf (s : State) (r : Running) : BitVec 128 :=
  match Sparse.find? r.image (s.part r.part).images with
  | some im => im.hash
  | none => 0

/-- The entry of region id of the running image and world. -/
def State.fitOf (s : State) (r : Running) (id : Nat) : Option (Nat × FitEntry) :=
  (s.part r.part).findFit r.world (s.hashOf r) id

/-- The state of region id as APXQ and APXBEGIN see it: OFF without an entry. -/
def State.fitState (s : State) (r : Running) (id : Nat) : FitState :=
  match s.fitOf r id with
  | some q => q.2.state
  | none => .off

/-- Changes an entry of a partition. -/
def State.putFit (s : State) (p n : Nat) (f : FitEntry) : State := s.modPart p (fun x => x.setFit n f)

/-- Layers and widths of a shape word with its input and output counts: the sizes of the layers, inputs first (R384). -/
def layerSizes (shape nIn nOut : Nat) : List Nat :=
  let h1 := bitsAt shape 8 6 + 1
  let h2 := bitsAt shape 16 6 + 1
  match bitsAt shape 0 2 with
  | 1 => [nIn, nOut]
  | 2 => [nIn, h1, nOut]
  | 3 => [nIn, h1, h2, nOut]
  | _ => []

/-- P = Σ (inputs + 1) · outputs over the layers (R392). -/
def paramsOf : List Nat → Nat
  | a :: b :: l => (a + 1) * b + paramsOf (b :: l)
  | _ => 0

/-- Is the shape word of the form R392 asks for? -/
def shapeOk (shape : Nat) : Bool :=
  let n := bitsAt shape 0 2
  1 ≤ n && bitsAt shape 2 6 = 0 && bitsAt shape 14 2 = 0 && bitsAt shape 22 10 = 0
    && (2 ≤ n || bitsAt shape 8 6 = 0) && (n = 3 || bitsAt shape 16 6 = 0)

/-- State word i as it reads: zero above P once bound (R392). -/
def FitEntry.word (f : FitEntry) (i : Nat) : BitVec 32 :=
  match f.binding with
  | some b => if b.params < i then 0 else Sparse.get f.words 0 i
  | none => Sparse.get f.words 0 i

/-- A write of state word i; above P it is discarded while the binding stands (R392). -/
def FitEntry.setWord (f : FitEntry) (i : Nat) (v : BitVec 32) : FitEntry :=
  match f.binding with
  | some b => if b.params < i then f else { f with words := Sparse.set i v f.words }
  | none => { f with words := Sparse.set i v f.words }

/-- Entering OBSERVE (R395). -/
def FitEntry.enterObserve (f : FitEntry) : FitEntry :=
  { f with state := .observe, obscnt := 0, batches := [], binding := none }

/-- Entering INVALID with a cause: shape word and masters zero, recordings discarded (R395). -/
def FitEntry.enterInvalid (f : FitEntry) (cause : Nat) : FitEntry :=
  { f with state := .invalid, cause := cause, words := [], batches := [] }

/-- The settings register that a write or read names (R383). -/
inductive ApxReg where
  | word | thresh | lr | sample
  deriving DecidableEq, Repr

/-- APXWORD, APXTHRESH, APXLR and APXSAMPLE as they read (R383). -/
def State.readApx (s : State) (x : ApxReg) : Word64 :=
  match s.me.run with
  | none => 0
  | some r =>
    match s.fitOf r s.me.sys.apxRegion.toNat with
    | none => 0
    | some q =>
      match x with
      | .word => (q.2.word s.me.sys.apxIndex.toNat).setWidth 64
      | .thresh => q.2.thresh.setWidth 64
      | .lr => q.2.lr.setWidth 64
      | .sample => q.2.sample.setWidth 64

/-- The bits of APXSAMPLE that hold a write (R383): [7:5] read zero. -/
def sampleBits (v : Word64) : BitVec 24 := v.setWidth 24 &&& 0xFFFF1F

/-- A write of one of them: THRESH in any state, the others only while the region is OFF (R383). -/
def State.writeApx (s : State) (x : ApxReg) (v : Word64) : State :=
  match s.me.run with
  | none => s
  | some r =>
    match (s.part r.part).ensureFit r.world (s.hashOf r) s.me.sys.apxRegion.toNat with
    | none => s
    | some (n, f) =>
      match x with
      | .thresh => s.putFit r.part n { f with thresh := v.setWidth 32 }
      | .word =>
        s.putFit r.part n (if f.state = .off then f.setWord s.me.sys.apxIndex.toNat (v.setWidth 32) else f)
      | .lr => s.putFit r.part n (if f.state = .off then { f with lr := v.setWidth 32 } else f)
      | .sample => s.putFit r.part n (if f.state = .off then { f with sample := sampleBits v } else f)

/-- APXSTATE (R393). -/
def FitEntry.status (f : FitEntry) : Word64 :=
  BitVec.ofNat 64 (f.scount.toNat * 2 ^ 32 + f.cause % 8 * 2 ^ 24 + f.shadok % 256 * 2 ^ 16 + f.obscnt % 256 * 2 ^ 8
    + f.state.code)

end Sys2Proof.Machine
end

