-- ==== Sys2Proof/Machine/SysRegs.lean ====
section
/-! DEFINITION. The system registers by number (R64) and their owners' layouts: STATUS to ERETPC (R117), FAULT registers
(R171), STAGEWIN and LOOPCNT (R96), sequence counters (R108), rings (R143), permits (R145), AGEPER (R164), banks (R189,
R192), VSHAPE (R199), CUMCFG (R255), channels (R297), EVWATCH (R322), Stratus (R332), frames (R374), Mirage (R383,
R393). -/

namespace Sys2Proof.Machine

/-- A 64-bit value of a number. -/
def w64 (n : Nat) : Word64 := BitVec.ofNat 64 n

/-- Is the region sequence closed (R112)? -/
def RegionSeq.isClosed : RegionSeq → Bool
  | .closed => true
  | _ => false

/-- STATUS (R117). -/
def Core.status (c : Core) : Word64 :=
  w64 (bitVal c.sys.inh 0 + bitVal c.sys.demoted 1 + c.sys.cls % 4 * 4 + bitVal c.sys.fullst 4 + bitVal c.sys.lease 5
    + bitVal c.sys.pendtrap 6 + bitVal (!c.sys.region.isClosed) 7)

/-- WORLD (R117). -/
def State.worldReg (s : State) (core : Nat) : Word64 :=
  let y := s.partyOf core
  w64 (y.world % 64 + y.part % 16 * 2 ^ 8 + y.context % 256 * 2 ^ 16)

/-- PMTSTn (R145, R368). -/
def State.permitReg (s : State) (core n : Nat) : Word64 :=
  let ch := (s.part (s.partyOf core).part).channel n
  if bitAt ch.word.toNat 8 = false then 0
  else
    w64 (ch.avail % 16 + ch.queue.length % 16 * 2 ^ 4 + ch.held % 16 * 2 ^ 8 + ch.conf % 16 * 2 ^ 12 + bitVal ch.isOpen 16
      + bitVal (dieOf (clusterOf core) = bitsAt ch.word.toNat 0 3) 17)

/-- RINGSTn (R143). -/
def Ring.status (r : Ring) : Word64 :=
  w64 (r.full.toNat + ((r.owners.map (fun o => 2 ^ (16 + o.1 % 16))).sum) + r.len % 32 * 2 ^ 32)

/-- BANKCFGb (R189). -/
def Bank.status (b : Bank) : Word64 :=
  w64 (b.mode % 4 + bitVal b.switching.isSome 2 + b.world % 64 * 2 ^ 8 + b.fifo.length % 2 ^ 16 * 2 ^ 16)

/-- CUMCFG (R255). -/
def Cumulus.status (u : Cumulus) : Word64 :=
  let held := (u.lists.map (fun l => (l.members.map (fun t => t.rows)).sum)).sum
  w64 (u.weight % 16 + bitVal (u.weight != 0) 4 + u.lists.length % 32 * 2 ^ 8 + held % 1024 * 2 ^ 13
    + u.parked.length % 512 * 2 ^ 32)

/-- Does a word of the transfer section name a copy on channel ch? an XEMIT on ch (R70). -/
def emitsOn (ch w : Nat) : Bool :=
  match decodeFor .transfer w with
  | some (.xemit c _) => c.toNat = ch
  | _ => false

/-- The words a queued transfer block has left, to its XEND (R59). -/
def State.blockRest (s : State) (core : Nat) (b : XferBlock) : List Nat :=
  let p := (s.partyOf core).part
  s.blockWords p b.image .transfer (fun w => w = 0x90000000) b.next (s.sectionCount p b.image .transfer + 1)

/-- A copy of this core on channel ch is not yet visible (R142, R297): one of an XEMIT under way, whose writes other modules
acknowledge before the copy is done, or of a word that a queued block has left. -/
def State.channelBusy (s : State) (core ch : Nat) : Bool :=
  let e := (s.core core).eng
  e.emits.any (fun m => m.ch = ch) || e.xferQ.any (fun b => (s.blockRest core b).any (emitsOn ch))

/-- XCHBUSY (R297). -/
def State.busyReg (s : State) (core : Nat) : Word64 :=
  w64 (((upFrom 0 16).map (fun ch => bitVal (s.channelBusy core ch) ch)).sum)

/-- Is channel ch of the transfer units of a partition open (R297)? -/
def Partition.channelOpen (p : Partition) (ch : Nat) : Bool := bitAt p.xch.toNat ch

/-! ### Frames (R372 to R374) -/

/-- Entry i of a frame table; without a table every core is open. -/
def Cluster.frameEntry (c : Cluster) (i : Nat) : FrameEntry :=
  (c.frames[i]?).getD { owners := List.replicate 8 0xFE, lexp := 20, last := true }

/-- A core's owner byte in entry i. -/
def Cluster.ownerIn (c : Cluster) (i core : Nat) : Nat := (c.frameEntry i).owners.getD (core % 8) 0xFF

/-- A core's owner byte in the current frame. -/
def State.ownerByte (s : State) (core : Nat) : Nat :=
  let c := s.cluster (clusterOf core)
  c.ownerIn c.frame core

/-- Entries of the rotation: up to the first with LAST (R372). -/
def rotationLength : List FrameEntry → Nat
  | [] => 0
  | f :: l => if f.last then 1 else rotationLength l + 1

/-- The entry after entry i. -/
def Cluster.nextFrame (c : Cluster) (i : Nat) : Nat := if i + 1 < rotationLength c.frames then i + 1 else 0

/-- Cycles until a core's owner byte changes, from the end of entry i; none when no entry of the rotation changes it. -/
def Cluster.untilChange (c : Cluster) (core own : Nat) : Nat → Nat → Nat → Option Nat
  | _, _, 0 => none
  | i, acc, k + 1 =>
    let j := c.nextFrame i
    if c.ownerIn j core ≠ own then some acc
    else c.untilChange core own j (acc + 2 ^ (c.frameEntry j).lexp) k

/-- FRAMEST (R374). -/
def State.frameReg (s : State) (core : Nat) : Word64 :=
  let c := s.cluster (clusterOf core)
  let own := c.ownerIn c.frame core
  let left := c.frameStart + 2 ^ (c.frameEntry c.frame).lexp - s.time
  let remain := match c.untilChange core own c.frame left (rotationLength c.frames) with
    | none => 0x1FFFFF
    | some n => min n 0x1FFFFE
  w64 (remain + c.frame % 64 * 2 ^ 24 + own % 256 * 2 ^ 32)

/-! ### Stratus status (R332) -/

/-- ATTNST: the last microword retired, and whether a block is queued or running. -/
def State.stratReg (s : State) (core : Nat) : Word64 :=
  let c := s.core core
  let running := ((s.cluster (clusterOf core)).stratOf core).isSome
  w64 (bitVal (running || !c.eng.stratQ.isEmpty) 0 + c.sys.upc.toNat * 2 ^ 32)

/-! ### Bank switches (R189, R192) -/

/-- A write of MODE: starts the switch, or is discarded (R189). -/
def State.startSwitch (s : State) (core b mode : Nat) : State :=
  let k := clusterOf core
  let x := (s.cluster k).bank b
  let y := s.partyOf core
  if 3 ≤ mode ∨ mode = x.mode ∨ x.switching.isSome ∨ (s.worldOf y).l2auth = false then s
  else s.setCluster k ((s.cluster k).setBank b { x with switching := some (mode, y.world) })

/-! ### Pending marks (R186) -/

/-- Clears every pending bit of a core's L1. -/
def State.clearPending (s : State) (core : Nat) : State :=
  let lo := l1Loc core 0
  { s with mem := { s.mem with pend := Marks.delRange (lo / 8) ((lo + 2 ^ 18) / 8) s.mem.pend } }

/-! ### Reading and writing by number -/

/-- The counter of the running world and context with index i (R108). -/
def State.seqNo (s : State) (core i : Nat) : Nat :=
  let y := s.partyOf core
  seqIndex y.world y.context i

/-- SREGR: the value of system register n on the acting core; zero for a number no chapter assigns (R64). -/
def State.readSys (s : State) (n : Nat) : Word64 :=
  let core := s.actor.core
  let c := s.me
  let p := s.part s.party.part
  if 0x50 ≤ n ∧ n ≤ 0x5F then s.permitReg core (n - 0x50)
  else if 0x60 ≤ n ∧ n ≤ 0x67 then (s.myCluster.ring (n - 0x60)).status
  else if 0x68 ≤ n ∧ n ≤ 0x77 then (s.myCluster.bank (n - 0x68)).status
  else if 0x80 ≤ n ∧ n ≤ 0xBF then (p.seq (s.seqNo core (n - 0x80))).done
  else if 0xC0 ≤ n ∧ n ≤ 0xFF then (p.seq (s.seqNo core (n - 0xC0))).report
  else
    match n with
    | 0x000 => c.status
    | 0x001 => c.sys.faultInfo
    | 0x002 => c.sys.faultAddr
    | 0x003 => c.sys.faultPc.setWidth 64
    | 0x004 => c.sys.trapvec.setWidth 64
    | 0x005 => s.worldReg core
    | 0x006 => w64 (bitVal c.sys.event 0)
    | 0x010 => c.sys.stagewin.setWidth 64
    | 0x011 => w64 (c.sys.loopCount.toNat + c.sys.loopDrain % 16 * 2 ^ 60)
    | 0x020 => w64 (c.sys.vshape % 16)
    | 0x030 => match c.run with
      | none => 0
      | some r => match s.fitOf r c.sys.apxRegion.toNat with
        | none => 0
        | some q => q.2.status
    | 0x031 => s.readApx .thresh
    | 0x032 => s.readApx .lr
    | 0x033 => s.readApx .sample
    | 0x040 => c.sys.eretpc.setWidth 64
    | 0x041 => w64 (bitVal c.sys.abandon 0)
    | 0x042 => w64 (p.age % 32)
    | 0x043 => s.myCluster.cumulus.status
    | 0x044 => p.xch.setWidth 64
    | 0x045 => s.busyReg core
    | 0x046 => c.sys.evwatch
    | 0x047 => w64 (c.sys.apxRegion.toNat + c.sys.apxIndex.toNat * 2 ^ 6)
    | 0x048 => c.sys.attncfg
    | 0x049 => c.sys.attnscl
    | 0x04A => s.stratReg core
    | 0x04B => s.frameReg core
    | 0x04C => s.readApx .word
    | _ => 0

/-- Changes the system registers of the acting core. -/
def State.setSys (s : State) (f : CoreSys → CoreSys) : State := s.setMe { s.me with sys := f s.me.sys }

/-- No block of a core has marks of its own any more. -/
def CoreEng.unmarked (e : CoreEng) : CoreEng :=
  { e with
    matQ := e.matQ.map (fun b => { b with marked := false })
    xferQ := e.xferQ.map (fun b => { b with marked := false })
    emits := e.emits.map (fun m => { m with marked := false }) }

/-- Leaving PENDTRAP clears every pending bit of the acting core, and no word of its blocks has marks to clear later
(R186). -/
def State.leavePending (s : State) : State :=
  let core := s.actor.core
  let t := s.clearPending core
  let t := t.setMe { t.me with eng := t.me.eng.unmarked }
  let c := t.myCluster
  t.setMyCluster { c with
    flights := c.flights.map (fun f => if f.core = core then { f with what := f.what.unmarked } else f)
    strat := c.strat.map (fun u => if u.core = core then { u with marked := false } else u)
    resumed := c.resumed.map (fun u => if u.core = core then { u with marked := false } else u) }

/-- SREGW to STATUS: SCOPEDEMOTED clears where v holds a one, PENDTRAP takes v's bit, and leaving the mode clears every
pending bit (R117, R186). -/
def State.writeStatus (s : State) (v : Word64) : State :=
  let on := bitAt v.toNat 6
  let t := s.setSys (fun y => { y with demoted := y.demoted && !bitAt v.toNat 1, pendtrap := on })
  if on then t else t.leavePending

/-- SREGW: a write of system register n of the acting core under its access codes; discarded where the register is RO or
no chapter assigns the number (R64). -/
def State.writeSys (s : State) (n : Nat) (v : Word64) : State :=
  if 0x68 ≤ n ∧ n ≤ 0x77 then s.startSwitch s.actor.core (n - 0x68) (v.toNat % 4)
  else
    match n with
    | 0x000 => s.writeStatus v
    | 0x004 => s.setSys (fun y => { y with trapvec := v.setWidth 20 })
    | 0x010 => s.setSys (fun y => { y with stagewin := v.setWidth 8 })
    | 0x011 => s.setSys (fun y => { y with loopCount := v.setWidth 60, loopDrain := min (bitsAt v.toNat 60 4) 8 })
    | 0x031 => s.writeApx .thresh v
    | 0x032 => s.writeApx .lr v
    | 0x033 => s.writeApx .sample v
    | 0x040 => s.setSys (fun y => { y with eretpc := v.setWidth 20 })
    | 0x041 => s.setSys (fun y => { y with abandon := bitAt v.toNat 0 })
    | 0x047 => s.setSys (fun y => { y with apxRegion := v.setWidth 6, apxIndex := BitVec.ofNat 10 (bitsAt v.toNat 6 10) })
    | 0x048 => s.setSys (fun y => { y with attncfg := v })
    | 0x049 => s.setSys (fun y => { y with attnscl := v })
    | 0x04C => s.writeApx .word v
    | _ => s

end Sys2Proof.Machine
end

