-- ==== Sys2Proof/Machine/SeqIssue.lean ====
section
/-! DEFINITION. Engine issue of vector, matrix and Stratus blocks, the lease, approximable regions (R69, R72, R99 to
R101, R112 to R114, R186, R394). XRUN stands with the transfer unit. -/

namespace Sys2Proof.Machine

/-- Does a stage selector enable its word under a sample (R17, R72)? -/
def selOn (sel : BitVec 4) (sample : BitVec 8) : Bool := sel = 0 || bitAt sample.toNat (sel.toNat - 8)

/-- Changes the engines of the acting core. -/
def State.setEng (s : State) (f : CoreEng → CoreEng) : State := s.setMe { s.me with eng := f s.me.eng }

/-- The image of the acting core; 0 when it runs nothing. -/
def State.imageNow (s : State) : Nat := match s.me.run with | some r => r.image | none => 0

/-- The address an ACCRD names in a snapshot, and the Top of its capability, when the address lies in the L1 window
(R186, R286). -/
def accrdRange (snap : Sparse Cap) (c : BitVec 4) (o : BitVec 14) : Option (Nat × Nat) :=
  let cap := Sparse.get snap Cap.null c.toNat
  let x := cap.cursor.toNat + o.toNat * 256
  match windowOf x with
  | .l1 _ => some (x, cap.top)
  | _ => none

/-- Marks what the ACCRDs of a matrix block may write in L1, those included that its sample disables (R186). -/
def State.markAccrds (s : State) (core : Nat) (b : Block) : State :=
  let p := (s.partyOf core).part
  let ws := s.blockWords p b.image .matrix (fun w => bitsAt w 26 6 = 1) b.start (s.sectionCount p b.image .matrix + 1)
  ws.foldl (fun t w =>
    match decodeFor .matrix w with
    | some (.accrd _ _ c o) =>
      match accrdRange b.snap c o with
      | some r => t.markPending core r.1 r.2
      | none => t
    | _ => t) s

/-! ### VRUN (R99, R112, R394) -/

/-- The count that a SERVE execution takes at its VRUN, when its region is still in SERVE; and whether it is a multiple
of 2^K, K at most 20 (R383, R394). -/
def State.takeCount (s : State) (r : Running) (x : RegionRun) : State × Bool :=
  match x.sampled, s.fitOf r x.id with
  | .serve, some (n, f) =>
    if f.state = .serve then
      (s.putFit r.part n { f with scount := f.scount + 1 },
        (f.scount + 1).toNat % 2 ^ (min (bitsAt f.sample.toNat 0 5) 20) = 0)
    else (s, false)
  | _, _ => (s, false)

/-- First register and number of the outputs that the next APXEND of the sequencer section after the acting core's
instruction names; no registers when there is none (R113; log 53). -/
def State.outputsAhead (s : State) : Nat × Nat :=
  let p := (s.partyOf s.actor.core).part
  let ws := s.blockWords p s.imageNow .sequencer (fun w => bitsAt w 26 6 = 0x27) (s.me.pc.toNat + 1)
    (s.sectionCount p s.imageNow .sequencer)
  match ws.getLast? with
  | some w =>
    let v := bitsAt w 6 6
    let n := bitsAt w 12 4 + 1
    if bitsAt w 26 6 = 0x27 ∧ v + n ≤ 56 then (v, n) else (0, 0)
  | none => (0, 0)

/-- Registers of the acting core are marked empty. -/
def Core.markOutputs (c : Core) (rs : List Nat) : Core := { c with vEmpty := Marks.addAll rs c.vEmpty }

/-- A vector block joins its queue, with the region that brackets it (R99, R394). -/
def State.queueVec (s : State) (o : BitVec 20) (region : Option RegionRun) : State :=
  let b : Block := ⟨o.toNat, o.toNat, s.me.sys.stagewin, [], s.imageNow, region, false⟩
  (s.setEng (fun e => { e with vecQ := e.vecQ ++ [b] })).advance

/-- VRUN by the region sequence state: in issued(id) it raises APXSEQ; in open(id) it makes the one bracketed block, and
the region's outputs are marked empty (R112, R113, R202; log 53). -/
def State.issueVec (s : State) (sel : BitVec 4) (o : BitVec 20) : Chk State :=
  let on := selOn sel s.me.sys.stagewin
  match s.me.sys.region with
  | .issued x => trapN .apxseq x.id
  | .closed =>
    if !on then .ok s.advance
    else if 16 ≤ s.me.eng.vecQ.length then waitFor .other
    else .ok (s.queueVec o none)
  | .opened x =>
    if !on then .ok (s.setSys (fun y => { y with region := .issued { x with ended := true } })).advance
    else if 16 ≤ s.me.eng.vecQ.length then waitFor .other
    else
      match s.me.run with
      | none => .ok s
      | some r =>
        let t := s.takeCount r x
        let outs := s.outputsAhead
        let x' := { x with checks := t.2, offset := o.toNat, firstOut := outs.1, nOut := outs.2 }
        let u := t.1.setSys (fun y => { y with region := .issued x' })
        .ok ((u.setMe (u.me.markOutputs (regRange outs.1 outs.2))).queueVec o (some x'))

/-- VRUN (R99). -/
def execVrun (sel : BitVec 4) (o : BitVec 20) (s : State) : Host.Outcome State Fault Refusal := s.runSeq (s.issueVec sel o)

/-! ### MRUN, ATTNGO, the lease -/

/-- MRUN: a lease claim, room, and the snapshot of c0 to c15 (R69, R99); PENDTRAP marks its ACCRDs (R186). -/
def State.issueMat (s : State) (sel : BitVec 4) (o : BitVec 20) : Chk State :=
  if !selOn sel s.me.sys.stagewin then .ok s.advance
  else if s.me.sys.lease = false then trapN .nolease o.toNat
  else if 8 ≤ s.me.eng.matQ.length then waitFor .other
  else
    let b : Block := ⟨o.toNat, o.toNat, s.me.sys.stagewin, s.me.c, s.imageNow, none, s.me.sys.pendtrap⟩
    let t := s.setEng (fun e => { e with matQ := e.matQ ++ [b] })
    .ok (if s.me.sys.pendtrap then t.markAccrds s.actor.core b else t).advance

/-- MRUN (R99). -/
def execMrun (sel : BitVec 4) (o : BitVec 20) (s : State) : Host.Outcome State Fault Refusal := s.runSeq (s.issueMat sel o)

/-- The Stratus block an ATTNGO offers: the snapshot of c8 to c14 and the start registers (R99, R332). -/
def Core.stratBlock (c : Core) (image off : Nat) : StratBlock :=
  ⟨off, c.c.filter (fun q => 8 ≤ q.1 && q.1 ≤ 14), image, c.sys.attncfg, c.sys.attnscl⟩

/-- ATTNGO offers its block and waits until the unit accepts it, which moves the core on (R99, R331). -/
def execAttngo (sel : BitVec 4) (o : BitVec 20) (s : State) : Host.Outcome State Fault Refusal :=
  if !selOn sel s.me.sys.stagewin then .next s.advance
  else if isNimbus s.home = false then s.runSeq (trapN .nounit o.toNat)
  else
    .next ((s.setEng (fun e => { e with stratQ := [s.me.stratBlock s.imageNow o.toNat] })).queueUp .other s.actor.core)

/-- MLEASE (R101): no effect with a claim held; else it registers one, once a claim that is still ending has ended, and
waits for the first grant, which ends the wait. -/
def execMlease (s : State) : Host.Outcome State Fault Refusal :=
  let core := s.actor.core
  let waiting := s.waiters.contains (.other, core)
  if s.me.sys.lease then .next (if waiting then s else s.advance)
  else if Marks.has core s.myCluster.claims then .next (s.queueUp .other core)
  else
    let t := s.setSys (fun y => { y with lease := true })
    .next ((t.setMyCluster { t.myCluster with claims := Marks.add core t.myCluster.claims }).queueUp .other core)

/-- MRELEASE (R101). -/
def execMrelease (s : State) : Host.Outcome State Fault Refusal :=
  .next (s.releaseLease s.actor.core).advance

/-! ### Approximable regions (R112 to R114) -/

/-- The range check of APXBEGIN and APXEND (R113). -/
def checkRegs (v : BitVec 6) (n : BitVec 4) : Chk Unit := require (v.toNat + n.toNat ≤ 55) .argrange v.toNat

/-- A new execution of region id with its inputs and the state it samples (R394). -/
def RegionRun.start (id firstIn nIn : Nat) (st : FitState) : RegionRun :=
  { id := id, firstIn := firstIn, nIn := nIn, firstOut := 0, nOut := 0, sampled := st, checks := false, offset := 0,
    written := [], inputs := none, closed := false, ended := false, skipped := false }

/-- APXBEGIN: ranges, then the sequence state; the region's state is sampled here (R112, R113, R120, R394). -/
def State.beginRegion (s : State) (id : BitVec 6) (v : BitVec 6) (n : BitVec 4) : Chk State :=
  match checkRegs v n with
  | .error e => .error e
  | .ok _ =>
    match s.me.sys.region with
    | .closed =>
      let st := match s.me.run with | some r => s.fitState r id.toNat | none => .off
      .ok (s.setSys (fun y => { y with region := .opened (RegionRun.start id.toNat v.toNat (n.toNat + 1) st) })).advance
    | _ => trapN .apxseq id.toNat

/-- APXBEGIN (R113). -/
def execApxbegin (n : BitVec 4) (v : BitVec 6) (i : BitVec 6) (s : State) : Host.Outcome State Fault Refusal :=
  s.runSeq (s.beginRegion i v n)

/-- Is a region block queued whose outputs APXEND has not named yet? -/
def Block.isOpen (b : Block) : Bool := match b.region with | some x => !x.closed | none => false

/-- The queued region block learns its outputs (R113, R392). -/
def closeBlock (v n : Nat) (b : Block) : Block :=
  match b.region with
  | some x => if x.closed then b else { b with region := some { x with firstOut := v, nOut := n, closed := true } }
  | none => b

/-- Registers that a VRUN has marked as outputs and the APXEND does not name are full again, but for those that a word in
flight writes (log 53). -/
def Core.unmarkOutputs (c : Core) (rs : List Nat) : Core :=
  (rs.filter (fun n => !c.eng.vecFlight.any (fun f => f.writes [n]))).foldl Core.markFull c

/-- APXEND: ranges, then the sequence state and the id; the queued block has the outputs that are named here (R112, R113;
log 53). -/
def State.endRegion (s : State) (id : BitVec 6) (v : BitVec 6) (n : BitVec 4) : Chk State :=
  match checkRegs v n with
  | .error e => .error e
  | .ok _ =>
    match s.me.sys.region with
    | .issued x =>
      if x.id = id.toNat then
        let queued := s.me.eng.vecQ.any Block.isOpen
        let t := s.setEng (fun e => { e with vecQ := e.vecQ.map (closeBlock v.toNat (n.toNat + 1)) })
        let outs := regRange v.toNat (n.toNat + 1)
        let t := if queued then
            t.setMe ((t.me.unmarkOutputs ((regRange x.firstOut x.nOut).filter (fun r => !outs.contains r))).markOutputs outs)
          else t
        .ok (t.setSys (fun y => { y with region := .closed })).advance
      else trapN .apxseq id.toNat
    | _ => trapN .apxseq id.toNat

/-- APXEND (R113). -/
def execApxend (n : BitVec 4) (v : BitVec 6) (i : BitVec 6) (s : State) : Host.Outcome State Fault Refusal :=
  s.runSeq (s.endRegion i v n)

/-- Applies a transition to the entry of region id; without an entry there is nothing to move. -/
def State.moveFit (s : State) (id : Nat) (f : FitEntry → FitEntry) : State :=
  match s.me.run with
  | none => s
  | some r =>
    match s.fitOf r id with
    | some q => s.putFit r.part q.1 (f q.2)
    | none => s

/-- APXCTL.start: OFF to OBSERVE, the entry made where there is none (R114, R391, R395). -/
def State.startFit (s : State) (id : Nat) : State :=
  match s.me.run with
  | none => s
  | some r =>
    match (s.part r.part).ensureFit r.world (s.hashOf r) id with
    | some q => s.putFit r.part q.1 (if q.2.state = .off then q.2.enterObserve else q.2)
    | none => s

/-- APXCTL.start (R114). -/
def execApxctlStart (i : BitVec 6) (s : State) : Host.Outcome State Fault Refusal := .next (s.startFit i.toNat).advance

/-- APXCTL.stop: any state to OFF; the surrogate is kept, recordings are discarded (R114, R395). -/
def execApxctlStop (i : BitVec 6) (s : State) : Host.Outcome State Fault Refusal :=
  .next (s.moveFit i.toNat (fun f => { f with state := .off, batches := [] })).advance

/-- APXCTL.inval: any state to INVALID with cause 4 (R114, R395). -/
def execApxctlInval (i : BitVec 6) (s : State) : Host.Outcome State Fault Refusal :=
  .next (s.moveFit i.toNat (fun f => f.enterInvalid 4)).advance

/-- APXCTL.restart: FALLBACK or INVALID to OBSERVE (R114, R395). -/
def execApxctlRestart (i : BitVec 6) (s : State) : Host.Outcome State Fault Refusal :=
  .next (s.moveFit i.toNat (fun f => if f.state = .fallback ∨ f.state = .invalid then f.enterObserve else f)).advance

/-- APXQ: the state code; OFF where Mirage has no entry (R114). -/
def execApxq (d : BitVec 5) (i : BitVec 6) (s : State) : Host.Outcome State Fault Refusal :=
  .next (s.writeG d (match s.me.run with
    | some r => w64 (s.fitState r i.toNat).code
    | none => 0))

end Sys2Proof.Machine
end

