-- ==== Sys2Proof/Machine/EngineAccess.lean ====
section
/-! DEFINITION. Accesses of the array, the transfer unit and Stratus (R181, R183, R190, R191, R279, R293): checks in
their order, reads, FIFO pushes; the grant of the array (R101, R254, R256). -/

namespace Sys2Proof.Machine

/-- The memories that a copy or a Stratus unit reads, those that TFETCH and ACCWR read, for which L1 is out of reach,
and those that an engine writes (R181, R183, R190). -/
def Reach.engineRead : Reach := ⟨true, true, false, true⟩
def Reach.arrayRead : Reach := ⟨false, true, false, true⟩
def Reach.engineWrite : Reach := ⟨true, true, true, true⟩

/-- The FIFO bank that an address names for a party, if it names one. -/
def State.fifoBank (s : State) (x : Nat) : Option (Nat × Nat) :=
  match windowOf x with
  | .bank k b _ => if ((s.cluster k).bank b).mode = 2 then some (k, b) else none
  | _ => none

/-- [x, x + n) cut where one bank's window ends and the next begins (R188). -/
def bankCuts (x n : Nat) : Nat → List (Nat × Nat)
  | 0 => []
  | k + 1 =>
    if n = 0 then []
    else
      let m := min n (2 ^ 20 - x % 2 ^ 20)
      (x, m) :: bankCuts (x + m) (n - m) k

/-- The parts of [x, x + n) that lie in FIFO banks: cluster, bank, first address, length. -/
def State.fifoRuns (s : State) (x n : Nat) : List (Nat × Nat × Nat × Nat) :=
  (bankCuts x n (n / 2 ^ 20 + 2)).filterMap (fun c => (s.fifoBank c.1).map (fun b => (b.1, b.2, c.1, c.2)))

/-- A write that reaches a FIFO bank has a length of whole entries (R191, R286, R293): its info is the access's first
address. -/
def State.checkEntries (s : State) (x n : Nat) : Chk Unit := require ((s.fifoRuns x n).isEmpty || n % 256 = 0) .memmode x

/-- The checks of an engine's access of n bytes at x through a snapshot capability (R279, R293): capability, alignment,
memory kind, translation; an engine write reaches the shadow of a published buffer (R141). -/
def State.engineChecks (s : State) (core engine : Nat) (r : Reach) (c : Cap) (x : Int) (n align : Nat) (write : Bool) :
    Chk (List Piece) := do
  capCheck c x n ((if write then permStore else permLoad) + permEngine)
  let a := x.toNat
  let y := s.partyOf core
  require (a % align = 0) .align a
  s.checkKind (waiterOf core engine) y r a n a
  if write then s.checkEntries a n else .ok ()
  s.piecesOf core y c a n write write

/-- Bytes in entries of 256: one for every 256 bytes; fewer bytes left at the end make none (R191; log 102). -/
def entriesOf (bs : List Byte) : Nat → List Vec
  | 0 => []
  | k + 1 => if bs.length < 256 then [] else vecOfBytes (bs.take 256) :: entriesOf (bs.drop 256) k

/-- Has a FIFO bank room for n entries (R191)? -/
def State.fifoHasRoom (s : State) (k b n : Nat) : Bool := ((s.cluster k).bank b).fifo.length + n ≤ fifoRoom k

/-- Pushes entries to a FIFO bank (R191). -/
def State.pushFifo (s : State) (k b : Nat) (es : List Vec) : State :=
  let bank := (s.cluster k).bank b
  s.setCluster k ((s.cluster k).setBank b { bank with fifo := bank.fifo ++ es })

/-- The wait for room in every FIFO bank that a write of [x, x + n) pushes to, in arrival order (R191). -/
def State.awaitRoom (s : State) (core engine x n : Nat) : Chk Unit :=
  checkAll (fun r => waitUnless (s.firstFor (.fifo r.1 r.2.1 true) (waiterOf core engine)
    && s.fifoHasRoom r.1 r.2.1 (r.2.2.2 / 256)) (.fifo r.1 r.2.1 true)) (s.fifoRuns x n)

/-- Pushes the parts of a write at x that lie in FIFO banks, in ascending address order (R191). -/
def State.pushRuns (s : State) (x : Nat) (bs : List Byte) : State :=
  (s.fifoRuns x bs.length).foldl (fun t r =>
    let es := sliceB (r.2.2.1 - x) r.2.2.2 bs
    t.pushFifo r.1 r.2.1 (entriesOf es es.length)) s

/-- The pieces of a write that lie outside FIFO banks, with the bytes of a write at x that they take. -/
def State.plainPieces (s : State) (x : Nat) (ps : List Piece) (bs : List Byte) : List Piece × List Byte :=
  let qs := ps.filter (fun p => (s.fifoBank p.va).isNone)
  (qs, (qs.map (fun p => sliceB (p.va - x) p.len bs)).flatten)

/-- The wait for other modules to answer an engine's write at x (R172, R173, R422; log 90). -/
def State.awaitEngine (s : State) (core engine word x : Nat) (ps : List Piece) (bs : List Byte) : Chk Unit :=
  let q := s.plainPieces x ps bs
  s.awaitWrite core engine word q.1 q.2

/-- An engine's write at x: entries to FIFO banks, bytes everywhere else (R183, R191). -/
def State.engineStore (s : State) (core engine word x : Nat) (ps : List Piece) (bs : List Byte) (unit : Nat := engine) :
    State :=
  let q := s.plainPieces x ps bs
  (s.pushRuns x bs).engineWrite core engine word q.1 q.2 unit

/-- The 128-byte L2 lines that pieces read; L1 has none (R258). -/
def pinnedLines (ps : List Piece) : Marks :=
  Marks.addAll ((ps.map (fun p => match p.place with
    | .here l _ => if l < hbmEnd ∨ 2 ^ 53 ≤ l then [floorTo l 128] else []
    | .away _ _ _ => [])).flatten) []

/-! ### The array's grant (R101, R254, R256) -/

/-- Positions of the rotation: the eight cores, then Cumulus by its weight. -/
def Cluster.positions (c : Cluster) : Nat := 8 + c.cumulus.weight

/-- Has Cumulus a claim: a formed pass with words left to run (R256)? -/
def Cumulus.claims (u : Cumulus) : Bool := u.passes.any (fun p => !p.ran)

/-- Has the Stratus unit a claim of its own for a core (R331)? -/
def Cluster.stratClaim (c : Cluster) (core : Nat) : Bool :=
  match c.strat with | some u => u.wants && u.core = core | none => false

/-- Has the owner of a position a claim? -/
def Cluster.claimAt (c : Cluster) (k p : Nat) : Bool :=
  if p < 8 then Marks.has (8 * k + p) c.claims || c.stratClaim (8 * k + p) else c.cumulus.claims

/-- The first position after the last granted one, cyclically, whose owner has a claim. -/
def Cluster.nextGrant (c : Cluster) (k : Nat) : Option Nat :=
  let n := c.positions
  ((upFrom 1 n).map (fun i => (c.position + i) % n)).find? (c.claimAt k)

/-- The array cleared for a grant to another world: the tiles that do not belong to Cumulus go back to their reset shape
and kind (R285), the slots lose contents, mark and pins, and keep the shape in which a later word reads zeros (R253,
R254, R290; log 50). -/
def Cluster.clearArray (c : Cluster) : Cluster :=
  { c with
    slots := c.slots.map (fun q => (q.1, { q.2 with bytes := [], mark := 0, pins := [] }))
    tiles := c.tiles.filter (fun t => c.cumulus.weight != 0 && 12 ≤ t.1) }

/-- Partition and world of a core, as the clearing of R254 compares them. -/
def State.gridOf (s : State) (core : Nat) : Nat × Nat := let y := s.partyOf core; (y.part, y.world)

/-- Is a TFETCH in flight on the array? -/
def Cluster.fetching (c : Cluster) : Bool :=
  c.flights.any (fun f => match f.what with | .fetch _ _ => true | .store _ _ _ _ => false)

/-- The array granted to a position: to the core's blocks where its lease claim stands, else to the Stratus unit for
the core, which clears nothing and is no core grant (R254, R331). -/
def State.grantTo (s : State) (k p : Nat) : State :=
  let c := s.cluster k
  let c := { c with position := p, steps := 0, grantedAt := s.time }
  if 8 ≤ p then s.setCluster k { c with granted := some .cumulus }
  else
    let core := 8 * k + p
    if !Marks.has core c.claims then s.setCluster k { c with granted := some (.strat core) }
    else
    let w := s.gridOf core
    let c := if c.lastWorld = some w ∨ c.lastWorld = none then c else c.clearArray
    let t := s.setCluster k { c with granted := some (.core core), lastWorld := some w }
    { t with waiters := t.waiters.filter (fun q => q != (.other, core)) }

/-- ARRAY_GRANT: with no grant standing, the array goes to the next position with a claim (R256). A grant that clears the
slots waits for the fetches in flight (R254). -/
def execArrayGrant (s : State) : Host.Outcome State Fault Refusal :=
  let k := s.home
  let c := s.cluster k
  .next (if c.granted.isSome then s
    else match c.nextGrant k with
      | none => s
      | some p =>
        if p < 8 ∧ Marks.has (8 * k + p) c.claims ∧ c.fetching ∧ c.lastWorld ≠ some (s.gridOf (8 * k + p)) then s else s.grantTo k p)

/-- Is a grant at its limit: 256 step words or 8,192 cycles (R101)? -/
def State.atLimit (s : State) (k : Nat) : Bool :=
  let c := s.cluster k
  256 ≤ c.steps || c.grantedAt + 8192 ≤ s.time

/-- LEASE_GRANT_LIMIT: at its limit a grant ends, and the claims are arbitrated again (R101). -/
def execLeaseGrantLimit (s : State) : Host.Outcome State Fault Refusal :=
  let k := s.home
  .next (if s.atLimit k then s.setCluster k { s.cluster k with granted := none } else s)

end Sys2Proof.Machine
end

