-- ==== Sys2Proof/Machine/Matrix.lean ====
section
/-! DEFINITION. The matrix words (R242 to R245, R252, R253, R276 to R289). -/

namespace Sys2Proof.Machine

/-! ### Element formats and products (R237, R242, R243, R245) -/

/-- An element format of MMUL: LBm, I8, or a float (R284). -/
inductive MatFmt where
  | lb (m : Nat)
  | i8
  | flt (k : FloatKind)
  deriving DecidableEq, Repr

/-- Bits of an element. -/
def MatFmt.bits : MatFmt → Nat
  | .lb m => m
  | .i8 => 8
  | .flt k => k.width

/-- The format of a weight layout's format byte, MMUL op − 0x10 (R270). -/
def matFmtOf (n : Nat) : MatFmt :=
  if n < 7 then .lb (n + 2)
  else match n with
    | 7 => .i8
    | 8 => .flt .e4m3
    | 9 => .flt .e5m2
    | 10 => .flt .fp16
    | 11 => .flt .bf16
    | 12 => .flt .fp32
    | _ => .flt .fp64

/-- The kind of lane a product leaves. -/
def MatFmt.kind : MatFmt → TileKind
  | .flt .fp64 => .fp64
  | .flt _ => .fp32
  | _ => .i40

/-- The lane format that float products accumulate in. -/
def MatFmt.acc : MatFmt → FloatKind
  | .flt .fp64 => .fp64
  | _ => .fp32

/-- An integer element after the substitution of R239. -/
def lbInt (m x : Nat) : Int :=
  let v := signedOf m x
  if v = -(2 ^ (m - 1)) then v + 1 else v

/-- An integer element of a block format or I8. -/
def MatFmt.int (f : MatFmt) (x : Nat) : Int :=
  match f with
  | .lb m => lbInt m x
  | _ => signedOf 8 x

/-- (−1)^popcount(i AND j) (R245). -/
def hadSign (i j : Nat) : Bool := onesOf (i &&& j) 8 % 2 = 1

/-- The transform of one group of integers (R245). -/
def hadInt (l : List Int) : List Int :=
  (upFrom 0 l.length).map (fun i => (l.zipIdx.map (fun p => if hadSign i p.2 then -p.1 else p.1)).sum)

/-- The transform of one group of floats, each result rounded once to the element format; zeros as R243 says (R245;
log 48). -/
def hadFloat (k : FloatKind) (l : List FVal) : List FVal :=
  (upFrom 0 l.length).map (fun i => k.rneVal (FVal.sum (l.zipIdx.map (fun p => if hadSign i p.2 then p.1.neg else p.1))))

/-- A row of K integers, transformed when its slot is marked. -/
def markInt (mark : Nat) (l : List Int) : List Int :=
  if mark = 0 then l else ((groupsOf mark l l.length).map hadInt).flatten

/-- A row of K floats, transformed when its slot is marked. -/
def markFloat (k : FloatKind) (mark : Nat) (l : List FVal) : List FVal :=
  if mark = 0 then l else ((groupsOf mark l l.length).map (hadFloat k)).flatten

/-- The integer result of R242: exact, modulo 2^40, sign-extended to the lane. -/
def intDot (a w : List Int) (old : Int) : Word64 :=
  sext64 40 (wrapInt 40 ((List.zipWith (· * ·) a w).sum + old))

/-- The exact products of two rows in chunks of 16. -/
def productChunks (a w : List FVal) : List (List FVal) :=
  let ps := List.zipWith FVal.mul a w
  groupsOf 16 ps ps.length

/-! ### Slots and tiles (R276, R277, R284, R285) -/

/-- Row r of a slot as a number: its 1,024 bytes, byte 0 lowest. -/
def Slot.row (s : Slot) (r : Nat) : Nat :=
  (s.bytes.filter (fun q => 1024 * r ≤ q.1 && q.1 < 1024 * (r + 1))).foldl
    (fun acc q => acc + q.2.toNat * 256 ^ (q.1 - 1024 * r)) 0

/-- The first K elements of row r, as codes; in LBm element k stands at bit m·k of the row. -/
def Slot.codes (s : Slot) (f : MatFmt) (r K : Nat) : List Nat :=
  let x := s.row r
  (upFrom 0 K).map (fun k => bitsAt x (f.bits * k) f.bits)

/-- Lane (i, n) of a tile as it stands. -/
def Tile.lane (t : Tile) (i n : Nat) : Word64 := Sparse.get t.lanes 0 (256 * i + n)

/-- A lane as it reads in a kind (R284). -/
def laneIn (k : TileKind) (x : Word64) : Word64 :=
  match k with
  | .i40 => sext64 40 x.toNat
  | .fp32 => (x.setWidth 32).setWidth 64
  | .fp64 => x

/-- New lanes laid over old ones. -/
def overLanes (new old : Sparse Word64) (M N : Nat) : Sparse Word64 :=
  new.foldl (fun l q => if q.2 = 0 then l else Sparse.set q.1 q.2 l)
    (old.filter (fun q => !(q.1 / 256 < M && q.1 % 256 < N)))

/-- Every lane of an M × N tile. -/
def tileCells (M N : Nat) : List (Nat × Nat) :=
  ((upFrom 0 M).map (fun i => (upFrom 0 N).map (fun n => (i, n)))).flatten

/-- The rows of a slot as integers and as floats, after R239 and the slot's mark. -/
def Slot.intRows (s : Slot) (f : MatFmt) (K : Nat) : List (List Int) :=
  (upFrom 0 s.rows).map (fun r => markInt s.mark ((s.codes f r K).map f.int))
def Slot.floatRows (s : Slot) (k : FloatKind) (K : Nat) : List (List FVal) :=
  (upFrom 0 s.rows).map (fun r => markFloat k s.mark ((s.codes (.flt k) r K).map k.dec))

/-- The tile that a product of two slots leaves (R284). -/
def matProduct (f : MatFmt) (add : Bool) (a b : Slot) (K : Nat) (t : Tile) : Tile :=
  let old := fun (q : Nat × Nat) => laneIn f.kind (t.lane q.1 q.2)
  let cells := tileCells a.rows b.rows
  let new : Sparse Word64 := match f with
    | .flt k =>
      let ra := a.floatRows k K
      let rb := b.floatRows k K
      cells.map (fun q => (256 * q.1 + q.2, BitVec.ofNat 64 (floatDot f.acc
        (productChunks (ra.getD q.1 []) (rb.getD q.2 [])) (if add then f.acc.dec (old q).toNat else .fin true 0 0))))
    | _ =>
      let ra := a.intRows f K
      let rb := b.intRows f K
      cells.map (fun q => (256 * q.1 + q.2,
        intDot (ra.getD q.1 []) (rb.getD q.2 []) (if add then (old q).toInt else 0)))
  { rows := a.rows, cols := b.rows, kind := f.kind, lanes := overLanes new t.lanes a.rows b.rows }

/-- Bytes of a lane in memory (R286). -/
def TileKind.bytes : TileKind → Nat
  | .fp32 => 4
  | _ => 8

/-- The bytes of a tile in its shape and kind (R286). -/
def Tile.image (t : Tile) : List Byte :=
  ((tileCells t.rows t.cols).map (fun q => leBytes (laneIn t.kind (t.lane q.1 q.2)).toNat t.kind.bytes)).flatten

/-- A tile with its lanes taken from bytes (R286). -/
def Tile.load (t : Tile) (bs : List Byte) : Tile :=
  let n := t.kind.bytes
  let new := (tileCells t.rows t.cols).zipIdx.map (fun q =>
    (256 * q.1.1 + q.1.2, laneIn t.kind (BitVec.ofNat 64 (numAt (n * q.2) n bs))))
  { t with lanes := overLanes new t.lanes t.rows t.cols }

/-- The contents of a slot from a tile's bytes: row r from byte r·4·Cols (R281). -/
def slotBytes (rows cols : Nat) (bs : List Byte) : Sparse Byte :=
  ((bs.take (rows * 4 * cols)).zipIdx.map (fun q => (1024 * (q.2 / (4 * cols)) + q.2 % (4 * cols), q.1))).filter
    (fun q => q.2 != 0)

/-! ### Taking a matrix word (R101, R252, R253, R287) -/

/-- The head matrix block past its present word, one more step word under the grant (R101). -/
def State.nextMat (s : State) : State :=
  let c := s.me
  let q := match c.eng.matQ with
    | [] => []
    | b :: rest => { b with next := b.next + 1 } :: rest
  let t := s.setMe { c with eng := { c.eng with matQ := q } }
  t.setMyCluster { t.myCluster with steps := t.myCluster.steps + 1 }

/-- The tile that a word in flight owns (R252). -/
def MatFlight.tile (f : MatFlight) : Option Nat := match f.what with | .store t _ _ _ => some t | .fetch _ _ => none

/-- The slot that a word in flight fills (R287). -/
def MatFlight.slot (f : MatFlight) : Option Nat := match f.what with | .fetch n _ => some n | .store _ _ _ _ => none

/-- Before a resumed core's first kept matrix word, its slots and tiles are written back, once no word in flight owns
one of the tiles (R252, R289, R380). -/
def State.writeBack (s : State) (core : Nat) (w : Sparse Slot × Sparse Tile) : State :=
  let k := clusterOf core
  let c := s.cluster k
  if c.flights.any (fun f => match f.tile with | some t => (Sparse.find? t w.2).isSome | none => false) then s
  else
    let c := w.1.foldl (fun c q => c.setSlot q.1 { q.2 with pins := [] }) c
    let c := w.2.foldl (fun c q => c.setTile q.1 q.2) c
    let d := s.core core
    (s.setCluster k c).setCore core { d with eng := { d.eng with restore := none } }

/-- A word of the head matrix block: it needs the grant, within its 256 step words; a disabled word has no effect (R73,
R101, R251), but for what `skip` says of its marks. -/
def State.takeMat (s : State) (sel : BitVec 4) (f : Block → Chk State) (skip : Block → State := fun _ => s) :
    Host.Outcome State Fault Refusal :=
  match s.me.eng.matQ with
  | [] => .next s
  | b :: _ =>
    if s.myCluster.granted ≠ some (.core s.actor.core) ∨ 256 ≤ s.myCluster.steps then .next s
    else match s.me.eng.restore with
    | some w => .next (s.writeBack s.actor.core w)
    | none =>
    if selOn sel b.sample then
      s.runWord s.actor.core 2 b.next (match f b with
        | .error e => .error e
        | .ok t => .ok t.nextMat)
    else .next (skip b).nextMat

/-- FAULTADDR of ACCBUSY (R252, R253). -/
def busyInfo (tile word : Nat) : Nat := tile + word % 2 ^ 20 * 2 ^ 8

/-- Ownership of a tile: Cumulus's, another core's word in flight, or an earlier word of this core, which is waited for
(R252, R253). -/
def State.ownTile (s : State) (t : Nat) : Chk Unit :=
  let c := s.myCluster
  let owners := c.flights.filter (fun f => f.tile = some t)
  if c.cumulus.weight ≠ 0 ∧ 12 ≤ t then trapN .accbusy (busyInfo t 0xFFFFF)
  else match owners.find? (fun f => f.core != s.actor.core) with
    | some f => trapN .accbusy (busyInfo t f.word)
    | none => waitUnless owners.isEmpty .other

/-- A later word that reads a slot waits for this core's fetches into it (R287). -/
def State.slotReady (s : State) (n : Nat) : Chk Unit :=
  waitUnless (s.myCluster.flights.all (fun f => !(f.core = s.actor.core && f.slot = some n))) .other

/-- A snapshot capability and the address it names with an offset in 256-byte units. -/
def Block.cap (b : Block) (c : BitVec 4) : Cap := Sparse.get b.snap Cap.null c.toNat
def Block.addr (b : Block) (c : BitVec 4) (units : Nat) : Int := ((b.cap c).cursor.toNat : Int) + units * 256

/-- Changes a slot or a tile of the acting core's cluster. -/
def State.putSlot (s : State) (n : Nat) (x : Slot) : State := s.setMyCluster (s.myCluster.setSlot n x)
def State.putTile (s : State) (n : Nat) (x : Tile) : State := s.setMyCluster (s.myCluster.setTile n x)

/-- A word of the acting core goes on beside later words (R287). -/
def State.flyMat (s : State) (word : Nat) (w : MatTraffic) (guests : List Nat) (span : Nat × Nat) : State :=
  let c := s.myCluster
  let f : MatFlight := ⟨s.actor.core, word, w, guests, span⟩
  s.setMyCluster { c with flights := c.flights ++ [f] }

/-! ### The words -/

/-- MSHAPE (R280). -/
def execMshape (sel : BitVec 4) (r : BitVec 8) (c : BitVec 8) (t : BitVec 2) (s : State) :
    Host.Outcome State Fault Refusal :=
  s.takeMat sel (fun _ =>
    .ok (s.putSlot t.toNat { s.myCluster.slot t.toNat with rows := r.toNat + 1, cols := c.toNat + 1 }))

/-- TFETCH (R281): pins and mark change at its array phase, the contents when its lines have landed. -/
def State.fetchTile (s : State) (b : Block) (c : BitVec 4) (n : Nat) (off : Nat) : Chk State := do
  let slot := s.myCluster.slot n
  let core := s.actor.core
  let nb := slot.rows * (4 * slot.cols)
  let ps ← s.engineChecks core 2 Reach.arrayRead (b.cap c) (b.addr c off) nb 16 false
  let bs ← s.readPieces core 2 ps
  let t := (s.dropAnswers core 2).putSlot n { slot with mark := 0, pins := pinnedLines ps }
  .ok (t.flyMat b.next (.fetch n (slotBytes slot.rows slot.cols bs)) [] (0, 0))

/-- TFETCH (R281). -/
def execTfetch (sel : BitVec 4) (c : BitVec 4) (t : BitVec 2) (o : BitVec 16) (s : State) :
    Host.Outcome State Fault Refusal :=
  s.takeMat sel (fun b => s.fetchTile b c t.toNat o.toNat)

/-- TREL (R282). -/
def execTrel (sel : BitVec 4) (t : BitVec 2) (s : State) : Host.Outcome State Fault Refusal :=
  s.takeMat sel (fun _ => .ok (s.putSlot t.toNat { s.myCluster.slot t.toNat with pins := [] }))

/-- HAD: size codes 0, 1, 2 for 16, 32, 64 (R283). -/
def execHad (sel : BitVec 4) (t : BitVec 2) (z : BitVec 2) (s : State) : Host.Outcome State Fault Refusal :=
  s.takeMat sel (fun _ => .ok (s.putSlot t.toNat { s.myCluster.slot t.toNat with mark := 16 * 2 ^ z.toNat }))

/-- ACCZERO (R285). -/
def execAcczero (sel : BitVec 4) (a : BitVec 4) (s : State) : Host.Outcome State Fault Refusal :=
  s.takeMat sel (fun _ => do
    s.ownTile a.toNat
    .ok (s.putTile a.toNat { s.myCluster.tile a.toNat with lanes := [] }))

/-- The L1 range that an ACCRD of a block marked at its MRUN, if it did (R186). -/
def Block.marks (b : Block) (c : BitVec 4) (o : BitVec 14) : Option (Nat × Nat) :=
  if b.marked then accrdRange b.snap c o else none

/-- ACCRD into memory: the lanes go out beside later words; into a FIFO bank its entries wait for room, and the other modules
it writes to have answered (R172, R173, R191, R286, R422). -/
def State.readTile (s : State) (b : Block) (a c : BitVec 4) (off : Nat) : Chk State := do
  let t := s.myCluster.tile a.toNat
  let core := s.actor.core
  let x := b.addr c off
  let bs := t.image
  let ps ← s.engineChecks core 2 Reach.engineWrite (b.cap c) x (t.rows * t.cols * t.kind.bytes) 16 true
  s.ownTile a.toNat
  s.awaitRoom core 2 x.toNat bs.length
  s.awaitEngine core 2 b.next x.toNat ps bs
  let q := s.plainPieces x.toNat ps bs
  .ok (((s.dropAnswers core 2).pushRuns x.toNat bs).flyMat b.next (.store a.toNat q.1 q.2 (b.marks c (BitVec.ofNat 14 off)))
    (s.guestsOf s.party x.toNat bs.length) (x.toNat, bs.length))

/-- An ACCRD that its selector disables has written nothing: what it marked is cleared (R73, R186). -/
def State.skipAccrd (s : State) (b : Block) (c : BitVec 4) (o : BitVec 14) : State :=
  s.clearMarks s.actor.core (b.marks c o)

/-- ACCRD (R286). -/
def execAccrd (sel : BitVec 4) (a : BitVec 4) (c : BitVec 4) (o : BitVec 14) (s : State) :
    Host.Outcome State Fault Refusal :=
  s.takeMat sel (fun b => s.readTile b a c o.toNat) (fun b => s.skipAccrd b c o)

/-- ACCWR (R286). -/
def State.writeTile (s : State) (b : Block) (a c : BitVec 4) (off : Nat) : Chk State := do
  let t := s.myCluster.tile a.toNat
  let core := s.actor.core
  let ps ← s.engineChecks core 2 Reach.arrayRead (b.cap c) (b.addr c off) (t.rows * t.cols * t.kind.bytes) 16 false
  s.ownTile a.toNat
  let bs ← s.readPieces core 2 ps
  .ok ((s.dropAnswers core 2).putTile a.toNat (t.load bs))

/-- ACCWR (R286). -/
def execAccwr (sel : BitVec 4) (a : BitVec 4) (c : BitVec 4) (o : BitVec 14) (s : State) :
    Host.Outcome State Fault Refusal :=
  s.takeMat sel (fun b => s.writeTile b a c o.toNat)

/-- MWAIT waits for every earlier word of this core (R287). -/
def execMwait (sel : BitVec 4) (s : State) : Host.Outcome State Fault Refusal :=
  s.takeMat sel (fun _ => do
    waitUnless (s.myCluster.flights.all (fun f => f.core != s.actor.core)) .other
    .ok s)

/-- MEND ends its block whether or not its selector enables it; the claim may end with it (R73, R101, R287). -/
def execMend (_ : BitVec 4) (s : State) : Host.Outcome State Fault Refusal :=
  let core := s.actor.core
  match s.me.eng.matQ with
  | [] => .next s
  | _ :: rest =>
    if s.myCluster.granted ≠ some (.core core) ∨ 256 ≤ s.myCluster.steps then .next s
    else match s.me.eng.restore with
    | some w => .next (s.writeBack core w)
    | none =>
      let t := s.setMyCluster { s.myCluster with steps := s.myCluster.steps + 1 }
      .next ((t.setMe { t.me with eng := { t.me.eng with matQ := rest } }).endClaim core)

/-- K of a product (R284). -/
def matK (f : MatFmt) (cols : Nat) : Nat := 32 * cols / f.bits

/-- The mark of a slot divides K (R284). -/
def checkMark (x : Slot) (K : Nat) : Chk Unit := require (x.mark = 0 || K % x.mark = 0) .argrange x.mark

/-- MMUL (R284). -/
def State.multiply (s : State) (f : MatFmt) (a x w : Nat) (add : Bool) : Chk State := do
  let sa := s.myCluster.slot x
  let sb := s.myCluster.slot w
  let K := matK f sa.cols
  require (sb.cols = sa.cols) .argrange sb.cols
  require (!(match f with | .lb m => sa.cols % m != 0 | .flt .fp64 => sa.cols % 2 != 0 | _ => false)) .argrange sa.cols
  require (K ≤ 256) .argrange K
  checkMark sa K
  checkMark sb K
  s.ownTile a
  s.slotReady x
  s.slotReady w
  .ok (s.putTile a (matProduct f add sa sb K (s.myCluster.tile a)))

/-- The meaning that every MMUL shares. -/
def State.runMul (s : State) (f : MatFmt) (sel : BitVec 4) (a : BitVec 4) (x w : BitVec 2) (c : BitVec 1) :
    Host.Outcome State Fault Refusal :=
  s.takeMat sel (fun _ => s.multiply f a.toNat x.toNat w.toNat (c = 1))

/-- MMUL.lb2 (R284). -/
def execMmulLb2 (sel : BitVec 4) (a : BitVec 4) (x : BitVec 2) (w : BitVec 2) (c : BitVec 1) (s : State) :
    Host.Outcome State Fault Refusal := s.runMul (.lb 2) sel a x w c

/-- MMUL.lb3 (R284). -/
def execMmulLb3 (sel : BitVec 4) (a : BitVec 4) (x : BitVec 2) (w : BitVec 2) (c : BitVec 1) (s : State) :
    Host.Outcome State Fault Refusal := s.runMul (.lb 3) sel a x w c

/-- MMUL.lb4 (R284). -/
def execMmulLb4 (sel : BitVec 4) (a : BitVec 4) (x : BitVec 2) (w : BitVec 2) (c : BitVec 1) (s : State) :
    Host.Outcome State Fault Refusal := s.runMul (.lb 4) sel a x w c

/-- MMUL.lb5 (R284). -/
def execMmulLb5 (sel : BitVec 4) (a : BitVec 4) (x : BitVec 2) (w : BitVec 2) (c : BitVec 1) (s : State) :
    Host.Outcome State Fault Refusal := s.runMul (.lb 5) sel a x w c

/-- MMUL.lb6 (R284). -/
def execMmulLb6 (sel : BitVec 4) (a : BitVec 4) (x : BitVec 2) (w : BitVec 2) (c : BitVec 1) (s : State) :
    Host.Outcome State Fault Refusal := s.runMul (.lb 6) sel a x w c

/-- MMUL.lb7 (R284). -/
def execMmulLb7 (sel : BitVec 4) (a : BitVec 4) (x : BitVec 2) (w : BitVec 2) (c : BitVec 1) (s : State) :
    Host.Outcome State Fault Refusal := s.runMul (.lb 7) sel a x w c

/-- MMUL.lb8 (R284). -/
def execMmulLb8 (sel : BitVec 4) (a : BitVec 4) (x : BitVec 2) (w : BitVec 2) (c : BitVec 1) (s : State) :
    Host.Outcome State Fault Refusal := s.runMul (.lb 8) sel a x w c

/-- MMUL.i8 (R284). -/
def execMmulI8 (sel : BitVec 4) (a : BitVec 4) (x : BitVec 2) (w : BitVec 2) (c : BitVec 1) (s : State) :
    Host.Outcome State Fault Refusal := s.runMul .i8 sel a x w c

/-- MMUL.e4m3 (R284). -/
def execMmulE4m3 (sel : BitVec 4) (a : BitVec 4) (x : BitVec 2) (w : BitVec 2) (c : BitVec 1) (s : State) :
    Host.Outcome State Fault Refusal := s.runMul (.flt .e4m3) sel a x w c

/-- MMUL.e5m2 (R284). -/
def execMmulE5m2 (sel : BitVec 4) (a : BitVec 4) (x : BitVec 2) (w : BitVec 2) (c : BitVec 1) (s : State) :
    Host.Outcome State Fault Refusal := s.runMul (.flt .e5m2) sel a x w c

/-- MMUL.fp16 (R284). -/
def execMmulFp16 (sel : BitVec 4) (a : BitVec 4) (x : BitVec 2) (w : BitVec 2) (c : BitVec 1) (s : State) :
    Host.Outcome State Fault Refusal := s.runMul (.flt .fp16) sel a x w c

/-- MMUL.bf16 (R284). -/
def execMmulBf16 (sel : BitVec 4) (a : BitVec 4) (x : BitVec 2) (w : BitVec 2) (c : BitVec 1) (s : State) :
    Host.Outcome State Fault Refusal := s.runMul (.flt .bf16) sel a x w c

/-- MMUL.fp32 (R284). -/
def execMmulFp32 (sel : BitVec 4) (a : BitVec 4) (x : BitVec 2) (w : BitVec 2) (c : BitVec 1) (s : State) :
    Host.Outcome State Fault Refusal := s.runMul (.flt .fp32) sel a x w c

/-- MMUL.fp64 (R284). -/
def execMmulFp64 (sel : BitVec 4) (a : BitVec 4) (x : BitVec 2) (w : BitVec 2) (c : BitVec 1) (s : State) :
    Host.Outcome State Fault Refusal := s.runMul (.flt .fp64) sel a x w c

/-! ### Retirement (R287) -/

/-- The word in flight with number idx of the acting core's cluster: its traffic is done and it retires (R287); the claim of
its core may end then (R101). -/
def State.retireMat (s : State) (idx : Nat) (f : MatFlight) : State :=
  let k := s.home
  let t := s.landMatrix k f
  let c := t.cluster k
  (t.setCluster k { c with flights := listDrop idx c.flights }).endClaim f.core

/-- TFETCH_LANDED: the last line of a TFETCH lands; fetches into one slot land in their order (R287). -/
def execTfetchLanded (idx : Nat) (s : State) : Host.Outcome State Fault Refusal :=
  .next (match s.myCluster.flights[idx]? with
    | some f => match f.what with
      | .fetch n _ =>
        if (s.myCluster.flights.take idx).any (fun g => g.slot = some n) then s else s.retireMat idx f
      | .store _ _ _ _ => s
    | none => s)

/-- ACCRD_WRITES_PERFORMED: the last write of an ACCRD is performed (R287). -/
def execAccrdWritesPerformed (idx : Nat) (s : State) : Host.Outcome State Fault Refusal :=
  .next (match s.myCluster.flights[idx]? with
    | some f => match f.what with
      | .store _ _ _ _ => s.retireMat idx f
      | .fetch _ _ => s
    | none => s)

end Sys2Proof.Machine
end

