-- ==== Sys2Proof/Machine/SeqAccess.lean ====
section
/-! DEFINITION. The order every sequencer access follows (R129): capability, alignment, memory kind, translation, sync
objects (R136), full/empty wait (R131), early reads (R186), and then the bytes. -/

namespace Sys2Proof.Machine

/-- The memories an access with a qualifier may reach: granules with full/empty bits only (R131). -/
def Reach.ofQualifier (q : Nat) : Reach := if q = 0 then Reach.plain else ⟨true, true, false, false⟩

/-- What AMOs may reach: HBM-backed memory and L1 (R135). -/
def Reach.amo : Reach := ⟨true, false, false, true⟩

/-- The granules of pieces on this module. -/
def pieceGranules (ps : List Piece) : List Nat :=
  (ps.map (fun p => match p.place with | .here l _ => granules l p.len | .away _ _ _ => [])).flatten

/-- The sync objects of the acting partition that pieces touch, by location (R136). -/
def State.touchedSyncs (s : State) (ps : List Piece) : List (Nat × SyncObj) :=
  (s.part s.party.part).syncs.filter (fun o =>
    ps.any (fun p => match p.place with | .here l _ => l < o.1 + 64 && o.1 < l + p.len | .away _ _ _ => false))

/-- Does an object hold a region or a holder? -/
def SyncObj.inUse (o : SyncObj) : Bool := !(o.mode = .free) || !o.regions.isEmpty

/-- A plain access to an object in use raises SYNCSTATE with info 11 (R136). -/
def State.checkSyncs (s : State) (ps : List Piece) : Chk Unit :=
  require ((s.touchedSyncs ps).all (fun o => !o.2.inUse)) .syncstate 11

/-- A plain access to a free, empty object clears its mark (R136). -/
def State.clearSyncs (s : State) (ps : List Piece) : State :=
  let ls := (s.touchedSyncs ps).map Prod.fst
  if ls = [] then s
  else s.modPart s.party.part (fun x => { x with syncs := x.syncs.filter (fun o => !ls.contains o.1) })

/-- The full/empty wait of a load (codes 1 .wf, 2 .wfc) or a store (code 1 .we), in arrival order among the waiters for
the same bit (R131; log 88). -/
def State.waitFe (s : State) (store : Bool) (q : Nat) (ps : List Piece) : Chk Unit :=
  let gs := pieceGranules ps
  let ready := fun g => (Marks.has g s.mem.full != store) && s.firstFor (.granule g store) s.actor.core
  if q = 0 ∨ (store ∧ q = 2) then .ok ()
  else match gs.find? (fun g => !ready g) with
    | some g => waitFor (.granule g store)
    | none => .ok ()

/-- EARLYREAD: with PENDTRAP on, a read of a pending word of L1 (R186). -/
def State.checkEarly (s : State) (ps : List Piece) (x : Nat) : Chk Unit :=
  require (!(s.me.sys.pendtrap && ps.any (fun p => match p.place with
    | .here l _ => (words8 l p.len).any (fun w => Marks.has w s.mem.pend)
    | .away _ _ _ => false))) .earlyread x

/-- Every check and wait of a read of n bytes at x, with the pieces it falls into (R129). -/
def State.readChecks (s : State) (c : Cap) (x : Int) (n align q : Nat) (reach : Reach) (perms : Nat) (write : Bool) :
    Chk (List Piece) := do
  capCheck c x n perms
  let a := x.toNat
  require (a % align = 0) .align a
  s.checkKind s.actor.core s.party reach a n a
  let ps ← s.piecesOf s.actor.core s.party c a n write false
  s.checkSyncs ps
  s.waitFe false q ps
  s.checkEarly ps a
  .ok ps

/-- What a load leaves behind beside its value: marks cleared, .wfc's granules empty, replies used (R131, R136). -/
def State.afterRead (s : State) (q : Nat) (ps : List Piece) : State :=
  let t := (s.clearSyncs ps).dropAnswers s.actor.core 0
  if q = 2 then { t with mem := { t.mem with full := Marks.delAll (pieceGranules ps) t.mem.full } } else t

/-- A load of n bytes under a qualifier: the bytes, the tag of the first granule, the state after (R129 to R132). -/
def State.loadBytes (s : State) (c : Cap) (x : Int) (n align q : Nat) : Chk (List Byte × Bool × State) := do
  let ps ← s.readChecks c x n align q (Reach.ofQualifier q) permLoad false
  let bs ← s.readPieces s.actor.core 0 ps
  .ok (bs, (match ps.head? with | some p => s.tagOf s.actor.core 0 p | none => false), s.afterRead q ps)

/-- The checks and the wait of a store of n bytes at x through c, after its capability checks (R129). -/
def State.storeChecks (s : State) (c : Cap) (x : Int) (n align q : Nat) : Chk (List Piece) := do
  let a := x.toNat
  require (a % align = 0) .align a
  s.checkKind s.actor.core s.party (Reach.ofQualifier q) a n a
  let ps ← s.piecesOf s.actor.core s.party c a n true false
  s.checkSyncs ps
  s.waitFe true q ps
  .ok ps

/-- The sequencer's write of bytes over its pieces, once its writes to other modules are acknowledged; a qualifier marks
the granules full (R131, R422). -/
def State.storeBytes (s : State) (q : Nat) (ps : List Piece) (bs : List Byte) : Chk State := do
  s.awaitWrite s.actor.core 0 0 ps bs
  .ok (((s.clearSyncs ps).dropAnswers s.actor.core 0).putPieces s.actor.core 0 (q != 0) ps bs)

end Sys2Proof.Machine
end

