-- ==== Sys2Proof/Machine/Flags.lean ====
section
/-! DEFINITION. Conditions and arithmetic results of the sequencer (R62, R87, R88). The sequencer keeps no flags: a
condition is computed where it is tested. -/

namespace Sys2Proof.Machine

/-- The condition of code cc on two registers (R62). -/
def condHolds (cc : BitVec 3) (x y : Word64) : Bool :=
  match cc.toNat with
  | 0 => x == y
  | 1 => x != y
  | 2 => x.slt y
  | 3 => !x.slt y
  | 4 => x.ult y
  | 5 => !x.ult y
  | 6 => bitAt x.toNat (y.toNat % 64)
  | _ => !bitAt x.toNat (y.toNat % 64)

/-- 1 when a condition holds, else 0 (R90). -/
def flagWord (b : Bool) : Word64 := if b then 1 else 0

/-- Bits [127:64] of the signed product (R87). -/
def mulHighS (x y : Word64) : Word64 := BitVec.ofInt 64 (x.toInt * y.toInt / 2 ^ 64)

/-- Bits [127:64] of the unsigned product (R87). -/
def mulHighU (x y : Word64) : Word64 := BitVec.ofNat 64 (x.toNat * y.toNat / 2 ^ 64)

/-- DIV: truncated towards zero; all ones by zero; −2^63 by −1 gives −2^63 (R87). -/
def divS (x y : Word64) : Word64 := if y = 0 then BitVec.allOnes 64 else BitVec.ofInt 64 (x.toInt.tdiv y.toInt)

/-- DIVU; 2^64 − 1 by zero (R87). -/
def divU (x y : Word64) : Word64 := if y = 0 then BitVec.allOnes 64 else BitVec.ofNat 64 (x.toNat / y.toNat)

/-- REM: the sign of g_a; g_a by zero (R87). -/
def remS (x y : Word64) : Word64 := if y = 0 then x else BitVec.ofInt 64 (x.toInt.tmod y.toInt)

/-- REMU; g_a by zero (R87). -/
def remU (x y : Word64) : Word64 := if y = 0 then x else BitVec.ofNat 64 (x.toNat % y.toNat)

end Sys2Proof.Machine
end

