-- ==== Sys2Proof/Machine/SeqControl.lean ====
section
/-! DEFINITION. Branches, jumps, the stage window, system instructions of the sequencer (R92 to R98, R102, R103, R115,
R117 to R119). -/

namespace Sys2Proof.Machine

/-- The acting core goes on at a word offset. -/
def State.goto (s : State) (pc : Word64) : State := s.setMe { s.me with pc := pc }

/-- B.cc (R92): no transfer of control traps at the branch (R94). -/
def execBCc (a : BitVec 5) (b : BitVec 5) (c : BitVec 3) (o : BitVec 13) (s : State) : Host.Outcome State Fault Refusal :=
  .next (if condHolds c (s.g a) (s.g b) then s.goto (targetOf s.me.pc o) else s.advance)

/-- J (R93). -/
def execJ (o : BitVec 26) (s : State) : Host.Outcome State Fault Refusal := .next (s.goto (targetOf s.me.pc o))

/-- JAL: g31 is the word after (R93). -/
def execJal (o : BitVec 26) (s : State) : Host.Outcome State Fault Refusal :=
  .next (s.setMe { s.me.setG 31 (s.me.pc + 1) with pc := targetOf s.me.pc o })

/-- JR: g_a as an unsigned word offset (R93). -/
def execJr (a : BitVec 5) (s : State) : Host.Outcome State Fault Refusal := .next (s.goto (s.g a))

/-- STWIN's effect (R97). -/
def State.armWindow (s : State) (count : BitVec 60) (drain : Nat) (window : BitVec 8) : State :=
  (s.setSys (fun y => { y with loopCount := count, loopDrain := drain, stagewin := window })).advance

/-- STWIN (R97). -/
def execStwin (a : BitVec 5) (n : BitVec 4) (w : BitVec 8) (s : State) : Host.Outcome State Fault Refusal :=
  s.runSeq (if bitsAt (s.g a).toNat 60 4 ≠ 0 then trap .argrange (s.g a)
    else .ok (s.armWindow ((s.g a).setWidth 60) n.toNat w))

/-- LOOPST (R98): the window shifts in a one while iterations remain, a zero while it drains. -/
def State.loopStep (s : State) (target : Word64) : State :=
  let y := s.me.sys
  if y.loopCount ≠ 0 then
    (s.setSys (fun y => { y with loopCount := y.loopCount - 1, stagewin := (y.stagewin <<< 1) ||| 1 })).goto target
  else if 0 < y.loopDrain then
    (s.setSys (fun y => { y with loopDrain := y.loopDrain - 1, stagewin := y.stagewin <<< 1 })).goto target
  else s.advance

/-- LOOPST (R98). -/
def execLoopst (o : BitVec 26) (s : State) : Host.Outcome State Fault Refusal :=
  .next (s.loopStep (targetOf s.me.pc o))

/-- TRAP raises SWTRAP with its immediate (R115). -/
def execTrap (i : BitVec 16) (s : State) : Host.Outcome State Fault Refusal :=
  s.runSeq (trap .swtrap (i.zeroExtend 64))

/-- Does the acting core watch a granule that another module holds (R321, R322)? -/
def State.watchesAway (s : State) : Bool :=
  match s.watched s.actor.core s.me with
  | some g => decide (awayGranule 0 0 ≤ g)
  | none => false

/-- An event that a party of another module has caused there is latched by the time the latch is looked at (R321; log 4). -/
def State.catchEvent (s : State) : State :=
  if s.watchesAway && Config.remoteEvent s.actor.core s.draws then s.setMe s.me.latch else s

/-- SREGR (R117). -/
def execSregr (d : BitVec 5) (n : BitVec 12) (s : State) : Host.Outcome State Fault Refusal :=
  let t := if n.toNat = 6 then s.catchEvent else s
  .next (t.writeG d (t.readSys n.toNat))

/-- SREGW takes effect before the next instruction (R117). -/
def execSregw (a : BitVec 5) (n : BitVec 12) (s : State) : Host.Outcome State Fault Refusal :=
  .next (s.writeSys n.toNat (s.g a)).advance

/-- NOP (R119). -/
def execNop (s : State) : Host.Outcome State Fault Refusal := .next s.advance

/-- WFE waits for the latch and clears it (R118, R323). -/
def execWfe (s : State) : Host.Outcome State Fault Refusal :=
  s.runSeq (if s.catchEvent.me.sys.event then .ok (s.setSys (fun y => { y with event := false })).advance
    else waitFor .other)

/-- SEV latches an event in each of the eight cores of the cluster, this one included (R118). -/
def execSev (s : State) : Host.Outcome State Fault Refusal :=
  .next ((coresOf s.home).foldl (fun t n => t.setCore n (t.core n).latch) s).advance

/-- QFENCE: every queued block has completed, its writes in order before what follows (R102, R309). -/
def execQfence (s : State) : Host.Outcome State Fault Refusal :=
  s.runSeq (match s.waitQuiet with
    | .error e => .error e
    | .ok _ => .ok (s.orderOwn s.actor.core).advance)

/-- CQPOP waits for an entry of cq and pops it (R103). -/
def execCqpop (d : BitVec 5) (s : State) : Host.Outcome State Fault Refusal :=
  s.runSeq (match s.me.cq with
    | [] => waitFor .other
    | w :: l => .ok ((s.setMe { s.me with cq := l }).writeG d w))

end Sys2Proof.Machine
end

