-- ==== Sys2Proof/Machine/Stratus.lean ====
section
/-! DEFINITION. The Stratus microwords, and the unit's events: accepting a block, a fetch that lands, writes that are
performed (R330 to R342, R350 to R359). -/

namespace Sys2Proof.Machine

/-! ### Taking a microword -/

/-- The check of the start registers before the first word (R332). -/
def StratRun.checkStart (u : StratRun) : Chk Unit :=
  if u.checked then .ok ()
  else match badStart u.cfg u.scl with
    | some v => trap .argrange v
    | none => .ok ()

/-- The unit's block as it now stands. -/
def State.putStrat (s : State) (u : StratRun) : State := s.setMyCluster { s.myCluster with strat := some u }

/-- A microword that traps holds no translation any more: its retry translates afresh (R175, R359). -/
def State.releaseHeld (s : State) (u : StratRun) (r : Chk State) : State :=
  match r with
  | .error (.trap _ _ _) => if u.held.isSome then s.putStrat { u with held := none } else s
  | _ => s

/-- A microword of the acting core's block, with the start registers checked first (R332, R341). -/
def State.takeStrat (s : State) (f : StratRun → Chk State) : Host.Outcome State Fault Refusal :=
  match s.myCluster.strat with
  | none => .next s
  | some u =>
    if u.core = s.actor.core then
      let r := (match u.checkStart with
        | .error e => .error e
        | .ok _ => f { u with checked := true })
      (s.releaseHeld u r).runWord s.actor.core 4 u.next r
    else .next s

/-- A microword that has retired: ATTNST.UPC names it (R332), and the unit goes on at `next`. -/
def State.retireStrat (s : State) (u : StratRun) (next : Nat) : State :=
  (s.putStrat { u with next := next }).setSys (fun y => { y with upc := BitVec.ofNat 10 u.next })

/-- A microword that goes to the next one. -/
def State.stepStrat (s : State) (word : StratRun) (u : StratRun) : State :=
  s.retireStrat { u with next := word.next } (word.next + 1)

/-- A memory microword issued, with the pieces it holds and what they depend on: its traffic goes on beside later words
(R334). -/
def State.flyStrat (s : State) (u : StratRun) (ask : StratAsk) (h : List Piece × List Nat) (w : StratTraffic) : State :=
  s.putStrat { u with next := u.next + 1, held := none, traffic := u.traffic ++ [⟨u.next, ask, h.1, w, h.2, false⟩] }

/-! ### What a later word waits for (R334) -/

def StratTraffic.isQuery : StratTraffic → Bool
  | .query _ _ => true
  | _ => false

def StratTraffic.isTable : StratTraffic → Bool
  | .table _ _ => true
  | _ => false

def StratTraffic.isMerge : StratTraffic → Bool
  | .merge _ => true
  | _ => false

def StratTraffic.isStore : StratTraffic → Bool
  | .store _ => true
  | _ => false

/-- The slot a gather fills. -/
def StratTraffic.slot? : StratTraffic → Option Nat
  | .block n _ => some n
  | _ => none

/-- Waits while traffic of a kind is under way. -/
def StratRun.waitFor (u : StratRun) (p : StratTraffic → Bool) : Chk Unit :=
  waitUnless (u.traffic.all (fun f => !p f.what)) .other

/-- A slot that is present; ARGRANGE with the slot where it is absent (R337). -/
def StratRun.slotOf (u : StratRun) (n : Nat) : Chk KSlot := do
  u.waitFor (fun w => w.slot? = some n)
  match Sparse.find? n u.slots with
  | some k => .ok k
  | none => trapN .argrange n

/-! ### Memory microwords (R335) -/

/-- The snapshot register of operand c: c8 to c14. -/
def snapReg (c : BitVec 3) : Nat := 8 + c.toNat

/-- The snapshot capability of operand c. -/
def StratRun.cap (u : StratRun) (c : BitVec 3) : Cap := Sparse.get u.snap Cap.null (snapReg c)

/-- The check order of R335 for what a microword asks for. -/
def State.stratPieces (s : State) (u : StratRun) (q : StratAsk) (write : Bool) : Chk (List Piece) := do
  let c := Sparse.get u.snap Cap.null q.reg
  capCheck c q.va q.checks ((if write then permStore else permLoad) + permEngine)
  let a := q.va.toNat
  let y := s.partyOf u.core
  require (a % 16 = 0) .align a
  s.checkKind (waiterOf u.core 4) y Reach.engineRead a q.bytes a
  s.piecesOf u.core y c a q.bytes write write

/-- The translations of a microword, with the guest-physical addresses they depend on: what it holds already, or what its
check step finds (R335, R359). -/
def State.stratHold (s : State) (u : StratRun) (held : Option (List Piece × List Nat)) (q : StratAsk) (write : Bool) :
    Chk (List Piece × List Nat) :=
  match held with
  | some h => .ok h
  | none => match s.stratPieces u q write with
    | .ok ps => .ok (ps, s.guestsOf (s.partyOf u.core) q.va.toNat q.bytes)
    | .error e => .error e

/-- A read of the unit, which `land` makes into traffic: pages are translated once, in the check step, and held until
every byte is there (R335, R359); an uncorrectable unit raises MEMERR. -/
def State.fetchStrat (s : State) (u v : StratRun) (q : StratAsk) (land : List Byte → StratTraffic) : Chk State := do
  let h ← s.stratHold u u.held q false
  match s.readPieces u.core 4 h.1 with
  | .ok bs => .ok ((s.dropAnswers u.core 4).flyStrat v q h (land bs))
  | .error (.forward fs) => .ok ((s.putStrat { u with held := some h }).post fs)
  | .error e => .error e

/-- cursor + off · unit. -/
def stratAddr (c : Cap) (off unit : Nat) : Int := ((c.cursor.toNat + off * unit : Nat) : Int)

/-- QLOAD (R335). -/
def execQload (c : BitVec 3) (o : BitVec 12) (s : State) : Host.Outcome State Fault Refusal :=
  s.takeStrat (fun u => do
    let n := u.queryBytes + 4 * u.qr
    s.fetchStrat u u ⟨snapReg c, stratAddr (u.cap c) o.toNat 256, n, n⟩ u.queryOf)

/-- Entries that BTLD reads: the largest count up to 64 within bounds (R335). -/
def tableCount (c : Cap) (x : Int) : Nat := min 64 (((c.top : Int) - x).toNat / 4)

/-- BTLD: the capability check covers the first entry only (R335, R350). -/
def execBtld (c : BitVec 3) (o : BitVec 12) (s : State) : Host.Outcome State Fault Refusal :=
  s.takeStrat (fun u => do
    let cap := u.cap c
    let x := stratAddr cap o.toNat 4
    let n := tableCount cap x
    s.fetchStrat u u ⟨snapReg c, x, 4, 4 * n⟩ (tableOf n o.toNat))

/-- A CAPBOUNDS of BTGATHER names TC as its lane (R335). -/
def withLane {α : Type} (n : Nat) (r : Chk α) : Chk α :=
  match r with
  | .error (.trap .capbounds info _) => .error (.trap .capbounds info (some n))
  | x => x

/-- BTGATHER: the entry's block into a slot; .v goes to the next entry (R335, R350). -/
def State.btgather (s : State) (u : StratRun) (c : BitVec 3) (n : Nat) (value : Bool) : Chk State := do
  u.waitFor StratTraffic.isTable
  require (decide (u.tc < u.table.length)) .argrange u.tc
  let x := stratAddr (u.cap c) (bitsAt (u.table.getD u.tc 0).toNat 0 24) u.blockBytes
  let v := if value then { u with tc := u.tc + 1 } else u
  withLane u.tc (s.fetchStrat u v ⟨snapReg c, x, u.blockBytes, u.blockBytes⟩ (fun bs => .block n (u.gathered bs)))

/-- BTGATHER.k (R335). -/
def execBtgatherK (c : BitVec 3) (t : BitVec 3) (s : State) : Host.Outcome State Fault Refusal :=
  s.takeStrat (fun u => s.btgather u c t.toNat false)

/-- BTGATHER.v (R335). -/
def execBtgatherV (c : BitVec 3) (t : BitVec 3) (s : State) : Host.Outcome State Fault Refusal :=
  s.takeStrat (fun u => s.btgather u c t.toNat true)

/-- MERGE reads one record per row; they are combined when they have landed (R335, R357). -/
def execMerge (c : BitVec 3) (o : BitVec 12) (s : State) : Host.Outcome State Fault Refusal :=
  s.takeStrat (fun u => do
    let n := u.qr * u.rstr
    s.fetchStrat u u ⟨snapReg c, stratAddr (u.cap c) o.toNat 256, n, n⟩ u.mergeOf)

/-- A write of the unit: what lies in this module goes out beside later words; the microword retires once every other
module that it writes to has answered, through the translations of its check step (R336, R359, R422; log 90). -/
def State.storeStrat (s : State) (u v : StratRun) (q : StratAsk) (h : List Piece × List Nat) (bs : List Byte) : Chk State :=
  match s.awaitWrite u.core 4 u.next h.1 bs with
  | .ok _ => .ok ((s.dropAnswers u.core 4).flyStrat v q h (.store bs))
  | .error (.forward fs) => .ok ((s.putStrat { u with held := some h }).post fs)
  | .error e => .error e

/-- OSTORE: pending factors applied, EMPTY recomputed, and the records go out (R335, R336, R355). -/
def execOstore (c : BitVec 3) (o : BitVec 12) (s : State) : Host.Outcome State Fault Refusal :=
  s.takeStrat (fun u => do
    let n := u.qr * u.rstr
    let q : StratAsk := ⟨snapReg c, stratAddr (u.cap c) o.toNat 256, n, n⟩
    let h ← s.stratHold u u.held q true
    u.waitFor StratTraffic.isMerge
    s.storeStrat u u.closeRows q h u.closeRows.records)

/-! ### Arithmetic microwords (R337) -/

/-- SCORE: one step word on the array, under the unit's own claim at the core's position (R331, R337). -/
def execScore (t : BitVec 3) (s : State) : Host.Outcome State Fault Refusal :=
  s.takeStrat (fun u => do
    u.waitFor StratTraffic.isQuery
    let k ← u.slotOf t.toNat
    let c := s.myCluster
    let mine := c.granted = some (.core u.core) ∨ c.granted = some (.strat u.core)
    if mine ∧ c.steps < 256 then
      let free := if c.granted = some (.strat u.core) then none else c.granted
      .ok ((s.setMyCluster { c with steps := c.steps + 1, granted := free }).stepStrat u
        { u.score k with wants := false })
    else .ok (s.putStrat { u with wants := true }))

/-- MAXUPD (R337, R354). -/
def execMaxupd (s : State) : Host.Outcome State Fault Refusal :=
  s.takeStrat (fun u => do
    u.waitFor StratTraffic.isMerge
    .ok (s.stepStrat u u.maxupd))

/-- RESCALE (R337). -/
def execRescale (s : State) : Host.Outcome State Fault Refusal :=
  s.takeStrat (fun u => do
    u.waitFor StratTraffic.isMerge
    .ok (s.stepStrat u u.rescale))

/-- EXPQ (R337, R352, R354). -/
def execExpq (s : State) : Host.Outcome State Fault Refusal :=
  s.takeStrat (fun u => do
    u.waitFor StratTraffic.isMerge
    .ok (s.stepStrat u u.expq))

/-- PVACC (R337). -/
def execPvacc (t : BitVec 3) (s : State) : Host.Outcome State Fault Refusal :=
  s.takeStrat (fun u => do
    u.waitFor StratTraffic.isMerge
    let k ← u.slotOf t.toNat
    .ok (s.stepStrat u (u.pvacc k)))

/-! ### Control microwords (R338, R339) -/

/-- MASK (R338). -/
def execMask (m : BitVec 2) (s : State) : Host.Outcome State Fault Refusal :=
  s.takeStrat (fun u => .ok (s.stepStrat u { u with mm := m.toNat }))

/-- LCSET (R339). -/
def execLcset (l : BitVec 2) (n : BitVec 14) (s : State) : Host.Outcome State Fault Refusal :=
  s.takeStrat (fun u => .ok (s.stepStrat u { u with lc := listSet n.toNat l.toNat u.lc }))

/-- LOOP (R339). -/
def execLoop (t : BitVec 10) (l : BitVec 2) (s : State) : Host.Outcome State Fault Refusal :=
  s.takeStrat (fun u =>
    let n := u.lc.getD l.toNat 0
    .ok (if 0 < n then s.retireStrat { u with lc := listSet (n - 1) l.toNat u.lc } t.toNat else s.stepStrat u u))

/-- BRCNT (R339). -/
def execBrcnt (t : BitVec 10) (s : State) : Host.Outcome State Fault Refusal :=
  s.takeStrat (fun u => .ok (if u.bc = 0 then s.retireStrat u t.toNat else s.stepStrat u { u with bc := u.bc - 1 }))

/-- JMP (R339). -/
def execJmp (t : BitVec 10) (s : State) : Host.Outcome State Fault Refusal :=
  s.takeStrat (fun u => .ok (s.retireStrat u t.toNat))

/-- Every earlier word has retired and every OSTORE write is performed (R339). -/
def StratRun.quiet (u : StratRun) : Chk Unit := waitUnless u.traffic.isEmpty .other

/-- WAIT (R339). -/
def execWait (s : State) : Host.Outcome State Fault Refusal :=
  s.takeStrat (fun u => do
    u.quiet
    .ok ((s.perform u.core (· = 4)).stepStrat u u))

/-- The marks of a block's ATTNGO are cleared (R186). -/
def State.unmarkStrat (s : State) (u : StratRun) : State :=
  if u.marked then (stratRanges u.snap).foldl (fun t r => t.unmarkPending u.core r.1 r.2) s else s

/-- DONE: the block ends, its pending marks are cleared and the unit is free (R186, R339). -/
def execDone (s : State) : Host.Outcome State Fault Refusal :=
  s.takeStrat (fun u => do
    u.quiet
    let t := (s.perform u.core (· = 4)).stepStrat u u
    let t := t.setMyCluster (t.myCluster.dropStrat u.core)
    .ok (t.unmarkStrat u))

/-! ### Events of the unit -/

/-- The fetch or store with number idx of the acting core's cluster is done. -/
def State.landWord (s : State) (u : StratRun) (idx : Nat) (f : StratFlight) : State :=
  let t := s.landStrat u f
  t.setMyCluster { t.myCluster with strat := some { u.land f.what with traffic := listDrop idx u.traffic } }

/-- The bytes of a fetch issued again, in the form that its first issue gave them (R342). -/
def StratRun.refilled (u : StratRun) (w : StratTraffic) (bs : List Byte) : StratTraffic :=
  match w with
  | .query _ _ => u.queryOf bs
  | .table es base => tableOf es.length base bs
  | .block n k => .block n { k with rows := u.rowsOf u.bs bs }
  | .merge _ => u.mergeOf bs
  | .store bs => .store bs

/-- First address and length of the bytes that pieces cover. -/
def spanOf (ps : List Piece) : Nat × Nat := ((ps.head?.map Piece.va).getD 0, (ps.map Piece.len).sum)

/-- The fetch with number idx is issued again after a resume, with every check of R335 on the snapshot as it stands: its
pages are translated once and held until every byte is there (R335, R342, R343, R359). -/
def State.refetch (s : State) (u : StratRun) (idx : Nat) (f : StratFlight) : Chk State := do
  let h ← s.stratHold u (if f.pieces = [] then none else some (f.pieces, f.guests)) f.ask false
  let put := fun (t : State) (g : StratFlight) => t.putStrat { u with traffic := listSet g idx u.traffic }
  match s.readPieces u.core 4 h.1 with
  | .ok bs => .ok (put (s.dropAnswers u.core 4) ⟨f.word, f.ask, h.1, u.refilled f.what bs, h.2, false⟩)
  | .error (.forward fs) => .ok ((put s { f with pieces := h.1, guests := h.2 }).post fs)
  | .error e => .error e

/-- The fetch with number idx of a resumed block, under the word's own offset; one that traps holds nothing. -/
def State.reissue (s : State) (u : StratRun) (idx : Nat) (f : StratFlight) : Host.Outcome State Fault Refusal :=
  let r := s.refetch u idx f
  let t := match r with
    | .error (.trap _ _ _) => s.putStrat { u with traffic := listSet f.asNew idx u.traffic }
    | _ => s
  t.runWord u.core 4 f.word r

/-- Lands one piece of traffic of a kind, after the earlier ones that fill the same state (R334). -/
def State.landIf (s : State) (store : Bool) (idx : Nat) : State :=
  match s.myCluster.strat with
  | none => s
  | some u =>
    match u.traffic[idx]? with
    | none => s
    | some f =>
      if f.what.isStore ≠ store ∨ (u.traffic.take idx).any (fun g => sameTarget g.what f.what) then s
      else s.landWord u idx f

/-- STRATUS_FETCH_COMPLETE (R334): a fetch lands; one that a suspension had given up is issued again first (R342). -/
def execStratusFetchComplete (idx : Nat) (s : State) : Host.Outcome State Fault Refusal :=
  match s.myCluster.strat with
  | none => .next s
  | some u => match u.traffic[idx]? with
    | none => .next s
    | some f =>
      if f.again then (if (s.core u.core).engineStopped 4 then .next s else s.reissue u idx f)
      else .next (s.landIf false idx)

/-- OSTORE_WRITES_PERFORMED (R336, R339). -/
def execOstoreWritesPerformed (idx : Nat) (s : State) : Host.Outcome State Fault Refusal := .next (s.landIf true idx)

/-- The words of an image's Stratus section (R330). -/
def State.stratWords (s : State) (p image : Nat) : List Nat :=
  (upFrom 0 (s.sectionCount p image .stratus)).map (s.fetch p image .stratus)

/-- The control store as loaded from an image; nothing when a word of the section is poisoned (R198, R330). -/
def State.stratStore (s : State) (p image : Nat) : Option ControlStore :=
  if (upFrom 0 (s.sectionCount p image .stratus)).any (s.fetchBad p image .stratus) then none
  else some ⟨p, image, s.stratWords p image⟩

/-- The control store loads a block's image unless it holds it (R330). -/
def State.loadStore (s : State) (p image : Nat) : State :=
  match s.myCluster.store with
  | some x => if x.part = p ∧ x.image = image then s
    else s.setMyCluster { s.myCluster with store := s.stratStore p image }
  | none => s.setMyCluster { s.myCluster with store := s.stratStore p image }

/-- The next core of a cluster in round-robin order that offers a block (R331). -/
def State.nextOffer (s : State) (k : Nat) : Option Nat :=
  let last := (s.cluster k).stratLast
  ((upFrom 1 8).map (fun i => 8 * k + (last + i) % 8)).find? (fun n => (s.core n).eng.stratQ != [])

/-- A resumed block goes on where it stood, once its start registers have been checked (R342). -/
def State.acceptResumed (s : State) (u : StratRun) (rest : List StratRun) : State :=
  let t := s.setMyCluster { s.myCluster with strat := some u, resumed := rest }
  t.loadStore (s.partyOf u.core).part u.image

/-- The unit takes a new block: its state is set afresh, the ATTNGO has executed, and its marks are set when PENDTRAP is
on (R99, R186, R331, R333). -/
def State.acceptOffer (s : State) (core : Nat) (b : StratBlock) : State :=
  let c := s.core core
  let u := { freshStrat core b.start b.snap b.image b.cfg b.scl with marked := c.sys.pendtrap }
  let t := s.setCore core { c with eng := { c.eng with stratQ := [] }, pc := c.pc + 1 }
  let t := t.noWait core
  let t := t.setMyCluster { t.myCluster with strat := some u, stratLast := core % 8 }
  let t := t.loadStore (s.partyOf core).part b.image
  if c.sys.pendtrap then (stratRanges b.snap).foldl (fun t r => t.markPending core r.1 r.2) t else t

/-- The check of the sampled registers at the first word (R332): its failure is held for the sequencer. -/
def State.checkAccepted (s : State) (core : Nat) : State :=
  match s.myCluster.strat with
  | none => s
  | some u => match u.checkStart with
    | .error (.trap t info lane) => s.holdTrap core 4 t info lane u.next
    | .error _ => s
    | .ok _ => s.setMyCluster { s.myCluster with strat := some { u with checked := true } }

/-- STRATUS_BLOCK_ACCEPT: a free unit takes a resumed block before any new one, else the next offer in round-robin
order (R331, R342). -/
def execStratusBlockAccept (s : State) : Host.Outcome State Fault Refusal :=
  let k := s.home
  .next (if isNimbus k = false ∨ s.myCluster.strat.isSome then s
    else match s.myCluster.resumed with
      | u :: rest => s.acceptResumed u rest
      | [] => match s.nextOffer k with
        | none => s
        | some core => match (s.core core).eng.stratQ with
          | [] => s
          | b :: _ => (s.acceptOffer core b).checkAccepted core)

end Sys2Proof.Machine
end

