-- ==== Sys2Proof/Machine/Transfer.lean ====
section
/-! DEFINITION. The transfer unit (R291 to R299): the nest, the probe at XRUN, holds, copies, channels. -/

namespace Sys2Proof.Machine

/-! ### The nest (R291, R292) -/

/-- The nest at a block's first word: top level 0, counts 1, strides 0, no source and no destination. -/
def Nest.fresh : Nest :=
  { top := 0, counts := [1, 1, 1, 1, 1, 1], sstr := [0, 0, 0, 0, 0, 0], dstr := [0, 0, 0, 0, 0, 0], src := Cap.null,
    srcOff := 0, dst := Cap.null, dstOff := 0, srcReg := 16, dstReg := 16, lastBytes := 256 }

/-- A stride field: 25 bits, two's complement. -/
def strideOf (x : BitVec 25) : Int := x.toInt

/-- A set-up word's effect on the nest (R291); XEMIT leaves its byte count for a later XPROBE (R299). -/
def Nest.after (n : Nest) (snap : Sparse Cap) (i : Instr) : Nest :=
  match i with
  | .xloop l => { n with top := l.toNat, counts := [1, 1, 1, 1, 1, 1], sstr := [0, 0, 0, 0, 0, 0],
                         dstr := [0, 0, 0, 0, 0, 0] }
  | .xbound l k => { n with counts := listSet (k.toNat + 1) l.toNat n.counts }
  | .xsstr l k => { n with sstr := listSet (strideOf k) l.toNat n.sstr }
  | .xdstr l k => { n with dstr := listSet (strideOf k) l.toNat n.dstr }
  | .xsrc c o => { n with src := Sparse.get snap Cap.null c.toNat, srcOff := o.toNat, srcReg := c.toNat }
  | .xdst c o => { n with dst := Sparse.get snap Cap.null c.toNat, dstOff := o.toNat, dstReg := c.toNat }
  | .xemit _ k => { n with lastBytes := k.toNat + 1 }
  | _ => n

/-- The level a set-up word names above the nest's top, if it does (R291). -/
def Nest.badLevel (n : Nest) (i : Instr) : Option Nat :=
  match i with
  | .xbound l _ => if n.top < l.toNat then some l.toNat else none
  | .xsstr l _ => if n.top < l.toNat then some l.toNat else none
  | .xdstr l _ => if n.top < l.toNat then some l.toNat else none
  | _ => none

/-- The counts of the levels in use, innermost first. -/
def Nest.levels (n : Nest) : List Nat := n.counts.take (n.top + 1)

/-- Copies of one XEMIT (R292). -/
def Nest.copies (n : Nest) : Nat := n.levels.foldl (· * ·) 1

/-- The index of copy j at each level, level 0 innermost. -/
def copyIndex : List Nat → Nat → List Nat
  | [], _ => []
  | c :: cs, j => j % c :: copyIndex cs (j / c)

/-- Σ il·stride(l). -/
def strideSum (strides : List Int) (idx : List Nat) : Int :=
  (List.zipWith (fun (s : Int) (i : Nat) => s * i) strides idx).sum

/-- The source and destination addresses of copy j, exact (R292). -/
def Nest.source (n : Nest) (j : Nat) : Int :=
  (n.src.cursor.toNat : Int) + n.srcOff + strideSum n.sstr (copyIndex n.levels j)
def Nest.target (n : Nest) (j : Nat) : Int :=
  (n.dst.cursor.toNat : Int) + n.dstOff + strideSum n.dstr (copyIndex n.levels j)

/-! ### The probe (R293, R299) -/

/-- An XEMIT or XPROBE as the probe meets it: word offset, channel, bytes, the nest as it then stands, and whether it
emits copies. -/
structure Probe where
  word : Nat
  ch : Nat
  bytes : Nat
  nest : Nest
  emits : Bool
  deriving DecidableEq, Repr

/-- The first pass: decode, level checks, the running count of copies; the first word that fails decides. -/
def firstPass (snap : Sparse Cap) : List Nat → Nat → Nest → Nat → Chk (List Probe)
  | [], _, _, _ => .ok []
  | w :: ws, off, n, total =>
    match decodeFor .transfer w with
    | none => .error (.engineTrap .illegal 0 3 off)
    | some i =>
      match n.badLevel i with
      | some l => .error (.engineTrap .argrange (w64 l) 3 off)
      | none =>
        let n' := n.after snap i
        match i with
        | .xemit c k =>
          let total := total + n.copies
          if 2 ^ 32 < total then .error (.engineTrap .argrange (w64 (min total (2 ^ 64 - 1))) 3 off)
          else match firstPass snap ws (off + 1) n' total with
            | .error e => .error e
            | .ok ps => .ok (⟨off, c.toNat, k.toNat + 1, n, true⟩ :: ps)
        | .xprobe c =>
          match firstPass snap ws (off + 1) n' total with
          | .error e => .error e
          | .ok ps => .ok (⟨off, c.toNat, n.lastBytes, n, false⟩ :: ps)
        | _ => firstPass snap ws (off + 1) n' total

/-- A stop of the probe names the transfer unit and the word (R293). -/
def atWord {α : Type} (word : Nat) (r : Chk α) : Chk α :=
  match r with
  | .error (.trap t info _) => .error (.engineTrap t info 3 word)
  | .error (.xlate f) => .error (.engineXlate f 3 word)
  | r => r

/-- The 64 KiB pages of [x, x + n) outside L1: number and first address touched. -/
def pagesTouched (x n : Nat) : List (Nat × Nat) :=
  if n = 0 then []
  else ((upFrom (x / 2 ^ 16) ((x + n - 1) / 2 ^ 16 + 1 - x / 2 ^ 16)).map (fun p => (p, max x (p * 2 ^ 16)))).filter
    (fun q => match windowOf q.2 with | .translated => true | .bank _ _ _ => true | _ => false)

/-- The place of the first byte of the page that an address at `a` with place `pl` lies in. -/
def pageStart (a : Nat) (pl : Place) : Place :=
  match pl with
  | .here l k => .here (l - a % 2 ^ 16) k
  | .away m b g => .away m (b - a % 2 ^ 16) g

/-- Does a probe wait for the page of an address: a MIGRATE is moving it, and the block does not hold it yet (R294)? -/
def State.pageMoving (s : State) (core block va : Nat) : Bool :=
  match windowOf va with
  | .translated =>
    !(s.core core).eng.holds.any (fun h => h.block = block && h.vpage = va / 2 ^ 16) &&
      match s.guestOf (s.partyOf core) va false with
      | .ok g => s.migrating (s.partyOf core) g
      | .error _ => false
  | _ => false

/-- The holds of one side of a copy: every page translated in ascending order (R293, R294). -/
def State.holdPages (s : State) (core block : Nat) (emit : Option Nat) (x n : Nat) (write : Bool) : Chk (List Hold) :=
  mapChk (fun q => match s.placeOf core (s.partyOf core) q.2 write write with
    | .error e => .error e
    | .ok pl =>
      let gs := match windowOf q.2 with | .translated => s.guestReads (s.partyOf core) q.2 | _ => []
      if s.pageMoving core block q.2 then waitFor .other
      else .ok ⟨block, q.1, write, pageStart q.2 pl, emit, gs, false⟩) (pagesTouched x n)

/-- The memory-kind check of a copy: source, then destination (R293). `who` waits at a bank that switches: the sequencer
at the probe of an XRUN, the transfer unit at a copy (R192). -/
def State.copyKinds (s : State) (core who : Nat) (x y n : Nat) : Chk Unit := do
  let p := s.partyOf core
  s.checkKind who p Reach.engineRead x n x
  s.checkKind who p Reach.engineWrite y n y
  s.checkEntries y n

/-- The capability checks of a copy (R293). -/
def copyCaps (n : Nest) (bytes j : Nat) : Chk Unit := do
  capCheck n.src (n.source j) bytes (permLoad + permEngine)
  capCheck n.dst (n.target j) bytes (permStore + permEngine)

/-- One copy of the second pass: the holds it adds (R293). -/
def State.probeCopy (s : State) (core who block : Nat) (p : Probe) (j : Nat) : Chk (List Hold) := do
  require ((s.part (s.partyOf core).part).channelOpen p.ch) .chanstate 1
  copyCaps p.nest p.bytes j
  let x := (p.nest.source j).toNat
  let y := (p.nest.target j).toNat
  s.copyKinds core who x y p.bytes
  let emit := if p.emits then some p.word else none
  let a ← s.holdPages core block emit x p.bytes false
  let b ← s.holdPages core block emit y p.bytes true
  .ok (a ++ b)

/-- Adds holds that are not there yet. -/
def addHolds (hs new : List Hold) : List Hold := new.foldl (fun l h => if l.contains h then l else l ++ [h]) hs

/-- The copies j, j + 1, ... of one word, n of them. -/
def State.probeFrom (s : State) (core who block : Nat) (p : Probe) (hs : List Hold) : Nat → Nat → Chk (List Hold)
  | _, 0 => .ok hs
  | j, n + 1 =>
    match s.probeCopy core who block p j with
    | .error e => .error e
    | .ok new => State.probeFrom s core who block p (addHolds hs new) (j + 1) n

/-- The second pass over every word, in block order. -/
def State.secondPass (s : State) (core block : Nat) : List Probe → List Hold → Chk (List Hold)
  | [], hs => .ok hs
  | p :: ps, hs =>
    match atWord p.word (s.probeFrom core core block p hs 0 p.nest.copies) with
    | .error e => .error e
    | .ok hs' => State.secondPass s core block ps hs'

/-- Is a word the end of a transfer block (R59)? -/
def isXend (w : Nat) : Bool := w = 0x90000000

/-- The words of a block at an offset of the acting core's image. -/
def State.xferWords (s : State) (off : Nat) : List Nat :=
  s.blockWords s.party.part s.imageNow .transfer isXend off (s.sectionCount s.party.part s.imageNow .transfer + 1)

/-- Marks the L1 words that the copies j, j + 1, ... of a word will write (R186). -/
def State.markCopies (s : State) (core : Nat) (p : Probe) : Nat → Nat → State
  | _, 0 => s
  | j, n + 1 =>
    let y := (p.nest.target j).toNat
    (s.markPending core y (y + p.bytes)).markCopies core p (j + 1) n

/-- XRUN: the probe, room for the block, the snapshot; with PENDTRAP the marks (R99, R186, R293). -/
def State.issueXfer (s : State) (sel : BitVec 4) (o : BitVec 20) : Chk State := do
  let core := s.actor.core
  if !selOn sel s.me.sys.stagewin then .ok s.advance
  else
    let ps ← firstPass s.me.c (s.xferWords o.toNat) o.toNat Nest.fresh 0
    let ident := s.me.eng.nextIdent
    let hs ← s.secondPass core ident ps []
    waitUnless (s.me.eng.xferQ.length < 4) .other
    let b : XferBlock := ⟨o.toNat, o.toNat, ident, s.me.c, s.imageNow, Nest.fresh, s.me.sys.pendtrap⟩
    let t := s.setEng (fun e => { e with xferQ := e.xferQ ++ [b], holds := e.holds ++ hs, nextIdent := ident + 1 })
    let t := if s.me.sys.pendtrap then
        (ps.filter Probe.emits).foldl (fun t p => t.markCopies core p 0 p.nest.copies) t
      else t
    .ok t.advance

/-- XRUN (R293). -/
def execXrun (sel : BitVec 4) (o : BitVec 20) (s : State) : Host.Outcome State Fault Refusal :=
  s.runSeq (s.issueXfer sel o)

/-! ### Taking the words of a block -/

/-- Lets go the holds of a block that has retired: it has left the queue and has no copies left (R294, R299). -/
def CoreEng.letGo (e : CoreEng) (ident : Nat) : CoreEng :=
  if e.xferQ.any (fun b => b.ident = ident) || e.emits.any (fun m => m.block = ident) then e
  else { e with holds := e.holds.filter (fun h => h.block != ident) }

/-- The head transfer block takes its present word. -/
def State.takeXfer (s : State) (f : XferBlock → CoreEng → CoreEng) : Host.Outcome State Fault Refusal :=
  .next (match s.me.eng.xferQ with
    | [] => s
    | b :: _ => s.setEng (f b))

/-- A set-up word or an XPROBE: the nest changes, the block goes on (R291). -/
def State.stepXfer (s : State) (i : Instr) : Host.Outcome State Fault Refusal :=
  s.takeXfer (fun b e =>
    { e with xferQ := { b with next := b.next + 1, nest := b.nest.after b.snap i } :: e.xferQ.tail })

/-- A set-up word that names a level above the top raises ARGRANGE (R291); the probe lets none reach the unit. -/
def State.stepLevel (s : State) (i : Instr) : Host.Outcome State Fault Refusal :=
  match s.me.eng.xferQ with
  | [] => .next s
  | b :: _ =>
    match b.nest.badLevel i with
    | some l => s.runWord s.actor.core 3 b.next (trapN .argrange l)
    | none => s.stepXfer i

/-- XLOOP (R291). -/
def execXloop (l : BitVec 3) (s : State) : Host.Outcome State Fault Refusal := s.stepXfer (.xloop l)

/-- XBOUND (R291). -/
def execXbound (l : BitVec 3) (n : BitVec 25) (s : State) : Host.Outcome State Fault Refusal :=
  s.stepLevel (.xbound l n)

/-- XSSTR (R291). -/
def execXsstr (l : BitVec 3) (stride : BitVec 25) (s : State) : Host.Outcome State Fault Refusal :=
  s.stepLevel (.xsstr l stride)

/-- XDSTR (R291). -/
def execXdstr (l : BitVec 3) (stride : BitVec 25) (s : State) : Host.Outcome State Fault Refusal :=
  s.stepLevel (.xdstr l stride)

/-- XSRC (R291). -/
def execXsrc (c : BitVec 4) (o : BitVec 21) (s : State) : Host.Outcome State Fault Refusal := s.stepXfer (.xsrc c o)

/-- XDST (R291). -/
def execXdst (c : BitVec 4) (o : BitVec 21) (s : State) : Host.Outcome State Fault Refusal := s.stepXfer (.xdst c o)

/-- XPROBE moves nothing; its holds were taken at the XRUN (R299). -/
def execXprobe (c : BitVec 4) (s : State) : Host.Outcome State Fault Refusal := s.stepXfer (.xprobe c)

/-- XEMIT puts its copies on their channel (R292). -/
def execXemit (c : BitVec 4) (n : BitVec 16) (s : State) : Host.Outcome State Fault Refusal :=
  s.takeXfer (fun b e =>
    let m : Emit := ⟨b.ident, b.next, c.toNat, n.toNat + 1, b.nest, 0, false, false, b.marked⟩
    { e with xferQ := { b with next := b.next + 1, nest := b.nest.after b.snap (.xemit c n) } :: e.xferQ.tail
             emits := e.emits ++ [m] })

/-- XEND ends its block (R59, R291). -/
def execXend (s : State) : Host.Outcome State Fault Refusal :=
  s.takeXfer (fun b e => { e with xferQ := e.xferQ.tail }.letGo b.ident)

/-! ### Copies (R294 to R298) -/

/-- The place a block holds for a byte of a page (R294). -/
def CoreEng.heldPlace (e : CoreEng) (block a : Nat) (write : Bool) : Option Place :=
  match e.holds.find? (fun h => h.block = block && h.vpage = a / 2 ^ 16 && h.write = write) with
  | none => none
  | some h => match h.place with
    | .here l k => some (.here (l + a % 2 ^ 16) k)
    | .away m b g => some (.away m (b + a % 2 ^ 16) g)

/-- The pieces of one side of a copy, under the translations its probe found. -/
def State.copyPieces (s : State) (core block : Nat) (c : Cap) (x n : Nat) (write : Bool) : Chk (List Piece) :=
  let y := s.partyOf core
  mapChk (fun q => match (s.core core).eng.heldPlace block q.1 write with
    | some pl => .ok ⟨q.1, q.2, pl, y, some c⟩
    | none => match s.placeOf core y q.1 write write with
      | .error e => .error e
      | .ok pl => .ok ⟨q.1, q.2, pl, y, some c⟩) (cuts x n)

/-- A destination whose 64 KiB page has become read-only weight memory since the probe, or whose bytes have become part of
an admitted image: XLATE2, cause WRITE (R57, R271, R298; log 25). -/
def State.checkWeights (s : State) (core : Nat) (ps : List Piece) : Chk Unit :=
  let y := s.partyOf core
  match ps.find? (fun p => match p.place with
    | .here l _ => s.inWeights y.part (floorTo l (2 ^ 16)) (2 ^ 16) || s.inImage y.part l p.len
    | .away _ _ _ => false) with
  | none => .ok ()
  | some p =>
    match s.guestOf y p.va true with
    | .ok g => .error (.xlate ⟨true, 2, 0xFF, p.va, g, true, none⟩)
    | .error f => .error f.stop

/-- Does a copy that an emit has left touch the page of a hold of its own? -/
def Emit.needs (m : Emit) (h : Hold) : Bool :=
  (upFrom m.next (m.nest.copies - m.next)).any (fun j =>
    let x := (if h.write then m.nest.target j else m.nest.source j).toNat
    x / 2 ^ 16 ≤ h.vpage && h.vpage ≤ (x + m.bytes - 1) / 2 ^ 16)

/-- The holds after a copy of an emit: those of its word whose page no later copy of it touches are let go (R294). -/
def CoreEng.passHolds (e : CoreEng) (m : Emit) : List Hold :=
  e.holds.filter (fun h => !(h.block = m.block && h.emitWord = some m.word) || m.needs h)

/-- The emit after its next copy: gone when that was the last. -/
def CoreEng.advanceEmit (e : CoreEng) (i : Nat) (m : Emit) : CoreEng :=
  let m' := { m with next := m.next + 1 }
  let e := { e with holds := e.passHolds m' }
  if m'.next < m'.nest.copies then { e with emits := listSet m' i e.emits }
  else { e with emits := listDrop i e.emits }.letGo m.block

/-- Copies to a bank that has changed its mode since their probe raise MEMMODE (R193). -/
def State.checkStale (s : State) (core : Nat) (m : Emit) (x : Nat) (write : Bool) : Chk Unit :=
  require (!(s.core core).eng.holds.any (fun h => h.stale && h.block = m.block && h.emitWord = some m.word && h.write = write
    && x / 2 ^ 16 ≤ h.vpage && h.vpage ≤ (x + m.bytes - 1) / 2 ^ 16)) .memmode x

/-- A copy of emit i: capabilities, memory kinds, the whole source, then the destination (R295, R298). -/
def State.copyOnce (s : State) (core i : Nat) (m : Emit) : Chk State := do
  copyCaps m.nest m.bytes m.next
  let x := (m.nest.source m.next).toNat
  let y := (m.nest.target m.next).toNat
  s.checkStale core m x false
  s.checkStale core m y true
  s.copyKinds core (waiterOf core 3) x y m.bytes
  let ps ← s.copyPieces core m.block m.nest.src x m.bytes false
  let qs ← s.copyPieces core m.block m.nest.dst y m.bytes true
  s.checkWeights core qs
  let bs ← s.readPieces core 3 ps (copyUnit m.ch)
  s.awaitRoom core 3 y bs.length
  s.awaitEngine core 3 m.word y qs bs
  let t := (s.dropAnswers core 3).engineStore core 3 m.word y qs bs (copyUnit m.ch)
  let c := t.core core
  .ok (t.setCore core { c with eng := c.eng.advanceEmit i m })

/-- The copies of an emit that are left, probed afresh after ERET (R298). -/
def State.reprobe (s : State) (core i : Nat) (m : Emit) : Chk State := do
  let p : Probe := ⟨m.word, m.ch, m.bytes, m.nest, true⟩
  let hs ← s.probeFrom core (waiterOf core 3) m.block p [] m.next (m.nest.copies - m.next)
  let c := s.core core
  let kept := c.eng.holds.filter (fun h => !(h.block = m.block && h.emitWord = some m.word))
  let es := listSet { m with reprobe := false } i c.eng.emits
  .ok (s.setCore core { c with eng := { c.eng with holds := kept ++ hs, emits := es } })

/-- An emit that met a stop: after a trap it waits for ERET; its copies are probed afresh before they go on. -/
def State.failEmit (s : State) (core i : Nat) (m : Emit) (trapped : Bool) : State :=
  let c := s.core core
  let es := listSet { m with failed := trapped, reprobe := true } i c.eng.emits
  s.setCore core { c with eng := { c.eng with emits := es } }

/-- The next copy of the unit, afresh where its emit is to be probed again. -/
def State.tryCopy (s : State) (core : Nat) (m : Emit) : Chk State :=
  if m.reprobe then s.reprobe core 0 m else s.copyOnce core 0 m

/-- Is this the emit of a word? -/
def Emit.isOf (m : Emit) (block word : Nat) : Bool := m.block = block && m.word = word

/-- Copies of the emits up to a word's, in an order that only R296 fixes, until every emit before it is done: which channel
comes next is free. `later` emits stand after the word's; none when a copy would stop. -/
def State.raceFrom (s : State) (core block word later : Nat) : Nat → Nat → Option State
  | 0, _ => none
  | fuel + 1, ch =>
    let es := (s.core core).eng.emits
    let es := es.take (es.length - later)
    match es with
    | [] => some s
    | h :: _ =>
      if h.isOf block word then some s
      else
        let i := (es.findIdx? (fun m => m.ch = ch)).getD 0
        match s.copyOnce core i (es.getD i h) with
        | .error _ => none
        | .ok t => State.raceFrom t core block word later fuel (Config.nextCopy s.draws fuel)

/-- A copy of a channel goes ahead of copies of earlier words on other channels (R296). The copies that it overtakes follow
in the same step, so that no copy that fails has a later one performed before it (R298; log 91). -/
def State.overtake (s : State) (core : Nat) (es : List Emit) (ch : Nat) : State :=
  match es.find? (fun m => m.ch = ch) with
  | none => s
  | some m =>
    let upTo := es.takeWhile (fun x => !x.isOf m.block m.word) ++ [m]
    if upTo.any (fun x => x.failed || x.reprobe) then s
    else (s.raceFrom core m.block m.word (es.length - upTo.length)
      ((upTo.map (fun x => x.nest.copies - x.next)).sum + 1) ch).getD s

/-- TRANSFER_COPY: the next copy of the acting core, when it is one on this channel, or the channel's next copy ahead of
earlier ones of other channels. Every copy before a failing one has been performed and none after it; a failed one waits
for ERET (R295, R296, R298; log 91). -/
def execTransferCopy (ch : BitVec 4) (s : State) : Host.Outcome State Fault Refusal :=
  let core := s.actor.core
  match s.me.eng.emits with
  | [] => .next s
  | m :: ms =>
    if m.failed then .next s
    else if m.ch ≠ ch.toNat then .next (s.overtake core (m :: ms) ch.toNat)
    else
      match s.tryCopy core m with
      | .error (.trap t info lane) => (s.failEmit core 0 m true).runWord core 3 m.word (.error (.trap t info lane))
      | .error (.xlate f) => (s.failEmit core 0 m false).runWord core 3 m.word (.error (.xlate f))
      | r => s.runWord core 3 m.word r

end Sys2Proof.Machine
end

