-- ==== Sys2Proof/Machine/Binding.lean ====
section
/-! DEFINITION. The start of a region's block in the vector engine: inputs, binding, what runs (R392, R394). -/

namespace Sys2Proof.Machine

/-- The sizes of the layers for a shape word, when every condition of R392 on it holds. -/
def boundLayers (shape nIn nOut : Nat) : Option (List Nat) :=
  let ls := layerSizes shape nIn nOut
  if shapeOk shape ∧ paramsOf ls ≤ 1023 then some ls else none

/-- The binding an execution makes, none when it is not valid (R392). -/
def FitEntry.bindTo (f : FitEntry) (x : RegionRun) (fmt : Nat) : Option Binding :=
  match boundLayers (Sparse.get f.words 0 0).toNat x.nIn x.nOut with
  | some ls =>
    if fmt = 8 ∨ fmt = 9 ∨ fmt = 10 then
      some { firstIn := x.firstIn, nIn := x.nIn, firstOut := x.firstOut, nOut := x.nOut, offset := x.offset, format := fmt,
             params := paramsOf ls, layers := ls }
    else none
  | none => none

/-- The cause of a mismatch with a binding: 6 for the offset, 2 for the rest, 0 for none (R392). -/
def Binding.mismatch (b : Binding) (x : RegionRun) (fmt : Nat) : Nat :=
  if b.offset ≠ x.offset then 6
  else if b.firstIn = x.firstIn ∧ b.nIn = x.nIn ∧ b.firstOut = x.firstOut ∧ b.nOut = x.nOut ∧ b.format = fmt then 0
  else 2

/-- The entry after the check at a block's start, and whether the check passed (R392). -/
def FitEntry.checkStart (f : FitEntry) (x : RegionRun) (fmt : Nat) : FitEntry × Bool :=
  match f.state with
  | .off | .fallback | .invalid => (f, true)
  | _ =>
    match f.binding with
    | none =>
      match f.bindTo x fmt with
      | some b => ({ f with binding := some b, words := f.words.filter (fun w => w.1 ≤ b.params) }, true)
      | none => (f.enterInvalid 2, false)
    | some b => if b.mismatch x fmt = 0 then (f, true) else (f.enterInvalid (b.mismatch x fmt), false)

/-- Are all its inputs full (R394)? -/
def Core.inputsFull (c : Core) (x : RegionRun) : Bool := (regRange x.firstIn x.nIn).all (fun n => !c.isEmpty n)

/-- The execution once its block starts: inputs read, and skipped when the surrogate alone answers (R394). -/
def RegionRun.started (x : RegionRun) (ins : List Vec) (fmt : Nat) (passed : Bool) : RegionRun :=
  let skip := x.sampled = .serve && !x.checks && passed
  { x with inputs := some (ins, fmt), ended := skip, skipped := skip }

/-- The entry of an execution's region after the check at its start. -/
def State.checkRegion (s : State) (r : Running) (x : RegionRun) (fmt : Nat) : State × Bool :=
  match s.fitOf r x.id with
  | none => (s, true)
  | some (n, f) =>
    let g := f.checkStart x fmt
    (s.putFit r.part n g.1, g.2)

/-- Starts the region block at the head of the acting core's vector queue: it reads the inputs and hands them to Mirage
(R392, R394). -/
def State.startRegion (s : State) (b : Block) (rest : List Block) (x : RegionRun) : State :=
  match s.me.run with
  | none => s
  | some r =>
    let c := s.me
    let fmt := c.sys.vshape
    let ins := (regRange x.firstIn x.nIn).map c.getV
    let t := s.checkRegion r x fmt
    let y := x.started ins fmt t.2
    t.1.setMe { c with eng := { c.eng with vecQ := { b with region := some y } :: rest } }

end Sys2Proof.Machine
end

