-- ==== Sys2Proof/Machine/Vector.lean ====
section
/-! DEFINITION. The vector engine: how a word is taken (R65, R66, R72, R73, R84, R200 to R206, R212), and each word
(R208 to R226). -/

namespace Sys2Proof.Machine

/-- What a vector word produces: a register value, an index entry, an entry for cq. -/
structure VOut where
  value : Vec
  index : List Int
  post : Option Word64
  deriving DecidableEq, Repr

/-- A register value alone. -/
def VOut.vec (v : Vec) : VOut := ⟨v, [], none⟩

/-- Where a vector word's result goes: a port vd, an index queue, the count queue. -/
inductive VTarget where
  | port (d : Nat)
  | index (m : Nat)
  | count
  deriving DecidableEq, Repr

/-- A vector word as its entry gives it: the field value of a group outside v0 to v55 (R205), the formats it accepts
(R206), its sources in reading order with their block-or-trap bits, its target, whether it pushes to cq, and its result
by format and source values. -/
structure VOp where
  group : Option Nat
  accepts : Nat → Bool
  srcs : List (Nat × Bool)
  target : VTarget
  posts : Bool
  run : Nat → List Vec → VOut

/-- Formats of R206, by code. -/
def fmtInt (c : Nat) : Bool := c ≤ 7
def fmtFloat (c : Nat) : Bool := 8 ≤ c && c ≤ 13
def fmtArith (c : Nat) : Bool := c ≤ 13
def fmtQuant (c : Nat) : Bool := 8 ≤ c && c ≤ 11
def fmtSigned (c : Nat) : Bool := c ≤ 3
def fmtPart (c : Nat) : Bool := 16 ≤ (fmtOf c).bits
def fmtAny (_ : Nat) : Bool := true

/-- A block-or-trap bit. -/
def isTrap (t : BitVec 1) : Bool := t = 1

/-- The value of source i. -/
def srcAt (vs : List Vec) (i : Nat) : Vec := vs.getD i 0

/-- A word on one source that writes vd. -/
def vop1 (accepts : Nat → Bool) (d a : BitVec 6) (x : BitVec 1) (f : Nat → Vec → Vec) : VOp :=
  { group := none, accepts := accepts, srcs := [(a.toNat, isTrap x)], target := .port d.toNat, posts := false,
    run := fun c vs => .vec (f c (srcAt vs 0)) }

/-- A word on two sources that writes vd. -/
def vop2 (accepts : Nat → Bool) (d a b : BitVec 6) (x y : BitVec 1) (f : Nat → Vec → Vec → Vec) : VOp :=
  { group := none, accepts := accepts, srcs := [(a.toNat, isTrap x), (b.toNat, isTrap y)], target := .port d.toNat,
    posts := false, run := fun c vs => .vec (f c (srcAt vs 0) (srcAt vs 1)) }

/-- A word that reads vd too, which always waits (R65). -/
def vop3 (accepts : Nat → Bool) (d a b : BitVec 6) (x y : BitVec 1) (f : Nat → Vec → Vec → Vec → Vec) : VOp :=
  { group := none, accepts := accepts, srcs := [(a.toNat, isTrap x), (b.toNat, isTrap y), (d.toNat, false)],
    target := .port d.toNat, posts := false, run := fun c vs => .vec (f c (srcAt vs 2) (srcAt vs 0) (srcAt vs 1)) }

/-! ### Taking a word -/

/-- Is a source there to read (R66, R84)? -/
def Core.srcReady (c : Core) (n : Nat) : Bool := if 56 ≤ n then !(c.loadQ (n - 56)).isEmpty else !c.isEmpty n

/-- The test of a source: REGEMPTY or a wait (R84). -/
def Core.testSrc (c : Core) (r : Nat × Bool) : Chk Unit :=
  if c.srcReady r.1 then .ok ()
  else if r.2 then trapN .regempty r.1
  else waitFor .other

/-- The value of a source that is there. -/
def Core.srcVal (c : Core) (n : Nat) : Vec := if 56 ≤ n then (c.loadQ (n - 56)).headD 0 else c.getV n

/-- Pops a source that is a load queue. -/
def Core.popSrc (c : Core) (n : Nat) : Core := if 56 ≤ n then c.setLoadQ (n - 56) (c.loadQ (n - 56)).tail else c

/-- Flights with a destination. -/
def Core.inFlight (c : Core) (p : VecFlight → Bool) : Nat := (c.eng.vecFlight.filter p).length

def VecFlight.toStore (q : Nat) (f : VecFlight) : Bool := f.dest = .store q
def VecFlight.toIndex (m : Nat) (f : VecFlight) : Bool := match f.dest with | .index k _ => k = m | _ => false

/-- Is there room for a push to cq (R204)? -/
def Core.countRoom (c : Core) : Bool := c.cq.length + c.inFlight (fun f => f.post.isSome) < 8

/-- Room in the target queue, and no earlier write of the same register in flight (R201, R202). -/
def Core.targetReady (c : Core) (t : VTarget) : Bool :=
  match t with
  | .port d =>
    if 60 ≤ d then (c.storeQ (d - 60)).length + c.inFlight (VecFlight.toStore (d - 60)) < 8
    else c.inFlight (fun f => f.dest = .reg d) = 0
  | .index m => (c.indexQ m).length + c.inFlight (VecFlight.toIndex m) < 4
  | .count => true

/-- The destination of a result. -/
def VTarget.dest (t : VTarget) (o : VOut) : VecDest :=
  match t with
  | .port d => if 60 ≤ d then .store (d - 60) else .reg d
  | .index m => .index m o.index
  | .count => .count

/-- The register a target marks empty at the start. -/
def VTarget.reg? (t : VTarget) : Option Nat :=
  match t with
  | .port d => if 60 ≤ d then none else some d
  | _ => none

/-- The core with its vector engine past the present word of block b; a register the word writes is noted for the region
that brackets the block (R394). -/
def Core.nextVec (c : Core) (b : Block) (rest : List Block) (wrote : Option Nat) : Core :=
  let region := match b.region, wrote with
    | some x, some n => some { x with written := Marks.add n x.written }
    | r, _ => r
  { c with eng := { c.eng with vecQ := { b with next := b.next + 1, region := region } :: rest } }

/-- A word starts (R201 step 5): sources popped, destination empty, result in flight. -/
def Core.startVec (c : Core) (b : Block) (rest : List Block) (op : VOp) : Core :=
  let o := op.run c.sys.vshape (op.srcs.map (fun r => c.srcVal r.1))
  let c := op.srcs.foldl (fun d r => d.popSrc r.1) c
  let c := match op.target.reg? with | some n => c.markEmpty n | none => c
  let f : VecFlight := ⟨op.target.dest o, o.value, o.post⟩
  let c := { c with eng := { c.eng with vecFlight := c.eng.vecFlight ++ [f] } }
  c.nextVec b rest op.target.reg?

/-- The checks and waits of a word in their order (R201, R212). -/
def Core.checkVec (c : Core) (op : VOp) : Chk Unit := do
  match op.group with
  | some n => trapN .argrange n
  | none => .ok ()
  require (op.accepts c.sys.vshape) .argrange c.sys.vshape
  checkAll c.testSrc op.srcs
  waitUnless (c.targetReady op.target && (!op.posts || c.countRoom)) .other

/-- A word of the head block: the start of a region's block comes first, a skipped or ended one takes none (R392, R394);
a disabled word has no effect (R73). -/
def State.takeVec (s : State) (sel : BitVec 4) (f : Block → List Block → Chk State) :
    Host.Outcome State Fault Refusal :=
  match s.me.eng.vecQ with
  | [] => .next s
  | b :: rest =>
    let body := if selOn sel b.sample then s.runWord s.actor.core 1 b.next (f b rest)
      else .next (s.setMe (s.me.nextVec b rest none))
    match b.region with
    | none => body
    | some x =>
      if x.ended then .next s
      else if x.inputs.isNone then
        .next (if x.closed && s.me.inputsFull x then s.startRegion b rest x else s)
      else body

/-- A vector word of the acting core (R201). -/
def State.runVec (s : State) (sel : BitVec 4) (op : VOp) : Host.Outcome State Fault Refusal :=
  s.takeVec sel (fun b rest => match s.me.checkVec op with
    | .error e => .error e
    | .ok _ => .ok (s.setMe (s.me.startVec b rest op)))

/-! ### VEND and VSHAPE (R200, R226) -/

/-- The end of the head block: it leaves the queue, a region's block waits there for Mirage. -/
def Core.endVec (c : Core) (b : Block) (rest : List Block) : Core :=
  match b.region with
  | none => { c with eng := { c.eng with vecQ := rest } }
  | some x => { c with eng := { c.eng with vecQ := { b with region := some { x with ended := true } } :: rest } }

/-- VEND ends its block whether or not its selector enables it (R226). -/
def execVend (_ : BitVec 4) (s : State) : Host.Outcome State Fault Refusal :=
  s.takeVec 0 (fun b rest => .ok (s.setMe (s.me.endVec b rest)))

/-- VSHAPE's effect (R200). -/
def Core.reshape (c : Core) (b : Block) (rest : List Block) (a : Nat) (x : Nat) : Core :=
  let c := c.popSrc a
  { c with sys := { c.sys with vshape := x % 16 } }.nextVec b rest none

/-- VSHAPE (R200). -/
def execVshape (a : BitVec 6) (sel : BitVec 4) (x : BitVec 1) (s : State) : Host.Outcome State Fault Refusal :=
  s.takeVec sel (fun b rest => do
    s.me.testSrc (a.toNat, isTrap x)
    let v := (s.me.srcVal a.toNat).toNat % 2 ^ 64
    require (v < 16) .argrange v
    .ok (s.setMe (s.me.reshape b rest a.toNat v)))

/-! ### The words -/

/-- VADD (R208, R209). -/
def vopVadd (d : BitVec 6) (a : BitVec 6) (b : BitVec 6) (x : BitVec 1) (y : BitVec 1) (v : BitVec 1) : VOp :=
  vop2 fmtArith d a b x y (fun c => zipLanes (fmtOf c).bits (arithLane .add (fmtOf c) (v = 1)))

/-- VADD (R208, R209). -/
def execVadd (d : BitVec 6) (a : BitVec 6) (b : BitVec 6) (sel : BitVec 4) (x : BitVec 1) (y : BitVec 1) (v : BitVec 1)
    (s : State) : Host.Outcome State Fault Refusal :=
  s.runVec sel (vopVadd d a b x y v)

/-- VSUB (R208, R209). -/
def vopVsub (d : BitVec 6) (a : BitVec 6) (b : BitVec 6) (x : BitVec 1) (y : BitVec 1) (v : BitVec 1) : VOp :=
  vop2 fmtArith d a b x y (fun c => zipLanes (fmtOf c).bits (arithLane .sub (fmtOf c) (v = 1)))

/-- VSUB (R208, R209). -/
def execVsub (d : BitVec 6) (a : BitVec 6) (b : BitVec 6) (sel : BitVec 4) (x : BitVec 1) (y : BitVec 1) (v : BitVec 1)
    (s : State) : Host.Outcome State Fault Refusal :=
  s.runVec sel (vopVsub d a b x y v)

/-- VMUL (R208, R209; .hi takes integers only). -/
def vopVmul (d : BitVec 6) (a : BitVec 6) (b : BitVec 6) (x : BitVec 1) (y : BitVec 1) (v : BitVec 2) : VOp :=
  vop2 (if v = 2 then fmtInt else fmtArith) d a b x y (fun c => zipLanes (fmtOf c).bits
    (if v = 2 then mulHiLane (fmtOf c) else arithLane .mul (fmtOf c) (v = 1)))

/-- VMUL (R208, R209). -/
def execVmul (d : BitVec 6) (a : BitVec 6) (b : BitVec 6) (sel : BitVec 4) (x : BitVec 1) (y : BitVec 1) (v : BitVec 2)
    (s : State) : Host.Outcome State Fault Refusal :=
  s.runVec sel (vopVmul d a b x y v)

/-- VFMA (R208, R209). -/
def vopVfma (d : BitVec 6) (a : BitVec 6) (b : BitVec 6) (x : BitVec 1) (y : BitVec 1) (v : BitVec 1) : VOp :=
  vop3 fmtArith d a b x y (fun c => zip3Lanes (fmtOf c).bits (fmaLane (fmtOf c) (v = 1)))

/-- VFMA (R208, R209). -/
def execVfma (d : BitVec 6) (a : BitVec 6) (b : BitVec 6) (sel : BitVec 4) (x : BitVec 1) (y : BitVec 1) (v : BitVec 1)
    (s : State) : Host.Outcome State Fault Refusal :=
  s.runVec sel (vopVfma d a b x y v)

/-- VMIN (R208, R209). -/
def vopVmin (d : BitVec 6) (a : BitVec 6) (b : BitVec 6) (x : BitVec 1) (y : BitVec 1) (v : BitVec 1) : VOp :=
  vop2 fmtArith d a b x y (fun c => zipLanes (fmtOf c).bits (minMaxLane (fmtOf c) false (v = 1)))

/-- VMIN (R208, R209). -/
def execVmin (d : BitVec 6) (a : BitVec 6) (b : BitVec 6) (sel : BitVec 4) (x : BitVec 1) (y : BitVec 1) (v : BitVec 1)
    (s : State) : Host.Outcome State Fault Refusal :=
  s.runVec sel (vopVmin d a b x y v)

/-- VMAX (R208, R209). -/
def vopVmax (d : BitVec 6) (a : BitVec 6) (b : BitVec 6) (x : BitVec 1) (y : BitVec 1) (v : BitVec 1) : VOp :=
  vop2 fmtArith d a b x y (fun c => zipLanes (fmtOf c).bits (minMaxLane (fmtOf c) true (v = 1)))

/-- VMAX (R208, R209). -/
def execVmax (d : BitVec 6) (a : BitVec 6) (b : BitVec 6) (sel : BitVec 4) (x : BitVec 1) (y : BitVec 1) (v : BitVec 1)
    (s : State) : Host.Outcome State Fault Refusal :=
  s.runVec sel (vopVmax d a b x y v)

/-- VABS (R208, R209). -/
def vopVabs (d : BitVec 6) (a : BitVec 6) (x : BitVec 1) (v : BitVec 1) : VOp :=
  vop1 fmtArith d a x (fun c => mapLanes (fmtOf c).bits (absLane (fmtOf c) (v = 1)))

/-- VABS (R208, R209). -/
def execVabs (d : BitVec 6) (a : BitVec 6) (sel : BitVec 4) (x : BitVec 1) (v : BitVec 1) (s : State) :
    Host.Outcome State Fault Refusal :=
  s.runVec sel (vopVabs d a x v)

/-- VNEG (R208, R209). -/
def vopVneg (d : BitVec 6) (a : BitVec 6) (x : BitVec 1) (v : BitVec 1) : VOp :=
  vop1 fmtArith d a x (fun c => mapLanes (fmtOf c).bits (negLane (fmtOf c) (v = 1)))

/-- VNEG (R208, R209). -/
def execVneg (d : BitVec 6) (a : BitVec 6) (sel : BitVec 4) (x : BitVec 1) (v : BitVec 1) (s : State) :
    Host.Outcome State Fault Refusal :=
  s.runVec sel (vopVneg d a x v)

/-- VCVT (R210). -/
def vopVcvt (d : BitVec 6) (a : BitVec 6) (f : BitVec 4) (x : BitVec 1) (v : BitVec 2) : VOp :=
  vop1 fmtAny d a x (fun c => cvtVec (fmtOf c) (fmtOf f.toNat) v.toNat)

/-- VCVT (R210). -/
def execVcvt (d : BitVec 6) (a : BitVec 6) (f : BitVec 4) (sel : BitVec 4) (x : BitVec 1) (v : BitVec 2) (s : State) :
    Host.Outcome State Fault Refusal :=
  s.runVec sel (vopVcvt d a f x v)

/-- VQUANT (R211). -/
def vopVquant (d : BitVec 6) (a : BitVec 6) (m : BitVec 4) (x : BitVec 1) : VOp :=
  vop1 fmtQuant d a x (fun c => quantVec (fmtOf c) m.toNat)

/-- VQUANT (R211). -/
def execVquant (d : BitVec 6) (a : BitVec 6) (m : BitVec 4) (sel : BitVec 4) (x : BitVec 1) (s : State) :
    Host.Outcome State Fault Refusal :=
  s.runVec sel (vopVquant d a m x)

/-- VEXP (R214). -/
def vopVexp (d : BitVec 6) (a : BitVec 6) (x : BitVec 1) (v : BitVec 1) : VOp :=
  vop1 fmtFloat d a x (fun c => funcVec (fmtOf c) (fun k => k.expOf (v = 1)))

/-- VEXP (R214). -/
def execVexp (d : BitVec 6) (a : BitVec 6) (sel : BitVec 4) (x : BitVec 1) (v : BitVec 1) (s : State) :
    Host.Outcome State Fault Refusal :=
  s.runVec sel (vopVexp d a x v)

/-- VRCP (R214). -/
def vopVrcp (d : BitVec 6) (a : BitVec 6) (x : BitVec 1) : VOp :=
  vop1 fmtFloat d a x (fun c => funcVec (fmtOf c) (fun k => k.rcpOf))

/-- VRCP (R214). -/
def execVrcp (d : BitVec 6) (a : BitVec 6) (sel : BitVec 4) (x : BitVec 1) (s : State) :
    Host.Outcome State Fault Refusal :=
  s.runVec sel (vopVrcp d a x)

/-- VRSQ (R214). -/
def vopVrsq (d : BitVec 6) (a : BitVec 6) (x : BitVec 1) : VOp :=
  vop1 fmtFloat d a x (fun c => funcVec (fmtOf c) (fun k => k.rsqOf))

/-- VRSQ (R214). -/
def execVrsq (d : BitVec 6) (a : BitVec 6) (sel : BitVec 4) (x : BitVec 1) (s : State) :
    Host.Outcome State Fault Refusal :=
  s.runVec sel (vopVrsq d a x)

/-- VRED (R215). -/
def vopVred (d : BitVec 6) (a : BitVec 6) (x : BitVec 1) (v : BitVec 2) : VOp :=
  vop1 fmtArith d a x (fun c => redVec (fmtOf c) v.toNat)

/-- VRED (R215). -/
def execVred (d : BitVec 6) (a : BitVec 6) (sel : BitVec 4) (x : BitVec 1) (v : BitVec 2) (s : State) :
    Host.Outcome State Fault Refusal :=
  s.runVec sel (vopVred d a x v)

/-- VCMP (R216). -/
def vopVcmp (d : BitVec 6) (a : BitVec 6) (b : BitVec 6) (x : BitVec 1) (y : BitVec 1) (v : BitVec 2) : VOp :=
  vop2 fmtArith d a b x y (fun c => cmpVec (fmtOf c) v.toNat)

/-- VCMP (R216). -/
def execVcmp (d : BitVec 6) (a : BitVec 6) (b : BitVec 6) (sel : BitVec 4) (x : BitVec 1) (y : BitVec 1) (v : BitVec 2)
    (s : State) : Host.Outcome State Fault Refusal :=
  s.runVec sel (vopVcmp d a b x y v)

/-- VSEL (R217). -/
def vopVsel (d : BitVec 6) (a : BitVec 6) (b : BitVec 6) (x : BitVec 1) (y : BitVec 1) : VOp :=
  vop3 fmtAny d a b x y (fun c => selVec (fmtOf c).bits)

/-- VSEL (R217). -/
def execVsel (d : BitVec 6) (a : BitVec 6) (b : BitVec 6) (sel : BitVec 4) (x : BitVec 1) (y : BitVec 1) (s : State) :
    Host.Outcome State Fault Refusal :=
  s.runVec sel (vopVsel d a b x y)

/-- VPERM (R218). -/
def vopVperm (d : BitVec 6) (a : BitVec 6) (b : BitVec 6) (x : BitVec 1) (y : BitVec 1) : VOp :=
  vop2 fmtAny d a b x y (fun c => permVec (fmtOf c).bits)

/-- VPERM (R218). -/
def execVperm (d : BitVec 6) (a : BitVec 6) (b : BitVec 6) (sel : BitVec 4) (x : BitVec 1) (y : BitVec 1)
    (s : State) : Host.Outcome State Fault Refusal :=
  s.runVec sel (vopVperm d a b x y)

/-- VSHUF (R218). -/
def vopVshuf (d : BitVec 6) (a : BitVec 6) (b : BitVec 6) (x : BitVec 1) (y : BitVec 1) (v : BitVec 2) : VOp :=
  vop2 fmtAny d a b x y (fun c => shufVec (fmtOf c).bits v.toNat)

/-- VSHUF (R218). -/
def execVshuf (d : BitVec 6) (a : BitVec 6) (b : BitVec 6) (sel : BitVec 4) (x : BitVec 1) (y : BitVec 1) (v : BitVec 2)
    (s : State) : Host.Outcome State Fault Refusal :=
  s.runVec sel (vopVshuf d a b x y v)

/-- VBCAST (R218). -/
def vopVbcast (d : BitVec 6) (a : BitVec 6) (b : BitVec 6) (x : BitVec 1) (y : BitVec 1) : VOp :=
  vop2 fmtAny d a b x y (fun c => bcastVec (fmtOf c).bits)

/-- VBCAST (R218). -/
def execVbcast (d : BitVec 6) (a : BitVec 6) (b : BitVec 6) (sel : BitVec 4) (x : BitVec 1) (y : BitVec 1)
    (s : State) : Host.Outcome State Fault Refusal :=
  s.runVec sel (vopVbcast d a b x y)

/-- VSPLAT (R218). -/
def vopVsplat (d : BitVec 6) (a : BitVec 6) (x : BitVec 1) : VOp :=
  vop1 fmtAny d a x (fun c => splatVec (fmtOf c).bits)

/-- VSPLAT (R218). -/
def execVsplat (d : BitVec 6) (a : BitVec 6) (sel : BitVec 4) (x : BitVec 1) (s : State) :
    Host.Outcome State Fault Refusal :=
  s.runVec sel (vopVsplat d a x)

/-- VMOV (R218). -/
def vopVmov (d : BitVec 6) (a : BitVec 6) (x : BitVec 1) : VOp :=
  vop1 fmtAny d a x (fun _ v => v)

/-- VMOV (R218). -/
def execVmov (d : BitVec 6) (a : BitVec 6) (sel : BitVec 4) (x : BitVec 1) (s : State) :
    Host.Outcome State Fault Refusal :=
  s.runVec sel (vopVmov d a x)

/-- VAND (R219). -/
def vopVand (d : BitVec 6) (a : BitVec 6) (b : BitVec 6) (x : BitVec 1) (y : BitVec 1) : VOp :=
  vop2 fmtAny d a b x y (fun _ v w => v &&& w)

/-- VAND (R219). -/
def execVand (d : BitVec 6) (a : BitVec 6) (b : BitVec 6) (sel : BitVec 4) (x : BitVec 1) (y : BitVec 1) (s : State) :
    Host.Outcome State Fault Refusal :=
  s.runVec sel (vopVand d a b x y)

/-- VOR (R219). -/
def vopVor (d : BitVec 6) (a : BitVec 6) (b : BitVec 6) (x : BitVec 1) (y : BitVec 1) : VOp :=
  vop2 fmtAny d a b x y (fun _ v w => v ||| w)

/-- VOR (R219). -/
def execVor (d : BitVec 6) (a : BitVec 6) (b : BitVec 6) (sel : BitVec 4) (x : BitVec 1) (y : BitVec 1) (s : State) :
    Host.Outcome State Fault Refusal :=
  s.runVec sel (vopVor d a b x y)

/-- VXOR (R219). -/
def vopVxor (d : BitVec 6) (a : BitVec 6) (b : BitVec 6) (x : BitVec 1) (y : BitVec 1) : VOp :=
  vop2 fmtAny d a b x y (fun _ v w => v ^^^ w)

/-- VXOR (R219). -/
def execVxor (d : BitVec 6) (a : BitVec 6) (b : BitVec 6) (sel : BitVec 4) (x : BitVec 1) (y : BitVec 1) (s : State) :
    Host.Outcome State Fault Refusal :=
  s.runVec sel (vopVxor d a b x y)

/-- VNOT (R219). -/
def vopVnot (d : BitVec 6) (a : BitVec 6) (x : BitVec 1) : VOp :=
  vop1 fmtAny d a x (fun _ v => ~~~v)

/-- VNOT (R219). -/
def execVnot (d : BitVec 6) (a : BitVec 6) (sel : BitVec 4) (x : BitVec 1) (s : State) :
    Host.Outcome State Fault Refusal :=
  s.runVec sel (vopVnot d a x)

/-- VSHL (R219). -/
def vopVshl (d : BitVec 6) (a : BitVec 6) (b : BitVec 6) (x : BitVec 1) (y : BitVec 1) : VOp :=
  vop2 fmtAny d a b x y (fun c => zipLanes (fmtOf c).bits (shlLane (fmtOf c).bits))

/-- VSHL (R219). -/
def execVshl (d : BitVec 6) (a : BitVec 6) (b : BitVec 6) (sel : BitVec 4) (x : BitVec 1) (y : BitVec 1) (s : State) :
    Host.Outcome State Fault Refusal :=
  s.runVec sel (vopVshl d a b x y)

/-- VSHR (R219). -/
def vopVshr (d : BitVec 6) (a : BitVec 6) (b : BitVec 6) (x : BitVec 1) (y : BitVec 1) : VOp :=
  vop2 fmtAny d a b x y (fun c => zipLanes (fmtOf c).bits (shrLane (fmtOf c).bits))

/-- VSHR (R219). -/
def execVshr (d : BitVec 6) (a : BitVec 6) (b : BitVec 6) (sel : BitVec 4) (x : BitVec 1) (y : BitVec 1) (s : State) :
    Host.Outcome State Fault Refusal :=
  s.runVec sel (vopVshr d a b x y)

/-- VSAR (R219). -/
def vopVsar (d : BitVec 6) (a : BitVec 6) (b : BitVec 6) (x : BitVec 1) (y : BitVec 1) : VOp :=
  vop2 fmtAny d a b x y (fun c => zipLanes (fmtOf c).bits (sarLane (fmtOf c).bits))

/-- VSAR (R219). -/
def execVsar (d : BitVec 6) (a : BitVec 6) (b : BitVec 6) (sel : BitVec 4) (x : BitVec 1) (y : BitVec 1) (s : State) :
    Host.Outcome State Fault Refusal :=
  s.runVec sel (vopVsar d a b x y)

/-- VPOPC (R220). -/
def vopVpopc (d : BitVec 6) (a : BitVec 6) (x : BitVec 1) (v : BitVec 1) : VOp :=
  vop1 fmtAny d a x (fun c => popcVec (fmtOf c).bits v.toNat)

/-- VPOPC (R220). -/
def execVpopc (d : BitVec 6) (a : BitVec 6) (sel : BitVec 4) (x : BitVec 1) (v : BitVec 1) (s : State) :
    Host.Outcome State Fault Refusal :=
  s.runVec sel (vopVpopc d a x v)

/-- VTOPB8 (R224). -/
def vopVtopb8 (d : BitVec 6) (a : BitVec 6) (x : BitVec 1) : VOp :=
  vop1 fmtQuant d a x (fun c => topb8Vec (fmtOf c))

/-- VTOPB8 (R224). -/
def execVtopb8 (d : BitVec 6) (a : BitVec 6) (sel : BitVec 4) (x : BitVec 1) (s : State) :
    Host.Outcome State Fault Refusal :=
  s.runVec sel (vopVtopb8 d a x)

/-- VSHADD (R225). -/
def vopVshadd (d : BitVec 6) (a : BitVec 6) (b : BitVec 6) (x : BitVec 1) (y : BitVec 1) : VOp :=
  vop3 fmtArith d a b x y (fun c => shaddVec (fmtOf c))

/-- VSHADD (R225). -/
def execVshadd (d : BitVec 6) (a : BitVec 6) (b : BitVec 6) (sel : BitVec 4) (x : BitVec 1) (y : BitVec 1)
    (s : State) : Host.Outcome State Fault Refusal :=
  s.runVec sel (vopVshadd d a b x y)

/-- VIOTA (R218; it reads no source). -/
def vopViota (d : BitVec 6) : VOp :=
  { group := none, accepts := fmtInt, srcs := [], target := .port d.toNat, posts := false,
    run := fun c _ => .vec (iotaVec (fmtOf c).bits) }

/-- VIOTA (R218). -/
def execViota (d : BitVec 6) (sel : BitVec 4) (s : State) : Host.Outcome State Fault Refusal :=
  s.runVec sel (vopViota d)

/-- VSACC (R205, R213; VSHAPE is not read). -/
def vopVsacc (d : BitVec 6) (a : BitVec 6) (b : BitVec 6) (x : BitVec 1) (y : BitVec 1) : VOp :=
  { group := if 54 < a.toNat then some a.toNat else if 53 < b.toNat then some b.toNat else none,
    accepts := fmtAny,
    srcs := [(a.toNat, isTrap x), (a.toNat + 1, isTrap x), (b.toNat, isTrap y), (b.toNat + 1, isTrap y),
             (b.toNat + 2, isTrap y)],
    target := .port d.toNat, posts := false,
    run := fun _ vs => .vec (saccVec (srcAt vs 0) (srcAt vs 1) (srcAt vs 2) (srcAt vs 3) (srcAt vs 4)) }

/-- VSACC (R205, R213). -/
def execVsacc (d : BitVec 6) (a : BitVec 6) (b : BitVec 6) (sel : BitVec 4) (x : BitVec 1) (y : BitVec 1)
    (s : State) : Host.Outcome State Fault Refusal :=
  s.runVec sel (vopVsacc d a b x y)

/-- VPART (R221). -/
def vopVpart (d : BitVec 6) (a : BitVec 6) (x : BitVec 1) (v : BitVec 1) : VOp :=
  { group := none, accepts := fmtPart, srcs := [(a.toNat, isTrap x)], target := .port d.toNat, posts := true,
    run := fun c vs =>
      let r := partVec (fmtOf c).bits (v = 1) (srcAt vs 0)
      ⟨r.1, [], some r.2⟩ }

/-- VPART (R221). -/
def execVpart (d : BitVec 6) (a : BitVec 6) (sel : BitVec 4) (x : BitVec 1) (v : BitVec 1) (s : State) :
    Host.Outcome State Fault Refusal :=
  s.runVec sel (vopVpart d a x v)

/-- VPUSHIX (R222). -/
def vopVpushix (a : BitVec 6) (x : BitVec 1) (q : BitVec 1) : VOp :=
  { group := none, accepts := fmtSigned, srcs := [(a.toNat, isTrap x)], target := .index q.toNat, posts := false,
    run := fun c vs => ⟨0, indexEntry (fmtOf c).bits (srcAt vs 0), none⟩ }

/-- VPUSHIX (R222). -/
def execVpushix (a : BitVec 6) (sel : BitVec 4) (x : BitVec 1) (q : BitVec 1) (s : State) :
    Host.Outcome State Fault Refusal :=
  s.runVec sel (vopVpushix a x q)

/-- VPUSHC (R223). -/
def vopVpushc (a : BitVec 6) (x : BitVec 1) : VOp :=
  { group := none, accepts := fmtAny, srcs := [(a.toNat, isTrap x)], target := .count, posts := true,
    run := fun _ vs => ⟨0, [], some ((srcAt vs 0).setWidth 64)⟩ }

/-- VPUSHC (R223). -/
def execVpushc (a : BitVec 6) (sel : BitVec 4) (x : BitVec 1) (s : State) : Host.Outcome State Fault Refusal :=
  s.runVec sel (vopVpushc a x)

/-- The word of an instruction of the vector map beside VEND and VSHAPE, with its selector. -/
def vopOf (i : Instr) : Option (BitVec 4 × VOp) :=
  match i with
  | .vadd d a b sel x y v => some (sel, vopVadd d a b x y v)
  | .vsub d a b sel x y v => some (sel, vopVsub d a b x y v)
  | .vmul d a b sel x y v => some (sel, vopVmul d a b x y v)
  | .vfma d a b sel x y v => some (sel, vopVfma d a b x y v)
  | .vmin d a b sel x y v => some (sel, vopVmin d a b x y v)
  | .vmax d a b sel x y v => some (sel, vopVmax d a b x y v)
  | .vabs d a sel x v => some (sel, vopVabs d a x v)
  | .vneg d a sel x v => some (sel, vopVneg d a x v)
  | .vcvt d a f sel x v => some (sel, vopVcvt d a f x v)
  | .vquant d a m sel x => some (sel, vopVquant d a m x)
  | .vexp d a sel x v => some (sel, vopVexp d a x v)
  | .vrcp d a sel x => some (sel, vopVrcp d a x)
  | .vrsq d a sel x => some (sel, vopVrsq d a x)
  | .vred d a sel x v => some (sel, vopVred d a x v)
  | .vcmp d a b sel x y v => some (sel, vopVcmp d a b x y v)
  | .vsel d a b sel x y => some (sel, vopVsel d a b x y)
  | .vperm d a b sel x y => some (sel, vopVperm d a b x y)
  | .vshuf d a b sel x y v => some (sel, vopVshuf d a b x y v)
  | .vbcast d a b sel x y => some (sel, vopVbcast d a b x y)
  | .vsplat d a sel x => some (sel, vopVsplat d a x)
  | .vmov d a sel x => some (sel, vopVmov d a x)
  | .vand d a b sel x y => some (sel, vopVand d a b x y)
  | .vor d a b sel x y => some (sel, vopVor d a b x y)
  | .vxor d a b sel x y => some (sel, vopVxor d a b x y)
  | .vnot d a sel x => some (sel, vopVnot d a x)
  | .vshl d a b sel x y => some (sel, vopVshl d a b x y)
  | .vshr d a b sel x y => some (sel, vopVshr d a b x y)
  | .vsar d a b sel x y => some (sel, vopVsar d a b x y)
  | .vpopc d a sel x v => some (sel, vopVpopc d a x v)
  | .vtopb8 d a sel x => some (sel, vopVtopb8 d a x)
  | .vshadd d a b sel x y => some (sel, vopVshadd d a b x y)
  | .viota d sel => some (sel, vopViota d)
  | .vsacc d a b sel x y => some (sel, vopVsacc d a b x y)
  | .vpart d a sel x v => some (sel, vopVpart d a x v)
  | .vpushix a sel x q => some (sel, vopVpushix a x q)
  | .vpushc a sel x => some (sel, vopVpushc a x)
  | _ => none

/-! ### Completion (R201, R204) -/

/-- Does a flight push to a queue that an earlier one pushes to? -/
def VecFlight.follows (f g : VecFlight) : Bool :=
  (match f.dest, g.dest with
    | .store q, .store r => q = r
    | .index m _, .index k _ => m = k
    | _, _ => false) || (f.post.isSome && g.post.isSome)

/-- VECTOR_WORD_COMPLETION: word idx in flight writes its destination or pushes, pushes to one queue in the order of
their words (R201, R204). -/
def execVectorWordCompletion (idx : Nat) (s : State) : Host.Outcome State Fault Refusal :=
  let c := s.me
  .next (match c.eng.vecFlight[idx]? with
    | none => s
    | some f =>
      if (c.eng.vecFlight.take idx).any f.follows then s
      else s.setMe ({ c with eng := { c.eng with vecFlight := listDrop idx c.eng.vecFlight } }.complete f))

/-- LOAD_QUEUE_FILL: the oldest data on its way enters its load queue (R133). -/
def execLoadQueueFill (s : State) : Host.Outcome State Fault Refusal :=
  let c := s.me
  .next (match c.eng.loads with
    | [] => s
    | l :: ls => s.setMe ({ c with eng := { c.eng with loads := ls } }.setLoadQ l.queue (c.loadQ l.queue ++ [l.data])))

end Sys2Proof.Machine
end

