-- ==== Sys2Proof/Machine/Abandon.lean ====
section
/-! DEFINITION. Engine traps on their way to the handler and back: delivery, ERET with its retry or abandon, words that
are no instructions (R58, R74, R116, R173 to R176, R186). -/

namespace Sys2Proof.Machine

/-! ### Granules that an abandoned write would have filled (R175) -/

/-- Is an address of a party's core one whose granule has a full/empty bit: L1, or a bank in scratchpad mode? -/
def State.hasFullBit (s : State) (x : Nat) : Bool :=
  match windowOf x with
  | .l1 _ => true
  | .bank k b _ => ((s.cluster k).bank b).mode = 1
  | _ => false

/-- Those granules of pieces become full with their old data. -/
def State.fillPieces (s : State) (ps : List Piece) : State :=
  let gs := pieceGranules (ps.filter (fun p => s.hasFullBit p.va))
  { s with mem := { s.mem with full := Marks.addAll gs s.mem.full } }

/-- The pieces of the windows that [x, x + n) of a core touches. -/
def State.windowPieces (s : State) (core x n : Nat) : List Piece :=
  (cuts x n).filterMap (fun c => if s.hasFullBit c.1 then
      match s.placeOf core (s.partyOf core) c.1 true true with
      | .ok pl => some ⟨c.1, c.2, pl, s.partyOf core, none⟩
      | .error _ => none
    else none)

/-! ### Abandoning (R175) -/

/-- The registers that the enabled words of a vector block would have written from a word on (R175). -/
def State.regsLeft (s : State) (p : Nat) (b : Block) : List Nat :=
  (s.blockWords p b.image .vector (fun w => bitsAt w 26 6 = 1) b.next (s.sectionCount p b.image .vector + 1)).filterMap
    (fun w => match decodeFor .vector w with
      | some i => match vopOf i with
        | some (sel, op) => if selOn sel b.sample then op.target.reg? else none
        | none => none
      | none => none)

/-- The output registers of a region block: its VRUN has marked them empty (R113). -/
def Block.openOutputs (b : Block) : List Nat :=
  match b.region with
  | some x => regRange x.firstOut x.nOut
  | none => []

/-- Every vector block of a core is discarded. -/
def State.abandonVec (s : State) (core : Nat) : State :=
  let c := s.core core
  let p := (s.partyOf core).part
  let rs := (c.eng.vecQ.map (fun b => s.regsLeft p b ++ b.openOutputs)).flatten
  s.setCore core { c with vEmpty := Marks.delAll rs c.vEmpty, eng := { c.eng with vecQ := [] } }

/-- An abandoned ACCRD: the granules of its extent become full when its checks would pass, and its marks go (R175,
R186). -/
def State.abandonAccrd (s : State) (core : Nat) (b : Block) (a c : BitVec 4) (o : Nat) : State :=
  let t := (s.cluster (clusterOf core)).tile a.toNat
  let n := t.rows * t.cols * t.kind.bytes
  let x := b.addr c o
  let y := s.partyOf core
  let s := s.clearMarks core (b.marks c (BitVec.ofNat 14 o))
  match (do capCheck (b.cap c) x n (permStore + permEngine)
            require (x.toNat % 16 = 0) .align x.toNat
            s.checkKind (waiterOf core 2) y Reach.engineWrite x.toNat n x.toNat
            s.checkEntries x.toNat n : Chk Unit) with
  | .ok _ => s.fillPieces (s.windowPieces core x.toNat n)
  | .error _ => s

/-- The words of a matrix block that are left. -/
def State.abandonMatBlock (s : State) (core : Nat) (b : Block) : State :=
  let p := (s.partyOf core).part
  (s.blockWords p b.image .matrix (fun w => bitsAt w 26 6 = 1) b.next (s.sectionCount p b.image .matrix + 1)).foldl
    (fun t w => match decodeFor .matrix w with
      | some (.accrd sel a c o) =>
        if selOn sel b.sample then t.abandonAccrd core b a c o.toNat else t.clearMarks core (b.marks c o)
      | _ => t) s

/-- Every matrix block of a core is discarded; its claim may end with them (R101). -/
def State.abandonMat (s : State) (core : Nat) : State :=
  let t := (s.core core).eng.matQ.foldl (fun t b => t.abandonMatBlock core b) s
  let c := t.core core
  (t.setCore core { c with eng := { c.eng with matQ := [], restore := none } }).endClaim core

/-- The copies j, j + 1, ... of a word that will not be performed: their granules become full, their marks go. -/
def State.abandonCopies (s : State) (core block : Nat) (p : Probe) (marked : Bool) : Nat → Nat → State
  | _, 0 => s
  | j, n + 1 =>
    let y := (p.nest.target j).toNat
    let t := match s.copyPieces core block p.nest.dst y p.bytes true with
      | .ok ps => s.fillPieces ps
      | .error _ => s
    (t.clearMarks core (if marked then some (y, y + p.bytes) else none)).abandonCopies core block p marked (j + 1) n

/-- The copies an emit has left. -/
def State.abandonEmit (s : State) (core : Nat) (m : Emit) : State :=
  s.abandonCopies core m.block ⟨m.word, m.ch, m.bytes, m.nest, true⟩ m.marked m.next (m.nest.copies - m.next)

/-- The copies that the words left of a queued transfer block would have emitted. -/
def State.abandonXferBlock (s : State) (core : Nat) (b : XferBlock) : State :=
  match firstPass b.snap (s.blockRest core b) b.next b.nest 0 with
  | .ok ps => (ps.filter Probe.emits).foldl (fun t p => t.abandonCopies core b.ident p b.marked 0 p.nest.copies) s
  | .error _ => s

/-- The failed emit, the rest of its block and every later transfer block are discarded, with their holds (R175, R298). -/
def State.abandonXfer (s : State) (core : Nat) : State :=
  let e := (s.core core).eng
  let kept := e.emits.takeWhile (fun m => !m.failed)
  let gone := e.emits.drop kept.length
  let t := gone.foldl (fun t m => t.abandonEmit core m) s
  let t := e.xferQ.foldl (fun t b => t.abandonXferBlock core b) t
  let c := t.core core
  let live := fun (h : Hold) => kept.any (fun m => m.block = h.block && (h.emitWord.isNone || h.emitWord = some m.word))
  t.setCore core { c with eng := { c.eng with emits := kept, xferQ := [], holds := c.eng.holds.filter live } }

/-- The Stratus block of a core is discarded; it sets no granule full (R175, R341). -/
def State.abandonStrat (s : State) (core : Nat) : State :=
  let k := clusterOf core
  let c := s.cluster k
  match c.stratOf core with
  | none => s
  | some u => (s.setCluster k (c.dropStrat core)).unmarkStrat u

/-- ABANDON for engine e (R175). -/
def State.abandon (s : State) (core e : Nat) : State :=
  match e with
  | 1 => s.abandonVec core
  | 2 => s.abandonMat core
  | 3 => s.abandonXfer core
  | 4 => s.abandonStrat core
  | _ => s

/-- Engine e takes words again; a failed XEMIT runs on from its failing copy (R175, R298). -/
def State.resumeEngine (s : State) (core e : Nat) : State :=
  let c := s.core core
  let es := if e = 3 then c.eng.emits.map (fun m => { m with failed := false }) else c.eng.emits
  s.setCore core { c with eng := { c.eng with stopped := Marks.del e c.eng.stopped, emits := es } }

/-- The engine side of ERET (R175). -/
def State.engineReturn (s : State) (core : Nat) : State :=
  let c := s.core core
  match c.eng.trapFrom with
  | none => s
  | some e =>
    let t := if c.sys.abandon then s.abandon core e else s
    let t := t.resumeEngine core e
    let d := t.core core
    t.setCore core { d with sys := { d.sys with abandon := false }, eng := { d.eng with trapFrom := none } }

/-- ERET (R116, R175). -/
def execEret (s : State) : Host.Outcome State Fault Refusal :=
  s.runSeq (if s.me.sys.inh = false then trap .nohandler 0
    else
      let t := (s.setSys (fun y => { y with inh := false })).goto (s.me.sys.eretpc.setWidth 64)
      .ok (t.engineReturn s.actor.core))

/-! ### Delivery (R174) -/

/-- The trap of a held trap's code (R170). -/
def trapOfCode (n : Nat) : Trap := (trapWithCode n).getD .illegal

/-- The held trap that goes first: the oldest. One that ends the continuation waits for a save area (R177, R379). -/
def State.deliver (s : State) (core : Nat) : State :=
  let c := s.core core
  match c.eng.heldTraps with
  | [] => s
  | h :: rest =>
    if c.sys.trapvec = 0 && !s.canSave core then s else
    let t := s.setCore core { c with eng := { c.eng with heldTraps := rest } }
    let t := t.trapEntry core (trapOfCode h.code) h.info h.lane h.engine h.word (!rest.isEmpty) c.pc
    let d := t.core core
    if d.run.isSome then
      t.setCore core { d with eng := { d.eng with trapFrom := if h.engine = 0 then none else some h.engine } }
    else t

/-- ENGINE_TRAP_DELIVERY: with INH 0 the sequencer takes the held trap (R174). -/
def execEngineTrapDelivery (s : State) : Host.Outcome State Fault Refusal :=
  .next (if s.trapReady s.actor.core then s.deliver s.actor.core else s)

/-- A trap at the next word of an engine. -/
def State.raiseAt (s : State) (e : EngineId) (t : Trap) (info : Word64) : Host.Outcome State Fault Refusal :=
  match e with
  | .sequencer => s.runSeq (trap t info)
  | .vector => s.takeVec 0 (fun _ _ => trap t info)
  | .matrix => s.takeMat 0 (fun _ => trap t info)
  | .transfer => match s.me.eng.xferQ with
    | b :: _ => s.runWord s.actor.core 3 b.next (trap t info)
    | [] => .next s
  | .stratus => s.takeStrat (fun _ => trap t info)

/-- NOT_AN_INSTRUCTION: the next word of an engine is none, which raises ILLEGAL (R58, R74, R94), or it cannot be read,
which raises MEMERR (R198); a fetch forms no virtual address, so the address that MEMERR names is free (log 26). -/
def execNotAnInstruction (e : EngineId) (s : State) : Host.Outcome State Fault Refusal :=
  match s.nextWord e with
  | none => .next s
  | some w =>
    if s.codeBad e then s.raiseAt e .memerr (Config.errorAddr s.draws)
    else if (decodeFor e w).isSome then .next s else s.raiseAt e .illegal 0

end Sys2Proof.Machine
end

