-- ==== Sys2Proof/Machine/Admission.lean ====
section
/-! DEFINITION. Admission of code images (R24 to R26, R56, R57): the entries of the admission tables, the checks in their
order, the result slot. -/

namespace Sys2Proof.Machine

/-- An assigned entry of an admission table (R25): the must-be-zero mask, and fields A and B as position, width and
bitmap of allowed values. -/
structure AdmEntry where
  zero : Nat
  checks : List (Nat × Nat × Nat)
  deriving DecidableEq, Repr

/-- Entries of the sequencer table (R63), part 1. -/
def seqEntries1 : Sparse AdmEntry := [
  (0x01, ⟨0x7F0, [(0, 4, 0x7FFF)]⟩),
  (0x02, ⟨0x7F0, [(0, 4, 0x1F)]⟩),
  (0x03, ⟨0xFFF0, [(0, 4, 0x7)]⟩),
  (0x04, ⟨0x7F0, [(0, 4, 0xFF)]⟩),
  (0x05, ⟨0x3FFF080, [(8, 4, 0x3)]⟩),
  (0x06, ⟨0x3FFFF00, [(4, 4, 0x3)]⟩),
  (0x07, ⟨0x3FFF0F0, [(8, 4, 0x1FF)]⟩),
  (0x08, ⟨0x0, []⟩),
  (0x09, ⟨0x0, []⟩),
  (0x0A, ⟨0x0, []⟩),
  (0x0B, ⟨0x0, []⟩),
  (0x0C, ⟨0xFFC0, []⟩),
  (0x0D, ⟨0xFFC0, []⟩),
  (0x0E, ⟨0xFFC0, []⟩),
  (0x0F, ⟨0x1F0000, []⟩),
  (0x10, ⟨0x100000, [(16, 4, 0xF)]⟩),
  (0x11, ⟨0x3F0FFF0, []⟩),
  (0x12, ⟨0x21FFFF0, []⟩),
  (0x18, ⟨0x0, []⟩),
  (0x19, ⟨0x0, []⟩),
  (0x1A, ⟨0x0, []⟩),
  (0x1B, ⟨0x0, []⟩),
  (0x1C, ⟨0x3E0FFFF, []⟩),
  (0x1D, ⟨0x3E0F000, [(8, 4, 0x1FF)]⟩)]

/-- Entries of the sequencer table (R63), part 2. -/
def seqEntries2 : Sparse AdmEntry := [
  (0x20, ⟨0x0, [(20, 4, 0xFF01)]⟩),
  (0x21, ⟨0x1FFFF0, [(0, 4, 0x3)]⟩),
  (0x22, ⟨0x3F0FFF0, [(0, 4, 0x3)]⟩),
  (0x23, ⟨0x3E007FF, []⟩),
  (0x24, ⟨0x3FFFFFC, []⟩),
  (0x25, ⟨0x1FFF0C, [(4, 4, 0x3)]⟩),
  (0x26, ⟨0x3FF0000, []⟩),
  (0x27, ⟨0x3FF0000, []⟩),
  (0x28, ⟨0x3FFFC00, [(6, 4, 0xF)]⟩),
  (0x29, ⟨0x1FFFC0, []⟩),
  (0x2A, ⟨0x3FF0000, []⟩),
  (0x2B, ⟨0x1FF000, []⟩),
  (0x2C, ⟨0x3E0F000, []⟩),
  (0x2D, ⟨0x3FFFFF0, [(0, 4, 0x3FF)]⟩),
  (0x2E, ⟨0x3FFFFF0, [(0, 4, 0x3F)]⟩),
  (0x30, ⟨0x21007F0, [(0, 4, 0xF)]⟩),
  (0x31, ⟨0x21087F0, [(0, 4, 0x3)]⟩),
  (0x32, ⟨0x10FFF0, [(0, 4, 0xF)]⟩),
  (0x33, ⟨0x210FFFF, []⟩),
  (0x34, ⟨0x1087FF, []⟩),
  (0x35, ⟨0x100000, [(13, 3, 0x7F), (11, 2, 0x7)]⟩),
  (0x36, ⟨0x100000, [(13, 3, 0xF), (11, 2, 0x7)]⟩),
  (0x37, ⟨0x210E000, [(11, 2, 0x7)]⟩),
  (0x38, ⟨0x210E000, [(11, 2, 0x7)]⟩)]

/-- Entries of the sequencer table (R63), part 3. -/
def seqEntries3 : Sparse AdmEntry := [
  (0x39, ⟨0x39007FC, [(0, 2, 0x7)]⟩),
  (0x3A, ⟨0x39007FC, [(0, 2, 0x7)]⟩),
  (0x3B, ⟨0x390F7FC, []⟩),
  (0x3C, ⟨0x390F7FC, []⟩),
  (0x3D, ⟨0x100600, [(0, 4, 0x7F), (4, 4, 0x3F)]⟩),
  (0x3E, ⟨0x3F087F0, [(0, 4, 0x7)]⟩),
  (0x3F, ⟨0x3F0FFF0, [(0, 4, 0x1F)]⟩)]

/-- Entries of the sequencer table (R63). -/
def seqEntries : Sparse AdmEntry := seqEntries1 ++ seqEntries2 ++ seqEntries3

/-- Entries of the vector table (R68), part 1. -/
def vecEntries1 : Sparse AdmEntry := [
  (0x01, ⟨0x3FFFF0F, [(4, 4, 0xFF01)]⟩),
  (0x02, ⟨0x3F03F07, [(4, 4, 0xFF01)]⟩),
  (0x04, ⟨0x0, [(4, 4, 0xFF01), (0, 2, 0x3)]⟩),
  (0x05, ⟨0x0, [(4, 4, 0xFF01), (0, 2, 0x3)]⟩),
  (0x06, ⟨0x0, [(4, 4, 0xFF01), (0, 2, 0x7)]⟩),
  (0x07, ⟨0x2, [(4, 4, 0xFF01), (22, 4, 0x7FFF)]⟩),
  (0x08, ⟨0x0, [(4, 4, 0xFF01), (0, 2, 0x3)]⟩),
  (0x09, ⟨0x0, [(4, 4, 0xFF01), (0, 2, 0x3)]⟩),
  (0x0A, ⟨0x3F04, [(4, 4, 0xFF01), (0, 2, 0x3)]⟩),
  (0x0B, ⟨0x3F04, [(4, 4, 0xFF01), (0, 2, 0x3)]⟩),
  (0x0C, ⟨0x3004, [(4, 4, 0xFF01), (0, 2, 0xF)]⟩),
  (0x0D, ⟨0x3007, [(4, 4, 0xFF01), (8, 4, 0x1FC)]⟩),
  (0x0E, ⟨0x3, [(4, 4, 0xFF01)]⟩),
  (0x0F, ⟨0x3F04, [(4, 4, 0xFF01), (0, 2, 0x3)]⟩),
  (0x10, ⟨0x3F07, [(4, 4, 0xFF01)]⟩),
  (0x11, ⟨0x3F07, [(4, 4, 0xFF01)]⟩),
  (0x12, ⟨0x3F04, [(4, 4, 0xFF01), (0, 2, 0xF)]⟩),
  (0x13, ⟨0x0, [(4, 4, 0xFF01), (0, 2, 0xF)]⟩),
  (0x14, ⟨0x3, [(4, 4, 0xFF01), (22, 4, 0x7FFF)]⟩),
  (0x15, ⟨0x3F04, [(4, 4, 0xFF01), (0, 2, 0x3)]⟩),
  (0x16, ⟨0x3, [(4, 4, 0xFF01)]⟩),
  (0x17, ⟨0x0, [(4, 4, 0xFF01), (0, 2, 0xF)]⟩),
  (0x18, ⟨0x3, [(4, 4, 0xFF01)]⟩),
  (0x19, ⟨0x3F07, [(4, 4, 0xFF01)]⟩)]

/-- Entries of the vector table (R68), part 2. -/
def vecEntries2 : Sparse AdmEntry := [
  (0x1A, ⟨0xFFF0F, [(4, 4, 0xFF01)]⟩),
  (0x1B, ⟨0x3, [(4, 4, 0xFF01)]⟩),
  (0x1C, ⟨0x3, [(4, 4, 0xFF01)]⟩),
  (0x1D, ⟨0x3, [(4, 4, 0xFF01)]⟩),
  (0x1E, ⟨0x3F07, [(4, 4, 0xFF01)]⟩),
  (0x1F, ⟨0x3, [(4, 4, 0xFF01)]⟩),
  (0x20, ⟨0x3, [(4, 4, 0xFF01)]⟩),
  (0x21, ⟨0x3, [(4, 4, 0xFF01)]⟩),
  (0x22, ⟨0x3F04, [(4, 4, 0xFF01), (0, 2, 0x3)]⟩),
  (0x23, ⟨0x3F03F04, [(4, 4, 0xFF01), (0, 2, 0x3)]⟩),
  (0x24, ⟨0x3F03F07, [(4, 4, 0xFF01)]⟩),
  (0x25, ⟨0x3F07, [(4, 4, 0xFF01)]⟩),
  (0x26, ⟨0x3, [(4, 4, 0xFF01), (22, 4, 0x7FFF)]⟩),
  (0x27, ⟨0x3F07, [(4, 4, 0xFF01)]⟩)]

/-- Entries of the vector table (R68). -/
def vecEntries : Sparse AdmEntry := vecEntries1 ++ vecEntries2

/-- Entries of the matrix table (R69). -/
def matEntries : Sparse AdmEntry := [
  (0x01, ⟨0x3FFFFF, [(22, 4, 0xFF01)]⟩),
  (0x02, ⟨0xF, [(22, 4, 0xFF01)]⟩),
  (0x03, ⟨0x0, [(22, 4, 0xFF01)]⟩),
  (0x04, ⟨0x3CFFFF, [(22, 4, 0xFF01)]⟩),
  (0x05, ⟨0x3C3FFF, [(22, 4, 0xFF01), (14, 2, 0x7)]⟩),
  (0x06, ⟨0x3FFFF, [(22, 4, 0xFF01)]⟩),
  (0x07, ⟨0x0, [(22, 4, 0xFF01)]⟩),
  (0x08, ⟨0x0, [(22, 4, 0xFF01)]⟩),
  (0x09, ⟨0x3FFFFF, [(22, 4, 0xFF01)]⟩),
  (0x10, ⟨0x1FFF, [(22, 4, 0xFF01)]⟩),
  (0x11, ⟨0x1FFF, [(22, 4, 0xFF01)]⟩),
  (0x12, ⟨0x1FFF, [(22, 4, 0xFF01)]⟩),
  (0x13, ⟨0x1FFF, [(22, 4, 0xFF01)]⟩),
  (0x14, ⟨0x1FFF, [(22, 4, 0xFF01)]⟩),
  (0x15, ⟨0x1FFF, [(22, 4, 0xFF01)]⟩),
  (0x16, ⟨0x1FFF, [(22, 4, 0xFF01)]⟩),
  (0x17, ⟨0x1FFF, [(22, 4, 0xFF01)]⟩),
  (0x18, ⟨0x1FFF, [(22, 4, 0xFF01)]⟩),
  (0x19, ⟨0x1FFF, [(22, 4, 0xFF01)]⟩),
  (0x1A, ⟨0x1FFF, [(22, 4, 0xFF01)]⟩),
  (0x1B, ⟨0x1FFF, [(22, 4, 0xFF01)]⟩),
  (0x1C, ⟨0x1FFF, [(22, 4, 0xFF01)]⟩),
  (0x1D, ⟨0x1FFF, [(22, 4, 0xFF01)]⟩)]

/-- Entries of the transfer table (R70). -/
def xferEntries : Sparse AdmEntry := [
  (0x01, ⟨0x1FFFFFF, [(25, 3, 0x3F)]⟩),
  (0x02, ⟨0x0, [(25, 3, 0x3F)]⟩),
  (0x03, ⟨0x0, [(25, 3, 0x3F)]⟩),
  (0x04, ⟨0x0, [(25, 3, 0x3F)]⟩),
  (0x05, ⟨0xE000000, []⟩),
  (0x06, ⟨0xE000000, []⟩),
  (0x07, ⟨0xFF00000, []⟩),
  (0x08, ⟨0xFF0FFFF, []⟩),
  (0x09, ⟨0xFFFFFFF, []⟩)]

/-- Entries of the Stratus table (R71). -/
def stratEntries : Sparse AdmEntry := [
  (0x01, ⟨0x3FF0000, [(12, 4, 0x7F00)]⟩),
  (0x02, ⟨0x3FF0000, [(12, 4, 0x7F00)]⟩),
  (0x03, ⟨0x3FF00FF, [(12, 4, 0x7F00)]⟩),
  (0x04, ⟨0x3FFF8FF, []⟩),
  (0x05, ⟨0x3FFFFFF, []⟩),
  (0x06, ⟨0x3FFFFFF, []⟩),
  (0x07, ⟨0x3FFF8FF, []⟩),
  (0x08, ⟨0x3FFFFFF, []⟩),
  (0x09, ⟨0x3FF0000, [(12, 4, 0x7F00)]⟩),
  (0x0A, ⟨0x3FFFFFC, [(0, 2, 0x7)]⟩),
  (0x0B, ⟨0x3FFF, []⟩),
  (0x0C, ⟨0xFFFF, []⟩),
  (0x0D, ⟨0x3FFFFFF, []⟩),
  (0x0E, ⟨0x3FFFFFF, []⟩),
  (0x0F, ⟨0x3FF0000, []⟩),
  (0x10, ⟨0x3FF0000, [(12, 4, 0x7F00)]⟩),
  (0x11, ⟨0xFFFF, []⟩)]

/-- The table of an engine, and the lowest bit of its index field (R25). -/
def admTable : EngineId → Sparse AdmEntry
  | .sequencer => seqEntries
  | .vector => vecEntries
  | .matrix => matEntries
  | .transfer => xferEntries
  | .stratus => stratEntries

def admIndex (e : EngineId) (w : Nat) : Nat := if e = .transfer then bitsAt w 28 4 else bitsAt w 26 6

/-- The queue-port rules of R11 on a vector word. -/
def portsOk (w : Nat) : Bool :=
  let d := bitsAt w 20 6
  let a := bitsAt w 14 6
  let b := bitsAt w 8 6
  !(56 ≤ d && d < 60) && a < 60 && b < 60 && !(a = b && 56 ≤ a)

/-- The reason code of a word's first failed check, 0 when it passes them all (R26). -/
def admReason (e : EngineId) (w : Nat) : Nat :=
  match Sparse.find? (admIndex e w) (admTable e) with
  | none => 1
  | some x =>
    if Nat.land w x.zero ≠ 0 then 2
    else if x.checks.any (fun c => !bitAt c.2.2 (bitsAt w c.1 c.2.1)) then 3
    else if e = .vector ∧ portsOk w = false then 4
    else 0

/-- The engines in the order of R24. -/
def engineOrder : List EngineId := [.sequencer, .vector, .matrix, .transfer, .stratus]

/-- The outcome of an admission: a status, the number of the engine being checked, the index of the failing word. -/
structure AdmResult where
  status : Nat
  engine : Nat
  index : Nat
  deriving DecidableEq, Repr

/-- The first failing word of a section from word i on. -/
def admWords (e : EngineId) (word : Nat → Nat) (i : Nat) : Nat → Option (Nat × Nat)
  | 0 => none
  | n + 1 => if admReason e (word i) ≠ 0 then some (admReason e (word i), i) else admWords e word (i + 1) n

/-- The checks of the sections in order (R24, R26); `word` gives the image's words and `len` how many of them there are. -/
def admSections (word : Nat → Nat) (len : Nat) : List EngineId → AdmResult
  | [] => ⟨0, 0, 0⟩
  | e :: es =>
    let k := sectionNo e
    let off := word (2 + 2 * k)
    let cnt := word (3 + 2 * k)
    if off < 12 ∨ len < off + cnt ∨ (k = 4 ∧ 1024 < cnt) then ⟨5, k, 0xFFFFFFFF⟩
    else
      match admWords e (fun i => word (off + i)) 0 cnt with
      | some (r, i) => ⟨r, k, i⟩
      | none => admSections word len es

/-- Admission of the image whose words are given, of which memory holds `held` (R24, R26). A section that reaches past them
fails its header check; an image whose length alone does fails with reason 5 once every section has passed (log 84). -/
def admissionOf (word : Nat → Nat) (held : Nat) : AdmResult :=
  if held < 12 ∨ word 0 ≠ 0x4D49414C ∨ word 1 < 12 then ⟨5, 0, 0xFFFFFFFF⟩
  else
    let r := admSections word (min held (word 1)) engineOrder
    if r.status = 0 ∧ held < word 1 then ⟨5, 0, 0xFFFFFFFF⟩ else r

/-- The result slot (R26): status, engine, index, zero, and the code hash of an admitted image. -/
def AdmResult.bytes (r : AdmResult) (hash : List Byte) : List Byte :=
  leBytes r.status 4 ++ leBytes r.engine 4 ++ leBytes r.index 4 ++ leBytes 0 4
    ++ (if r.status = 0 then sliceB 0 16 hash else List.replicate 16 0)

/-- The handle an image gets: the lowest from 1 that none has. -/
def Partition.freeHandle (p : Partition) : Nat :=
  ((upFrom 1 (p.images.length + 1)).find? (fun h => (Sparse.find? h p.images).isNone)).getD 0

/-! ### Measurement registers (R21, R39) -/

/-- The number of measurement register i of a complex. -/
def measNo (c : Fin 2) (i : Nat) : Nat := 16 * c.val + i

/-- MEASi of a complex. -/
def State.meas (s : State) (c : Fin 2) (i : Nat) : List Byte := sliceB 0 64 (Sparse.get s.mgmt.meas [] (measNo c i))

/-- Extends MEASi of a complex (R21). -/
def State.extendMeas (s : State) (c : Fin 2) (i : Nat) (bs : List Byte) : State :=
  { s with mgmt := { s.mgmt with meas := Sparse.set (measNo c i) (shake256 (s.meas c i ++ bs) 64) s.mgmt.meas } }

/-- The pieces that stores of a partition's engines have still to write (R287, R334). -/
def State.storesLeft (s : State) (p : Nat) : List Piece :=
  ((s.part p).clust.map (fun k =>
    let c := s.cluster k
    (c.flights.map (fun f => match f.what with | .store _ ps _ _ => ps | .fetch _ _ => [])).flatten
      ++ (match c.strat with
        | some u => ((u.traffic.filter (fun f => match f.what with | .store _ => true | _ => false)).map (fun f => f.pieces)).flatten
        | none => []))).flatten

/-- Does such a store still write into n bytes of a partition's memory? An image is admitted after it (R57; log 97). -/
def State.stillWritten (s : State) (p base n : Nat) : Bool :=
  (s.storesLeft p).any (fun q => match q.place with
    | .here l _ => l < hbmLoc p (base + n) && hbmLoc p base < l + q.len
    | .away _ _ _ => false)

/-- IMAGE_ADMISSION: the firmware checks the image at a base of the acting partition's memory; an admitted one enters the
image table and extends the Zenith's MEAS8 (R24, R26, R39, R155). The outcome goes to a result slot in Zenith memory. Of an image
whose length word reaches past the partition's memory the manual says nothing; its slot holds reason 5 (DESIGN CHOICE,
log 84). -/
def execImageAdmission (base slot : Nat) (s : State) : Host.Outcome State Fault Refusal :=
  let p := s.actor.part
  let word := s.imageWord p base
  let r := admissionOf word (((s.part p).memSize - base) / 4)
  .next (if s.stillWritten p base (4 * word 1) then s
    else if r.status = 0 then
      let hash := shake256 (s.raw (hbmLoc p base) (4 * word 1)) 16
      let t := s.modPart p (fun x =>
        { x with images := Sparse.set x.freeHandle ⟨base, word 1, BitVec.ofNat 128 (leNat hash)⟩ x.images })
      (t.extendMeas t.mgmt.zenith 8 hash).poke (t.zenithLoc slot) (r.bytes hash)
    else s.poke (s.zenithLoc slot) (r.bytes []))

end Sys2Proof.Machine
end

