-- ==== Sys2Proof/Machine/Banks.lean ====
section
/-! DEFINITION. Mode switches of L2 banks and soft errors (R189, R192, R193, R198). -/

namespace Sys2Proof.Machine

/-- BANK_MODE_SWITCH: the write of MODE starts a switch of a bank of the acting core's cluster, or is discarded (R189). -/
def execBankModeSwitch (bank : BitVec 4) (mode : BitVec 2) (s : State) : Host.Outcome State Fault Refusal :=
  .next (s.startSwitch s.actor.core bank.toNat mode.toNat)

/-- The locations of accesses of a cluster that its units have accepted and not completed: pinned lines, writes of ACCRD
and OSTORE, fetches of the Stratus unit (R193, R281, R334). -/
def Cluster.accepted (c : Cluster) : List Nat :=
  (c.slots.map (fun q => q.2.pins)).flatten ++ (c.cumulus.passes.map (fun p => p.pins)).flatten
    ++ (c.flights.map (fun f => match f.what with
        | .store _ ps _ _ => pieceWords ps
        | .fetch _ _ => [])).flatten.map (fun w => 8 * w)
    ++ (match c.strat with
        | some u => (u.traffic.map (fun f => pieceWords f.pieces)).flatten.map (fun w => 8 * w)
        | none => [])

/-- Does bank b of cluster k serve a location: through its window, or as the cache of an HBM line, which an
implementation places (log 51)? -/
def bankServes (k b l : Nat) : Bool :=
  if l < hbmEnd then Config.lineBank (l / 128) = 16 * k + b
  else bankLoc k b 0 ≤ l && l < bankLoc k b 0 + bankSize k

/-- Do accepted accesses, of whichever cluster, hold up the switch of a bank (R192 step 2, R193, R258)? -/
def State.switchWaits (s : State) (k b : Nat) : Bool :=
  s.clusters.any (fun q => q.2.accepted.any (bankServes k b))

/-- Copies probed before a switch of a bank find it changed (R193). -/
def CoreEng.staleBank (e : CoreEng) (k b : Nat) : CoreEng :=
  { e with holds := e.holds.map (fun h => match h.place with
      | .here l _ => if hbmEnd ≤ l && bankServes k b l then { h with stale := true } else h
      | .away _ _ _ => h) }

/-- The same for every core and every saved block. -/
def State.staleBank (s : State) (k b : Nat) : State :=
  { s with
    cores := s.cores.map (fun q => (q.1, { q.2 with eng := q.2.eng.staleBank k b }))
    parts := s.parts.map (fun q => (q.1, { q.2 with areas := q.2.areas.map (fun a =>
      (a.1, { a.2 with saved := a.2.saved.map (fun v =>
        { v with core := { v.core with eng := v.core.eng.staleBank k b } }) })) })) }

/-- BANK_SWITCH_COMPLETE: steps 3 to 5 of R192 on a bank of the acting core's cluster. -/
def execBankSwitchComplete (bank : BitVec 4) (s : State) : Host.Outcome State Fault Refusal :=
  let k := s.home
  let b := bank.toNat
  .next (match ((s.cluster k).bank b).switching with
    | none => s
    | some (mode, world) =>
      if s.switchWaits k b then s
      else
        let t := { s with mem := s.mem.wipe (bankLoc k b 0) (bankSize k) }
        (t.setCluster k ((t.cluster k).setBank b ⟨mode, if mode = 0 then 0 else world, none, []⟩)).staleBank k b)

/-- The units that a soft error poisons (R198). -/
def unitsOf : PoisonUnit → List Nat
  | .granule l => [floorTo l 16]
  | .line l => [floorTo l 128]
  | .block l => [floorTo l 256, floorTo l 256 + 128]
  | .tag _ => []

/-- Does a unit lie where its code protects it: a granule in L1 or a bank, a line in HBM-backed memory? -/
def poisonSound : PoisonUnit → Bool
  | .granule l => hbmEnd ≤ l
  | .line l => l < hbmEnd
  | .block l => l < hbmEnd
  | .tag _ => true

/-- The granule whose tag alone a soft error poisons. -/
def tagOfUnit : PoisonUnit → List Nat
  | .tag l => [l / 16]
  | _ => []

/-- UNCORRECTABLE_SOFT_ERROR: the unit is poisoned until a write of the whole unit; a poisoned tag reads as 0 until a
store writes it again (R198). -/
def execUncorrectableSoftError (unit : PoisonUnit) (s : State) : Host.Outcome State Fault Refusal :=
  .next (if poisonSound unit then
      { s with mem := { s.mem with poison := Marks.addAll (unitsOf unit) s.mem.poison,
                                   tags := Marks.delAll (tagOfUnit unit) s.mem.tags } }
    else s)

end Sys2Proof.Machine
end

