-- ==== Sys2Proof/Machine/CapInstr.lean ====
section
/-! DEFINITION. Deriving, sealing and inspecting capabilities (R126 to R128). -/

namespace Sys2Proof.Machine

/-- CDERIVE: new bounds from the cursor, rounded outwards, with the current generation of the new base (R126, R147); it
waits for the table entries that other modules hold (R416, R422). -/
def execCderive (d : BitVec 4) (a : BitVec 4) (b : BitVec 5) (s : State) : Host.Outcome State Fault Refusal :=
  s.runSeq (do
    let c ← deriveCap (s.c a) (s.g b).toNat
    s.awaitGen s.party c.base
    .ok (s.writeC d { c with gen := s.genAt s.party c.base }))

/-- CANDPERM: the permissions it keeps (R126). -/
def andPerm (c : Cap) (m : Word64) : Chk Cap :=
  match tagAndSeal c with
  | .error e => .error e
  | .ok _ => .ok { c with perm := c.perm &&& m.setWidth 12 &&& 0x3FF }

/-- CANDPERM (R126). -/
def execCandperm (d : BitVec 4) (a : BitVec 4) (b : BitVec 5) (s : State) : Host.Outcome State Fault Refusal :=
  s.runSeq (match andPerm (s.c a) (s.g b) with
    | .error e => .error e
    | .ok c => .ok (s.writeC d c))

/-- CINCR: the cursor plus g_b modulo 2^64 (R126). -/
def execCincr (d : BitVec 4) (a : BitVec 4) (b : BitVec 5) (s : State) : Host.Outcome State Fault Refusal :=
  s.runSeq (match moveCursor (s.c a) ((s.c a).cursor + s.g b) with
    | .error e => .error e
    | .ok c => .ok (s.writeC d c))

/-- CSETCUR: the cursor becomes g_b (R126). -/
def execCsetcur (d : BitVec 4) (a : BitVec 4) (b : BitVec 5) (s : State) : Host.Outcome State Fault Refusal :=
  s.runSeq (match moveCursor (s.c a) (s.g b) with
    | .error e => .error e
    | .ok c => .ok (s.writeC d c))

/-- CSEAL of c_a under c_b (R127). -/
def sealCap (c k : Cap) : Chk Cap := do
  tagAndSeal c
  tagAndSeal k
  if k.isTypeAuthority then .ok { c with otype := k.cursor.setWidth 8 } else trap .capperm k.cursor

/-- CUNSEAL of c_a under c_b (R127). -/
def unsealCap (c k : Cap) : Chk Cap :=
  if c.tag = false then trap .captag c.cursor
  else if c.otype = 0 then trap .capseal c.cursor
  else do
    tagAndSeal k
    if k.isTypeAuthority ∧ k.cursor = c.otype.setWidth 64 then .ok { c with otype := 0 } else trap .capperm k.cursor

/-- CSEAL (R127). -/
def execCseal (d : BitVec 4) (a : BitVec 4) (b : BitVec 4) (s : State) : Host.Outcome State Fault Refusal :=
  s.runSeq (match sealCap (s.c a) (s.c b) with
    | .error e => .error e
    | .ok c => .ok (s.writeC d c))

/-- CUNSEAL (R127). -/
def execCunseal (d : BitVec 4) (a : BitVec 4) (b : BitVec 4) (s : State) : Host.Outcome State Fault Refusal :=
  s.runSeq (match unsealCap (s.c a) (s.c b) with
    | .error e => .error e
    | .ok c => .ok (s.writeC d c))

/-- CGETBASE (R128). -/
def execCgetbase (d : BitVec 5) (a : BitVec 4) (s : State) : Host.Outcome State Fault Refusal :=
  .next (s.writeG d (BitVec.ofNat 64 (s.c a).base))

/-- Top − Base, saturated (R128). -/
def capLength (c : Cap) : Nat := min (c.top - c.base) (2 ^ 64 - 1)

/-- CGETLEN (R128). -/
def execCgetlen (d : BitVec 5) (a : BitVec 4) (s : State) : Host.Outcome State Fault Refusal :=
  .next (s.writeG d (BitVec.ofNat 64 (capLength (s.c a))))

/-- The word CGETPERM writes (R128). -/
def permWord (c : Cap) : Word64 := BitVec.ofNat 64 (c.perm.toNat + c.otype.toNat * 2 ^ 16 + c.gen.toNat * 2 ^ 24)

/-- CGETPERM (R128). -/
def execCgetperm (d : BitVec 5) (a : BitVec 4) (s : State) : Host.Outcome State Fault Refusal :=
  .next (s.writeG d (permWord (s.c a)))

/-- CGETTAG (R128). -/
def execCgettag (d : BitVec 5) (a : BitVec 4) (s : State) : Host.Outcome State Fault Refusal :=
  .next (s.writeG d (flagWord (s.c a).tag))

/-- CMOV: all 128 bits and the tag (R128). -/
def execCmov (d : BitVec 4) (a : BitVec 4) (s : State) : Host.Outcome State Fault Refusal := .next (s.writeC d (s.c a))

/-- CTEST's condition (R128). -/
def capWithin (a b : Cap) : Bool :=
  a.tag && b.tag && a.otype = 0 && b.otype = 0 && a.base ≤ b.base && b.top ≤ a.top && (b.perm &&& ~~~a.perm) = 0

/-- CTEST (R128). -/
def execCtest (d : BitVec 5) (a : BitVec 4) (b : BitVec 4) (s : State) : Host.Outcome State Fault Refusal :=
  .next (s.writeG d (flagWord (capWithin (s.c a) (s.c b))))

end Sys2Proof.Machine
end

