-- ==== Sys2Proof/Machine/Leaves.lean ====
section
/-! DEFINITION. The tables read backwards: the leaf that maps a frame, and the contexts that reach a location (R414, R415,
R148). -/

namespace Sys2Proof.Machine

/-- The number of entries in a table of a level (R414). -/
def levelEntries (L : Nat) : Nat := if L = 0 then 32 else 512

/-- Bytes that an entry of a table of a level covers (R414). -/
def entryBytes (L : Nat) : Nat := if L = 3 then 2 ^ 39 else pageBytes L

/-- A second-stage leaf as it maps a world's memory: the first guest-physical address, the level, and what it says. -/
structure Leaf2 where
  gpa : Nat
  level : Nat
  page : Nat
  world : Nat
  weightKey : Bool
  shadowed : Bool
  deriving DecidableEq, Repr

/-- Does a leaf map a partition-physical address, its second frame included? -/
def Leaf2.maps (f : Leaf2) (pa : Nat) : Bool := f.page ≤ pa && pa < f.page + (if f.shadowed then 2 else 1) * pageBytes f.level

/-- The first leaf that maps a partition-physical address, in the tree under a second-stage table of level L whose first
entry covers guest-physical addresses from `gpa` on (R414, R415). -/
def State.leafUnder (s : State) (p pa : Nat) : Nat → Nat → Nat → Option Leaf2
  | L, table, gpa =>
    (upFrom 0 (levelEntries L)).findSome? (fun i =>
      match checkEntry true L (leNat (s.raw (hbmLoc p (table + 8 * i)) 8)) with
      | .ok (.table next) => (match L with | 0 => none | L + 1 => s.leafUnder p pa L next (gpa + i * entryBytes (L + 1)))
      | .ok (.leafOf page _ world k sh) =>
        let f : Leaf2 := ⟨gpa + i * entryBytes L, L, page, world, k, sh⟩
        if f.maps pa then some f else none
      | _ => none)

/-- The leaf of a world that maps a partition-physical address, if one does. -/
def State.leafIn (s : State) (p w pa : Nat) : Option Leaf2 := s.leafUnder p pa 3 ((s.part p).world w).s2root 0

/-- The leaf that maps a partition-physical address, looked for in the worlds' trees in ascending order. -/
def State.leafOfFrame (s : State) (p pa : Nat) : Option Leaf2 :=
  ((s.part p).worlds.filter (fun q => q.2.present)).findSome? (fun q => s.leafIn p q.1 pa)

/-- The second-stage leaf that maps a guest-physical address: its level, the partition-physical address of its entry and
the entry. -/
def State.leafAt (s : State) (p gpa : Nat) : Nat → Nat → Option (Nat × Nat × Nat)
  | L, table =>
    if s.frameOk p table 256 = false then none
    else
      let a := table + entryOffset gpa L
      let e := leNat (s.raw (hbmLoc p a) 8)
      match checkEntry true L e with
      | .error _ => none
      | .ok (.table next) => (match L with | 0 => none | L + 1 => State.leafAt s p gpa L next)
      | .ok _ => some (L, a, e)

/-- The leaf of a world's page. -/
def State.worldLeaf (s : State) (p w gpa : Nat) : Option (Nat × Nat × Nat) :=
  s.leafAt p gpa 3 ((s.part p).world w).s2root

/-- Is the page that ACCSEL names, by its guest-physical page, partition and world, held by another module (R421, R423)? -/
def State.pageAway (s : State) (page : Nat) : Bool :=
  match s.worldLeaf (page / 2 ^ 8 % 2 ^ 8) (page % 2 ^ 8) (floorTo page (2 ^ 16)) with
  | some (L, _, e) => (match checkEntry true L e with | .ok (.remote _ _ _) => true | _ => false)
  | none => false

/-- Does a first-stage leaf under a table of level L map some guest-physical address of [lo, hi) for a party? -/
def State.mapsGuest (s : State) (y : Party) (lo hi : Nat) : Nat → Nat → Bool
  | L, table =>
    (upFrom 0 (levelEntries L)).any (fun i =>
      match s.read2 y (table + 8 * i) L 0 false with
      | .error _ => false
      | .ok e =>
        match checkEntry false L e with
        | .ok (.table next) => (match L with | 0 => false | L + 1 => s.mapsGuest y lo hi L next)
        | .ok (.leaf page _) => decide (page < hi && lo < page + pageBytes L)
        | _ => false)

/-- Does a context's first stage reach some guest-physical address of [lo, hi)? -/
def State.contextMaps (s : State) (y : Party) (lo hi : Nat) : Bool :=
  let tab := (s.vf (s.worldOf y).vf).ctxtab.toNat
  if bitAt tab 0 = false then false
  else match s.read2 y (bitsAt tab 12 36 * 2 ^ 12 + 8 * y.context) 4 0 false with
    | .error _ => false
    | .ok e => bitAt e 0 && s.mapsGuest y lo hi 3 (bitsAt e 12 36 * 2 ^ 12)

/-- The contexts of a partition that reach the granule at a partition-physical address through some world's leaf. -/
def State.readersOf (s : State) (p pa : Nat) : List Party :=
  (((s.part p).worlds.filter (fun q => q.2.present)).map (fun q =>
    match s.leafIn p q.1 pa with
    | none => []
    | some f =>
      let g := f.gpa + (pa - f.page) % pageBytes f.level
      ((upFrom 0 256).map (fun c => (⟨p, q.1, c⟩ : Party))).filter (fun y => s.contextMaps y g (g + 16)))).flatten

end Sys2Proof.Machine
end

