-- ==== Sys2Proof/Machine/MemInstr.lean ====
section
/-! DEFINITION. Loads, stores, vector queues, gathers and atomics of the sequencer (R129 to R135, R191, R322). -/

namespace Sys2Proof.Machine

/-! ### Scalars and capabilities (R132) -/

/-- The value of a load: zero- or sign-extended (R132). -/
def loadValue (signed : Bool) (bs : List Byte) : Word64 :=
  if signed then sext64 (8 * bs.length) (leNat bs) else BitVec.ofNat 64 (leNat bs)

/-- LDS (R132). -/
def execLds (d : BitVec 5) (a : BitVec 4) (z : BitVec 3) (f : BitVec 2) (k : BitVec 11) (s : State) :
    Host.Outcome State Fault Refusal :=
  let n := (loadSize z.toNat).1
  s.runSeq (match s.loadBytes (s.c a) (scaledAddr (s.c a) k n) n n f.toNat with
    | .error e => .error e
    | .ok (bs, _, t) => .ok (t.writeG d (loadValue (loadSize z.toNat).2 bs)))

/-- STS (R132). -/
def execSts (g : BitVec 5) (a : BitVec 4) (z : BitVec 2) (f : BitVec 2) (k : BitVec 11) (s : State) :
    Host.Outcome State Fault Refusal :=
  let n := plainSize z.toNat
  let x := scaledAddr (s.c a) k n
  s.runSeq (do
    capCheck (s.c a) x n permStore
    let ps ← s.storeChecks (s.c a) x n n f.toNat
    .ok (← s.storeBytes f.toNat ps (leBytes (s.g g).toNat n)).advance)

/-- The capability an LDC delivers: the tag only with LOADCAP, and only when it is not stale (R125, R132). -/
def State.loadedCap (s : State) (through : Cap) (bs : List Byte) (tag : Bool) : Cap :=
  s.freshCap s.party (capOfBytes bs (tag && through.grants permLoadCap))

/-- LDC (R132). -/
def execLdc (d : BitVec 4) (a : BitVec 4) (f : BitVec 2) (k : BitVec 11) (s : State) : Host.Outcome State Fault Refusal :=
  s.runSeq (do
    let (bs, tag, t) ← s.loadBytes (s.c a) (scaledAddr (s.c a) k 16) 16 16 f.toNat
    s.awaitGen s.party (capOfBytes bs tag).base
    .ok (t.writeC d (s.loadedCap (s.c a) bs tag)))

/-- Does c_a lack a permission that STC of a tagged capability needs beside STORE: STORECAP and the GLOBAL rule (R132)? -/
def lacksStoreCap (through v : Cap) : Bool :=
  v.tag && (!through.grants permStoreCap || (!v.grants permGlobal && through.grants permGlobal))

/-- The capability checks of STC: tag, seal, every permission, and the bounds last (R85, R129, R132). -/
def storeCapCheck (through v : Cap) (x : Int) : Chk Unit :=
  let info := BitVec.ofInt 64 x
  if through.tag = false then trap .captag info
  else if through.otype ≠ 0 then trap .capseal info
  else if through.grants permStore = false ∨ lacksStoreCap through v = true then trap .capperm info
  else capRange through x 16

/-- Writes a capability with its tag over its one piece (R125, R422). -/
def State.putCap (s : State) (q : Nat) (ps : List Piece) (v : Cap) : Chk State :=
  match ps with
  | ⟨va, _, .away m a g, y⟩ :: _ => do
    let core := s.actor.core
    s.awaitStores [s.request core 0 0 m a (BitVec.ofNat 64 va) (.store (capBytes v) [v.tag]) g y]
    .ok (s.dropAnswers core 0)
  | ⟨_, _, .here l key, _⟩ :: _ =>
    let t := ((s.clearSyncs ps).dropAnswers s.actor.core 0).putLast s.actor.core (q != 0) l key (capBytes v)
    .ok { t with mem := t.mem.setTag l v.tag }
  | [] => .ok s

/-- STC (R132). -/
def execStc (sel : BitVec 4) (a : BitVec 4) (f : BitVec 2) (k : BitVec 11) (s : State) : Host.Outcome State Fault Refusal :=
  let x := scaledAddr (s.c a) k 16
  s.runSeq (do
    storeCapCheck (s.c a) (s.c sel) x
    let ps ← s.storeChecks (s.c a) x 16 16 f.toNat
    .ok (← s.putCap f.toNat ps (s.c sel)).advance)

/-! ### Vector queues (R133, R191) -/

/-- The bank in FIFO mode that an address names, if it names one. -/
def State.fifoAt (s : State) (x : Nat) : Option (Nat × Nat × Nat) :=
  match windowOf x with
  | .bank k b off => if ((s.cluster k).bank b).mode = 2 then some (k, b, off) else none
  | _ => none

/-- The checks of an LDQ or STQ on a FIFO bank: any address of its window, its rules (R188, R191), no qualifier (R190). -/
def State.checkFifo (s : State) (q x k b off : Nat) : Chk Unit :=
  if ((s.cluster k).bank b).switching.isSome || !s.firstFor (.bank k b) s.actor.core then waitFor (.bank k b)
  else require (q = 0 && s.bankOk s.party k b ⟨false, false, true, false⟩ && off < bankSize k) .memmode x

/-- Data on its way into a load queue (R133). -/
def State.startLoad (s : State) (q : Nat) (v : Vec) : State :=
  s.setMe { s.me with eng := { s.me.eng with loads := s.me.eng.loads ++ [⟨q, v⟩] } }

/-- Entries of a load queue, loads in flight counted (R133). -/
def Core.loadQLoad (c : Core) (q : Nat) : Nat := (c.loadQ q).length + (c.eng.loads.filter (fun l => l.queue = q)).length

/-- Waits for room in a load queue (R133). -/
def State.waitLoadRoom (s : State) (q : Nat) : Chk Unit := waitUnless (s.me.loadQLoad q < 8) .other

/-- LDQ of 256 bytes of memory. -/
def State.loadVec (s : State) (q : Nat) (c : Cap) (x : Int) (f : Nat) : Chk State := do
  let a := x.toNat
  capCheck c x 256 permLoad
  require (a % 16 = 0) .align a
  match s.fifoAt a with
  | some (k, b, off) =>
    s.checkFifo f a k b off
    s.waitLoadRoom q
    waitUnless (s.firstFor (.fifo k b false) s.actor.core) (.fifo k b false)
    match ((s.cluster k).bank b).fifo with
    | [] => waitFor (.fifo k b false)
    | v :: l => .ok ((s.setCluster k ((s.cluster k).setBank b { (s.cluster k).bank b with fifo := l })).startLoad q v)
  | none =>
    s.checkKind s.actor.core s.party (Reach.ofQualifier f) a 256 a
    let ps ← s.piecesOf s.actor.core s.party c a 256 false false
    s.checkSyncs ps
    s.waitLoadRoom q
    s.waitFe false f ps
    s.checkEarly ps a
    let bs ← s.readPieces s.actor.core 0 ps
    .ok ((s.afterRead f ps).startLoad q (vecOfBytes bs))

/-- LDQ (R133). -/
def execLdq (q : BitVec 2) (a : BitVec 4) (b : BitVec 5) (f : BitVec 2) (s : State) : Host.Outcome State Fault Refusal :=
  s.runSeq (match s.loadVec q.toNat (s.c a) (indexedAddr (s.c a) (s.g b)) f.toNat with
    | .error e => .error e
    | .ok t => .ok t.advance)

/-- The head entry of a store queue, once there is one (R133). -/
def State.storeHead (s : State) (q : Nat) : Chk Vec :=
  match s.me.storeQ q with
  | [] => waitFor .other
  | v :: _ => .ok v

/-- Pops a store queue. -/
def State.popStore (s : State) (q : Nat) : State := s.setMe (s.me.setStoreQ q (s.me.storeQ q).tail)

/-- STQ of 256 bytes (R133, R191). -/
def State.storeVec (s : State) (q : Nat) (c : Cap) (x : Int) (f : Nat) : Chk State := do
  let a := x.toNat
  capCheck c x 256 permStore
  require (a % 16 = 0) .align a
  match s.fifoAt a with
  | some (k, b, off) =>
    s.checkFifo f a k b off
    let v ← s.storeHead q
    let bank := (s.cluster k).bank b
    waitUnless (s.firstFor (.fifo k b true) s.actor.core && bank.fifo.length < fifoRoom k) (.fifo k b true)
    .ok ((s.setCluster k ((s.cluster k).setBank b { bank with fifo := bank.fifo ++ [v] })).popStore q)
  | none =>
    s.checkKind s.actor.core s.party (Reach.ofQualifier f) a 256 a
    let ps ← s.piecesOf s.actor.core s.party c a 256 true false
    s.checkSyncs ps
    let v ← s.storeHead q
    s.waitFe true f ps
    .ok ((← s.storeBytes f ps (vecBytes v)).popStore q)

/-- STQ (R133). -/
def execStq (q : BitVec 2) (a : BitVec 4) (b : BitVec 5) (f : BitVec 2) (s : State) : Host.Outcome State Fault Refusal :=
  s.runSeq (match s.storeVec q.toNat (s.c a) (indexedAddr (s.c a) (s.g b)) f.toNat with
    | .error e => .error e
    | .ok t => .ok t.advance)

/-! ### Gathers (R134) -/

/-- The checks of GATHER and SCATTER on c_a and its alignment, before any wait (R134). -/
def gatherCap (c : Cap) (size perm : Nat) : Chk Unit :=
  if c.tag = false then trap .captag c.cursor
  else if c.otype ≠ 0 then trap .capseal c.cursor
  else if c.grants perm = false then trap .capperm c.cursor
  else if c.cursor.toNat % size ≠ 0 then trap .align c.cursor
  else .ok ()

/-- The lane addresses of an index entry, exact and signed (R134). -/
def laneAddrs (c : Cap) (size : Nat) (ix : List Int) : List Int := ix.map (fun i => (c.cursor.toNat : Int) + i * size)

/-- The bounds check of each lane, in ascending order; the failing lane is named (R134). -/
def checkLanes (c : Cap) (size : Nat) : Nat → List Int → Chk Unit
  | _, [] => .ok ()
  | i, x :: l =>
    if x < c.base ∨ (c.top : Int) < x + size then .error (.trap .capbounds (BitVec.ofInt 64 x) (some i))
    else checkLanes c size (i + 1) l

/-- The checks that depend on the entry: count, lanes, memory kind, translation (R134). -/
def State.gatherPieces (s : State) (c : Cap) (size : Nat) (ix : List Int) (write : Bool) : Chk (List (List Piece)) := do
  require (ix.length ≤ 256 / size) .argrange ix.length
  let xs := laneAddrs c size ix
  checkLanes c size 0 xs
  checkAll (fun x => s.checkKind s.actor.core s.party Reach.plain x.toNat size x.toNat) xs
  let pss ← mapChk (fun x => s.piecesOf s.actor.core s.party c x.toNat size write false) xs
  s.checkSyncs pss.flatten
  .ok pss

/-- The head of an index queue, once there is one (R134). -/
def State.indexHead (s : State) (m : Nat) : Chk (List Int) :=
  match s.me.indexQ m with
  | [] => waitFor .other
  | e :: _ => .ok e

/-- Pops an index queue. -/
def State.popIndex (s : State) (m : Nat) : State := s.setMe (s.me.setIndexQ m (s.me.indexQ m).tail)

/-- GATHER (R134). -/
def State.gather (s : State) (q : Nat) (c : Cap) (m size : Nat) : Chk State := do
  gatherCap c size permLoad
  let ix ← s.indexHead m
  let pss ← s.gatherPieces c size ix false
  s.waitLoadRoom q
  checkAll (fun ps => s.checkEarly ps ((ps.head?.map Piece.va).getD 0)) pss
  let bss ← mapChk (fun ps => s.readPieces s.actor.core 0 ps) pss
  let t := (s.clearSyncs pss.flatten).dropAnswers s.actor.core 0
  .ok ((t.popIndex m).startLoad q (vecOfBytes bss.flatten))

/-- GATHER (R134). -/
def execGather (q : BitVec 2) (a : BitVec 4) (m : BitVec 1) (z : BitVec 2) (s : State) : Host.Outcome State Fault Refusal :=
  s.runSeq (match s.gather q.toNat (s.c a) m.toNat (plainSize z.toNat) with
    | .error e => .error e
    | .ok t => .ok t.advance)

/-- The lane writes of a SCATTER, ascending; a later lane wins (R134). -/
def State.scatterLanes (s : State) (size : Nat) : List (List Piece) → List Byte → State
  | [], _ => s
  | ps :: l, bs => (s.putPieces s.actor.core 0 false ps (bs.take size)).scatterLanes size l (bs.drop size)

/-- The requests that the lane writes of a SCATTER make at other modules. -/
def State.laneRequests (s : State) (size : Nat) : List (List Piece) → List Byte → List Forward
  | [], _ => []
  | ps :: l, bs => s.storeRequests s.actor.core 0 0 (joinLines ps) (bs.take size) ++ s.laneRequests size l (bs.drop size)

/-- SCATTER (R134). -/
def State.scatter (s : State) (q : Nat) (c : Cap) (m size : Nat) : Chk State := do
  gatherCap c size permStore
  let ix ← s.indexHead m
  let v ← s.storeHead q
  let pss ← s.gatherPieces c size ix true
  s.awaitStores (s.laneRequests size pss (vecBytes v))
  let t := (((s.clearSyncs pss.flatten).dropAnswers s.actor.core 0).popIndex m).popStore q
  .ok (t.scatterLanes size pss (vecBytes v))

/-- SCATTER (R134). -/
def execScatter (q : BitVec 2) (a : BitVec 4) (m : BitVec 1) (z : BitVec 2) (s : State) : Host.Outcome State Fault Refusal :=
  s.runSeq (match s.scatter q.toNat (s.c a) m.toNat (plainSize z.toNat) with
    | .error e => .error e
    | .ok t => .ok t.advance)

/-! ### Atomics (R135) -/

/-- The functions of the atomics (R135). -/
inductive AmoFn where
  | add | swap | cas | min | max | and | or
  deriving DecidableEq, Repr

/-- Their codes (R135). -/
def AmoFn.code : AmoFn → Nat
  | .add => 0
  | .swap => 1
  | .cas => 2
  | .min => 3
  | .max => 4
  | .and => 5
  | .or => 6

/-- The new value of n bytes: old value, operand, compared value, all as unsigned n-byte numbers (R135). -/
def amoNew (f : AmoFn) (n old y cmp : Nat) : Nat :=
  match f with
  | .add => (old + y) % 2 ^ (8 * n)
  | .swap => y
  | .cas => if old = cmp then y else old
  | .min => if signedOf (8 * n) y < signedOf (8 * n) old then y else old
  | .max => if signedOf (8 * n) old < signedOf (8 * n) y then y else old
  | .and => old &&& y
  | .or => old ||| y

/-- EVWATCH after an AMO at a virtual address (R322). -/
def State.watch (s : State) (x : Nat) : State :=
  s.setMe { s.me with sys := { s.me.sys with evwatch := BitVec.ofNat 64 (x / 16 * 16 + 1) } }

/-- Is the party's function limited to tenant scope (R140, R320)? -/
def State.tenantLimited (s : State) : Bool := (s.worldOf s.party).tenant

/-- An operation of system scope in a tenant-limited function sets SCOPEDEMOTED (R320). -/
def State.demote (s : State) (system : Bool) : State :=
  if system && s.tenantLimited then s.setMe { s.me with sys := { s.me.sys with demoted := true } } else s

/-- The scope code at which an operation of the acting core acts: .sys acts at .part in a tenant-limited function (R320). -/
def State.actingScope (s : State) (code : Nat) : Nat := if code = 5 && s.tenantLimited then 4 else code

/-- The forwarded form of an AMO: one request to the module that holds the page, its reply the old value (R422). -/
def State.amoAway (s : State) (f : AmoFn) (n m a page : Nat) (c : Cap) (y cmp : Word64) (scope : Nat) : Chk Word64 :=
  let core := s.actor.core
  let k := FwdKind.amo (BitVec.ofNat 3 f.code) (if n = 8 then 0 else 1) y cmp (BitVec.ofNat 3 (s.actingScope scope))
  match s.outer.forwards.find? (fun g => g.core = core && g.engine = 0 && g.module = m && g.line = a && g.kind = k) with
  | none => .error (.forward [s.request core 0 0 m a c.cursor k page ⟨s.party, some c⟩])
  | some g =>
    match g.reply with
    | none => waitFor .other
    | some none => trapN .memerr (floorTo c.cursor.toNat 64)
    | some (some (bs, _)) => .ok (sext64 (8 * n) (leNat (bs.take n)))

/-- An AMO (R135): old value sign-extended, and the state after. Its read and its write are one, after every write made
before it (R309). At another module it takes its place, and arms the watch, when its reply comes (R322, R422). -/
def State.amo (s : State) (f : AmoFn) (c : Cap) (n : Nat) (y cmp : Word64) (scope : Nat) : Chk (Word64 × State) := do
  let x := c.cursor.toNat
  let ps ← s.readChecks c x n n 0 Reach.amo (permLoad + permStore) true
  match ps with
  | ⟨_, _, .away m a g, _⟩ :: _ =>
    let v ← s.amoAway f n m a g c y cmp scope
    .ok (v, ((s.dropAnswers s.actor.core 0).watch x).demote (scope = 5))
  | ⟨_, _, .here l key, _⟩ :: _ =>
    let bs ← { s with older := [] }.readPieces s.actor.core 0 ps
    let old := leNat bs
    let new := amoNew f n old (y.toNat % 2 ^ (8 * n)) (cmp.toNat % 2 ^ (8 * n))
    let t := ((s.clearSyncs ps).dropAnswers s.actor.core 0).putLast s.actor.core false l key (leBytes new n)
    .ok (sext64 (8 * n) old, (t.watch x).demote (scope = 5))
  | [] => .ok (0, s)

/-- The acting core's AMO with its register operands: gd receives the old value (R135). -/
def State.runAmo (s : State) (f : AmoFn) (d : BitVec 5) (a : BitVec 4) (b : BitVec 5) (w : BitVec 1) (scope : BitVec 3) :
    Host.Outcome State Fault Refusal :=
  s.runSeq (match s.amo f (s.c a) (if w = 1 then 4 else 8) (s.g b) (s.g d) scope.toNat with
    | .error e => .error e
    | .ok (v, t) => .ok (t.writeG d v))

/-- AMOADD (R135). -/
def execAmoadd (d : BitVec 5) (a : BitVec 4) (b : BitVec 5) (w : BitVec 1) (sel : BitVec 3) (s : State) :
    Host.Outcome State Fault Refusal := s.runAmo .add d a b w sel

/-- AMOSWAP (R135). -/
def execAmoswap (d : BitVec 5) (a : BitVec 4) (b : BitVec 5) (w : BitVec 1) (sel : BitVec 3) (s : State) :
    Host.Outcome State Fault Refusal := s.runAmo .swap d a b w sel

/-- AMOCAS: compared with g_d (R135). -/
def execAmocas (d : BitVec 5) (a : BitVec 4) (b : BitVec 5) (w : BitVec 1) (sel : BitVec 3) (s : State) :
    Host.Outcome State Fault Refusal := s.runAmo .cas d a b w sel

/-- AMOMIN, signed (R135). -/
def execAmomin (d : BitVec 5) (a : BitVec 4) (b : BitVec 5) (w : BitVec 1) (sel : BitVec 3) (s : State) :
    Host.Outcome State Fault Refusal := s.runAmo .min d a b w sel

/-- AMOMAX, signed (R135). -/
def execAmomax (d : BitVec 5) (a : BitVec 4) (b : BitVec 5) (w : BitVec 1) (sel : BitVec 3) (s : State) :
    Host.Outcome State Fault Refusal := s.runAmo .max d a b w sel

/-- AMOAND (R135). -/
def execAmoand (d : BitVec 5) (a : BitVec 4) (b : BitVec 5) (w : BitVec 1) (sel : BitVec 3) (s : State) :
    Host.Outcome State Fault Refusal := s.runAmo .and d a b w sel

/-- AMOOR (R135). -/
def execAmoor (d : BitVec 5) (a : BitVec 4) (b : BitVec 5) (w : BitVec 1) (sel : BitVec 3) (s : State) :
    Host.Outcome State Fault Refusal := s.runAmo .or d a b w sel

end Sys2Proof.Machine
end

