-- ==== Sys2Proof/Machine/Sync.lean ====
section
/-! DEFINITION. Sync objects, fences, publication and revocation (R136 to R142, R147 to R149). -/

namespace Sys2Proof.Machine

/-! ### The object a capability addresses (R138) -/

/-- HBM-backed memory only (R136). -/
def Reach.hbmOnly : Reach := ⟨false, false, false, true⟩

/-- The capability checks of R138. -/
def objectCap (c : Cap) : Chk Unit := capCheck c c.cursor.toNat 64 (permLoad + permStore)

/-- Alignment, memory kind and place of an object: a location of this module's memory. What no translation for a write
reaches, a poisoned table or a leaf that denies writes among the reasons, or what another module holds, is no HBM-backed
memory of the partition that can hold an object: MEMMODE, for R151 gives no other trap (R136, R138; log 22). -/
def State.objectLoc (s : State) (c : Cap) : Chk Nat := do
  let x := c.cursor.toNat
  require (x % 64 = 0) .align x
  s.checkKind s.actor.core s.party Reach.hbmOnly x 64 x
  match s.placeOf s.actor.core s.party x true false with
  | .ok (.here l _) => .ok l
  | .ok (.away _ _ _) => trapN .memmode x
  | .error (.xlate f) => if f.remote.isSome then .error (.xlate f) else trapN .memmode x
  | .error (.wait r) => waitFor r
  | .error _ => trapN .memmode x

/-- The marked object at a location; SYNCSTATE 1 where there is none (R137). -/
def State.objectAt (s : State) (loc : Nat) : Chk SyncObj :=
  match Sparse.find? loc (s.part s.party.part).syncs with
  | some o => .ok o
  | none => trapN .syncstate 1

/-- Stores an object; its bytes in memory are the device's own (R136; log 20), and the write is the acting sequencer's: its
own latch does not see it (R321). -/
def State.putSync (s : State) (loc : Nat) (o : SyncObj) : State :=
  let t := s.modPart s.party.part (fun x => { x with syncs := Sparse.set loc o x.syncs })
  let bs := sliceB 0 64 (Config.syncBytes loc s.draws)
  (({ t with mem := t.mem.poke loc bs }).wake (some s.actor.core) (granules loc 64)).drew 1

/-- An object just marked: free, with an empty table (R138). -/
def SyncObj.fresh : SyncObj := { mode := .free, regions := [], waiting := [] }

/-- The acting core's record. -/
def State.myRecord (s : State) : Nat := s.me.record

/-! ### SYNCINIT, ACQ, REL (R138) -/

/-- SYNCINIT (R138). -/
def State.syncInit (s : State) (c : Cap) : Chk State := do
  objectCap c
  let l ← s.objectLoc c
  match Sparse.find? l (s.part s.party.part).syncs with
  | none => .ok (s.putSync l SyncObj.fresh)
  | some o =>
    require (!o.inUse && o.waiting.isEmpty) .syncstate 8
    .ok (s.putSync l SyncObj.fresh)

/-- SYNCINIT (R138). -/
def execSyncinit (a : BitVec 4) (s : State) : Host.Outcome State Fault Refusal :=
  s.runSeq (match s.syncInit (s.c a) with
    | .error e => .error e
    | .ok t => .ok t.advance)

/-- Can a request be granted at once (R138)? -/
def SyncObj.grants (o : SyncObj) (exclusive : Bool) : Bool :=
  match o.mode with
  | .free => true
  | .shared _ => !exclusive && o.waiting.isEmpty
  | .exclusive _ => false

/-- The object with a record as one more holder. -/
def SyncObj.hold (o : SyncObj) (exclusive : Bool) (a : Nat) : SyncObj :=
  match o.mode with
  | .shared hs => { o with mode := .shared (Marks.add a hs) }
  | _ => { o with mode := if exclusive then .exclusive a else .shared [a] }

/-- ACQ (R138): infos 1, 2 and 9, then a grant at once, or the queue and a suspension. -/
def State.acquire (s : State) (exclusive : Bool) (c : Cap) : Chk State := do
  objectCap c
  let l ← s.objectLoc c
  let o ← s.objectAt l
  let a := s.myRecord
  require (!o.heldBy a) .syncstate 2
  require (((s.part s.party.part).heldSyncs a).length < 8) .syncstate 9
  if o.grants exclusive then .ok ((s.putSync l (o.hold exclusive a)).demote true).advance
  else
    s.canSuspend
    ((s.putSync l { o with waiting := o.waiting ++ [(a, exclusive)] }).demote true).suspendAs 4 (s.me.pc + 1)

/-- ACQ.sh (R138). -/
def execAcqSh (a : BitVec 4) (s : State) : Host.Outcome State Fault Refusal := s.runSeq (s.acquire false (s.c a))

/-- ACQ.ex (R138). -/
def execAcqEx (a : BitVec 4) (s : State) : Host.Outcome State Fault Refusal := s.runSeq (s.acquire true (s.c a))

/-- The object, its holder gone and its grants made, in one step (R138). -/
def State.doRelease (s : State) (l : Nat) : State :=
  let t := s.releaseSync s.party.part l s.myRecord
  match Sparse.find? l (t.part s.party.part).syncs with
  | some o => (t.putSync l o).demote true
  | none => t

/-- REL (R138): infos 1 and 3, the sequencer's earlier accesses performed, then the release. -/
def State.release (s : State) (c : Cap) : Chk State := do
  objectCap c
  let l ← s.objectLoc c
  let o ← s.objectAt l
  require (o.heldBy s.myRecord) .syncstate 3
  waitUnless (s.performed s.actor.core) .other
  .ok ((s.perform s.actor.core (· = 0)).doRelease l)

/-- REL (R138). -/
def execRel (a : BitVec 4) (s : State) : Host.Outcome State Fault Refusal :=
  s.runSeq (match s.release (s.c a) with
    | .error e => .error e
    | .ok t => .ok t.advance)

/-! ### BIND, UNBIND, PUBLISH (R139, R141) -/

/-- CapCheck of the region or buffer of R139. -/
def regionCap (c : Cap) (perm : Nat) : Chk Unit := capCheck c c.base c.span perm

/-- Does a range touch the L1 or L2 window? -/
def touchesWindow (lo hi : Nat) : Bool := lo < 2 ^ 47 && 0x7E0000000000 < hi

/-- The exclusive hold that BIND, UNBIND and PUBLISH need: infos 1 and 4. -/
def State.exclusiveObject (s : State) (l : Nat) : Chk SyncObj := do
  let o ← s.objectAt l
  require (o.mode = .exclusive s.myRecord) .syncstate 4
  .ok o

/-- The checks of BIND and UNBIND up to the object: capabilities, alignment, memory kind, translation, state (R139).
Where two checks fail MEMMODE, the region of c_a comes before the object of c_b (DESIGN CHOICE, log 84). -/
def State.bindChecks (s : State) (ca cb : Cap) : Chk (Nat × SyncObj) := do
  objectCap cb
  regionCap ca permBind
  require (cb.cursor.toNat % 64 = 0) .align cb.cursor.toNat
  require (!touchesWindow ca.base ca.top) .memmode ca.base
  let l ← s.objectLoc cb
  let o ← s.exclusiveObject l
  .ok (l, o)

/-- The region that a capability covers, as a party addresses it. -/
def Party.region (y : Party) (c : Cap) : Region := ⟨c.base, c.top, y.world, y.context⟩

/-- Do two regions overlap: the same world and context, and a byte in both (SYNCSTATE 6; log 20)? -/
def Region.overlaps (r q : Region) : Bool := r.world = q.world && r.context = q.context && r.lo < q.hi && q.lo < r.hi

/-- Does a region overlap one bound to some object of the partition (SYNCSTATE 6)? -/
def Partition.bindsOver (p : Partition) (r : Region) : Bool := p.syncs.any (fun o => o.2.regions.any r.overlaps)

/-- BIND (R139). -/
def State.bindRegion (s : State) (ca cb : Cap) : Chk State := do
  let lo ← s.bindChecks ca cb
  require (lo.2.regions.length < 8) .syncstate 5
  require (!(s.part s.party.part).bindsOver (s.party.region ca)) .syncstate 6
  .ok (s.putSync lo.1 { lo.2 with regions := lo.2.regions ++ [s.party.region ca] })

/-- BIND (R139). -/
def execBind (a : BitVec 4) (b : BitVec 4) (s : State) : Host.Outcome State Fault Refusal :=
  s.runSeq (match s.bindRegion (s.c a) (s.c b) with
    | .error e => .error e
    | .ok t => .ok t.advance)

/-- UNBIND (R139). -/
def State.unbindRegion (s : State) (ca cb : Cap) : Chk State := do
  let lo ← s.bindChecks ca cb
  require (lo.2.regions.contains (s.party.region ca)) .syncstate 7
  .ok (s.putSync lo.1 { lo.2 with regions := lo.2.regions.filter (· != s.party.region ca) })

/-- UNBIND (R139). -/
def execUnbind (a : BitVec 4) (b : BitVec 4) (s : State) : Host.Outcome State Fault Refusal :=
  s.runSeq (match s.unbindRegion (s.c a) (s.c b) with
    | .error e => .error e
    | .ok t => .ok t.advance)

/-- The shadowed pairs a buffer covers, each with the size of a frame; none when some page has none (R141). -/
def State.pairsOf (s : State) (ca : Cap) : Option (List (Nat × Nat)) :=
  let ps := (pagesOf ca.base ca.top).map (s.shadowPair s.party)
  if touchesWindow ca.base ca.top || ps.any Option.isNone then none else some (ps.filterMap id)

/-- A queued or running copy of this core may still write the buffer (R141): its block holds a page of it for writing
(log 25). -/
def State.copiesInto (s : State) (core lo hi : Nat) : Bool :=
  (s.core core).eng.holds.any (fun h => h.write && h.vpage * 2 ^ 16 < hi && lo < (h.vpage + 1) * 2 ^ 16)

/-- Matrix and Stratus blocks of this core have completed (R102, R141). -/
def State.arraysQuiet (s : State) (core : Nat) : Bool :=
  let k := s.cluster (clusterOf core)
  (s.core core).eng.matQ.isEmpty && (s.core core).eng.stratQ.isEmpty && k.flights.all (fun f => f.core != core)
    && (k.stratOf core).isNone

/-- Exchanges the frames of pairs. -/
def flipAll (ps : List Nat) (m : Marks) : Marks :=
  ps.foldl (fun m p => if Marks.has p m then Marks.del p m else Marks.add p m) m

/-- The location that a location of a pair's frame changes places with. -/
def exchanged (p : Nat) (ps : List (Nat × Nat)) (l : Nat) : Nat :=
  match ps.find? (fun q => hbmLoc p q.1 ≤ l && l < hbmLoc p (q.1 + 2 * q.2)) with
  | none => l
  | some q => if l < hbmLoc p (q.1 + q.2) then l + q.2 else l - q.2

/-- A place, its location changed. -/
def Place.move (f : Nat → Nat) : Place → Place
  | .here l k => .here (f l) k
  | .away m a g => .away m a g

/-- Pieces, their locations changed. -/
def movePieces (f : Nat → Nat) (ps : List Piece) : List Piece := ps.map (fun p => { p with place := p.place.move f })

/-- A Stratus block, the locations of its traffic, and of the microword that still reads, changed. -/
def StratRun.move (f : Nat → Nat) (u : StratRun) : StratRun :=
  { u with traffic := u.traffic.map (fun t => { t with pieces := movePieces f t.pieces })
           held := u.held.map (fun h => (movePieces f h.1, h.2)) }

/-- Cumulus, the locations of the descriptors on their way changed. -/
def Cumulus.move (f : Nat → Nat) (u : Cumulus) : Cumulus :=
  { u with submits := u.submits.map (fun x => { x with place := x.place.move f }) }

/-- A core, the locations that its transfer blocks hold changed. -/
def Core.moveHolds (f : Nat → Nat) (c : Core) : Core :=
  { c with eng := { c.eng with holds := c.eng.holds.map (fun h => { h with place := h.place.move f }) } }

/-- Matrix traffic, the locations it writes changed. -/
def MatFlight.move (f : Nat → Nat) (m : MatFlight) : MatFlight :=
  match m.what with
  | .store t ps bs r => { m with what := .store t (movePieces f ps) bs r }
  | .fetch _ _ => m

/-- What the engines of every core and every save area hold, its locations changed: an engine access in flight at a swap
reaches the frame that has its part when it is made (R141, R315). -/
def State.moveFlights (s : State) (p : Nat) (f : Nat → Nat) : State :=
  let s := s.modPart p (fun x => { x with
    areas := x.areas.map (fun q => (q.1, { q.2 with saved := q.2.saved.map (fun v =>
      { v with core := v.core.moveHolds f, strat := v.strat.map (StratRun.move f) }) })) })
  { s with
    cores := s.cores.map (fun q => (q.1, q.2.moveHolds f))
    clusters := s.clusters.map (fun q => (q.1, { q.2 with
      flights := q.2.flights.map (MatFlight.move f)
      cumulus := q.2.cumulus.move f
      strat := q.2.strat.map (StratRun.move f)
      resumed := q.2.resumed.map (StratRun.move f) })) }

/-- The swap of pairs: the other frame of each is visible from now on, and the sync objects of the pages go with what is
visible (R136, R141). -/
def State.swapPairs (s : State) (p : Nat) (ps : List (Nat × Nat)) : State :=
  let f := exchanged p ps
  let s := s.modPart p (fun x => { x with
    swapped := flipAll (ps.map Prod.fst) x.swapped
    syncs := x.syncs.foldr (fun q t => Sparse.set (f q.1) q.2 t) [] })
  s.moveFlights p f

/-- Does a region cover another one of the same world and context? -/
def Region.covers (r q : Region) : Bool := r.world = q.world && r.context = q.context && r.lo ≤ q.lo && q.hi ≤ r.hi

/-- PUBLISH (R139, R141): the waits, then the swap and the REL in one step. -/
def State.publish (s : State) (ca cb : Cap) : Chk State := do
  objectCap cb
  regionCap ca permPublish
  let l ← s.objectLoc cb
  let o ← s.exclusiveObject l
  require (o.regions.any (fun r => r.covers (s.party.region ca))) .syncstate 7
  checkAll (s.awaitGen s.party) (pagesOf ca.base ca.top)
  match s.pairsOf ca with
  | none => trapN .syncstate 10
  | some ps =>
    let core := s.actor.core
    waitUnless (s.arraysQuiet core && !s.copiesInto core ca.base ca.top && s.performed core) .other
    .ok (((s.perform core (fun _ => true)).swapPairs s.party.part ps.dedup).doRelease
      (exchanged s.party.part ps.dedup l))

/-- PUBLISH (R141). -/
def execPublish (a : BitVec 4) (b : BitVec 4) (s : State) : Host.Outcome State Fault Refusal :=
  s.runSeq (match s.publish (s.c a) (s.c b) with
    | .error e => .error e
    | .ok t => .ok t.advance)

/-! ### FENCE, DRAIN (R140, R142) -/

/-- FENCE: the sequencer's accesses are performed (R140, R310, R320). -/
def execFence (sel : BitVec 3) (s : State) : Host.Outcome State Fault Refusal :=
  s.runSeq (if s.performed s.actor.core then
      .ok ((s.perform s.actor.core (· = 0)).demote (sel.toNat = 5)).advance
    else waitFor .other)

/-- DRAIN: an open channel, then every copy queued on it visible (R142, R297). -/
def execDrain (c : BitVec 4) (s : State) : Host.Outcome State Fault Refusal :=
  let core := s.actor.core
  s.runSeq (do
    require ((s.part s.party.part).channelOpen c.toNat) .chanstate 1
    waitUnless (!s.channelBusy core c.toNat) .other
    .ok (s.perform core (· = copyUnit c.toNat)).advance)

/-! ### Revocation (R147 to R149) -/

/-- A granule whose generation REVOKE advances: of the partition's memory, or of a page that another module holds, which
keeps its generation (R147). -/
inductive Granule where
  | own (g : Nat)
  | away (module g : Nat)
  deriving DecidableEq, Repr

/-- The granule of an address. A walk that meets a poisoned table entry is a fault of its stage with cause RESERVED, for
R151 gives REVOKE no MEMERR (log 26). -/
def State.granuleAt (s : State) (va : Nat) : Chk Granule :=
  match s.translate s.party va false false with
  | .error f => .error (.xlate (if f.cause = badWalk then { f with cause := 3 } else f))
  | .ok (.here l _) => .ok (.own ((l - hbmLoc s.party.part 0) / 4096))
  | .ok (.away m a _) => .ok (.away m (a / 4096))

/-- The granules that [lo, hi) translates to, in ascending order of virtual address; the first one of the address space by
the first address in it that can map memory (R127, R148; log 89). -/
def State.granulesOf (s : State) (lo hi : Nat) : Chk (List Granule) :=
  mapChk (fun i => s.granuleAt (max 0x100 (lo + 4096 * i))) (upFrom 0 ((hi - lo) / 4096))

/-- Those of the partition's own memory. -/
def ownGranules (gs : List Granule) : List Nat :=
  (gs.filterMap (fun g => match g with | .own n => some n | .away _ _ => none)).dedup

/-- Those that other modules hold, by module and granule. -/
def awayGranules (gs : List Granule) : List (Nat × Nat) :=
  (gs.filterMap (fun g => match g with | .own _ => none | .away m n => some (m, n))).dedup

/-- The modules that hold granules learn of the REVOKE, and each has one more of them (R147). -/
def State.tellHolders (s : State) (gs : List (Nat × Nat)) : State :=
  gs.foldl (fun t g =>
    let n := awayGen g.1 (4096 * g.2)
    { t.say (.revoke g.1 g.2) with outer := { (t.say (.revoke g.1 g.2)).outer with
        remoteRevokes := Sparse.set n (Sparse.get t.outer.remoteRevokes 0 n + 1) t.outer.remoteRevokes } }) s

/-- The registers and queued snapshots of a core without stale tags (R148). -/
def State.purgeCore (s : State) (n : Nat) (c : Core) : Core := c.mapCaps (s.freshCap (s.partyOf n))

/-- The snapshot of a Stratus block without stale tags, when its core is one of these. -/
def State.purgeStrat (s : State) (cs : List Nat) (u : StratRun) : StratRun :=
  if cs.contains u.core then u.mapCaps (s.freshCap (s.partyOf u.core)) else u

/-- The purge of REVOKE over every running core of a partition and its Stratus units (R148). -/
def State.purge (s : State) (p : Nat) : State :=
  let cs := (s.part p).cores
  { s with
    cores := s.cores.map (fun q => if cs.contains q.1 && q.2.run.isSome then (q.1, s.purgeCore q.1 q.2) else q)
    clusters := s.clusters.map (fun q =>
      (q.1, { q.2 with strat := q.2.strat.map (s.purgeStrat cs), resumed := q.2.resumed.map (s.purgeStrat cs) })) }

/-- New generations for granules (R148). -/
def bumpGens (gs : List Nat) (t : Sparse (BitVec 8)) : Sparse (BitVec 8) :=
  gs.foldl (fun m g => Sparse.set g (Sparse.get m 0 g + 1) m) t

/-- REVOKE (R148). -/
def State.revoke (s : State) (c : Cap) : Chk State := do
  capCheck c c.base c.span (permStore + permStoreCap)
  require (c.base % 4096 = 0 && c.top % 4096 = 0) .align c.base
  require (decide (c.base < c.top)) .argrange c.base
  require (!touchesWindow c.base c.top) .memmode c.base
  let gs ← s.granulesOf c.base c.top
  let p := s.party.part
  let own := ownGranules gs
  let away := awayGranules gs
  waitUnless ((s.part p).sweeps.all (fun w => own.all (fun g => !w.granules.contains g)
    && away.all (fun g => !w.away.contains g))) .other
  let sweep : Sweep := ⟨s.party.world, s.party.context, own, away⟩
  let t := s.modPart p (fun x => { x with gens := bumpGens own x.gens, sweeps := x.sweeps ++ [sweep] })
  .ok ((t.tellHolders away).purge p)

/-- REVOKE (R148). -/
def execRevoke (a : BitVec 4) (s : State) : Host.Outcome State Fault Refusal :=
  s.runSeq (match s.revoke (s.c a) with
    | .error e => .error e
    | .ok t => .ok t.advance)

/-- Is a capability stale, for a party, because of a sweep's granules? -/
def State.staleBy (s : State) (w : Sweep) (y : Party) (c : Cap) : Bool :=
  match s.translate y c.base false false with
  | .ok (.here l _) => w.granules.contains ((l - hbmLoc y.part 0) / 4096) && (s.genAt y c.base != c.gen)
  | .ok (.away m a _) => w.away.contains (m, a / 4096) && (s.genAt y c.base != c.gen)
  | .error _ => false

/-- The party that revoked, by whose translation the sweep finds stale capabilities (R147). -/
def Sweep.party (w : Sweep) (p : Nat) : Party := ⟨p, w.world, w.context⟩

/-- Whose L1 a location is in, if any. -/
def l1Core (l : Nat) : Option Nat := if 2 ^ 52 ≤ l ∧ l < 2 ^ 53 then some ((l - 2 ^ 52) / 2 ^ 20) else none

/-- Does a location lie in memory of a partition: its HBM, the L1 of its cores, the banks of its clusters? -/
def State.isMemoryOf (s : State) (p l : Nat) : Bool :=
  if l < hbmEnd then hbmLoc p 0 ≤ l && l < hbmLoc (p + 1) 0
  else match l1Core l with
    | some n => s.ownerOf (clusterOf n) = some p
    | none => 2 ^ 53 ≤ l && l < 2 ^ 72 && s.ownerOf ((l - 2 ^ 53) / 2 ^ 24) = some p

/-- The parties by whose translation a sweep judges a capability in a granule of the partition's memory: whoever can read it
there. HBM: the contexts that map it; an L1: the party that its core runs; a bank: every context of its world (R147, R148,
R188; log 44). -/
def State.judgesOf (s : State) (p l : Nat) : List Party :=
  if l < hbmEnd then s.readersOf p (l - hbmLoc p 0)
  else match l1Core l with
    | some n => [s.partyOf n]
    | none =>
      let k := (l - 2 ^ 53) / 2 ^ 24
      (upFrom 0 256).map (fun c => ⟨p, ((s.cluster k).bank ((l - 2 ^ 53) / 2 ^ 20 % 16)).world, c⟩)

/-- The tags a sweep clears: of granules of the partition's memory that hold a capability stale for the party that revoked
or for one that can read it there (R148). -/
def State.sweepTag (s : State) (p : Nat) (w : Sweep) (g : Nat) : Bool :=
  let c := capOfBytes (s.mem.raw (16 * g) 16) true
  s.isMemoryOf p (16 * g) && (s.staleBy w (w.party p) c || (s.judgesOf p (16 * g)).any (fun y => s.staleBy w y c))

/-- A capability that the sweep has reached, for a party. -/
def State.sweptCap (s : State) (p : Nat) (w : Sweep) (y : Party) (c : Cap) : Cap :=
  if c.tag && (s.staleBy w (w.party p) c || s.staleBy w y c) then { c with tag := false } else c

/-- A saved state without the tags that the sweep clears (R148: every suspended record is swept). -/
def State.sweepSaved (s : State) (p : Nat) (w : Sweep) (x : Saved) : Saved :=
  let y : Party := ⟨p, x.world, x.context⟩
  let cap := s.sweptCap p w y
  let tag := fun g => (cap (capOfBytes ((upFrom (16 * g) 16).map (fun l => Sparse.get x.l1 Mem.unlisted l)) true)).tag
  { x with core := x.core.mapCaps cap, strat := x.strat.map (StratRun.mapCaps cap), l1tags := x.l1tags.filter tag }

/-- Every cluster's Cumulus, the capabilities that it holds for tasks of a partition swept. -/
def State.sweepTasks (s : State) (p : Nat) (w : Sweep) : State :=
  let cap := fun world context c => s.sweptCap p w ⟨p, world, context⟩ c
  { s with clusters := s.clusters.map (fun q => (q.1, { q.2 with cumulus := q.2.cumulus.mapCaps p cap })) }

/-- What the device itself holds of a partition's capabilities, swept: save areas, and the buffers of its channels. -/
def State.sweepHeld (s : State) (p : Nat) (w : Sweep) (x : Partition) : Partition :=
  { x with
    areas := x.areas.map (fun q => (q.1, { q.2 with saved := q.2.saved.map (s.sweepSaved p w) }))
    channels := x.channels.map (fun q => (q.1, { q.2 with queue := q.2.queue.map (s.sweptCap p w (w.party p)) })) }

/-- A background sweep of the acting partition completes (R148). -/
def execRevokeSweepComplete (idx : Nat) (s : State) : Host.Outcome State Fault Refusal :=
  let p := s.actor.part
  .next (match (s.part p).sweeps[idx]? with
    | none => s
    | some w =>
      let t := { s.sweepTasks p w with mem := { s.mem with tags := s.mem.tags.filter (fun g => !s.sweepTag p w g) } }
      t.modPart p (fun x => { s.sweepHeld p w x with sweeps := listDrop idx x.sweeps }))

/-- SWEEPQ: REVOKEs of the partition whose sweeps have not completed (R149). -/
def execSweepq (d : BitVec 5) (s : State) : Host.Outcome State Fault Refusal :=
  .next (s.writeG d (w64 (s.part s.party.part).sweeps.length))

end Sys2Proof.Machine
end

