-- ==== Sys2Proof/Machine/Channels.lean ====
section
/-! DEFINITION. Stage rings and micro-batch channels (R143 to R146, R368). -/

namespace Sys2Proof.Machine

/-! ### Stage rings (R144) -/

/-- The ring and stage of an instruction, when the ring has such a stage; else ARGRANGE (R144). -/
def State.ringStage (s : State) (r stage : Nat) : Chk Ring :=
  let x := s.myCluster.ring r
  if x.len = 0 ∨ x.len ≤ stage then trapN .argrange stage else .ok x

/-- The full bits with one stage changed. -/
def setFull (m : BitVec 16) (i : Nat) (b : Bool) : BitVec 16 :=
  if b then m ||| (1#16 <<< i) else m &&& ~~~(1#16 <<< i)

/-- ACQST (R144). -/
def State.acquireStage (s : State) (r stage : Nat) : Chk State := do
  let x ← s.ringStage r stage
  require (Sparse.find? stage x.owners != some s.myRecord) .ringstate stage
  let w := Resource.stage s.home r stage
  waitUnless (bitAt x.full.toNat stage && (Sparse.find? stage x.owners).isNone && s.firstFor w s.actor.core) w
  let x' : Ring := { x with owners := Sparse.set stage s.myRecord x.owners, full := setFull x.full stage false }
  .ok (s.setMyCluster (s.myCluster.setRing r x'))

/-- ACQST (R144). -/
def execAcqst (r : BitVec 3) (sel : BitVec 4) (s : State) : Host.Outcome State Fault Refusal :=
  s.runSeq (match s.acquireStage r.toNat sel.toNat with
    | .error e => .error e
    | .ok t => .ok t.advance)

/-- RELST (R144). -/
def State.releaseStage (s : State) (r stage : Nat) : Chk State := do
  let x ← s.ringStage r stage
  require (Sparse.find? stage x.owners = some s.myRecord) .ringstate stage
  let n := (stage + 1) % x.len
  require (!bitAt x.full.toNat n) .ringstate n
  s.waitRelease
  let x' : Ring := { x with owners := Sparse.erase stage x.owners, full := setFull x.full n true }
  .ok ((s.releaseOlder s.actor.core).setMyCluster (s.myCluster.setRing r x'))

/-- RELST (R144). -/
def execRelst (r : BitVec 3) (sel : BitVec 4) (s : State) : Host.Outcome State Fault Refusal :=
  s.runSeq (match s.releaseStage r.toNat sel.toNat with
    | .error e => .error e
    | .ok t => .ok t.advance)

/-! ### Channels (R145, R146, R368) -/

/-- Does the channel exist in this partition (R368)? -/
def Channel.exists_ (c : Channel) : Bool := bitAt c.word.toNat 8

/-- Sending and receiving die of a channel word (R368). -/
def Channel.sdie (c : Channel) : Nat := bitsAt c.word.toNat 0 3
def Channel.rdie (c : Channel) : Nat := bitsAt c.word.toNat 4 3

/-- The die of the acting core. -/
def State.myDie (s : State) : Nat := dieOf s.home

/-- Channel n of the acting core's partition. -/
def State.chan (s : State) (n : Nat) : Channel := (s.part s.party.part).channel n

def State.setChan (s : State) (n : Nat) (c : Channel) : State := s.modPart s.party.part (fun x => x.setChannel n c)

/-- A changed channel word waits until the channel holds nothing, and then leaves it closed (R368). -/
def Channel.settle (c : Channel) : Channel :=
  match c.pending with
  | some w => if c.queue = [] ∧ c.held = 0 then { Channel.init with word := w } else c
  | none => c

/-- PMTINIT (R146): no effect on a channel the partition does not have (R368); p = 0 means 2. -/
def State.permitInit (s : State) (ch p : Nat) : Chk State := do
  let c := s.chan ch
  if c.exists_ then
    require (c.queue.isEmpty && c.held = 0) .chanstate 4
    let n := if p = 0 then 2 else p
    .ok (s.setChan ch { c with isOpen := true, conf := n, avail := n })
  else .ok s

/-- PMTINIT (R146). -/
def execPmtinit (p : BitVec 4) (c : BitVec 4) (s : State) : Host.Outcome State Fault Refusal :=
  s.runSeq (match s.permitInit c.toNat p.toNat with
    | .error e => .error e
    | .ok t => .ok t.advance)

/-- Is a channel open: configured and initialised (R146, R368)? -/
def Channel.ready (c : Channel) : Bool := c.exists_ && c.isOpen

/-- Does a range have a byte in the L1 window (R181)? -/
def touchesL1 (lo hi : Nat) : Bool := lo < 0x7F0000040000 && 0x7F0000000000 < hi

/-- MBSEND (R146): capability, memory kind, open, sending die; a permit, then the queued blocks; then one atomic step. -/
def State.sendBuffer (s : State) (ch : Nat) (c : Cap) : Chk State := do
  capCheck c c.base c.span (permLoad + permGlobal)
  require (!touchesL1 c.base c.top) .memmode c.base
  let x := s.chan ch
  require x.ready .chanstate 1
  require (s.myDie = x.sdie) .chanstate 2
  let w := Resource.channel s.party.part ch
  waitUnless (0 < x.avail && s.firstFor w s.actor.core) w
  s.waitRelease
  .ok ((s.releaseOlder s.actor.core).setChan ch { x with avail := x.avail - 1, queue := x.queue ++ [c] })

/-- MBSEND (R146). -/
def execMbsend (a : BitVec 4) (c : BitVec 4) (s : State) : Host.Outcome State Fault Refusal :=
  s.runSeq (match s.sendBuffer c.toNat (s.c a) with
    | .error e => .error e
    | .ok t => .ok t.advance)

/-- MBRECV (R146): open, receiving die; a buffer; its capability under the generation check (R125). -/
def State.receiveBuffer (s : State) (ch : Nat) : Chk (Cap × State) := do
  let x := s.chan ch
  require x.ready .chanstate 1
  require (s.myDie = x.rdie) .chanstate 2
  match x.queue with
  | [] => waitFor .other
  | c :: l => do
    s.awaitGen s.party c.base
    .ok (s.freshCap s.party c, s.setChan ch { x with queue := l, held := x.held + 1 })

/-- MBRECV (R146). -/
def execMbrecv (d : BitVec 4) (c : BitVec 4) (s : State) : Host.Outcome State Fault Refusal :=
  s.runSeq (match s.receiveBuffer c.toNat with
    | .error e => .error e
    | .ok (v, t) => .ok (t.writeC d v))

/-- PMTGIVE (R146): open, receiving die, a buffer held; accesses performed and blocks completed; then one atomic step. -/
def State.givePermit (s : State) (ch : Nat) : Chk State := do
  let x := s.chan ch
  require x.ready .chanstate 1
  require (s.myDie = x.rdie) .chanstate 2
  require (decide (0 < x.held)) .chanstate 3
  s.waitRelease
  .ok ((s.releaseOlder s.actor.core).setChan ch (Channel.settle { x with held := x.held - 1, avail := x.avail + 1 }))

/-- PMTGIVE (R146). -/
def execPmtgive (c : BitVec 4) (s : State) : Host.Outcome State Fault Refusal :=
  s.runSeq (match s.givePermit c.toNat with
    | .error e => .error e
    | .ok t => .ok t.advance)

/-- CHANNEL_WORD_CHANGE: a channel word that has waited takes effect once the channel holds nothing (R368). -/
def execChannelWordChange (ch : Nat) (s : State) : Host.Outcome State Fault Refusal :=
  .next (s.modPart s.actor.part (fun x => x.setChannel ch (x.channel ch).settle))

end Sys2Proof.Machine
end

