-- ==== Sys2Proof/Machine/Pickup.lean ====
section
/-! DEFINITION. The dispatcher: ageing, pickup with and without full state, owed traps, forced suspension on request,
frame edges (R155 to R157, R163 to R168, R179, R372 to R376, R379, R380). -/

namespace Sys2Proof.Machine

/-! ### Which core may take which record (R164, R373, R380) -/

/-- Does a core's owner byte admit records of a world: its own frame for SEALED ones, an open frame for others? -/
def State.frameAdmits (s : State) (core world : Nat) (isSealed : Bool) : Bool :=
  s.ownerByte core = (if isSealed then world else 0xFE)

/-- The home cluster of a record's launch, if it has one (R162, R164). -/
def State.homeOf (s : State) (p a : Nat) : Option Nat :=
  match Sparse.find? a (s.part p).owner with
  | none => none
  | some n => match Sparse.find? n (s.part p).launches with
    | some l => l.home
    | none => none

/-- May a core take up records of a partition, world and home (R164)? Its cluster is ready (R34; log 105). -/
def State.mayTake (s : State) (core p world : Nat) (isSealed : Bool) (home : Option Nat) : Bool :=
  s.ownerOf (clusterOf core) = some p && Marks.has (clusterOf core) s.mgmt.ready && s.frameAdmits core world isSealed
    && (match home with | some k => clusterOf core = k | none => true)

/-- The save area that a record's handle names, and what it holds. -/
def State.areaFor (s : State) (p a : Nat) : Option (Nat × Saved) :=
  let x := s.part p
  match x.areaOf (recArg (s.record p a) 0).toNat with
  | none => none
  | some i => (Sparse.get x.areas Area.init i).saved.map (fun y => (i, y))

/-- A saved continuation goes back to its cluster where slots or tiles are saved, to a Nimbus core where a Stratus block
is (R342, R380). -/
def Saved.fits (x : Saved) (core : Nat) : Bool :=
  (x.slots = [] && x.tiles = [] || clusterOf core = x.cluster) && (x.strat.isNone || isNimbus (clusterOf core))

/-- May the acting core take up this pool entry? Every write that the continuation made before its record write is
performed first (R311), and a trap owed to a core without a handler needs a save area (R177, R379). -/
def State.takeable (s : State) (core p : Nat) (e : PoolEntry) : Bool :=
  let c := s.ctl p e.record
  ctlState c = 1 && s.mayTake core p (s.recWorld p e.record) (ctlSealed c) (s.homeOf p e.record)
    && (!ctlFull c || (match s.areaFor p e.record with | some x => x.2.fits core | none => true))
    && (ctlDef c = 0 || ctlFull c || (s.part p).freeArea.isSome)
    && s.outer.forwards.all (fun f => f.owner != some (p, e.record))

/-! ### Ageing (R164) -/

/-- The effective class after the ageing that is due by a cycle. -/
def PoolEntry.aged (e : PoolEntry) (age now : Nat) : PoolEntry :=
  { e with eff := max e.eff (min 3 (e.cls + (now - e.since) / 2 ^ age)) }

/-- The entries of a pool with their ageing done. -/
def Partition.agedPool (p : Partition) (now : Nat) : List PoolEntry := p.pool.map (fun e => e.aged p.age now)

/-- AGEING: a record's effective class rises with each period it has waited (R164). -/
def execAgeing (record : Nat) (s : State) : Host.Outcome State Fault Refusal :=
  .next (s.modPart s.actor.part (fun p =>
    { p with pool := p.pool.map (fun e => if e.record = record then e.aged p.age s.time else e) }))

/-! ### The choice of a record (R164, R380) -/

/-- Must entry x be taken up before entry y by the ageing promise: y entered the pool more than (3 − c)·2^AGE cycles after
x, whose class is c (R165)? -/
def PoolEntry.promised (x y : PoolEntry) (age : Nat) : Bool := x.since + (3 - x.cls) * 2 ^ age < y.since

/-- May an idle core run an epilogue of a task's owner (R164, R266, R374)? -/
def State.mayEpilogue (s : State) (core : Nat) (t : CumTask) : Bool :=
  (s.core core).run.isNone
    && s.mayTake core t.part t.world ((s.part t.part).world t.world).isSealed none

/-- The member whose epilogue runs are next in a cluster, with the cycle in which the run that is next entered: the first
unfinished one of the oldest pass whose array phase is over, while it has an entry left (R265, R266). -/
def Cumulus.nextRun (u : Cumulus) : Option (CumTask × Nat) :=
  match u.passes.find? Pass.ran with
  | none => none
  | some p => match p.members.find? (fun m => !m.finished) with
    | none => none
    | some m => if m.written = false ∧ m.results.length < m.entries then some (m.task, p.due) else none

/-- Does a record go before a run that entered at class 3 in some cycle: at effective class 3, in the pool no later than it
(R164, R165, R266)? -/
def PoolEntry.before (e : PoolEntry) (due : Nat) : Bool := e.eff = 3 && e.since ≤ due

/-- The entries that a core may take up, those that an epilogue run it may run goes before left out (R165, R266). -/
def State.takeables (s : State) (core p : Nat) : List PoolEntry :=
  let es := ((s.part p).agedPool s.time).filter (s.takeable core p)
  match (s.cluster (clusterOf core)).cumulus.nextRun with
  | some r => if s.mayEpilogue core r.1 then es.filter (fun e => e.before r.2) else es
  | none => es

/-- The entry that a core takes up: of those it may take, those with the highest effective class; among them the earliest
with full state, unless an ageing promise stands against it, else the earliest (R164, R165, R380). -/
def State.bestEntry (s : State) (core p : Nat) : Option PoolEntry :=
  let es := s.takeables core p
  let top := es.filter (fun e => es.all (fun x => x.eff ≤ e.eff))
  match top.find? (fun e => ctlFull (s.ctl p e.record)) with
  | none => top.head?
  | some e => if es.any (fun x => x.promised e (s.part p).age) then top.head? else some e

/-! ### Ends at a pickup (R155, R177, R380) -/

/-- A record that cannot run ends faulted: the fault reaches the world's ring, its groups and launch go on. -/
def State.failRecord (s : State) (p a : Nat) (t : Trap) (info : Word64) (word pc : Nat) : State :=
  let c := s.ctl p a
  let s := s.setRecState p a 6
  let s := s.guestFault
    { token := 0, record := a, info := faultInfoOf t.code none 0 word false, addr := info, pc := pc, kind := 3,
      cause := 0, level := 0xFF, write := false, seq := 0, ctr := 0, context := ctlContext c, world := s.recWorld p a,
      gpa := 0, part := p, engine := 0, blocked := false }
  (s.leaveGroups p a (recGroups (s.record p a))).endUnit p a .faulted

/-- A record whose world has lost its key ends with KEYS_WIPED (R50, R380). -/
def State.wipeRecord (s : State) (p a : Nat) : State :=
  let s := s.setRecState p a 6
  (s.leaveGroups p a (recGroups (s.record p a))).endUnit p a .wiped

/-! ### Pickup (R163) -/

/-- The continuation that a record describes. -/
def State.runningOf (s : State) (p a : Nat) : Running :=
  let b := s.record p a
  let c := recCtl b
  { record := a, part := p, world := s.recWorld p a, context := ctlContext c, image := recImage b, groups := recGroups b,
    cls := ctlClass c, isSealed := ctlSealed c, launch := Sparse.get (s.part p).owner 0 a }

/-- The frame capability of a record, under the generation check of R125. -/
def State.frameCap (s : State) (r : Running) : Cap :=
  s.freshCap ⟨r.part, r.world, r.context⟩
    (capOfBytes ((s.record r.part r.record).take 16) (s.mem.tagAt (hbmLoc r.part r.record)))

/-- A core as a pickup without full state leaves it: c15 and g1 to g4 loaded, everything else at reset (R163, R168). -/
def State.freshCore (s : State) (r : Running) : Core :=
  let b := s.record r.part r.record
  let c := { Core.init with pc := BitVec.ofNat 64 (recResume b), run := some r, sys := { CoreSys.init with cls := r.cls } }
  let c := c.setC 15 (s.frameCap r)
  (upFrom 0 4).foldl (fun c i => c.setG (i + 1) (recArg b i)) c

/-- A pickup without full state clears L1 (R182). -/
def State.clearL1 (s : State) (core : Nat) : State := { s with mem := s.mem.wipe (l1Loc core 0) (2 ^ 18) }

/-- The tag of a granule of a saved L1 as it goes back, under the generation check of R125. -/
def State.savedTag (s : State) (y : Party) (x : Saved) (g : Nat) : Bool :=
  (s.freshCap y (capOfBytes ((upFrom (16 * g) 16).map (Sparse.get x.l1 Mem.unlisted)) true)).tag

/-- L1 as a save area holds it, for a party (R125, R182); a poisoned granule is poisoned again (R198; log 103). -/
def State.restoreL1 (s : State) (core : Nat) (y : Party) (x : Saved) : State :=
  let lo := l1Loc core 0
  let t := s.clearL1 core
  let m := t.mem
  { t with mem := { m with
      cells := x.l1.foldl (fun cs q => Mem.putCell (lo + q.1) q.2 cs) m.cells
      tags := Marks.addAll ((x.l1tags.filter (s.savedTag y x)).map (fun g => lo / 16 + g)) m.tags
      full := Marks.addAll (x.l1full.map (fun g => lo / 16 + g)) m.full
      pend := Marks.addAll (x.l1pend.map (fun w => lo / 8 + w)) m.pend
      poison := Marks.addAll (x.l1poison.map (fun o => lo + o)) m.poison } }

/-- The checks of a restore (R380) over the area as it stands in memory: its digest under the key derived now, the
device's epoch for the area, the record and its world; a poisoned area fails (R198). An area that passes holds what the
device saved. -/
def State.restorable (s : State) (r : Running) (i : Nat) (x : Saved) : Bool :=
  let p := s.part r.part
  x.record = r.record && x.world = r.world && (s.mem.poisonIn (hbmLoc r.part (p.handle i)) x.length).isNone
    && areaGood (s.saveKey r.part r.world r.context) (s.raw (hbmLoc r.part (p.handle i)) x.length)
      (Sparse.get p.areas Area.init i).epoch.toNat r.record r.world

/-- The restored core: as it was saved but for stale tags (R125, R148), FULLST set, and with kept matrix blocks its claim comes back, its slots and tiles
waiting to be written back (R101, R163, R168, R289, R380). -/
def State.restoredCore (s : State) (r : Running) (x : Saved) : Core :=
  let c := x.core.mapCaps (s.freshCap ⟨r.part, r.world, r.context⟩)
  let kept := c.eng.matQ ≠ []
  { c with run := some r
           sys := { c.sys with fullst := true, lease := c.sys.lease && kept }
           eng := { c.eng with restore := if kept then some (x.slots, x.tiles) else none } }

/-- A Stratus block goes to the unit of the core's cluster, before any new one (R342). -/
def State.resumeStrat (s : State) (core : Nat) (y : Party) (x : Saved) : State :=
  match x.strat with
  | none => s
  | some u =>
    let k := clusterOf core
    let v := { u.mapCaps (s.freshCap y) with core := core }
    s.setCluster k { s.cluster k with resumed := (s.cluster k).resumed ++ [v] }

/-- Restores a saved continuation on a core; its area is free again (R163, R379). -/
def State.restore (s : State) (core : Nat) (r : Running) (i : Nat) (x : Saved) : State :=
  let c := s.restoredCore r x
  let s := (s.restoreL1 core ⟨r.part, r.world, r.context⟩ x).setCore core c
  let s := s.resumeStrat core ⟨r.part, r.world, r.context⟩ x
  let s := s.modPart r.part (fun p => { p with areas := Sparse.set i ⟨x.epoch, none⟩ p.areas })
  let k := clusterOf core
  if c.eng.matQ = [] then s
  else s.setCluster k { s.cluster k with claims := Marks.add core (s.cluster k).claims }

/-- The trap that a record's DEFCODE owes, taken before the first instruction (R163, R179). The device owes MEMERR only; of
what a program has written into an idle record, a number that is no trap code owes nothing (R170), and a code that never
enters the handler (R178) ends the continuation faulted; FAULTADDR is 0 where the device holds none (DESIGN CHOICE, log 104). -/
def State.raiseOwed (s : State) (core : Nat) (r : Running) (code : Nat) : State :=
  if code = 0 then s
  else
    let info := Sparse.get (s.part r.part).owed 0 r.record
    let s := s.setCtl r.part r.record (putBits (s.ctl r.part r.record) 24 8 0)
    let s := s.modPart r.part (fun p => { p with owed := Sparse.erase r.record p.owed })
    let pc := (s.core core).pc
    match trapWithCode code with
    | some t =>
      if t = .xlate1 ∨ t = .xlate2 then s.endFaulted core code info none 0 pc.toNat (s.core core).holdsTrap pc.toNat
      else s.trapEntry core t info none 0 pc.toNat (s.core core).holdsTrap pc
    | none => s

/-- The record as its pickup leaves it: running, FULLST clear, WAKEPEND kept (R163). -/
def State.markRunning (s : State) (r : Running) : State :=
  s.setCtl r.part r.record (putBits (putBits (s.ctl r.part r.record) 0 3 2) 12 1 0)

/-- A WAITSEQ that had suspended ends at the pickup: the report is read and cleared in one step, into g1 (R109). -/
def State.finishWaitSeq (s : State) (core : Nat) (r : Running) : State :=
  match List.find? (fun (q : Nat × SeqCounter) => q.2.waiting.any (fun w => w.1 = r.record)) (s.part r.part).seqs with
  | none => s
  | some q =>
    let target := ((q.2.waiting.find? (fun w => w.1 = r.record)).map Prod.snd).getD 0
    let w := q.2.takeReport target
    let s := s.modPart r.part (fun x => (x.setSeq q.1 w.2).forgetWaits r.record)
    s.setCore core ((s.core core).setG 1 w.1)

/-- Takes up a record on an idle core (R163, R380); in a world that has ended with its key wiped it ends at once (R50), and
so does a record that cannot be read, with a MEMERR (R198; log 26). -/
def State.takeUp (s : State) (core p a : Nat) : State :=
  let r := s.runningOf p a
  let resume := recResume (s.record p a)
  let code := ctlDef (s.ctl p a)
  if ((s.part p).world r.world).wiped then s.wipeRecord p a
  else if (s.mem.poisonIn (hbmLoc p a) 64).isSome then s.failRecord p a .memerr (Config.errorAddr s.draws) resume resume
  else if (Sparse.find? r.image (s.part p).images).isNone then s.failRecord p a .illegal 0 resume resume
  else if ctlFull (s.ctl p a) then
    let handle := recArg (s.record p a) 0
    match s.areaFor p a with
      | none => s.failRecord p a .memerr handle resume resume
      | some (i, x) =>
        if s.restorable r i x then ((s.restore core r i x).markRunning r).raiseOwed core r code
        else s.failRecord p a .memerr handle resume resume
  else ((((s.clearL1 core).setCore core (s.freshCore r)).markRunning r).finishWaitSeq core r).raiseOwed core r code

/-! ### Owed traps (R156, R179) -/

/-- The first byte of the poisoned unit that an access at a virtual address touched (R198). -/
def unitAddr (va : Nat) : Nat := if windowOf va = .translated then floorTo va 128 else floorTo va 16

/-- DEFERRED_MEMERR: an uncorrectable error on a write at a virtual address, made before a record write, is detected after
it: the trap is owed to the record until its next pickup (R179, R198). A record that has never run, or never runs again,
is owed nothing. -/
def execDeferredMemerr (e : LateError) (s : State) : Host.Outcome State Fault Refusal :=
  let st := ctlState (s.ctl s.actor.part e.record)
  .next (if st = 0 ∨ 5 ≤ st then s
    else s.oweMemerr s.actor.part e.record (BitVec.ofNat 64 (unitAddr e.va.toNat)))

/-! ### Forced suspension and frame edges (R167, R375, R376) -/

/-- FORCED_SUSPEND: the management requests it for the acting core's continuation (R167, R376). -/
def execForcedSuspend (s : State) : Host.Outcome State Fault Refusal := .next (s.forceSuspend s.actor.core 3)

/-- The core cleared for a new owner: registers, queues, L1, pending bits, event latch and watch (R375). -/
def State.clearCore (s : State) (core : Nat) : State := ((s.clearL1 core).setCore core Core.init).noWaits core

/-- A core at an edge that changes its owner byte. -/
def State.edgeCore (s : State) (core : Nat) : State := (s.forceSuspend core 1).clearCore core

/-- Is a cluster's current frame at its end? -/
def Cluster.frameOver (c : Cluster) (now : Nat) : Bool := c.frameStart + 2 ^ (c.frameEntry c.frame).lexp ≤ now

/-- The cores of a cluster whose owner byte changes at the edge to its next frame. -/
def Cluster.edgeCores (c : Cluster) (k : Nat) : List Nat :=
  (coresOf k).filter (fun n => c.ownerIn c.frame n != c.ownerIn (c.nextFrame c.frame) n)

/-- Free areas of a partition's pool. -/
def Partition.freeCount (p : Partition) : Nat :=
  ((upFrom 0 p.saveCnt).filter (fun i => (Sparse.get p.areas Area.init i).saved.isNone)).length

/-- Are there areas for the continuations that run on some cores of partition p (R379)? -/
def State.canSaveAll (s : State) (p : Nat) (cores : List Nat) : Bool :=
  (cores.filter (fun n => (s.core n).run.isSome)).length ≤ (s.part p).freeCount && cores.all (fun n => !s.mustGoOn n)

/-- A cluster goes to its next frame; the cores that change owner are suspended and cleared (R373, R375). -/
def State.crossEdge (s : State) (k : Nat) : State :=
  let c := s.cluster k
  let t := s.setCluster k { c with frame := c.nextFrame c.frame
                                   frameStart := c.frameStart + 2 ^ (c.frameEntry c.frame).lexp }
  (c.edgeCores k).foldl State.edgeCore t

/-- FRAME_EDGE: the acting core's cluster goes to its next frame. The edge waits for save areas (R379). -/
def execFrameEdge (s : State) : Host.Outcome State Fault Refusal :=
  let k := s.home
  let c := s.cluster k
  .next (if !c.frameOver s.time ∨ !s.canSaveAll (s.partOfCore (8 * k)) (c.edgeCores k) then s else s.crossEdge k)

end Sys2Proof.Machine
end

