-- ==== Sys2Proof/Machine/Cumulus.lean ====
section
/-! DEFINITION. Cumulus: task admission, holding lists, passes, epilogue runs, scatter and parking (R107, R108, R255 to
R269, R278). -/

namespace Sys2Proof.Machine

/-! ### Shape classes and formats (R259, R263) -/

/-- A shape class: K, N, its format group (4 for I8 alone) and its pass capacity in rows (R263). -/
structure ShapeClass where
  K : Nat
  N : Nat
  group : Nat
  capacity : Nat
  deriving DecidableEq, Repr

/-- The blocks of four classes from class 4 on. -/
def classBlocks : List (Nat × Nat × Nat) :=
  [(32, 32, 16), (64, 64, 32), (128, 128, 64), (256, 256, 256), (256, 64, 256), (64, 256, 128)]

/-- The class of a number; none where it is reserved (R263). -/
def shapeClass (n : Nat) : Option ShapeClass :=
  if n = 0 then some ⟨16, 16, 4, 8⟩
  else if n ≤ 3 then some ⟨16, 16, n, 8⟩
  else if n ≤ 27 then
    let b := classBlocks.getD ((n - 4) / 4) (0, 0, 0)
    some ⟨b.1, b.2.1, (n - 4) % 4, if n = 19 then 128 else b.2.2⟩
  else if n ≤ 30 then some ⟨256, 128, n - 28, 256⟩
  else none

/-- Is a format byte of the group? -/
def inGroup (g f : Nat) : Bool :=
  match g with
  | 0 => f ≤ 7
  | 1 => f = 10 || f = 11
  | 2 => f = 8 || f = 9
  | 3 => f = 12 || f = 13
  | _ => f = 7

/-- AB of R259: the bytes of an activation row. -/
def rowBytes (f : MatFmt) (K : Nat) : Nat :=
  match f with
  | .lb m => K * m / 8 + K / 8
  | _ => K * f.bits / 8

/-- The bytes of a result element: RFMT 8 to 13. -/
def resultBytes (rfmt : Nat) : Nat := (fmtOf rfmt).bits / 8

/-! ### Weights (R270) -/

/-- The weight of a partition that an identity names: its table entry's number, and it. -/
def State.weightOf (s : State) (p : Nat) (ident : BitVec 64) : Option (Nat × Weight) :=
  List.find? (fun (q : Nat × Weight) => q.2.part = p && q.2.ident = ident) s.outer.weights

/-- Format byte, class and scale offset of a layout descriptor. -/
def Weight.format (w : Weight) : Nat := numAt 0 1 w.layout
def Weight.cls (w : Weight) : Nat := numAt 1 1 w.layout
def Weight.scales (w : Weight) : Nat := numAt 4 4 w.layout

/-! ### Descriptors (R259, R260) -/

/-- A task as its descriptor gives it, with the flags it could be refused for. -/
structure Descriptor where
  task : CumTask
  flags : Nat
  deriving DecidableEq, Repr

/-- The number of Cumulus as an engine that forwards requests. -/
def cumulusEngine : Nat := 5

/-- The descriptor of a submit, as its 64 bytes and tags stand (R107, R125, R259). -/
def State.descriptor (s : State) (x : Submit) (bs : List Byte) (t0 t1 : Bool) : Descriptor :=
  let y : Party := ⟨x.part, x.world, x.context⟩
  let flags := numAt 60 4 bs
  { flags := flags
    task := { core := x.core, part := x.part, world := x.world, context := x.context,
              act := s.freshCap y (capOfBytes (sliceB 0 16 bs) t0),
              res := s.freshCap y (capOfBytes (sliceB 16 16 bs) t1),
              hash := BitVec.ofNat 128 (numAt 32 16 bs), weight := BitVec.ofNat 64 (numAt 48 8 bs), cls := numAt 56 1 bs,
              rows := numAt 57 1 bs, patience := numAt 58 2 bs, admitMode := bitsAt flags 0 2, flush := bitAt flags 2,
              rfmt := bitsAt flags 4 4, ctr := bitsAt flags 8 6, seq := 0, born := s.time, launch := x.launch } }

/-- A capability that carries a permission, is aligned and covers n bytes from its cursor (R259). -/
def covers (c : Cap) (perm align n : Nat) : Bool :=
  c.tag && c.otype = 0 && c.grants perm && c.cursor.toNat % align = 0 && c.base ≤ c.cursor.toNat
    && c.cursor.toNat + n ≤ c.top

/-- An admitted image of a partition by code hash (R259). -/
def Partition.imageOf (p : Partition) (h : BitVec 128) : Option (Nat × Image) :=
  List.find? (fun (q : Nat × Image) => q.2.hash = h) p.images

/-- The refusal code of a task: 0 when it is admitted (R260). -/
def State.refusal (s : State) (k : Nat) (d : Descriptor) : Nat :=
  let t := d.task
  if (s.cluster k).cumulus.weight = 0 then 1
  else if t.rows = 0 ∨ 64 < t.rows ∨ (shapeClass t.cls).isNone ∨ t.admitMode = 3 ∨ t.rfmt < 8 ∨ 13 < t.rfmt
      ∨ bitAt d.flags 3 ∨ bitsAt d.flags 14 18 ≠ 0 then 4
  else if ((s.part t.part).imageOf t.hash).isNone then 5
  else match s.weightOf t.part t.weight, shapeClass t.cls with
    | some (_, w), some c =>
      if w.cls ≠ t.cls ∨ (c.group ≠ 3 ∧ t.rfmt = 11) ∨ c.capacity < t.rows then 4
      else if !covers t.act permLoad 16 (t.rows * rowBytes (matFmtOf w.format) c.K) then 2
      else if !covers t.res permStore (resultBytes t.rfmt) (t.rows * c.N * resultBytes t.rfmt) then 3
      else 0
    | _, _ => 6

/-! ### Holding lists and passes (R261, R262) -/

/-- Rows of tasks. -/
def rowsOf (ts : List CumTask) : Nat := (ts.map (fun t => t.rows)).sum

/-- The pass capacity of a list's class. -/
def HoldList.capacity (l : HoldList) : Nat := match shapeClass l.cls with | some c => c.capacity | none => 0

/-- The rows Cumulus holds. -/
def Cumulus.held (u : Cumulus) : Nat := (u.lists.map (fun l => rowsOf l.members)).sum

/-- A member of a pass before anything has run. -/
def PassMember.fresh (t : CumTask) : PassMember :=
  { task := t, acc := [], entries := 0, results := [], written := false, finished := false }

/-- A pass of tasks, in their order. -/
def passOf (ts : List CumTask) : Pass := { members := ts.map PassMember.fresh, next := 0, pins := [], due := 0 }

/-- A list forms its pass and is gone (R262). -/
def Cumulus.form (u : Cumulus) (l : HoldList) : Cumulus :=
  { u with lists := u.lists.filter (fun m => m != l), passes := u.passes ++ [passOf l.members] }

/-- Forms the pass of every list of a kind. -/
def Cumulus.formAll (u : Cumulus) (p : HoldList → Bool) : Cumulus := (u.lists.filter p).foldl Cumulus.form u

/-- The cycle in which a list's oldest member was admitted, and the one in which its patience ends. -/
def HoldList.born (l : HoldList) : Nat := match l.members with | t :: _ => t.born | [] => 0
def HoldList.deadline (l : HoldList) : Nat := match l.members with | t :: _ => t.born + t.patience | [] => 0

/-- Does a list hold as many rows as its class's passes? -/
def HoldList.isFull (l : HoldList) : Bool := rowsOf l.members = l.capacity

/-- The cycle at whose end a list forms its pass: that of the admission that filled it, or that in which the patience of
its oldest member ends (R262). -/
def HoldList.dueAt (l : HoldList) : Nat :=
  if l.isFull then (match l.members.getLast? with | some t => t.born | none => 0) else l.deadline

/-- The list with the least value, the earliest of equal ones. -/
def leastList (f : HoldList → Nat) : List HoldList → Option HoldList
  | [] => none
  | l :: ls => some (ls.foldl (fun x y => if f y < f x then y else x) l)

/-- The key of a task's list: the world is part of it for same-world tasks and for those of a sealed world (R261). -/
def State.keyWorld (s : State) (t : CumTask) : Option Nat :=
  if t.admitMode = 1 ∨ ((s.part t.part).world t.world).isSealed then some t.world else none

/-- Is this the list of a task's key? -/
def HoldList.isFor (l : HoldList) (t : CumTask) (w : Option Nat) : Bool :=
  l.hash = t.hash && l.weight = t.weight && l.cls = t.cls && l.world = w

/-- Lists give way, oldest first, until the task finds a list or a free one, and 512 rows hold (R262). -/
def Cumulus.makeRoom (u : Cumulus) (t : CumTask) (w : Option Nat) : Nat → Cumulus
  | 0 => u
  | n + 1 =>
    if (u.lists.all (fun l => !l.isFor t w) && decide (16 ≤ u.lists.length)) || decide (512 < u.held + t.rows) then
      match leastList HoldList.born u.lists with
      | some l => Cumulus.makeRoom (u.form l) t w n
      | none => u
    else u

/-- A task joins the list of its key; a list that it would overfill or that it flushes forms its pass. One that it fills
forms its pass after the last admission of the cycle (R262). -/
def Cumulus.join (u : Cumulus) (t : CumTask) (w : Option Nat) : Cumulus :=
  let u := u.makeRoom t w 16
  let cap := match shapeClass t.cls with | some c => c.capacity | none => 0
  let u := match u.lists.find? (fun l => l.isFor t w) with
    | some l => if cap < rowsOf l.members + t.rows then u.form l else u
    | none => u
  let old : List CumTask := match u.lists.find? (fun l => l.isFor t w) with | some l => l.members | none => []
  let l : HoldList := ⟨t.hash, t.weight, t.cls, w, old ++ [t]⟩
  let lists := if old.isEmpty then u.lists ++ [l] else u.lists.map (fun m => if m.isFor t w then l else m)
  let u := { u with lists := lists }
  if t.flush then u.form l else u

/-- The lists that were full, or whose patience ended, before a cycle have formed by then, in that order (R262). -/
def Cumulus.expire (u : Cumulus) (now : Nat) : Nat → Cumulus
  | 0 => u
  | n + 1 =>
    match leastList HoldList.dueAt u.lists with
    | some l => if l.dueAt < now then Cumulus.expire (u.form l) now n else u
    | none => u

/-- Changes the Cumulus of a cluster. -/
def State.modCumulus (s : State) (k : Nat) (f : Cumulus → Cumulus) : State :=
  s.setCluster k { s.cluster k with cumulus := f (s.cluster k).cumulus }

/-- A submitting record resumes with g1 and g2 (R107), unless it has ended since (R445). -/
def State.resumeWith (s : State) (p a : Nat) (g1 g2 : Nat) : State :=
  if 5 ≤ ctlState (s.ctl p a) then s
  else (s.setRecBytes p a 32 (leBytes g1 8 ++ leBytes g2 8)).makeRunnable p a

/-- Admits a task: it takes the next number of its counter and joins its list, or makes a pass of its own (R107, R108,
R261, R262). -/
def State.admitTask (s : State) (k : Nat) (x : Submit) (t : CumTask) : State :=
  let n := seqIndex t.world t.context t.ctr
  let c := (s.part t.part).seq n
  let t := { t with seq := BitVec.ofNat 64 (c.given + 1) }
  let s := s.modPart t.part (fun p => p.setSeq n { c with given := c.given + 1 })
  let s := s.modCumulus k (fun u =>
    let u := u.expire s.time 16
    if t.admitMode = 2 then { u with passes := u.passes ++ [passOf [t]] } else u.join t (s.keyWorld t))
  s.resumeWith x.part x.record 0 (c.given + 1)

/-- The wait of an admission for the table entries on other modules that the generations of a descriptor's capabilities
need (R416, R422). -/
def State.awaitCaps (s : State) (x : Submit) (bs : List Byte) : Chk Unit :=
  s.farWalk x.core cumulusEngine (checkAll (fun o => s.awaitGen ⟨x.part, x.world, x.context⟩
    (capOfBytes (sliceB o 16 bs) true).base) [0, 16])

/-- A descriptor reaches Cumulus: it is read through its held translation, checked, admitted or refused (R107, R260); an
uncorrectable error in it is owed to the continuation (R179; log 27). -/
def State.admission (s : State) (k : Nat) (x : Submit) (l key : Nat) : State :=
  match s.mem.poisonIn l 64 with
  | some u => (s.oweMemerr x.part x.record (x.va + BitVec.ofNat 64 u - BitVec.ofNat 64 l)).makeRunnable x.part x.record
  | none =>
    let d := s.descriptor x (s.mem.readUnder key l 64) (s.mem.tagAt l) (s.mem.tagAt (l + 16))
    let code := s.refusal k d
    if code = 0 then s.admitTask k x d.task else s.resumeWith x.part x.record code 0

/-- Removes submit number idx. -/
def State.dropSubmit (s : State) (k idx : Nat) : State :=
  s.modCumulus k (fun u => { u with submits := listDrop idx u.submits })

/-- A descriptor on another module: its line is requested, and read when it is there (R422). -/
def State.remoteAdmission (s : State) (k idx : Nat) (x : Submit) : State :=
  let pc : Piece := ⟨x.va.toNat, 64, x.place, ⟨x.part, x.world, x.context⟩, none⟩
  match s.readPiece x.core cumulusEngine pc with
  | .error (.forward fs) => s.post fs
  | .error (.trap _ info _) =>
    (((s.dropAnswers x.core cumulusEngine).dropSubmit k idx).oweMemerr x.part x.record info).makeRunnable x.part x.record
  | .error _ => s
  | .ok bs =>
    match s.awaitCaps x bs with
    | .error (.forward fs) => s.post fs
    | .error _ => s
    | .ok _ =>
    let t1 := s.tagOf x.core cumulusEngine { pc with place := match x.place with
      | .away m a g => .away m (a + 16) g
      | pl => pl }
    let d := s.descriptor x bs (s.tagOf x.core cumulusEngine pc) t1
    let t := (s.dropAnswers x.core cumulusEngine).dropSubmit k idx
    let code := s.refusal k d
    if code = 0 then t.admitTask k x d.task else t.resumeWith x.part x.record code 0

/-- Is it too late for a core's task in this cycle: a task of a higher core has been admitted in it, or a patience has
ended in it (R261, R262)? The task is then admitted in a later cycle. -/
def Cumulus.passed (u : Cumulus) (now core : Nat) : Bool := u.last.1 = now && core < u.last.2

/-- Cumulus notes its last act of this cycle. -/
def State.noteAct (s : State) (k who : Nat) : State := s.modCumulus k (fun u => { u with last := (s.time, who) })

/-- TASK_ADMISSION (R107, R259 to R262): tasks admitted in one cycle come in ascending core number. -/
def execTaskAdmission (idx : Nat) (s : State) : Host.Outcome State Fault Refusal :=
  let k := s.home
  .next (match s.myCluster.cumulus.submits[idx]? with
    | none => s
    | some x =>
      if s.myCluster.cumulus.passed s.time x.core then s
      else match x.place with
        | .here l key => (match s.awaitCaps x (s.mem.readUnder key l 64) with
          | .error (.forward fs) => s.post fs
          | .error _ => s
          | .ok _ => (((s.noteAct k x.core).admission k x l key).dropSubmit k idx).dropAnswers x.core cumulusEngine)
        | .away _ _ _ => (s.noteAct k x.core).remoteAdmission k idx x)

/-- PATIENCE_EXPIRY: a list that is full, or whose oldest member's patience has ended, forms its pass, after every admission
of the same cycle (R262). -/
def execPatienceExpiry (idx : Nat) (s : State) : Host.Outcome State Fault Refusal :=
  let u := s.myCluster.cumulus
  .next (match u.lists[idx]? with
    | none => s
    | some l =>
      if l.dueAt ≤ s.time then (s.noteAct s.home 1024).modCumulus s.home (fun u => u.form l) else s)

/-! ### Accesses of a pass (R265, R267) -/

/-- The memories a pass reads and writes: no L1, no FIFO (R190, R267). -/
def Reach.pass : Reach := ⟨false, true, false, true⟩

/-- The party of a task. -/
def CumTask.party (t : CumTask) : Party := ⟨t.part, t.world, t.context⟩

/-- The pieces of a member's access: every page translated, then the memory kinds (R265, R267). -/
def State.passPieces (s : State) (t : CumTask) (c : Cap) (x n : Nat) (write : Bool) : Chk (List Piece) := do
  let y := t.party
  let through := (cuts x n).filter (fun c => windowOf c.1 = .translated)
  let _ ← mapChk (fun c => s.placeOf t.core y c.1 write write) through
  s.checkKind (waiterOf t.core cumulusEngine) y Reach.pass x n x
  s.piecesOf t.core y c x n write write

/-- The activation bytes of a member (R265). -/
def State.activations (s : State) (t : CumTask) (n : Nat) : Chk (List Piece × List Byte) := s.farWalk t.core cumulusEngine do
  s.awaitGen t.party t.act.base
  let c := s.freshCap t.party t.act
  capCheck c c.cursor.toNat n permLoad
  let ps ← s.passPieces t c c.cursor.toNat n false
  let bs ← s.readPieces t.core cumulusEngine ps
  .ok (ps, bs)

/-! ### Completion and parking (R108, R267, R268) -/

/-- A task completes: its counter advances in sequence order. -/
def State.finishTask (s : State) (t : CumTask) : State :=
  s.completeTask t.part (seqIndex t.world t.context t.ctr) t.seq.toNat

/-- Code, address, cause, level, access and guest-physical address of a failure. -/
structure ParkWhy where
  code : Nat
  addr : Word64
  cause : Nat
  level : Nat
  write : Bool
  gpa : Word64
  deriving DecidableEq, Repr

/-- Why a member parks. -/
def parkWhy (e : Stop) (write : Bool) : ParkWhy :=
  match e with
  | .trap t info _ => ⟨t.code, info, 0, 0xFF, write, 0⟩
  | .xlate f => ⟨if f.second then Trap.xlate2.code else Trap.xlate1.code, BitVec.ofNat 64 f.va, f.cause, f.level, f.write,
      BitVec.ofNat 64 f.gpa⟩
  | _ => ⟨Trap.memmode.code, 0, 0, 0xFF, write, 0⟩

/-- The report of a parked task: kind 4, or for XLATE2 a second-stage record of the Zenith with a token, whose S2RESUME finds
nothing to resume, for the task is not run again (R268, R419; log 61). -/
def parkRecord (t : CumTask) (w : ParkWhy) (token : Nat) : FaultRec :=
  let second := w.code = Trap.xlate2.code
  { token := if second then token else 0, record := 0, info := faultInfoOf w.code none 0 0 false, addr := w.addr, pc := 0,
    kind := if second then 2 else 4, cause := w.cause, level := w.level, write := w.write, seq := t.seq, ctr := t.ctr,
    context := t.context, world := t.world, gpa := w.gpa, part := t.part, engine := cumulusEngine, blocked := false }

/-- The tag of a row: world, context, row of its task, position of its member in the pass (R264). -/
def rowTag (t : CumTask) (row slot : Nat) : BitVec 28 :=
  BitVec.ofNat 28 (t.world % 64 * 2 ^ 22 + t.context % 256 * 2 ^ 14 + row % 64 * 2 ^ 8 + slot % 256)

/-- The rows of a member enter the park buffer, one entry each (R268). -/
def Cumulus.parkRows (u : Cumulus) (t : CumTask) (slot : Nat) (w : ParkWhy) : Cumulus :=
  { u with parked := u.parked ++ (upFrom 0 t.rows).map (fun r => ⟨rowTag t r slot, w.code, w.addr⟩) }

/-- The entries of a member are free again. -/
def Cumulus.freeRows (u : Cumulus) (t : CumTask) (slot : Nat) : Cumulus :=
  { u with parked := u.parked.filter (fun e => !(upFrom 0 t.rows).any (fun r => e.tag = rowTag t r slot)) }

/-- The member at a position of a pass parks: its rows enter the park buffer, the fault is recorded in SEQF and reported,
the entries are freed and the task is complete (R268). -/
def State.park (s : State) (k slot : Nat) (t : CumTask) (w : ParkWhy) : State :=
  let s := s.modCumulus k (fun u => u.parkRows t slot w)
  let s := s.reportFault t.part (seqIndex t.world t.context t.ctr) t.seq.toNat w.code
  let n := s.outer.nextToken
  let r := parkRecord t w n
  let s := if w.code = Trap.xlate2.code then
      { s with outer := { s.outer with nextToken := n + 1 } }.zenithFault r
    else s.guestFault r
  (s.modCumulus k (fun u => u.freeRows t slot)).finishTask t

/-! ### The array phase (R265, R278) -/

/-- K elements of bytes in a format: integers, or codes. -/
def elemCodes (f : MatFmt) (K : Nat) (bs : List Byte) : List Nat :=
  let x := leNat bs
  (upFrom 0 K).map (fun k => bitsAt x (f.bits * k) f.bits)

/-- n 32-bit scales from offset o. -/
def scalesAt (o n : Nat) (bs : List Byte) : List Nat := (upFrom 0 n).map (fun b => numAt (o + 4 * b) 4 bs)

/-- Column n of a weight's bytes as the staging slot holds it, K along the row: elements, then scales (R278). -/
def weightColumn (f : MatFmt) (K N off n : Nat) (bs : List Byte) : List Byte :=
  match f with
  | .lb m => sliceB (n * (K * m / 8)) (K * m / 8) bs ++ sliceB (off + 4 * (n * (K / 32))) (4 * (K / 32)) bs
  | _ =>
    let b := f.bits / 8
    ((upFrom 0 K).map (fun k => sliceB ((k * N + n) * b) b bs)).flatten

/-- Row r of a task's bytes: elements and scales (R259, R278). -/
def actRow (f : MatFmt) (K r : Nat) (bs : List Byte) : List Nat × List Nat :=
  let ab := rowBytes f K
  let row := sliceB (r * ab) ab bs
  match f with
  | .lb m => (elemCodes f K row, scalesAt (K * m / 8) (K / 32) row)
  | _ => (elemCodes f K row, [])

/-- LBm: exact block sums, each scaled exactly and added with one rounding (R265). -/
def scaledSum : List (List Int) → List (Nat × Nat) → FVal → Nat
  | ps :: pss, (sa, sw) :: ss, acc =>
    let term := ((FVal.ofInt ps.sum).mul (ls20Dec sa)).mul (ls20Dec sw)
    scaledSum pss ss (FloatKind.fp32.rneVal (FVal.total [acc, term]))
  | _, _, acc => FloatKind.fp32.rne acc

/-- acc(i, n) of a pass (R265). -/
def passLane (f : MatFmt) (a w : List Nat × List Nat) : Word64 :=
  match f with
  | .lb m =>
    let ps := List.zipWith (fun x y => lbInt m x * lbInt m y) a.1 w.1
    BitVec.ofNat 64 (scaledSum (groupsOf 32 ps ps.length) (a.2.zip w.2) FVal.zero)
  | .i8 =>
    let p := (List.zipWith (fun x y => signedOf 8 x * signedOf 8 y) a.1 w.1).sum
    BitVec.ofNat 64 (FloatKind.fp32.rne (FVal.ofInt (signedOf 40 (wrapInt 40 p))))
  | .flt k =>
    let ps := List.zipWith (fun x y => (k.dec x).mul (k.dec y)) a.1 w.1
    BitVec.ofNat 64 (floatDot f.acc (groupsOf 16 ps ps.length) (.fin true 0 0))

/-- The accumulator rows of a member, from the staging slots: its rows stand from number `first` on. -/
def memberAcc (f : MatFmt) (c : ShapeClass) (u : Cumulus) (first rows : Nat) : List (List Word64) :=
  let cols := (upFrom 0 c.N).map (fun n => actRow f c.K 0 (Sparse.get u.weights [] n))
  (upFrom first rows).map (fun r => let a := actRow f c.K 0 (Sparse.get u.acts [] r); cols.map (passLane f a))

/-- The reads of Cumulus for a core's task at other modules are given up. -/
def State.dropFetch (s : State) (core : Nat) : State :=
  { s with outer := { s.outer with forwards := s.outer.forwards.filter (fun f =>
      !(f.core = core && f.engine = cumulusEngine && (match f.kind with | .load _ => true | _ => false))) } }

/-- The parts of a weight region that hold its tile: its elements, then the scales of an LBm one (R265, R278). -/
def Weight.tile (w : Weight) (c : ShapeClass) : List (Nat × Nat) :=
  match matFmtOf w.format with
  | .lb m => [(0, c.N * (c.K * m / 8)), (w.scales, 4 * (c.N * (c.K / 32)))]
  | f => [(0, c.K * c.N * f.bits / 8)]

/-- The lines of the weight's tile (R258). -/
def Weight.tileLines (w : Weight) (c : ShapeClass) : List Nat :=
  let l := hbmLoc w.part w.base
  ((w.tile c).map (fun q => (upFrom 0 (ceilDiv ((l + q.1) % 128 + q.2) 128)).map (fun j => floorTo (l + q.1) 128 + 128 * j))).flatten

/-- Parks every unfinished member of a pass from position j on with one code, in order (R265). -/
def State.parkAll (s : State) (k : Nat) (w : ParkWhy) : Nat → List PassMember → State × List PassMember
  | _, [] => (s, [])
  | j, m :: ms =>
    let s := if m.finished then s else s.park k j m.task w
    let r := State.parkAll s k w (j + 1) ms
    (r.1, { m with finished := true } :: r.2)

/-- The weight of a pass: its entry and bytes, or why every member parks (R265, R273). -/
def State.passWeight (s : State) (p : Nat) (ident : BitVec 64) (c : ShapeClass) : Except ParkWhy (Weight × List Byte) :=
  match s.weightOf p ident with
  | none => .error ⟨Trap.memmode.code, 0, 0, 0xFF, false, 0⟩
  | some (_, w) =>
    let l := hbmLoc p w.base
    if (w.tile c).any (fun q => (s.mem.poisonIn (l + q.1) q.2).isSome) then
      .error ⟨Trap.memerr.code, Config.errorAddr s.draws, 0, 0xFF, false, 0⟩
    else .ok (w, s.mem.readUnder (s.weightKey p) l w.len)

/-- Changes pass number i of a cluster; a pass whose members are all finished retires, its pins with it. -/
def State.putPass (s : State) (k i : Nat) (p : Pass) : State :=
  s.modCumulus k (fun u =>
    let passes := if p.members.all PassMember.finished then listDrop i u.passes else listSet p i u.passes
    { u with passes := passes })

/-- The number of the first staging row of the member at a position. -/
def Pass.firstRow (p : Pass) (j : Nat) : Nat := ((p.members.take j).map (fun m => m.task.rows)).sum

/-- Rows of bytes laid into a staging slot from a number on. -/
def stageRows (t : Sparse (List Byte)) (first : Nat) (rows : List (List Byte)) : Sparse (List Byte) :=
  ((upFrom first rows.length).zip rows).foldl (fun u q => Sparse.set q.1 q.2 u) t

/-- The pass after a member's fetch: its lines stay pinned until the pass retires (R258). -/
def Pass.fetched (p : Pass) (ps : List Piece) : Pass := { p with next := p.next + 1, pins := Marks.addAll (pinnedLines ps) p.pins }

/-- The fetch of the next member's activations into staging; a failure parks the member and leaves its rows zero (R265). -/
def State.fetchMember (s : State) (k i : Nat) (p : Pass) (m : PassMember) (w : Weight) (c : ShapeClass) : Chk State :=
  let ab := rowBytes (matFmtOf w.format) c.K
  let first := p.firstRow p.next
  match s.activations m.task (m.task.rows * ab) with
  | .ok r =>
    let rows := (upFrom 0 m.task.rows).map (fun j => sliceB (j * ab) ab r.2)
    let t := (s.dropAnswers m.task.core cumulusEngine).modCumulus k (fun u => { u with acts := stageRows u.acts first rows })
    .ok ((t.noWait (waiterOf m.task.core cumulusEngine)).putPass k i (p.fetched r.1))
  | .error (.wait r) => .error (.wait r)
  | .error (.forward fs) => .error (.forward fs)
  | .error e =>
    let none_ := List.replicate m.task.rows []
    let t := (s.dropFetch m.task.core).modCumulus k (fun u => { u with acts := stageRows u.acts first none_ })
    let t := t.park k p.next m.task (parkWhy e false)
    .ok (t.putPass k i { p with next := p.next + 1, members := listSet { m with finished := true } p.next p.members })

/-- The fetch of the weight, once for the pass; on a failure every member that is left parks with its code (R265). -/
def State.fetchWeight (s : State) (k i : Nat) (p : Pass) (w : Weight) (c : ShapeClass) : State :=
  let s := { s with draws := s.draws + 1 }
  match s.passWeight w.part w.ident c with
  | .ok (_, bs) =>
    let f := matFmtOf w.format
    let cols := (upFrom 0 c.N).map (fun n => weightColumn f c.K c.N w.scales n bs)
    (s.modCumulus k (fun u => { u with weights := stageRows [] 0 cols })).putPass k i
      { p with next := p.next + 1, pins := Marks.addAll (w.tileLines c) p.pins }
  | .error why =>
    let q := s.parkAll k why 0 p.members
    q.1.putPass k i { p with next := p.next + 2, members := q.2 }

/-- The lane format of a class's accumulators, and lanes of an entry. -/
def ShapeClass.lane (c : ShapeClass) (fmt : Nat) : Fmt := if c.group = 3 ∧ fmt = 13 then .flt .fp64 else .flt .fp32

/-- The entries of a member: its rows packed from lane 0, the last one padded with +0 (R266). -/
def memberEntries (f : Fmt) (acc : List (List Word64)) : List Vec :=
  let lanes := (acc.map (fun r => r.map BitVec.toNat)).flatten
  let E := f.lanes
  (groupsOf E lanes lanes.length).map (fun l => packLanes f.bits (l ++ List.replicate (E - l.length) 0))

/-- The products of every member that has not parked (R265). -/
def State.passProducts (s : State) (k i : Nat) (p : Pass) (w : Weight) (c : ShapeClass) : State :=
  let u := (s.cluster k).cumulus
  s.putPass k i { p with
    next := p.next + 1
    due := s.time
    members := (upFrom 0 p.members.length).zip p.members |>.map (fun q =>
      if q.2.finished then q.2
      else
        let acc := memberAcc (matFmtOf w.format) c u (p.firstRow q.1) q.2.task.rows
        { q.2 with acc := acc, entries := (memberEntries (c.lane w.format) acc).length }) }

/-- The next word of a pass's array phase. A pass whose weight is gone parks every member with MEMMODE (R273). -/
def State.passWord (s : State) (k i : Nat) (p : Pass) : Chk State :=
  let h := (p.members.head?).map (fun m => (s.weightOf m.task.part m.task.weight, shapeClass m.task.cls))
  match h with
  | some (some (_, w), some c) =>
    match p.members[p.next]? with
    | some m => s.fetchMember k i p m w c
    | none => .ok (if p.next = p.members.length then s.fetchWeight k i p w c else s.passProducts k i p w c)
  | _ =>
    let q := s.parkAll k ⟨Trap.memmode.code, 0, 0, 0xFF, false, 0⟩ 0 p.members
    .ok (q.1.putPass k i { p with next := p.members.length + 2, members := q.2 })

/-- Is the word that stands next the last of a pass's array phase, as the pass stands after it? -/
def State.passOver (s : State) (k i n : Nat) : Bool :=
  let ps := (s.cluster k).cumulus.passes
  ps.length < n || (match ps[i]? with | some p => p.ran | none => true)

/-- The words of pass i under a Cumulus grant, at most n of them, up to the end of its array phase, with which the grant
ends (R256, R257). A fetch that waits for a switching bank or for another module stops it. -/
def State.passWords (s : State) (k i : Nat) : Nat → State
  | 0 => s
  | n + 1 =>
    let ps := (s.cluster k).cumulus.passes
    match ps[i]? with
    | none => s
    | some p =>
      match s.passWord k i p with
      | .ok t =>
        let t := t.setCluster k { t.cluster k with steps := (t.cluster k).steps + 1 }
        if t.passOver k i ps.length then t.setCluster k { t.cluster k with granted := none }
        else State.passWords t k i n
      | .error (.forward fs) => s.post fs
      | .error (.wait r) => (match p.members[p.next]? with
        | some m => s.queueUp r (waiterOf m.task.core cumulusEngine)
        | none => s)
      | .error _ => s

/-- RUN_PASS: at a Cumulus grant the oldest pass with words left runs them, to the end of its array phase or of the
grant's 256 step words; it goes on at the next grant with staging as it left it (R101, R256, R257, R265; log 92). -/
def execRunPass (s : State) : Host.Outcome State Fault Refusal :=
  let k := s.home
  .next (if s.myCluster.granted ≠ some .cumulus ∨ s.atLimit k then s
    else match s.myCluster.cumulus.passes.findIdx? (fun p => !p.ran) with
      | none => s
      | some i => s.passWords k i (256 - s.myCluster.steps))

/-! ### Epilogue and scatter (R266, R267) -/

/-- The core an epilogue run starts on: a pickup without full state, the entry in lq0 (R266). -/
def epiCore (f : Fmt) (entry : Vec) : Core :=
  let c := Core.init.setLoadQ 0 [entry]
  { c with sys := { c.sys with vshape := if f = .flt .fp64 then 11 else 10 } }

/-- After a word of an epilogue run, sq0 keeps its first entry and every other push is discarded (R266). -/
def Core.trimEpi (c : Core) : Core :=
  { c with sq := [(0, (c.storeQ 0).take 1)], iq := [], cq := [] }

/-- How an epilogue run ends without a result: the core as it leaves it, the trap code, the trap's address (R266, R268). -/
abbrev EpiEnd := Core × Nat × Word64

/-- A word of an epilogue run, its result written at once; a load queue read empty raises REGEMPTY whatever its bit
(R266). -/
def Core.epiWord (c : Core) (op : VOp) : Except EpiEnd Core :=
  let strict := { op with srcs := op.srcs.map (fun r => (r.1, r.2 || decide (56 ≤ r.1))) }
  match c.checkVec strict with
  | .error (.trap t info _) => .error (c, t.code, info)
  | .error _ => .error (c, Trap.regempty.code, 0)
  | .ok _ =>
    let b : Block := ⟨0, 0, 0, [], 0, none, false⟩
    let d := c.startVec b [] strict
    let d := d.eng.vecFlight.foldl Core.complete d
    .ok ({ d with eng := { d.eng with vecFlight := [], vecQ := [] } }).trimEpi

/-- VSHAPE in an epilogue run (R200, R266). -/
def Core.epiShape (c : Core) (a : Nat) : Except EpiEnd Core :=
  if !c.srcReady a then .error (c, Trap.regempty.code, w64 a)
  else
    let v := (c.srcVal a).toNat % 2 ^ 64
    if 16 ≤ v then .error (c, Trap.argrange.code, w64 v)
    else
      let d := c.popSrc a
      .ok { d with sys := { d.sys with vshape := v } }

/-- Runs the words of an epilogue block: the core as it leaves it with the result, or how it ends without one (R266). -/
def runEpi : List (Option Nat) → Core → Except EpiEnd (Core × Vec)
  | [], c => .error (c, Trap.illegal.code, 0)
  | none :: _, c => .error (c, Trap.memerr.code, 0)
  | some w :: ws, c =>
    match decodeFor .vector w with
    | none => .error (c, Trap.illegal.code, 0)
    | some (.vend _) => match c.storeQ 0 with | v :: _ => .ok (c, v) | [] => .error (c, Trap.argrange.code, 0)
    | some (.vshape a sel _) =>
      if selOn sel 0 then (match c.epiShape a.toNat with | .ok d => runEpi ws d | .error e => .error e) else runEpi ws c
    | some i => match vopOf i with
      | some (sel, op) =>
        if selOn sel 0 then (match c.epiWord op with | .ok d => runEpi ws d | .error e => .error e) else runEpi ws c
      | none => .error (c, Trap.illegal.code, 0)

/-- The words of the vector block at offset 0 of the image with a code hash (R266); none for a poisoned one (R198). -/
def State.epiWords (s : State) (p : Nat) (h : BitVec 128) : List (Option Nat) :=
  match (s.part p).imageOf h with
  | some (n, _) => (s.blockWords p n .vector (fun w => bitsAt w 26 6 = 1) 0 (s.sectionCount p n .vector + 1)).zipIdx.map
      (fun q => if s.fetchBad p n .vector q.2 then none else some q.1)
  | none => []

/-- The result bytes of a member: every lane converted to RFMT (R249, R265). -/
def memberBytes (f : Fmt) (rfmt count : Nat) (results : List Vec) : List Byte :=
  let lanes := ((results.map (lanesOf f.bits)).flatten).take count
  let r := fmtOf rfmt
  (lanes.map (fun x => leBytes (convert f r true false x) (r.bits / 8))).flatten

/-- The checks of a scatter (R267). -/
def State.scatterPieces (s : State) (t : CumTask) (n : Nat) : Chk (List Piece) := s.farWalk t.core cumulusEngine do
  s.awaitGen t.party t.res.base
  let c := s.freshCap t.party t.res
  capCheck c c.cursor.toNat n permStore
  s.passPieces t c c.cursor.toNat n true

/-- The number that a task's writes to other modules carry. -/
def CumTask.number (t : CumTask) : Nat := ((t.seq.toNat * 64 + t.ctr) * 256 + t.context) * 64 + t.world

/-- Acknowledgements that the writes of a task wait for (R267, R422). -/
def State.scatterPending (s : State) (t : CumTask) : Bool :=
  s.outer.forwards.any (fun f => f.core = t.core && f.engine = cumulusEngine && f.word = t.number)

/-- The scatter of a member (R267): nothing is written when a check fails. The task completes once its writes are
performed. -/
def State.writeMember (s : State) (k slot : Nat) (m : PassMember) (bs : List Byte) : State × PassMember :=
  match s.scatterPieces m.task bs.length with
  | .error (.wait r) => (s.queueUp r (waiterOf m.task.core cumulusEngine), m)
  | .error (.forward fs) => (s.post fs, m)
  | .error e => ((s.dropFetch m.task.core).park k slot m.task (parkWhy e true), { m with finished := true })
  | .ok ps =>
    let t := (s.dropAnswers m.task.core cumulusEngine).putPieces m.task.core cumulusEngine true ps bs m.task.number
    let t := t.noWait (waiterOf m.task.core cumulusEngine)
    if t.scatterPending m.task then (t, { m with written := true }) else (t.finishTask m.task, { m with finished := true })

/-- The core on which an epilogue run took place, as a pickup without full state and the run have left it (R163, R182,
R266). -/
def State.leaveEpi (s : State) (core : Nat) (c : Core) : State := (s.clearL1 core).setCore core c.idle

/-- One epilogue run for the member at a position, or, when its entries are done, its scatter (R266, R267). -/
def State.runMember (s : State) (k slot : Nat) (c : ShapeClass) (fmt : Nat) (m : PassMember) : State × PassMember :=
  let f := c.lane fmt
  let es := memberEntries f m.acc
  if m.written then
    (if s.scatterPending m.task then (s, m) else (s.finishTask m.task, { m with finished := true }))
  else match es[m.results.length]? with
    | some e =>
      (match runEpi (s.epiWords m.task.part m.task.hash) (epiCore f e) with
      | .error x =>
        ((s.leaveEpi s.actor.core x.1).park k slot m.task ⟨x.2.1, if x.2.1 = Trap.memerr.code then Config.errorAddr s.draws else x.2.2, 0,
          0xFF, false, 0⟩, { m with finished := true })
      | .ok x =>
        let m := { m with results := m.results ++ [x.2] }
        let s := s.leaveEpi s.actor.core x.1
        if m.results.length = es.length then
          s.writeMember k slot m (memberBytes f m.task.rfmt (m.task.rows * c.N) m.results)
        else (s, m))
    | none => s.writeMember k slot m (memberBytes f m.task.rfmt (m.task.rows * c.N) m.results)

/-- The format byte of a pass's weight; FP64 members deliver FP64 lanes. -/
def State.passFormat (s : State) (t : CumTask) : Nat :=
  match s.weightOf t.part t.weight with | some (_, w) => w.format | none => 12

/-- Does some record that a core may take up go before a run that entered in a cycle (R165, R266)? While dispatch is held
none is taken up (R434). -/
def State.recordFirst (s : State) (core p due : Nat) : Bool :=
  !(s.part p).held && (((s.part p).agedPool s.time).filter (s.takeable core p)).any (fun e => e.before due)

/-- EPILOGUE_RUN: an idle core of the cluster runs the next entry of the first unfinished member of the oldest pass
whose array phase is over, in its turn among the records that it may take up (R165, R264 to R267). -/
def execEpilogueRun (s : State) : Host.Outcome State Fault Refusal :=
  let k := s.home
  let u := s.myCluster.cumulus
  .next (match u.passes.findIdx? (fun p => p.ran) with
    | none => s
    | some i => match u.passes[i]? with
      | none => s
      | some p => match p.members.findIdx? (fun m => !m.finished) with
        | none => s
        | some j => match p.members[j]? with
          | none => s
          | some m => match shapeClass m.task.cls with
            | none => s
            | some c =>
              if s.mayEpilogue s.actor.core m.task && !s.recordFirst s.actor.core m.task.part p.due then
                let r := s.runMember k j c (s.passFormat m.task) m
                r.1.putPass k i { p with members := listSet r.2 j p.members, due := s.time }
              else s)

end Sys2Proof.Machine
end

