-- ==== Sys2Proof/Machine/Elog.lean ====
section
/-! DEFINITION. The error log: entries, the ring, the tenant's sealed copy (R53 to R55, R451), and device writes into a
world's memory. -/

namespace Sys2Proof.Machine

/-! ### Device writes into a world's memory -/

/-- The engine that a forwarded write of the device itself names. -/
def deviceEngine : Nat := 6

/-- Writes bytes at a guest-physical address through the world's second stage; none when that translation fails. The
bytes lie within one page. -/
def State.guestWrite (s : State) (y : Party) (gpa : Nat) (bs : List Byte) : Except Nat State :=
  match s.translate2 y gpa true false with
  | .error c => .error c
  | .ok (.here l key) => .ok (s.storeAt none false l key bs)
  | .ok (.away m a g) => .ok (s.sendStore deviceCore deviceEngine m a g 0 bs [] ⟨y, none⟩)

/-! ### MSI-X (R437) -/

/-- Is a vector masked? The mask is bit 0 of its entry's fourth word, and is set until the host clears it, as PCIe has it
(PRESUMED, log 108). -/
def Vf.masked (f : Vf) (n : Nat) : Bool := bitAt (Sparse.get f.vectors 1 (4 * n + 3)) 0

/-- The device signals a vector of a function: a masked one becomes pending. -/
def State.signal (s : State) (v n : Nat) : State :=
  if (s.vf v).masked n then s.setVf v { s.vf v with pending := Marks.add n (s.vf v).pending } else s.say (.msix v n)

/-! ### Entries (R53, R54) -/

/-- An entry before it is stamped. -/
structure LogEntry where
  kind : Nat
  source : Nat
  world : Option (Nat × Nat)
  addr : Nat
  syn : Nat
  deriving DecidableEq, Repr

/-- Bytes 12 to 15: partition and world, or all ones (log 29). -/
def LogEntry.owner (e : LogEntry) : Nat := match e.world with | some (p, w) => p + 2 ^ 16 * w | none => 0xFFFFFFFF

/-- The 32 bytes of an entry made in a cycle. -/
def LogEntry.bytes (e : LogEntry) (time : Nat) : List Byte :=
  leBytes time 8 ++ leBytes e.kind 2 ++ leBytes e.source 2 ++ leBytes e.owner 4 ++ leBytes e.addr 8 ++ leBytes e.syn 8

/-- The source field of a virtual function. -/
def vfSource (v : Nat) : Nat := v + 2 ^ 15

/-- The partition and world that a virtual function belongs to. -/
def State.worldOfVf (s : State) (v : Nat) : Option (Nat × Nat) :=
  match List.find? (fun (q : Nat × Partition) => q.2.worlds.any (fun w => w.2.present && w.2.vf = v)) s.parts with
  | none => none
  | some (p, x) =>
    match List.find? (fun (w : Nat × World) => w.2.present && w.2.vf = v) x.worlds with
    | some (w, _) => some (p, w)
    | none => none

/-! ### The tenant's copy (R451) -/

/-- The 64-byte record of an entry for a world: ciphertext, IV and tag (log 30). -/
def sealedRecord (key time count : Nat) (plain : List Byte) : List Byte :=
  let iv := leBytes time 8 ++ leBytes count 8
  let c := gcmSeal (Config.derivedKey 0 key) iv plain
  sliceB 0 32 c ++ iv ++ sliceB 32 16 c

/-- Writes the record into a function's error ring, or counts it as lost. -/
def State.errorRing (s : State) (v : Nat) (y : Party) (r : List Byte) : State :=
  let f := s.vf v
  let n := 2 ^ f.ersize
  if f.ersize = 0 then s
  else
    let lost := s.setVf v { f with erlost := if f.erlost = BitVec.allOnes 32 then f.erlost else f.erlost + 1 }
    if (f.erhead.toNat + 1) % n = f.ertail.toNat % n then lost
    else
      match s.guestWrite y (f.erbase.toNat + 64 * f.erhead.toNat) r with
      | .error _ => lost
      | .ok t => (t.setVf v { t.vf v with erhead := BitVec.ofNat 12 ((f.erhead.toNat + 1) % n) }).signal v 1

/-- The tenant's copy of an entry that names a world; a world that is not present has no tenant. -/
def State.tenantCopy (s : State) (e : LogEntry) : State :=
  match e.world with
  | none => s
  | some (p, w) =>
    let x := (s.part p).world w
    if x.present = false then s
    else
    let s := s.modPart p (fun q => q.setWorld w { x with errCount := x.errCount + 1 })
    s.errorRing x.vf ⟨p, w, 0⟩ (sealedRecord x.key s.time x.errCount (e.bytes s.time))

/-- Records an entry: a full ring drops it and counts it (R53, R55). -/
def State.logError (s : State) (e : LogEntry) : State :=
  let m := s.mgmt
  if m.elogHead + 1 = m.elogTail then
    { s with mgmt := { m with elogLost := if m.elogLost = BitVec.allOnes 32 then m.elogLost else m.elogLost + 1 } }
  else
    let t := s.poke (coronaLoc (m.elogBase.toNat + 32 * m.elogHead.toNat)) (e.bytes s.time)
    ({ t with mgmt := { t.mgmt with elogHead := m.elogHead + 1 } }).tenantCopy e

/-- The host's copy of an entry of the ring: address and syndrome are zero (R451). -/
def hostCopy (bs : List Byte) : List Byte := sliceB 0 16 bs ++ List.replicate 16 0

/-! ### Refused host accesses (R53, R54, R271, R408) -/

/-- What a refused host access is answered with: all ones to a read. -/
def hostAnswer (a : HostAccess) : List Byte := if a.write then [] else List.replicate a.size 0xFF

/-- The error response to a host access. -/
def State.refuseAccess (s : State) (a : HostAccess) : State := s.say (.unsupported a.vf a.addr.toNat (hostAnswer a))

/-- The entry of a refused host access: kind 0x0030 for a function in ERROR, else 0x0020. -/
def State.refusedEntry (s : State) (a : HostAccess) : LogEntry :=
  let w := s.worldOfVf a.vf
  if (s.vf a.vf).state = 3 then ⟨0x30, vfSource a.vf, w, a.addr.toNat, bitVal a.write 4⟩
  else ⟨0x20, vfSource a.vf, w, a.addr.toNat, a.size % 16 + bitVal a.write 4⟩

/-- HOST_ACCESS_REFUSED: the error response, and the entry (R53, R54, R408). -/
def execHostAccessRefused (acc : HostAccess) (s : State) : Host.Outcome State Fault Refusal :=
  .next ((s.refuseAccess acc).logError (s.refusedEntry acc))

/-- HOST_WRITE_WEIGHT_REGION: a host write into a weight region gets the error response and is discarded (R53, R271). -/
def execHostWriteWeightRegion (acc : HostAccess) (s : State) : Host.Outcome State Fault Refusal :=
  let a := { acc with write := true }
  .next ((s.refuseAccess a).logError ⟨0x21, vfSource acc.vf, s.worldOfVf acc.vf, acc.addr.toNat, acc.data.toNat⟩)

end Sys2Proof.Machine
end

