-- ==== Sys2Proof/Machine/Hostlink.lean ====
section
/-! DEFINITION. What the host adapter's command events share: the ring and the command at its head, completions with
dirty tracking, the end of units and commands that are aborted (R438 to R445, R449). -/

namespace Sys2Proof.Machine

/-- A place n bytes further. -/
def Place.plus (pl : Place) (n : Nat) : Place :=
  match pl with
  | .here l k => .here (l + n) k
  | .away m a g => .away m (a + n) g

/-! ### DMA towards the host (R440, R449) -/

/-- The 4 KiB pages of the tracked range that [x, x + n) touches, as bit numbers of the bitmap. -/
def Queue.dirtyBits (q : Queue) (x n : Nat) : List Nat :=
  let org := q.dorg.toNat
  if q.den = false ∨ n = 0 then []
  else ((upFrom (x / 4096) ((x + n - 1) / 4096 + 1 - x / 4096)).filter
    (fun i => org ≤ i * 4096 && i * 4096 < org + 2 ^ 32)).map (fun i => (i * 4096 - org) / 4096)

/-- Sets bit i of a bitmap at an IOVA of a function: an atomic OR in host memory. -/
def State.setDirty (s : State) (v base i : Nat) : State :=
  let l := hostLoc v (base + i / 8)
  s.poke l [s.mem.byte l ||| BitVec.ofNat 8 (2 ^ (i % 8))]

/-- The dirty bits of one queue's range. -/
def State.markDirty (v x n : Nat) (s : State) (q : Nat × Queue) : State :=
  (q.2.dirtyBits x n).foldl (fun t i => t.setDirty v q.2.dbase.toNat i) s

/-- A DMA write of a function: the dirty bits of every queue that tracks its place first, then the bytes (R449). -/
def State.dmaWrite (s : State) (v x : Nat) (bs : List Byte) : State :=
  ((s.vf v).queues.foldl (State.markDirty v x bs.length) s).poke (hostLoc v x) bs

/-- A DMA read. -/
def State.dmaRead (s : State) (v x n : Nat) : List Byte := s.raw (hostLoc v x) n

/-! ### Commands (R438, R440) -/

/-- Fields of a command's 64 bytes. -/
def cmdOp (c : List Byte) : Nat := numAt 0 1 c
def cmdLink (c : List Byte) : Bool := bitAt (numAt 1 1 c) 0
def cmdSig (c : List Byte) : Bool := bitAt (numAt 1 1 c) 1
def cmdTag (c : List Byte) : BitVec 32 := BitVec.ofNat 32 (numAt 4 4 c)
def cmdA (c : List Byte) : Word64 := BitVec.ofNat 64 (numAt 8 8 c)
def cmdB (c : List Byte) : Word64 := BitVec.ofNat 64 (numAt 16 8 c)
def cmdIova (c : List Byte) : Word64 := alignedDown (BitVec.ofNat 64 (numAt 24 8 c))
  where alignedDown (x : Word64) : Word64 := (x >>> 4) <<< 4
def cmdValue (c : List Byte) : Word64 := BitVec.ofNat 64 (numAt 32 8 c)

/-- A reserved op or a nonzero reserved byte (R441). -/
def cmdMalformed (c : List Byte) : Bool :=
  numAt 1 1 c / 4 != 0 || numAt 2 2 c != 0 || cmdOp c = 0 || 7 < cmdOp c

/-- Command number n of a queue's ring. -/
def State.command (s : State) (v q : Nat) (n : BitVec 32) : List Byte :=
  let f := (s.vf v).queue q
  s.dmaRead v (f.rbase.toNat + 64 * (n.toNat % 2 ^ f.rsize)) 64

/-- Changes a queue. -/
def State.modQueue (s : State) (v q : Nat) (f : Queue → Queue) : State :=
  s.setVf v ((s.vf v).setQueue q (f ((s.vf v).queue q)))

/-- A completion: value, tag, status, and the two bytes at 14 (R440). -/
def completion (value : Word64) (tag : BitVec 32) (status extra : Nat) : List Byte :=
  leBytes value.toNat 8 ++ leBytes tag.toNat 4 ++ leBytes status 2 ++ leBytes extra 2

/-- Completes a command: one write when its SIG is set. -/
def State.complete (s : State) (v q : Nat) (c : List Byte) (value : Word64) (status extra : Nat) : State :=
  if cmdSig c then s.dmaWrite v (cmdIova c).toNat (completion value (cmdTag c) status extra) else s

/-- The command at HEAD completes with a status and HEAD moves past it; a STOP that waited takes effect (R438). -/
def State.finishHead (s : State) (v q : Nat) (c : List Byte) (value : Word64) (status extra : Nat) : State :=
  (s.complete v q c value status extra).modQueue v q (fun f =>
    { f with head := f.head + 1, units := 0, bounce := [],
             state := if f.stopping && f.state = 1 then 2 else f.state, stopping := false })

/-- The command at HEAD fails its checks: the queue stops in ERROR (R438). -/
def State.failHead (s : State) (v q : Nat) (c : List Byte) (status : Nat) : State :=
  (s.complete v q c (cmdValue c) status 0).modQueue v q (fun f =>
    { f with state := 3, err := status, stopping := false, units := 0, bounce := [] })

/-- Is a command of a queue in flight beside its head: an accepted chain, a rank of a collective? -/
def State.inFlight (s : State) (v q : Nat) : Bool :=
  s.outer.chains.any (fun c => c.2.vf = v && c.2.queue = q) || s.outer.ranks.any (fun r => r.vf = v && r.queue = q)

/-- May the queue take the command at HEAD: it runs, with no gate of its own; a copy under way goes on (R438, R447)? -/
def Queue.takes (f : Queue) : Bool :=
  f.head != f.tail && (f.state = 1 && !f.gated && !f.stopping || (0 < f.units && (f.state = 1 || f.state = 2)))

/-- What the head of a queue asks for: a LINK makes it a chain, whatever its op (R442). -/
def headOp (c : List Byte) : Nat := if cmdLink c then 1 else cmdOp c

/-- Takes the command at HEAD of the acting queue for the event of its op. NOTREADY before RUN, ABORTED in ERROR (R408);
BADCMD stops the queue (R441). -/
def State.take (s : State) (op : Nat) (f : Nat → Nat → Party → List Byte → State) : State :=
  let v := s.actor.vf
  let q := s.actor.queue
  let x := (s.vf v).queue q
  let c := s.command v q x.head
  if x.takes = false then s
  else if (s.vf v).state = 3 then s.finishHead v q c (cmdValue c) 10 0
  else if (s.vf v).state ≠ 2 then s.finishHead v q c (cmdValue c) 8 0
  else if cmdMalformed c then s.failHead v q c 15
  else if headOp c ≠ op then s
  else match s.worldOfVf v with
    | none => s.finishHead v q c (cmdValue c) 8 0
    | some (p, w) => f v q ⟨p, w, 0⟩ c

/-! ### Guest-physical operands (R413, R441) -/

/-- The place of a guest-physical address of a world. -/
def State.guestPlace (s : State) (y : Party) (gpa : Nat) (write : Bool) : Option Place :=
  match s.translate2 y gpa write false with | .ok pl => some pl | .error _ => none

/-- The pieces of n bytes at a guest-physical address; none when some of it does not translate. -/
def State.guestPieces (s : State) (y : Party) (gpa n : Nat) (write : Bool) : Option (List Piece) :=
  (cuts gpa n).mapM (fun c => (s.guestPlace y c.1 write).map (fun pl => ⟨c.1, c.2, pl, y, none⟩))

/-- The partition-physical address of a location in a partition's memory. -/
def recordAt (p : Nat) (pl : Place) : Option Nat :=
  match pl with
  | .here l _ => if l < hbmEnd ∧ l / 2 ^ 48 = p then some (l - hbmLoc p 0) else none
  | .away _ _ _ => none

/-! ### Ends of units that are aborted (R177, R445) -/

/-- A record that no core runs and that will not run leaves the pool and every queue it waits in. -/
def State.unlist (s : State) (p a : Nat) : State :=
  let s := s.modPart p (fun x =>
    { x with pool := x.pool.filter (fun e => e.record != a),
             groups := x.groups.map (fun (g : Nat × Group) => (g.1, { g.2 with waiting := Marks.del a g.2.waiting })),
             syncs := x.syncs.map (fun (o : Nat × SyncObj) =>
               (o.1, { o.2 with waiting := o.2.waiting.filter (fun w => w.1 != a) })),
             seqs := x.seqs.map (fun (c : Nat × SeqCounter) =>
               (c.1, { c.2 with waiting := c.2.waiting.filter (fun w => w.1 != a) })) })
  { s with outer := { s.outer with suspended := s.outer.suspended.filter (fun w => !(w.part = p && w.record = a)) } }

/-- The fault-ring entry of a record that an abort ends: code 0, kind 3 (R419, R445). -/
def State.abortEntry (s : State) (p a : Nat) : FaultRec :=
  let c := s.ctl p a
  { token := 0, record := a, info := 0, addr := 0, pc := recResume (s.record p a), kind := 3, cause := 0, level := 0xFF,
    write := false, seq := 0, ctr := 0, context := ctlContext c, world := s.recWorld p a, gpa := 0, part := p, engine := 0,
    blocked := false }

/-- The core that runs a record. -/
def State.coreOf (s : State) (p a : Nat) : Option Nat :=
  (List.find? (fun (q : Nat × Core) => match q.2.run with | some r => r.part = p && r.record = a | none => false)
    s.cores).map Prod.fst

/-- A record that has not run leaves the pool and nothing else of it changes; one that has state in a save area counts as
suspended (R445; log 109). -/
def State.neverRan (s : State) (p a : Nat) : Bool := ctlState (s.ctl p a) = 1 && !ctlFull (s.ctl p a)

/-- A unit that an abort ends: a runnable record leaves the pool; a running or suspended one ends faulted with code 0, on its
core as EndFaulted, else where it stands (R177, R445). -/
def State.abortRecord (s : State) (p a : Nat) : State :=
  match s.coreOf p a with
  | some n => s.endFaulted n 0 0 none 0 (s.core n).pc.toNat (s.core n).holdsTrap (s.core n).pc.toNat
  | none =>
    if 5 ≤ ctlState (s.ctl p a) then s
    else if s.neverRan p a then (s.unlist p a).endUnit p a .aborted
    else
      let s := s.unlist p a
      let e := s.abortEntry p a
      let s := (s.setRecState p a 6).guestFault e
      (s.leaveGroups p a (recGroups (s.record p a))).endUnit p a .faulted

/-- The live records of a launch. -/
def Partition.launchRecords (x : Partition) (n : Nat) : List Nat :=
  match Sparse.find? n x.launches with | some l => l.records | none => []

/-- The running cores among records of a partition. -/
def State.coresFor (s : State) (p : Nat) (rs : List Nat) : List Nat := rs.filterMap (fun a => s.coreOf p a)

/-- The chains of a function, with their numbers. -/
def State.chainsOf (s : State) (v : Nat) : List (Nat × Chain) :=
  List.filter (fun (c : Nat × Chain) => c.2.vf = v) s.outer.chains

/-- Are there save areas for every running unit of a function's chains (R379)? -/
def State.canAbort (s : State) (v : Nat) : Bool :=
  match s.worldOfVf v with
  | none => true
  | some (p, _) =>
    s.canSaveAll p (s.coresFor p
      (((s.chainsOf v).map (fun c => (c.2.launches.map (fun l => (s.part l.1).launchRecords l.2)).flatten)).flatten))

/-- Every unit of a function's launches ends (R445 step 2). -/
def State.abortLaunches (s : State) (v : Nat) : State :=
  (s.chainsOf v).foldl (fun t c => c.2.launches.foldl (fun t l =>
    ((t.part l.1).launchRecords l.2).foldl (fun t a => t.abortRecord l.1 a) t) t) s

/-- The launches of a chain count as aborted (R408). -/
def State.markAborted (s : State) (v : Nat) : State :=
  (s.chainsOf v).foldl (fun t c => c.2.launches.foldl (fun t l =>
    t.modPart l.1 (fun x => match Sparse.find? l.2 x.launches with
      | some y => { x with launches := Sparse.set l.2 { y with ended := y.ended.worse .aborted } x.launches }
      | none => x)) t) s

/-- The ranks of a function withdraw from their collectives (R444). -/
def State.withdraw (s : State) (v : Nat) : State :=
  let rs := s.outer.ranks.filter (fun r => r.vf = v)
  rs.foldl (fun t r =>
    let low := match Sparse.find? r.ident.toNat t.outer.withdrawn with | some n => min n r.rank | none => r.rank
    ({ t with outer := { t.outer with ranks := t.outer.ranks.filter (fun x => x != r),
                                      withdrawn := Sparse.set r.ident.toNat low t.outer.withdrawn } }).say
      (.withdrawn r.ident r.rank)) s

/-- A copy under way is aborted: DEV stays, REARM is set (R446). -/
def Queue.abortCopy (f : Queue) : Queue := if 0 < f.units then { f with rearm := true, units := 0, bounce := [] } else f

/-- Changes every queue of a function. -/
def State.modQueues (s : State) (v : Nat) (g : Queue → Queue) : State :=
  s.setVf v { s.vf v with queues := (s.vf v).queues.map (fun (q : Nat × Queue) => (q.1, g q.2)) }

/-- The copy under way in a queue aborts, and its command completes with ABORTED (R408, R446). -/
def State.abortHeadCopy (s : State) (v q : Nat) : State :=
  let f := (s.vf v).queue q
  if f.units = 0 then s
  else
    let c := s.command v q f.head
    (s.modQueue v q Queue.abortCopy).finishHead v q c (cmdValue c) 10 0

/-- A queue after a function reset: unmapped, no notify pending, DEV, epoch and REARM as they are (R445 step 3). -/
def Queue.reset (f : Queue) : Queue := { f.abortCopy with state := 0, runnable := false, gated := false, stopping := false, before := none }

/-- The virtual-function reset (R445): the chains and ranks of the function are gone without a completion, its units
end, its queues and their latch entries are released, and it is CONFIG_UNLOCKED. -/
def State.resetVf (s : State) (v : Nat) : State :=
  let s := s.abortLaunches v
  let s := s.withdraw v
  let s := { s with outer := { s.outer with
    chains := s.outer.chains.filter (fun (c : Nat × Chain) => c.2.vf != v)
    latch := s.outer.latch.filter (fun (c : Nat × BitVec 32) => c.1 / 64 != v) } }
  (s.modQueues v Queue.reset).setVf v { (s.modQueues v Queue.reset).vf v with state := 0 }

/-- What a function's entry into ERROR does to its commands: each aborts (R408). A chain completes with ABORTED once
its units have ended, a rank withdraws and completes with it, a copy under way is aborted and completes with it. -/
def State.abortCommands (s : State) (v : Nat) : State :=
  let rs := s.outer.ranks.filter (fun r => r.vf = v)
  let s := ((s.abortLaunches v).markAborted v).withdraw v
  let s := rs.foldl (fun t r =>
    if r.sig then t.dmaWrite v r.iova.toNat (completion r.value r.tag 10 0) else t) s
  (s.vf v).queues.foldl (fun t q => t.abortHeadCopy v q.1) s

/-- A running unit for whose abort there was no save area ends as soon as there is one, when its function is in ERROR
(R379, R408; log 59). -/
def State.retryAborts (s : State) : State :=
  s.outer.vfs.foldl (fun t f => if f.2.state = 3 then t.abortLaunches f.1 else t) s

/-- PICKUP: the acting core, when it is idle and its partition's dispatch is not held, takes up the best record it may
take (R163, R164, R380, R434); an area that a restore frees may end a unit of a function in ERROR (R379, R408). -/
def execPickup (s : State) : Host.Outcome State Fault Refusal :=
  let core := s.actor.core
  .next (if (s.core core).run.isSome then s
    else match s.ownerOf (clusterOf core) with
      | none => s
      | some p =>
        if (s.part p).held then s
        else match s.bestEntry core p with
          | none => s
          | some e =>
            let t := s.modPart p (fun x => { x with pool := x.pool.filter (fun q => q.record != e.record) })
            (t.takeUp core p e.record).retryAborts)

end Sys2Proof.Machine
end

