-- ==== Sys2Proof/Machine/Queues.lean ====
section
/-! DEFINITION. Queues of virtual functions: doorbells and the notify latch, queue control, SIGNAL, WAITSIG, RECLAIM,
collectives, bounce copies, function reset (R438, R439, R441, R444 to R446). -/

namespace Sys2Proof.Machine

/-! ### Doorbells (R438, R439) -/

/-- Is the notify aperture of a queue gated: its partition held, a handoff under way, its own export or UNMAP (R439)? -/
def State.gated (s : State) (v q : Nat) : Bool :=
  s.mgmt.handoff.isSome || ((s.vf v).queue q).gated
    || (match s.worldOfVf v with | some (p, _) => (s.part p).held | none => false)

/-- The BAR0 offset of a doorbell. -/
def doorbellAt (q : Nat) : Nat := 0x400000 + 8 * q

/-- A doorbell write to an aperture that is open: TAIL, or Unsupported Request on a closed doorbell (R438). -/
def State.ringBell (s : State) (v q : Nat) (x : BitVec 32) : State :=
  if ((s.vf v).queue q).state = 0 then
    (s.say (.unsupported v (doorbellAt q) [])).logError ⟨0x22, vfSource v, s.worldOfVf v, doorbellAt q, x.toNat⟩
  else s.modQueue v q (fun f => { f with tail := x })

/-- Does the function refuse host accesses: not configured, or in ERROR (R408)? -/
def State.refusesHost (s : State) (v : Nat) : Bool := !(s.vf v).configured || (s.vf v).state = 3

/-- A write to a refusing function's BAR. -/
def State.refuseWrite (s : State) (v off : Nat) (x : Word64) : State :=
  let a : HostAccess := ⟨v, BitVec.ofNat 64 off, 8, true, x⟩
  (s.refuseAccess a).logError (s.refusedEntry a)

/-- A doorbell write by a function that may: latched while the aperture is gated (R439). -/
def State.doorbell (s : State) (v q : Nat) (x : BitVec 32) : State :=
  if s.gated v q then { s with outer := { s.outer with latch := Sparse.set (latchNo v q) x s.outer.latch } }
  else s.ringBell v q x

/-- DOORBELL_WRITE to the acting queue's doorbell (R438, R439). -/
def execDoorbellWrite (value : BitVec 32) (s : State) : Host.Outcome State Fault Refusal :=
  let v := s.actor.vf
  let q := s.actor.queue
  .next (if s.refusesHost v then s.refuseWrite v (doorbellAt q) (value.setWidth 64)
    else s.doorbell v q value)

/-- The gates that have opened let their latched notifies through, in ascending function and queue order (R439). -/
def State.openGates (s : State) : State :=
  s.outer.latch.foldl (fun t e =>
    let v := e.1 / 64
    let q := e.1 % 64
    if t.gated v q then t
    else ({ t with outer := { t.outer with latch := Sparse.erase e.1 t.outer.latch } }).ringBell v q e.2) s

/-! ### Queue control (R438) -/

/-- MAP: UNMAPPED to RUNNING with a legal size, STOPPED to RUNNING at HEAD. -/
def Queue.map (f : Queue) : Queue :=
  if f.state = 0 then
    (if 4 ≤ f.rsize ∧ f.rsize ≤ 16 then { f with state := 1, head := 0, tail := 0, runnable := false, err := 0 } else f)
  else if f.state = 2 then { f with state := 1, runnable := false }
  else f

/-- STOP: RUNNING to STOPPED, at once or when the copy under way is done. -/
def Queue.stop (f : Queue) : Queue :=
  if f.state ≠ 1 then f else if 0 < f.units then { f with stopping := true } else { f with state := 2 }

/-- A QCTL write of the acting function's queue page. -/
def State.qctl (s : State) (op : Nat) (f : Queue → Queue) : State :=
  let v := s.actor.vf
  let q := s.actor.queue
  if s.refusesHost v then s.refuseWrite v (0x1000 * q + 0x20) (BitVec.ofNat 64 op) else s.modQueue v q f

/-- QCTL := MAP. -/
def execQctlMap (s : State) : Host.Outcome State Fault Refusal := .next (s.qctl 1 Queue.map)

/-- QCTL := STOP. -/
def execQctlStop (s : State) : Host.Outcome State Fault Refusal := .next (s.qctl 2 Queue.stop)

/-- Has a WAITSIG's word reached its target (R441)? -/
def State.signalled (s : State) (v : Nat) (c : List Byte) : Bool :=
  (cmdB c).toNat ≤ leNat (s.dmaRead v (cmdA c).toNat 8)

/-- Is the command at HEAD a WAITSIG? -/
def State.headWaits (s : State) (v q : Nat) : Bool :=
  let f := (s.vf v).queue q
  f.head != f.tail && 4 ≤ f.rsize && cmdOp (s.command v q f.head) = 3

/-- What step 3 of R447 samples. -/
def State.sampleRunnable (s : State) (v q : Nat) : Bool :=
  let f := (s.vf v).queue q
  (Sparse.find? (latchNo v q) s.outer.latch).isSome || f.head != f.tail
    || (s.headWaits v q && s.signalled v (s.command v q f.head))

/-- Step 1 of R447: the doorbell is gated, no further command is taken. -/
def State.gateQueue (s : State) (v q : Nat) : State := s.modQueue v q (fun f => { f with gated := true })

/-- Step 2: no command is in flight. A WAITSIG that waits at HEAD is none. -/
def State.queueIdle (s : State) (v q : Nat) : Bool := !s.inFlight v q && ((s.vf v).queue q).units = 0

/-- Steps 3 and 4: RUNNABLE, the latch entry cleared, the doorbell closed. -/
def State.closeQueue (s : State) (v q : Nat) : State :=
  let r := s.sampleRunnable v q
  let s := { s with outer := { s.outer with latch := Sparse.erase (latchNo v q) s.outer.latch } }
  s.modQueue v q (fun f => { f with state := 0, gated := false, runnable := r, stopping := false, before := none })

/-- QCTL := UNMAP: steps 1 to 4 of R447, waiting until nothing is in flight. -/
def execQctlUnmap (s : State) : Host.Outcome State Fault Refusal :=
  let v := s.actor.vf
  let q := s.actor.queue
  .next (if s.refusesHost v then s.refuseWrite v (0x1000 * q + 0x20) 3
    else
      let t := s.gateQueue v q
      if t.queueIdle v q then t.closeQueue v q else t)

/-! ### SIGNAL, WAITSIG, RECLAIM (R441) -/

/-- SIGNAL: completes once every earlier command of the queue has. -/
def execSignal (s : State) : Host.Outcome State Fault Refusal :=
  .next (s.take 2 (fun v q _ c => if s.inFlight v q then s else s.finishHead v q c (cmdValue c) 0 0))

/-- A WAITSIG at HEAD completes when every earlier command has and its word has reached its target. -/
def State.tryWait (s : State) : State :=
  s.take 3 (fun v q _ c =>
    if s.inFlight v q || !s.signalled v c then s else s.finishHead v q c (cmdValue c) 0 0)

/-- WAITSIG: taken from the ring. -/
def execWaitsig (s : State) : Host.Outcome State Fault Refusal := .next s.tryWait

/-- WAITSIG_REREAD: the word is read again. -/
def execWaitsigReread (s : State) : Host.Outcome State Fault Refusal := .next s.tryWait

/-- A faulted record's sync objects and stages are released and its save area is free; it stays faulted (R177, R441). -/
def State.reclaim (s : State) (p a : Nat) : State :=
  let s := s.releaseAllSyncs p a
  let s := { s with clusters := s.clusters.map (fun (q : Nat × Cluster) =>
    if s.ownerOf q.1 = some p then
      (q.1, { q.2 with rings := q.2.rings.map (fun (r : Nat × Ring) =>
        (r.1, { r.2 with owners := r.2.owners.filter (fun (o : Nat × Nat) => o.2 != a) })) })
    else q) }
  s.modPart p (fun x => { x with areas := x.areas.map (fun (z : Nat × Area) =>
    match z.2.saved with
    | some y => if y.record = a then (z.1, { z.2 with saved := none }) else z
    | none => z) })

/-- Is this a faulted record that the device made? -/
def State.isFaulted (s : State) (p a : Nat) : Bool :=
  (Sparse.find? a (s.part p).owner).isSome && ctlState (s.ctl p a) = 6

/-- The record that a guest-physical address names. -/
def State.guestRecord (s : State) (y : Party) (gpa : Nat) : Option Nat :=
  match s.guestPlace y gpa false with
  | some pl => recordAt y.part pl
  | none => none

/-- RECLAIM: BADCMD as a plain status for a record that is not faulted or not of this world. -/
def execReclaim (s : State) : Host.Outcome State Fault Refusal :=
  .next (s.take 7 (fun v q y c =>
    match s.guestRecord y (cmdA c).toNat with
    | none => s.finishHead v q c (cmdValue c) 15 0
    | some a =>
      if s.isFaulted y.part a && s.recWorld y.part a = y.world then
        (s.reclaim y.part a).retryAborts.finishHead v q c (cmdValue c) 0 0
      else s.finishHead v q c (cmdValue c) 15 0))

/-! ### Collectives (R444) -/

/-- Operands of a COLLECTIVE: rank, count, output, length. A count field of 0 stands for 65,536. -/
def colRank (c : List Byte) : Nat := numAt 40 2 c
def colCount (c : List Byte) : Nat := if numAt 42 2 c = 0 then 65536 else numAt 42 2 c
def colOut (c : List Byte) : Word64 := BitVec.ofNat 64 (numAt 48 8 c)
def colLen (c : List Byte) : Nat := numAt 56 4 c

/-- Do its operands keep their limits? -/
def colLegal (c : List Byte) : Bool :=
  2 ≤ colCount c && colRank c < colCount c && colLen c % 256 = 0 && 0 < colLen c && colLen c ≤ 2 ^ 26

/-- The rank that a command joins. -/
def rankOf (v q : Nat) (c : List Byte) : Rank :=
  { ident := cmdA c, vf := v, queue := q, rank := colRank c, count := colCount c, input := cmdB c, output := colOut c,
    length := colLen c, tag := cmdTag c, sig := cmdSig c, iova := cmdIova c, value := cmdValue c }

/-- COLLECTIVE: the rank joins, or, after a withdrawal, completes with MEMBER_WITHDRAWN. -/
def execCollective (s : State) : Host.Outcome State Fault Refusal :=
  .next (s.take 4 (fun v q y c =>
    if !colLegal c || (s.guestPieces y (cmdB c).toNat (colLen c) false).isNone
        || (s.guestPieces y (colOut c).toNat (colLen c) true).isNone then s.failHead v q c 15
    else match Sparse.find? (cmdA c).toNat s.outer.withdrawn with
      | some low => s.finishHead v q c (cmdValue c) 12 low
      | none =>
        let r := rankOf v q c
        let t := ({ s with outer := { s.outer with ranks := s.outer.ranks ++ [r] } }).say (.collective r)
        t.modQueue v q (fun f => { f with head := f.head + 1 })))

/-- The completion of a rank. -/
def State.finishRank (s : State) (r : Rank) (status extra : Nat) : State :=
  let t := { s with outer := { s.outer with ranks := s.outer.ranks.filter (fun x => x != r) } }
  if r.sig then t.dmaWrite r.vf r.iova.toNat (completion r.value r.tag status extra) else t

/-- The party of a rank's world. -/
def State.rankParty (s : State) (r : Rank) : Option Party := (s.worldOfVf r.vf).map (fun q => ⟨q.1, q.2, 0⟩)

/-- The FP32 lanes of bytes. -/
def fp32Lanes (bs : List Byte) : List Nat := (upFrom 0 (bs.length / 4)).map (fun i => numAt (4 * i) 4 bs)

/-- The input lanes of a rank of this module. -/
def State.rankInput (s : State) (r : Rank) : Chk (List Nat) :=
  match s.rankParty r with
  | none => trap .memerr 0
  | some y => match s.guestPieces y r.input.toNat r.length false with
    | none => trap .memerr r.input
    | some ps => match s.readPieces deviceCore (8 + r.rank) ps with
      | .ok bs => .ok (fp32Lanes bs)
      | .error e => .error e

/-- Writes the result into a rank's output and completes it; an output that does not translate any more completes with
BADCMD. -/
def State.writeRank (s : State) (r : Rank) (bs : List Byte) : State :=
  match s.rankParty r with
  | none => s.finishRank r 15 0
  | some y => match s.guestPieces y r.output.toNat r.length true with
    | none => s.finishRank r 15 0
    | some ps => (s.putPieces deviceCore deviceEngine false ps bs).finishRank r 0 0

/-- The sum of the inputs in ascending rank order, each addition rounded (R240, R444). -/
def sumLanes : List (List Nat) → List Nat
  | [] => []
  | x :: xs => xs.foldl (List.zipWith (fun a b =>
      FloatKind.fp32.rne (FVal.total [FloatKind.fp32.dec a, FloatKind.fp32.dec b]))) x

/-- The inputs in ascending rank order: from this module's ranks and from the other members; none when one is missing. -/
def gather (n : Nat) (own : List (Nat × List Nat)) (remote : List RemoteInput) : Option (List (List Nat)) :=
  (upFrom 0 n).mapM (fun i =>
    match own.find? (fun q => q.1 = i) with
    | some q => some q.2
    | none => (remote.find? (fun r => r.rank = i && !r.withdrawn)).map (fun r => r.lanes.map BitVec.toNat))

/-- COLLECTIVE_RESULT: the members have exchanged. With a rank withdrawn the others complete with MEMBER_WITHDRAWN and
no output is written; else every output receives the sum (R444). -/
def execCollectiveResult (ident : BitVec 64) (remote : List RemoteInput) (s : State) :
    Host.Outcome State Fault Refusal :=
  let rs := s.outer.ranks.filter (fun r => r.ident = ident)
  let gone := (remote.filter (fun r => r.withdrawn)).map (fun r => r.rank)
  let gone := match Sparse.find? ident.toNat s.outer.withdrawn with | some n => n :: gone | none => gone
  .next (match gone with
    | g :: gs =>
      let low := gs.foldl min g
      let t := { s with outer := { s.outer with withdrawn := Sparse.set ident.toNat low s.outer.withdrawn } }
      rs.foldl (fun t r => t.finishRank r 12 low) t
    | [] => match rs with
      | [] => s
      | r :: _ =>
        match mapChk s.rankInput rs with
        | .error (.forward fs) => s.post fs
        | .error (.trap _ _ _) => rs.foldl (fun t r => t.finishRank r 15 0) s
        | .error _ => s
        | .ok ls =>
          match gather r.count ((rs.map (fun x => x.rank)).zip ls) remote with
          | none => s
          | some ins =>
            let bs := ((sumLanes ins).map (fun x => leBytes x 4)).flatten
            let t := rs.foldl (fun t r => t.dropAnswers deviceCore (8 + r.rank)) s
            rs.foldl (fun t r => t.writeRank r bs) t)

/-! ### Bounce copies (R446) -/

/-- Operands of a BBCOPY. -/
def bbDir (c : List Byte) : Nat := numAt 40 1 c
def bbLen (c : List Byte) : Nat := numAt 44 4 c
def bbSeq (c : List Byte) : Word64 := BitVec.ofNat 64 (numAt 48 8 c)

/-- The IV of a copy: the epoch, then s. -/
def bbIv (epoch : BitVec 32) (c : List Byte) : List Byte := leBytes epoch.toNat 4 ++ leBytes (bbSeq c).toNat 8

/-- Bytes of the next unit of a copy. -/
def bbUnit (f : Queue) (c : List Byte) : Nat := min 256 (bbLen c - 256 * f.units)

/-- The engine number under which a queue's bounce reads go out to other modules. -/
def bounceEngine (q : Nat) : Nat := 65544 + q

/-- The bounce bytes of a copy to the host: the world's bytes, sealed for a sealed world (log 15). -/
def State.bounceOut (s : State) (y : Party) (q : Nat) (f : Queue) (c : List Byte) : Chk (List Byte) :=
  match s.guestPieces y (cmdB c).toNat (bbLen c) false with
  | none => trap .memerr (cmdB c)
  | some ps => match s.readPieces deviceCore (bounceEngine q) ps with
    | .error e => .error e
    | .ok bs =>
      let w := s.worldOf y
      if w.isSealed then .ok (sliceB 0 (bbLen c + 16) (gcmSeal (Config.derivedKey 1 w.key) (bbIv f.epoch c) bs)) else .ok bs

/-- One 256-byte unit of a copy to the host; the last one brings the tag of a sealed copy, and completes. -/
def State.unitOut (s : State) (v q : Nat) (c bs : List Byte) : State :=
  let f := (s.vf v).queue q
  let n := bbUnit f c
  let o := 256 * f.units
  let done := o + n = bbLen c
  let part := if done then sliceB o (bs.length - o) bs else sliceB o n bs
  let s := s.dmaWrite v ((cmdA c).toNat + o) part
  if done then (s.modQueue v q (fun f => { f with dev := bbSeq c })).finishHead v q c (cmdValue c) 0 0
  else s.modQueue v q (fun f => { f with units := f.units + 1, bounce := bs })

/-- The whole of a copy to the device has been read: verified and written, or RESYNC. -/
def State.landIn (s : State) (y : Party) (v q : Nat) (c bs : List Byte) : State :=
  let f := (s.vf v).queue q
  let w := s.worldOf y
  let plain := if w.isSealed then
      gcmOpen (Config.derivedKey 1 w.key) (bbIv f.epoch c) (bs ++ s.dmaRead v ((cmdA c).toNat + bbLen c) 16)
    else some bs
  match plain, s.guestPieces y (cmdB c).toNat (bbLen c) true with
  | some x, some ps =>
    let t := s.putPieces deviceCore deviceEngine false ps (sliceB 0 (bbLen c) x)
    (t.modQueue v q (fun f => { f with dev := bbSeq c })).finishHead v q c (cmdValue c) 0 0
  | none, _ => s.finishHead v q c (cmdValue c) 13 0
  | some _, none => s.failHead v q c 15

/-- One 256-byte unit of a copy to the device. -/
def State.unitIn (s : State) (y : Party) (v q : Nat) (c : List Byte) : State :=
  let f := (s.vf v).queue q
  let n := bbUnit f c
  let o := 256 * f.units
  let bs := f.bounce ++ s.dmaRead v ((cmdA c).toNat + o) n
  if o + n = bbLen c then s.landIn y v q c bs
  else s.modQueue v q (fun f => { f with units := f.units + 1, bounce := bs })

/-- The next unit of the copy at HEAD. -/
def State.copyUnit (s : State) (v q : Nat) (y : Party) (c : List Byte) : State :=
  let f := (s.vf v).queue q
  if bbDir c = 0 then s.unitIn y v q c
  else if 0 < f.units then s.unitOut v q c f.bounce
  else match s.bounceOut y q f c with
    | .ok bs => (s.dropAnswers deviceCore (bounceEngine q)).unitOut v q c bs
    | .error (.forward fs) => s.post fs
    | .error (.trap _ _ _) => (s.dropAnswers deviceCore (bounceEngine q)).failHead v q c 15
    | .error _ => s

/-- BBCOPY: the checks, then unit after unit; a wrong sequence number or REARM gives RESYNC and moves nothing (R446). -/
def execBbcopy (s : State) : Host.Outcome State Fault Refusal :=
  .next (s.take 5 (fun v q y c =>
    let f := (s.vf v).queue q
    if 0 < f.units then s.copyUnit v q y c
    else if 1 < bbDir c || bbLen c < 256 || 2 ^ 24 < bbLen c then s.failHead v q c 15
    else if bbSeq c ≠ f.dev + 1 ∨ f.rearm then s.finishHead v q c (cmdValue c) 13 0
    else if (s.guestPieces y (cmdB c).toNat (bbLen c) (bbDir c = 0)).isNone then s.failHead v q c 15
    else s.copyUnit v q y c))

/-- BBARM (R446). -/
def execBbarm (s : State) : Host.Outcome State Fault Refusal :=
  .next (s.take 6 (fun v q _ c =>
    let f := (s.vf v).queue q
    if f.epoch = BitVec.allOnes 32 then s.finishHead v q c (cmdValue c) 15 0
    else
      let t := s.modQueue v q (fun f => { f with epoch := f.epoch + 1, rearm := false })
      if cmdA c ≠ f.dev then t.finishHead v q c f.dev 13 0 else t.finishHead v q c (cmdValue c) 0 0))

/-! ### Function reset (R445) -/

/-- VF_RESET of the acting function; it waits for the save areas that its running units need (R379). -/
def execVfReset (s : State) : Host.Outcome State Fault Refusal :=
  let v := s.actor.vf
  .next (if s.canAbort v then s.resetVf v else s)

end Sys2Proof.Machine
end

