-- ==== Sys2Proof/Machine/Rom.lean ====
section
/-! DEFINITION. What the management harts read from Corona ROM: the halt handler (R455), the first-stage routine (file 01,
its listing; R23), the Ikinar key (R23) and the admission tables (R25). -/

namespace Sys2Proof.Machine

/-! ### The first-stage routine

The listing of file 01 as RV64I words, without compressed forms; li is addi, or lui and addiw; the address of the dispatch
table is taken with auipc (log 3). -/

/-- Lines 008 to 048. -/
def bootWords : List Nat := [
  0x10000437, 0x200004B7, 0x0004B903, 0x00848513, 0x00090593, 0x088000EF, 0x04040293, 0x10543423, 0x012482B3,
  0x00828293, 0x10543823, 0x000082B7, 0x10543C23, 0x00100293, 0x10543023, 0x12043283, 0x0012F293, 0x00029A63,
  0x00100293, 0x70543823, 0x10500073, 0xFFDFF06F, 0x04040293, 0x20543423, 0x04000293, 0x20543823, 0x20043023,
  0x21000537, 0x080005B7, 0x080000EF, 0x21100537, 0x080005B7, 0x0205859B, 0x070000EF, 0x00848293, 0x72543023,
  0x00200293, 0x70543823, 0x2280006F]

/-- Lines 049 to 074. -/
def helpersWords : List Nat := [
  0x00100293, 0x00543023, 0x00A43423, 0x00B43823, 0x00200293, 0x00543023, 0x00300293, 0x00543023, 0x00008067,
  0x00A43423, 0x00B43823, 0x10200293, 0x00543023, 0x00008067, 0x00060E63, 0x0005CF83, 0x01F50023, 0x00150513,
  0x00158593, 0xFFF60613, 0xFE9FF06F, 0x00008067]

/-- Lines 075 to 112. -/
def admitHeadWords : List Nat := [
  0x00008D93, 0x00050993, 0x00058A13, 0x000A3023, 0x000A3423, 0x000A3823, 0x000A3C23, 0x00000A93, 0x0009E283,
  0x4D494337, 0x14C3031B, 0x16629C63, 0x0049EB03, 0x003A9293, 0x013282B3, 0x0082E303, 0x00C2EC03, 0x00C00393,
  0x14736E63, 0x018303B3, 0x147B6A63, 0x00400393, 0x007A9663, 0x40000393, 0x1583E263, 0x00231313, 0x00698733,
  0x00070B93, 0x01A00D13, 0x00300393, 0x007A9463, 0x01C00D13, 0x00AA9C93, 0x0000A3B7, 0x007C8CB3]

/-- Lines 113 to 164. -/
def admitWordsWords : List Nat := [
  0x0C0C0863, 0x000BE603, 0x01A652B3, 0x00429293, 0x019282B3, 0x0042C303, 0x00137393, 0x00100693, 0x10038263,
  0x0002E383, 0x00C3F3B3, 0x00200693, 0x0E039A63, 0x00300693, 0x00828E13, 0x01028393, 0x001E4E83, 0x020E8663,
  0x000E4F03, 0x01E65F33, 0x00100F93, 0x01DF9FB3, 0xFFFF8F93, 0x01FF7F33, 0x002E5F83, 0x01EFDFB3, 0x001FFF93,
  0x0A0F8C63, 0x004E0E13, 0xFC7E16E3, 0x00237313, 0x04030463, 0x00400693, 0x01465293, 0x03F2F293, 0xFC828293,
  0x0042B293, 0x08029863, 0x00E65293, 0x03F2F293, 0x00865313, 0x03F37313, 0x03C2B393, 0x06038C63, 0x03C33393,
  0x06038863, 0x00629663, 0x0382B393, 0x06038263]

/-- Lines 165 to 200. -/
def admitEndWords : List Nat := [
  0x004B8B93, 0xFFFC0C13, 0xF35FF06F, 0x001A8A93, 0x00500293, 0xEC5A98E3, 0x00098513, 0x002B1593, 0xE39FF0EF,
  0x04043283, 0x005A3823, 0x04843283, 0x005A3C23, 0x010A0293, 0x20543423, 0x01000293, 0x20543823, 0x00800293,
  0x20543023, 0x00000513, 0x000D8067, 0x00500693, 0xFFF00293, 0x00C0006F, 0x40EB82B3, 0x0022D293, 0x00DA2023,
  0x015A2223, 0x005A2423, 0x00068513, 0x000D8067]

/-- Lines 201 to 246. -/
def spdmLoopWords : List Nat := [
  0x100014B7, 0x000012B7, 0x00548BB3, 0x00000913, 0x70043983, 0x0014CA03, 0x00000A97, 0x1F0A8A93, 0x000AC283,
  0x00700693, 0x0A028063, 0x01428663, 0x010A8A93, 0xFEDFF06F, 0x001AC283, 0x002AC303, 0x00400693, 0x08596263,
  0x09236063, 0x00EAD283, 0x00100693, 0x0659EA63, 0x08400293, 0x005A1863, 0x10100293, 0x00543023, 0x0140006F,
  0x0004C283, 0x01300313, 0x04100693, 0x04629863, 0x00048513, 0x00098593, 0xD7DFF0EF, 0x000B8513, 0x008AE583,
  0x00CAD603, 0xD81FF0EF, 0x00100693, 0x004AE283, 0x00028067]

/-- Lines 247 to 274. -/
def spdmSendWords : List Nat := [
  0x00050B13, 0x000B8513, 0xD55FF0EF, 0x71643423, 0x003AC283, 0x0FF00313, 0xF4628AE3, 0x00028913, 0xF4DFF06F,
  0x000082B7, 0xF102829B, 0x00090663, 0x000082B7, 0xF132829B, 0x01069313, 0x0062E2B3, 0x005BA023, 0x00400293,
  0x70543423, 0x00100293, 0xF0569EE3, 0x00000913, 0xF15FF06F, 0x00CAD503, 0x00050593, 0xF9DFF06F]

/-- Lines 275 to 300. -/
def spdmCertWords : List Nat := [
  0x0024C283, 0x0044D303, 0x0062E2B3, 0xFA0298E3, 0x0064D303, 0x000013B7, 0xF783839B, 0xFA7360E3, 0x008B8513,
  0x0000D5B7, 0x00001637, 0xF786061B, 0xCD9FF0EF, 0x00001537, 0xF805051B, 0x00050593, 0xF59FF06F, 0x0024D283,
  0xF6029AE3, 0x044B8513, 0x74040593, 0x02000613, 0xCB1FF0EF, 0x0244B283, 0x065BB323, 0x06E00513, 0x0580006F]

/-- Lines 301 to 337. -/
def spdmMeasWords : List Nat := [
  0x0024D283, 0x00010337, 0xF013031B, 0xF46292E3, 0x0244C283, 0xF2029EE3, 0x72043423, 0x008B8513, 0x000012B7,
  0x005B85B3, 0x47000613, 0xC71FF0EF, 0x478B8513, 0x74040593, 0x02000613, 0xC61FF0EF, 0x480B9C23, 0x0254B283,
  0x485BBD23, 0x4A200513, 0x0040006F, 0x00050C13, 0x00050593, 0x000B8513, 0xC29FF0EF, 0x10300293, 0x00543023,
  0x04040293, 0x10543423, 0x018B82B3, 0x10543823, 0x00200293, 0x10543023, 0x500C0513, 0x00000593, 0xEA1FF06F]

/-- The words of the routine's code. -/
def firstStageWords : List Nat :=
  bootWords ++ helpersWords ++ admitHeadWords ++ admitWordsWords ++ admitEndWords ++ spdmLoopWords ++ spdmSendWords
    ++ spdmCertWords ++ spdmMeasWords

/-- The address of the routine's first instruction. The routine holds addresses of its own in 32-bit words, so it lies in
the low 2 GiB (log 3). -/
def firstStageAt : Nat := 4 * Config.firstStage.toNat

/-- A label of the routine as a word of its dispatch table. -/
def labelBytes (off : Nat) : List Byte := leBytes ((firstStageAt + off) % 2 ^ 32) 4

/-- The dispatch table and the reply templates, lines 338 to 363. -/
def firstStageData : List Byte :=
  [0x84, 0, 3, 1] ++ labelBytes 960 ++ labelBytes 1321 ++ leBytes 8 2 ++ leBytes 4 2
  ++ [0xE1, 1, 1, 2] ++ labelBytes 960 ++ leBytes 0xC000 4 ++ leBytes 20 2 ++ leBytes 20 2
  ++ [0xE3, 2, 2, 3] ++ labelBytes 960 ++ leBytes 0xC040 4 ++ leBytes 52 2 ++ leBytes 32 2
  ++ [0x82, 3, 3, 0xFF] ++ labelBytes 972 ++ labelBytes 1329 ++ leBytes 8 2 ++ leBytes 8 2
  ++ [0x83, 3, 3, 0xFF] ++ labelBytes 1040 ++ leBytes 0xC100 4 ++ leBytes 110 2 ++ leBytes 44 2
  ++ [0xE0, 3, 3, 0xFF] ++ labelBytes 1080 ++ labelBytes 1337 ++ leBytes 8 2 ++ leBytes 45 2
  ++ [0] ++ [0x10, 0x04, 0, 0, 0, 1, 0x00, 0x13] ++ [0x13, 0x02, 0, 0, 0x78, 0x0F, 0, 0]
  ++ [0x13, 0x60, 0, 0, 0x10, 0x70, 0x04, 0]

/-- Bytes of the routine. -/
def firstStageLen : Nat := 1345

/-- Byte i of the routine. -/
def firstStageByte (i : Nat) : Byte :=
  if i < 1224 then BitVec.ofNat 8 (bitsAt (firstStageWords.getD (i / 4) 0) (8 * (i % 4)) 8)
  else firstStageData.getD (i - 1224) 0

/-- Where the routine's responder loop begins (line 201). -/
def spdmLoopAt : Nat := firstStageAt + 704

/-! ### The halt handler, the key and the tables -/

/-- The halt handler at address 0: WFI, and a jump back to it (R455; log 3). -/
def haltBytes : List Byte := leBytes 0x10500073 4 ++ leBytes 0xFFDFF06F 4

/-- Where the first stage finds the Ikinar key, and its length (line 003, R19). -/
def vendKeyAt : Nat := 0x8000
def vendKeyLen : Nat := 1793

/-- Where the admission tables stand (R25). -/
def admTabAt : Nat := 0xA000

/-- The four bytes of a field of an entry: position, width, allowed values; zeros for no check (R25). -/
def fieldBytes (f : Option (Nat × Nat × Nat)) : List Byte :=
  match f with
  | some x => leBytes x.1 1 ++ leBytes x.2.1 1 ++ leBytes x.2.2 2
  | none => leBytes 0 4

/-- The 16 bytes of an entry of an engine's table; zeros for an index that is not assigned (R25). -/
def admEntryBytes (e : EngineId) (i : Nat) : List Byte :=
  match Sparse.find? i (admTable e) with
  | none => List.replicate 16 0
  | some x => leBytes x.zero 4 ++ leBytes (1 + bitVal (e = .vector) 1) 1 ++ leBytes 0 3 ++ fieldBytes x.checks[0]?
      ++ fieldBytes x.checks[1]?

/-- A byte of the admission tables: 0x400 bytes for each engine (R25). -/
def admTabByte (o : Nat) : Byte :=
  match engineOrder[o / 0x400]? with
  | some e => (admEntryBytes e (o % 0x400 / 16)).getD (o % 16) 0
  | none => 0

/-- The byte of ROM at one of the addresses that the manual names. -/
def romByte (a : Nat) : Option Byte :=
  if a < 8 then some (haltBytes.getD a 0)
  else if vendKeyAt ≤ a ∧ a < vendKeyAt + vendKeyLen then some (Config.vendKey.getD (a - vendKeyAt) 0)
  else if admTabAt ≤ a ∧ a < admTabAt + 5 * 0x400 then some (admTabByte (a - admTabAt))
  else none

end Sys2Proof.Machine
end

