-- ==== Sys2Proof/Machine/Window.lean ====
section
/-! DEFINITION. The register windows: the root-of-trust window of the harts (R19, R32, R42, R43, R49, R51, R53, R406,
R421, R432), the pages of a virtual function (R418, R438, R451) and the debug page (R49); plain register writes. -/

namespace Sys2Proof.Machine

/-- Base of the root-of-trust window and its length (R19). -/
def rotBase : Nat := 0x10000000
def rotBytes : Nat := 0x10000

/-- Changes the management state. -/
def State.modMgmt (s : State) (f : Mgmt → Mgmt) : State := { s with mgmt := f s.mgmt }

/-- Changes a hart. -/
def State.modHart (s : State) (h : HartId) (f : Hart → Hart) : State := s.setHart h (f (s.hartOf h))

/-- Bits [lo + n − 1 : lo] of a mask register as a number. -/
def marksWord (m : Marks) (lo n : Nat) : Nat := ((upFrom 0 n).map (fun i => bitVal (Marks.has (lo + i) m) i)).sum

/-- A word from its number. -/
def reg (n : Nat) : Word64 := BitVec.ofNat 64 n

/-- Eight bytes of a sparse byte area from an offset. -/
def areaWord (a : Sparse Byte) (o : Nat) : Word64 := reg (leNat ((upFrom o 8).map (fun i => Sparse.get a 0 i)))

/-- Writes the bytes of a word into a sparse byte area, those within n bytes. -/
def areaPut (a : Sparse Byte) (n o : Nat) (bs : List Byte) : Sparse Byte :=
  ((upFrom o bs.length).zip bs).foldl (fun z q => if q.1 < n then Sparse.set q.1 q.2 z else z) a

/-- Eight bytes of a byte list from an offset. -/
def listWord (l : List Byte) (o : Nat) : Word64 := reg (numAt o 8 l)

/-! ### What registers read (R19, R42) -/

/-- DBGST (R49). -/
def Debug.status (d : Debug) : Word64 :=
  let isOpen := fun (t : Nat) => d.opened.any (fun o => o.tier = t)
  reg ((upFrom 0 4).map (fun t => bitVal (isOpen t) t) |>.sum |> (· + bitVal d.reject 8 + bitVal d.stale 9 + bitVal d.nokey 10))

/-- VFST of a function (R406). -/
def Vf.status (f : Vf) : Word64 :=
  reg ((if f.configured then f.state else 0) + bitVal f.refused 2 + bitVal (!f.configured) 3 + f.cause * 2 ^ 4)

/-- The frozen set as VFCFG lays it out (R407). -/
def Vf.frozenSet (f : Vf) (v : Nat) : List Byte :=
  let six := fun (l : List Word64) => ((upFrom 0 6).map (fun i => leBytes (l.getD i 0).toNat 8)).flatten
  six f.bars ++ six f.sizes ++ leBytes f.command.toNat 2 ++ leBytes v 2 ++ leBytes f.msix.toNat 2
    ++ List.replicate 26 0

/-- ACCVAL of the page that ACCSEL names (R421, R423). -/
def State.accval (s : State) : Word64 :=
  if s.pageAway s.outer.accsel.toNat then (Sparse.get s.outer.accesses 0 s.outer.accsel.toNat).setWidth 64 else 0

/-- XLTICK, XLDONE and XLERR of a command port (R418). -/
def XlRegs.read (x : XlRegs) (o : Nat) : Word64 :=
  if o = 0 then x.tick.setWidth 64 else if o = 8 then x.done.setWidth 64 else x.err.setWidth 64

/-- The registers of a hart's own (R19). -/
def Hart.readOwn (h : Hart) (o : Nat) : Word64 :=
  if o = 0x008 then h.hashSrc else if o = 0x010 then h.hashLen.setWidth 64
  else if 0x040 ≤ o ∧ o < 0x080 then listWord h.hashOut (o - 0x040)
  else if o = 0x108 then h.falMsg else if o = 0x110 then h.falSig else if o = 0x118 then h.falKey
  else if o = 0x120 then reg (bitVal h.falPass 0)
  else if o = 0x208 then h.mextSrc else if o = 0x210 then h.mextLen.setWidth 64
  else if 0x3000 ≤ o ∧ o < 0x3470 then listWord h.mrec (o - 0x3000)
  else 0

/-- The monitor registers (R51). -/
def Monitor.read (m : Monitor) (o : Nat) : Word64 :=
  if 0x980 ≤ o ∧ o < 0x9B8 then
    let d := (o - 0x980) / 8
    reg ((Sparse.get m.temp 0 d).toNat + (Sparse.get m.vcore 0 d).toNat * 2 ^ 16 + (Sparse.get m.proc 0 d).toNat * 2 ^ 32)
  else if o = 0x9C0 then m.twarn.setWidth 64 else if o = 0x9C8 then m.tthrot.setWidth 64
  else if o = 0x9D0 then m.ttrip.setWidth 64
  else if o = 0x9D8 then reg (m.warn.toNat + m.throt.toNat * 2 ^ 8 + m.volt.toNat * 2 ^ 16)
  else 0

/-- Registers that either complex reads (R32, R43, R51). -/
def State.readShared (s : State) (h : HartId) (o : Nat) : Word64 :=
  if 0x800 ≤ o ∧ o < 0x880 then reg (marksWord s.mgmt.ready ((o - 0x800) * 8) 64)
  else if 0x880 ≤ o ∧ o < 0x900 then reg (marksWord s.mgmt.failed ((o - 0x880) * 8) 64)
  else if o = 0x908 then reg (bitVal (!s.isZenith h) 0 + h.cplx.val * 2 ^ 8)
  else if o = 0x910 then s.mgmt.updsrc else if o = 0x920 then reg s.mgmt.updst
  else if o = 0x928 then s.mgmt.staddr
  else if 0x980 ≤ o ∧ o < 0xA00 then s.mgmt.mon.read o
  else 0

/-- Registers that only the Zenith reaches, for every hart of it (R42, R49, R53, R421, R432). The manual does not say what
the request buffer reads once MBXSLEN has freed it, nor beyond the pending request's length; the model's choice is zeros
(DESIGN CHOICE, log 99). -/
def State.readZenith (s : State) (o : Nat) : Word64 :=
  let m := s.mgmt
  if 0x1000 ≤ o ∧ o < 0x2000 then listWord (m.mbx.pending.getD []) (o - 0x1000)
  else if 0x2000 ≤ o ∧ o < 0x3000 then areaWord m.mbx.out (o - 0x2000)
  else if o = 0x900 then reg (bitVal m.readychg 0)
  else if o = 0xA00 then m.elogBase else if o = 0xA08 then m.elogHead.setWidth 64
  else if o = 0xA10 then m.elogTail.setWidth 64 else if o = 0xA18 then m.elogLost.setWidth 64
  else if o = 0xA48 then reg (m.dbg.tier.toNat + m.dbg.target.toNat * 2 ^ 8)
  else if o = 0xA50 then m.dbg.pub else if o = 0xA58 then m.dbg.sig
  else if 0xA60 ≤ o ∧ o < 0xA80 then listWord m.dbg.nonce (o - 0xA60)
  else if o = 0xA80 then m.dbg.status
  else if o = 0xB00 then s.outer.s2base else if o = 0xB08 then s.outer.s2head.setWidth 64
  else if o = 0xB10 then s.outer.s2tail.setWidth 64
  else if 0xB20 ≤ o ∧ o < 0xB40 then areaWord s.outer.xl.desc (o - 0xB20)
  else if 0xB48 ≤ o ∧ o < 0xB60 then s.outer.xl.read (o - 0xB48)
  else if o = 0xB60 then s.outer.accsel else if o = 0xB68 then s.accval
  else if o = 0xC00 then m.pcAddr else if o = 0xC08 then m.pcArg.setWidth 64
  else if o = 0xC18 then reg (bitVal m.pcRefused 0 + m.pcReason * 2 ^ 8)
  else 0

/-- Registers of hart 0 and of hart 1 of the Zenith (R19, R406). -/
def State.readHartOnly (s : State) (n o : Nat) : Word64 :=
  let m := s.mgmt
  let v := m.vfsel.toNat
  if n = 0 then
    if o = 0x700 then reg ((m.mbx.pending.getD []).length) else if o = 0x710 then m.bootst.setWidth 64 else 0
  else if n = 1 then
    if o = 0x760 then m.vfsel.setWidth 64 else if o = 0x770 then (s.vf v).status
    else if o = 0x778 then reg ((m.ifm.pending.getD []).length)
    else if 0x3800 ≤ o ∧ o < 0x3880 then listWord (s.vf v).captured (o - 0x3800)
    else if 0x3900 ≤ o ∧ o < 0x3940 then listWord (m.ifm.pending.getD []) (o - 0x3900)
    else if 0x4000 ≤ o ∧ o < 0x5000 then areaWord m.ifm.out (o - 0x4000)
    else 0
  else 0

/-- What a hart reads at an 8-byte aligned offset of the window, RNDW aside: zero for what it does not reach, for WO
registers and for offsets without a name (R19, R42). The ranges of the parts do not meet. -/
def State.readWindow (s : State) (h : HartId) (o : Nat) : Word64 :=
  (s.hartOf h).readOwn o ||| s.readShared h o
    ||| (if s.isZenith h then s.readZenith o ||| s.readHartOnly h.hart.val o else 0)

/-! ### The address space of a hart -/

/-- What stands at an address of a hart: the window, ROM, memory, or nothing that responds (R455). -/
inductive HartPlace where
  | window (off : Nat)
  | rom (b : Byte)
  | mem (loc : Nat)
  | nowhere
  deriving DecidableEq, Repr

/-- The memory of a complex that the manual names: the identity area and the nonce slots (R36, R409), the admission results,
the boot image and the staged images (R23, the listing of file 01); how far the last two reach is the model's (log 98). -/
def namedMemory (a : Nat) : Bool :=
  (0xC000 ≤ a && a < 0x10000) || (0x08000000 ≤ a && a < 0x08001000) || (0x20000000 ≤ a && a < 0x22000000)

/-- The place of an address of a hart (log 98). -/
def hartPlace (h : HartId) (a : Nat) : HartPlace :=
  if rotBase ≤ a ∧ a < rotBase + rotBytes then .window (a - rotBase)
  else match romByte a with
    | some b => .rom b
    | none =>
      if namedMemory a then .mem (hartLoc h a)
      else if firstStageAt ≤ a ∧ a < firstStageAt + firstStageLen then .rom (firstStageByte (a - firstStageAt))
      else if !Config.hartMemory a then .nowhere
      else if Config.hartShared a then .mem (coronaLoc a) else .mem (hartLoc h a)

/-- Byte i of an access of a hart or of its units, at address a: each byte of RNDW is a fresh draw (R19). Where nothing
responds, the units read the complex's memory (log 98). -/
def State.hartByte (s : State) (h : HartId) (i a : Nat) : Byte :=
  match hartPlace h a with
  | .window o =>
    if 0x740 ≤ o ∧ o < 0x760 then Config.randomByte (s.draws + i)
    else BitVec.ofNat 8 (bitsAt (s.readWindow h (floorTo o 8)).toNat (8 * (o % 8)) 8)
  | .rom b => b
  | .mem l => s.mem.byte l
  | .nowhere => s.mem.byte (hartLoc h a)

/-- Bytes as a hart reads them; the reader draws n. -/
def State.hartBytes (s : State) (h : HartId) (a n : Nat) : List Byte := (upFrom 0 n).map (fun i => s.hartByte h i (a + i))

/-! ### Plain writes (R19, R42) -/

/-- A write of a hart's own registers. -/
def Hart.writeOwn (h : Hart) (o : Nat) (v : Word64) : Hart :=
  if o = 0x008 then { h with hashSrc := v }
  else if o = 0x010 then { h with hashLen := v.setWidth 32 }
  else if o = 0x108 then { h with falMsg := v }
  else if o = 0x110 then { h with falSig := v }
  else if o = 0x118 then { h with falKey := v }
  else if o = 0x208 then { h with mextSrc := v }
  else if o = 0x210 then { h with mextLen := v.setWidth 13 }
  else h

/-- A write of the monitor registers: TTRIP only falls, MONST is W1C (R51). -/
def Monitor.write (m : Monitor) (o : Nat) (v : Word64) : Monitor :=
  if o = 0x9C0 then { m with twarn := v.setWidth 16 }
  else if o = 0x9C8 then { m with tthrot := v.setWidth 16 }
  else if o = 0x9D0 then (if (v.setWidth 16).slt m.ttrip then { m with ttrip := v.setWidth 16 } else m)
  else if o = 0x9D8 then
    { m with warn := m.warn &&& ~~~(v.setWidth 7)
             throt := m.throt &&& ~~~((v >>> 8).setWidth 7)
             volt := m.volt &&& ~~~((v >>> 16).setWidth 7) }
  else m

/-- The value with its low n bits zero. -/
def alignedTo (n : Nat) (v : Word64) : Word64 := (v >>> n) <<< n

/-- A write of DBGREQ (R49). -/
def Debug.request (d : Debug) (v : Word64) : Debug := { d with target := (v >>> 8).setWidth 32, tier := v.setWidth 2 }

/-- A write of the registers that either complex reaches. -/
def Mgmt.writeShared (m : Mgmt) (o : Nat) (v : Word64) : Mgmt :=
  if o = 0x910 then { m with updsrc := v }
  else if o = 0x928 then { m with staddr := v }
  else if 0x9C0 ≤ o ∧ o < 0x9E0 then { m with mon := m.mon.write o v }
  else m

/-- A write of the management registers that every hart of the Zenith reaches. -/
def Mgmt.writeZenith (m : Mgmt) (o : Nat) (v : Word64) : Mgmt :=
  if 0x2000 ≤ o ∧ o < 0x3000 then
    { m with mbx := { m.mbx with out := areaPut m.mbx.out 0x1000 (o - 0x2000) (leBytes v.toNat 8) } }
  else if o = 0xA00 then { m with elogBase := alignedTo 15 v }
  else if o = 0xA10 then { m with elogTail := v.setWidth 10 }
  else if o = 0xA48 then { m with dbg := m.dbg.request v }
  else if o = 0xA50 then { m with dbg := { m.dbg with pub := v } }
  else if o = 0xA58 then { m with dbg := { m.dbg with sig := v } }
  else if o = 0xC00 then { m with pcAddr := alignedTo 6 v }
  else if o = 0xC08 then { m with pcArg := v.setWidth 32 &&& 0x3FFF }
  else m

/-- A write of the registers of hart 0 or hart 1 of the Zenith. -/
def Mgmt.writeHartOnly (m : Mgmt) (n o : Nat) (v : Word64) : Mgmt :=
  if n = 0 ∧ o = 0x710 then { m with bootst := v.setWidth 2 }
  else if n = 1 ∧ o = 0x760 then { m with vfsel := v.setWidth 8 }
  else if n = 1 ∧ 0x4000 ≤ o ∧ o < 0x5000 then
    { m with ifm := { m.ifm with out := areaPut m.ifm.out 0x1000 (o - 0x4000) (leBytes v.toNat 8) } }
  else m

/-- A write of the Zenith's translation registers (R421). -/
def Outer.writeZenith (x : Outer) (o : Nat) (v : Word64) : Outer :=
  if o = 0xB00 then { x with s2base := alignedTo 14 v }
  else if o = 0xB10 then { x with s2tail := v.setWidth 8 }
  else if 0xB20 ≤ o ∧ o < 0xB40 then
    { x with xl := { x.xl with desc := areaPut x.xl.desc 0x20 (o - 0xB20) (leBytes v.toNat 8) } }
  else if o = 0xB60 then { x with accsel := v &&& 0xFFFFFFFFFFFF }
  else x

/-- A hart's write of a whole word at an 8-byte aligned offset of the window (R19). -/
def State.writeWindow (s : State) (h : HartId) (o : Nat) (v : Word64) : State :=
  let s := s.modHart h (fun x => x.writeOwn o v)
  let s := s.modMgmt (fun m => m.writeShared o v)
  if s.isZenith h then
    { s with mgmt := (s.mgmt.writeZenith o v).writeHartOnly h.hart.val o v, outer := s.outer.writeZenith o v }
  else s

/-- [a, a + bs.length) cut at 8-byte words: the word's address, the first byte within it, the bytes. -/
def wordCuts (a : Nat) (bs : List Byte) : Nat → List (Nat × Nat × List Byte)
  | 0 => []
  | k + 1 =>
    if bs = [] then []
    else
      let n := 8 - a % 8
      (floorTo a 8, a % 8, bs.take n) :: wordCuts (a + n) (bs.drop n) k

/-- The word-wise parts of a write. -/
def wordWrites (a : Nat) (bs : List Byte) : List (Nat × Nat × List Byte) := wordCuts a bs (bs.length / 8 + 2)

/-- A word with bytes from k on replaced. -/
def overWord (w : Word64) (k : Nat) (bs : List Byte) : Word64 :=
  let old := leBytes w.toNat 8
  reg (leNat (old.take k ++ bs ++ old.drop (k + bs.length)))

/-- A write of bytes within one word of the window: the word's other bytes keep what a register there holds; they are zero
for W1C bits, so that nothing else clears (R19, R51). -/
def State.writeBytes (h : HartId) (s : State) (q : Nat × Nat × List Byte) : State :=
  s.writeWindow h q.1 (overWord (if q.1 = 0x9D8 then 0 else s.readWindow h q.1) q.2.1 q.2.2)

/-- One byte that a hart or one of its units writes outside the window: memory, where ROM discards it (log 98). -/
def State.putHartByte (h : HartId) (s : State) (q : Nat × Byte) : State :=
  match hartPlace h q.1 with
  | .mem l => s.poke l [q.2]
  | .nowhere => s.poke (hartLoc h q.1) [q.2]
  | _ => s

/-- A part of a write by a hart or its units: registers of the window that have no behaviour of their own, or memory
(R19). -/
def State.putHartWord (h : HartId) (s : State) (q : Nat × Nat × List Byte) : State :=
  match hartPlace h q.1 with
  | .window o => s.writeBytes h (o, q.2)
  | _ => ((upFrom (q.1 + q.2.1) q.2.2.length).zip q.2.2).foldl (State.putHartByte h) s

/-- Bytes written by a hart's unit. -/
def State.putHartBytes (s : State) (h : HartId) (a : Nat) (bs : List Byte) : State :=
  (wordWrites a bs).foldl (State.putHartWord h) s

/-- A write of a queue page: RBASE and RSIZE only while the queue is UNMAPPED (R438). -/
def Queue.write (q : Queue) (o : Nat) (v : Word64) : Queue :=
  if o = 0x00 then (if q.state = 0 then { q with rbase := alignedTo 6 v } else q)
  else if o = 0x08 then (if q.state = 0 then { q with rsize := v.toNat % 32 } else q)
  else if o = 0x30 then { q with dorg := alignedTo 12 v }
  else if o = 0x38 then { q with dbase := alignedTo 3 v }
  else if o = 0x40 then { q with den := bitAt v.toNat 0 }
  else q

/-- A write of the translation page (R418). -/
def Vf.writeTrans (f : Vf) (o : Nat) (v : Word64) : Vf :=
  if o = 0x00 then { f with ctxtab := v &&& 0xFFFFFFFFF001 }
  else if o = 0x20 then { f with frtail := v.setWidth 16 }
  else if 0x40 ≤ o ∧ o < 0x60 then
    { f with xl := { f.xl with desc := areaPut f.xl.desc 0x20 (o - 0x40) (leBytes v.toNat 8) } }
  else f

/-- A write of the error page (R451): a size it cannot have is discarded (log 31). -/
def Vf.writeError (f : Vf) (o : Nat) (v : Word64) : Vf :=
  let n := v.toNat % 32
  if o = 0x00 then { f with erbase := v &&& 0xFFFFFFFFFFC0 }
  else if o = 0x08 then (if n = 0 ∨ (6 ≤ n ∧ n ≤ 12) then { f with ersize := n } else f)
  else if o = 0x18 then { f with ertail := v.setWidth 12 }
  else f

/-- A write of the debug page: DBGREQ, DBGSIG, the key from 0x100 and the signature from 0x900 (R49). -/
def Debug.writePage (d : Debug) (o : Nat) (v : Word64) : Debug :=
  if o = 0x48 then d.request v
  else if o = 0x58 then { d with sig := v }
  else if 0x100 ≤ o ∧ o < 0x1000 then { d with page := areaPut d.page 0x1000 o (leBytes v.toNat 8) }
  else d

/-- The reads of the pages of a virtual function (R418, R438, R451) and of the debug page (R49). -/
def Queue.read (q : Queue) (o : Nat) : Word64 :=
  if o = 0x00 then q.rbase else if o = 0x08 then reg q.rsize else if o = 0x10 then q.head.setWidth 64
  else if o = 0x18 then q.tail.setWidth 64
  else if o = 0x28 then reg (q.state + bitVal q.runnable 2 + q.err * 2 ^ 8)
  else if o = 0x30 then q.dorg else if o = 0x38 then q.dbase else if o = 0x40 then reg (bitVal q.den 0) else 0

/-- A read of a queue page: QST.RUNNABLE also while the latch holds a notify of the queue (R438, R439). -/
def State.readQueue (s : State) (v q o : Nat) : Word64 :=
  let f := (s.vf v).queue q
  ({ f with runnable := f.runnable || (Sparse.find? (latchNo v q) s.outer.latch).isSome }).read o

def Vf.readTrans (f : Vf) (o : Nat) : Word64 :=
  if o = 0x00 then f.ctxtab else if o = 0x08 then f.frbase else if o = 0x10 then reg f.frsize
  else if o = 0x18 then f.frhead.setWidth 64 else if o = 0x20 then f.frtail.setWidth 64
  else if o = 0x28 then reg f.waiting.length
  else if 0x40 ≤ o ∧ o < 0x60 then areaWord f.xl.desc (o - 0x40)
  else if 0x68 ≤ o ∧ o < 0x80 then f.xl.read (o - 0x68) else 0

def Vf.readError (f : Vf) (o : Nat) : Word64 :=
  if o = 0x00 then f.erbase else if o = 0x08 then reg f.ersize else if o = 0x10 then f.erhead.setWidth 64
  else if o = 0x18 then f.ertail.setWidth 64 else if o = 0x20 then f.erlost.setWidth 64 else 0

def Debug.readPage (d : Debug) (o : Nat) : Word64 :=
  if o = 0x48 then reg (d.tier.toNat + d.target.toNat * 2 ^ 8)
  else if o = 0x58 then d.sig
  else if 0x60 ≤ o ∧ o < 0x80 then listWord d.nonce (o - 0x60)
  else if o = 0x80 then d.status
  else if 0x100 ≤ o then areaWord d.page o else 0

/-- Is a host access to a function's BAR refused: a function that is not configured, or in ERROR (R408)? -/
def Vf.refuses (f : Vf) : Bool := !f.configured || f.state = 3

/-- A host write to a BAR of a function: refused, or applied. -/
def State.hostWrite (s : State) (v off : Nat) (x : Word64) (f : Vf → Vf) : State :=
  if (s.vf v).refuses then
    let a : HostAccess := ⟨v, BitVec.ofNat 64 off, 8, true, x⟩
    (s.refuseAccess a).logError (s.refusedEntry a)
  else s.setVf v (f (s.vf v))

/-! ### BAR0 and BAR2 (R437) -/

/-- Where an offset of BAR0 leads: a queue page, the translation page, the error page; the doorbells of the notify page have
a row of their own, and nothing else is there. -/
def barPort (v off : Nat) : Option (RegPort × Nat) :=
  if off < 0x40000 then some (.queuePage v (off / 0x1000), off % 0x1000)
  else if 0x410000 ≤ off ∧ off < 0x411000 then some (.transPage v, off - 0x410000)
  else if 0x420000 ≤ off ∧ off < 0x421000 then some (.errPage v, off - 0x420000)
  else none

/-- A write of the MSI-X table: two words of it; a pending-bit array is read-only (log 108). -/
def Vf.writeVectors (f : Vf) (o : Nat) (v : Word64) : Vf :=
  if o < 0x400 then
    { f with vectors := Sparse.set (o / 4 + 1) (v.toNat / 2 ^ 32) (Sparse.set (o / 4) (v.toNat % 2 ^ 32) f.vectors) }
  else f

/-- Pending vectors that are no longer masked are sent. -/
def State.releaseVectors (s : State) (v : Nat) : State :=
  let f := s.vf v
  let now := f.pending.filter (fun n => !f.masked n)
  now.foldl (fun t n => t.say (.msix v n)) (s.setVf v { f with pending := Marks.delAll now f.pending })

/-- A read of BAR2: the table in its first 1 KiB, the pending-bit array from 0x8000 (log 108). -/
def Vf.readVectors (f : Vf) (o : Nat) : Word64 :=
  let word := fun n => if n % 4 = 3 then Sparse.get f.vectors 1 n else Sparse.get f.vectors 0 n
  if o < 0x400 then reg (word (o / 4) + word (o / 4 + 1) * 2 ^ 32)
  else if o = 0x8000 then marksWord f.pending 0 64 else 0

/-- A write of a register port; BAR0 is decoded, and a write to any other offset of it is discarded (R437). -/
def State.writePort (s : State) (port : RegPort) (off : Nat) (value : Word64) : State :=
  match port with
  | .window h => if s.stalled h then s else (wordWrites off (leBytes value.toNat 8)).foldl (State.writeBytes h) s
  | .queuePage v q => s.hostWrite v (0x1000 * q + off) value (fun f => f.setQueue q ((f.queue q).write off value))
  | .transPage v => s.hostWrite v (0x410000 + off) value (fun f => f.writeTrans off value)
  | .errPage v => s.hostWrite v (0x420000 + off) value (fun f => f.writeError off value)
  | .debugPage => s.modMgmt (fun m => { m with dbg := m.dbg.writePage off value })
  | .bar0 v => s.hostWrite v off value (fun f => f)
  | .bar2 v => (s.hostWrite v off value (fun f => f.writeVectors off value)).releaseVectors v

/-- The port and offset that an access reaches. -/
def decodePort (port : RegPort) (off : Nat) : RegPort × Nat :=
  match port with
  | .bar0 v => (barPort v off).getD (port, off)
  | _ => (port, off)

/-- A read of a virtual function's BAR0: zero where nothing is (R437). -/
def State.readBar0 (s : State) (v off : Nat) : Word64 :=
  match barPort v off with
  | some (.queuePage _ q, o) => s.readQueue v q o
  | some (.transPage _, o) => (s.vf v).readTrans o
  | some (.errPage _, o) => (s.vf v).readError o
  | _ => 0

/-- REGISTER_WRITE: a 64-bit write of a register that has no behaviour of its own; RO registers, offsets without a name
and registers with a row of their own are left as they are (R19, R42, R437). A write into the window that meets two words
writes its bytes of each (R20). -/
def execRegisterWrite (port : RegPort) (off : Nat) (value : BitVec 64) (s : State) :
    Host.Outcome State Fault Refusal :=
  let q := decodePort port off
  .next (s.writePort q.1 q.2 value)

end Sys2Proof.Machine
end

