-- ==== Sys2Proof/Machine/Root.lean ====
section
/-! DEFINITION. The root of trust: hash contexts, the Falcon engine, measurements, the release of harts, random bytes,
the SPDM mailbox (R19 to R22, R35, R41). -/

namespace Sys2Proof.Machine

/-- The acting hart and its registers. -/
def State.hid (s : State) : HartId := s.actor.hart
def State.hart (s : State) : Hart := s.hartOf s.hid

/-- May the acting hart act as one of the Zenith's: it is one, and stands in no HANDOFF write (R42, R45)? -/
def State.zenithActs (s : State) : Bool := s.isZenith s.hid && !s.stalled s.hid

/-- Is the acting hart hart n of the Zenith? -/
def State.actsAs (s : State) (n : Nat) : Bool := s.zenithActs && s.hid.hart.val = n

/-- Changes the acting hart, unless it stands in its HANDOFF write (R45). -/
def State.modMyHart (s : State) (f : Hart → Hart) : State := if s.stalled s.hid then s else s.modHart s.hid f

/-! ### SHAKE256 (R19, R20) -/

/-- A hash context of a hart. -/
def Hart.ctx (h : Hart) (c : BitVec 1) : HashCtx := if c = 0 then h.ctx0 else h.ctx1
def Hart.setCtx (h : Hart) (c : BitVec 1) (x : HashCtx) : Hart := if c = 0 then { h with ctx0 := x } else { h with ctx1 := x }

/-- HASH_INIT: a fresh context; HASHOUT stays. -/
def execHashInit (ctx : BitVec 1) (s : State) : Host.Outcome State Fault Refusal :=
  .next (s.modMyHart (fun h => h.setCtx ctx []))

/-- HASH_ABSORB: HASHLEN bytes from HASHSRC. The manual does not say what a context without an INIT absorbs; the model
takes it as freshly initialised (DESIGN CHOICE, log 99). -/
def execHashAbsorb (ctx : BitVec 1) (s : State) : Host.Outcome State Fault Refusal :=
  let n := s.hart.hashLen.toNat
  let bs := s.hartBytes s.hid s.hart.hashSrc.toNat n
  .next ((s.modMyHart (fun h => h.setCtx ctx (h.ctx ctx ++ bs))).drew n)

/-- HASH_SQUEEZE: HASHOUT := the first 64 bytes of SHAKE256 over what the context has absorbed; a context without an INIT
is taken as empty, which the manual leaves open (DESIGN CHOICE, log 99). -/
def execHashSqueeze (ctx : BitVec 1) (s : State) : Host.Outcome State Fault Refusal :=
  .next (s.modMyHart (fun h => { h with hashOut := shake256 (h.ctx ctx) 64 }))

/-! ### Falcon-1024 (R19, R35, R50) -/

/-- The public half of the device identity key. -/
def devicePublic : List Byte := sliceB 0 1793 (Config.falconPublic (secretOf 1))

/-- A signature with the device identity key; zeros without the secrets (R50). -/
def State.signature (s : State) (msg : List Byte) : List Byte :=
  if s.mgmt.secrets then sliceB 0 1280 (Config.falconSign (secretOf 1) msg s.draws) else List.replicate 1280 0

/-- FALCON_VERIFY: FALST.PASS says whether the signature at FALSIG verifies over the 64 bytes at FALMSG under the key at
FALKEY. -/
def execFalconVerify (s : State) : Host.Outcome State Fault Refusal :=
  let h := s.hart
  let ok := Config.falconVerify (s.hartBytes s.hid h.falKey.toNat 1793)
    ((s.drew 1793).hartBytes s.hid h.falMsg.toNat 64) ((s.drew 1857).hartBytes s.hid h.falSig.toNat 1280)
  .next ((s.modMyHart (fun h => { h with falPass := ok })).drew 3137)

/-- FALCON_SIGN: the signature of the 64 bytes at FALMSG goes to FALSIG. -/
def execFalconSign (s : State) : Host.Outcome State Fault Refusal :=
  let h := s.hart
  let sig := s.signature (s.hartBytes s.hid h.falMsg.toNat 64)
  .next (if s.stalled s.hid then s else (s.putHartBytes s.hid h.falSig.toNat sig).drew 65)

/-! ### Measurements (R21, R41) -/

/-- MEASUREMENT_EXTEND: MEAS[index] of the writing hart's complex is extended with MEXTLEN bytes from MEXTSRC; a length
outside 1 to 4,096 changes nothing (R19). -/
def execMeasurementExtend (index : BitVec 4) (s : State) : Host.Outcome State Fault Refusal :=
  let n := s.hart.mextLen.toNat
  .next (if s.stalled s.hid ∨ n = 0 ∨ 4096 < n then s
    else (s.extendMeas s.hid.cplx index.toNat (s.hartBytes s.hid s.hart.mextSrc.toNat n)).drew n)

/-- A block of MREC (R19, R41). -/
def State.mrecBlock (s : State) (c : Fin 2) (i : Nat) : List Byte :=
  leBytes (i + 1) 1 ++ [0x01, 0x43, 0x00, 0x81, 0x40, 0x00] ++ s.meas c i

/-- MREC after a snapshot. -/
def State.mrecOf (s : State) (c : Fin 2) : List Byte := ((upFrom 0 16).map (s.mrecBlock c)).flatten

/-- MSNAP: the sixteen registers of its complex go to the writing hart's MREC at one instant (R21). -/
def execMsnap (s : State) : Host.Outcome State Fault Refusal :=
  .next (s.modMyHart (fun h => { h with mrec := s.mrecOf s.hid.cplx }))

/-! ### Harts and random bytes (R19) -/

/-- Starts a hart that waits in ROM. -/
def State.startHart (s : State) (h : HartId) (a : Word64) : State :=
  s.modHart h (fun x => if x.running then x else { x with running := true, pc := a })

/-- HARTGO: hart 0 of the Zenith releases harts 1 to 3 at an address; another hart's write is discarded (R19, R42). -/
def execHartgo (addr : BitVec 64) (s : State) : Host.Outcome State Fault Refusal :=
  .next (if s.actsAs 0 then
      ([1, 2, 3] : List (Fin 4)).foldl (fun t n => t.startHart ⟨s.hid.cplx, n⟩ addr) s
    else s)

/-- RNDW_READ: each byte read is a fresh random byte; the acting hart reads n of them into a register (R19). -/
def execRndwRead (rd : BitVec 5) (n : Nat) (s : State) : Host.Outcome State Fault Refusal :=
  .next ((s.modMyHart (fun h => h.setX rd.toNat (reg (leNat (s.random (min n 8)))))).drew (min n 8))

/-! ### The mailbox (R20, R22, R42) -/

/-- Presents the next held request where none is pending; none during a handoff (R22, R46). -/
def Mailbox.present (m : Mailbox) (paused : Bool) : Mailbox :=
  match m.pending, m.waiting with
  | none, r :: rs => if paused then m else { m with pending := some r, waiting := rs }
  | _, _ => m

/-- The SPDM mailbox after its next request is presented. -/
def State.presentMbx (s : State) : State :=
  s.modMgmt (fun m => { m with mbx := m.mbx.present m.handoff.isSome })

/-- A request of lo to hi bytes joins those the adapter holds for a mailbox. -/
def Mailbox.offer (m : Mailbox) (lo hi : Nat) (req : List Byte) : Mailbox :=
  if req.length < lo ∨ hi < req.length then m else { m with waiting := m.waiting ++ [req] }

/-- MAILBOX_REQUEST_PENDING for the mailbox of the acting hart: hart 1 has the interface mailbox with requests of 8 to 64
bytes, the others the SPDM mailbox with 1 to 4,096. The next held request is presented once the previous one has been
answered; the empty list brings no new request (R19, R22, R406). -/
def execMailboxRequestPending (req : List Byte) (s : State) : Host.Outcome State Fault Refusal :=
  .next (if s.hid.hart = 1 then
      s.modMgmt (fun m => { m with ifm := (m.ifm.offer 8 64 req).present m.handoff.isSome })
    else s.modMgmt (fun m => { m with mbx := (m.mbx.offer 1 4096 req).present m.handoff.isSome }))

/-- MBXRLEN_READ: hart 0 of the Zenith waits for a request and reads its length; another hart reads zero. -/
def execMbxrlenRead (rd : BitVec 5) (s : State) : Host.Outcome State Fault Refusal :=
  .next (if s.actsAs 0 then
      match s.mgmt.mbx.pending with
      | none => s
      | some r => s.modMyHart (fun h => h.setX rd.toNat (reg r.length))
    else s.modMyHart (fun h => h.setX rd.toNat 0))

/-- The first n bytes of a reply buffer of 4,096. A length above the buffer's is not in the manual; the model sends the
4,096 bytes that there are (DESIGN CHOICE, log 99). -/
def Mailbox.reply (m : Mailbox) (n : Nat) : List Byte := (upFrom 0 (min n 4096)).map (Sparse.get m.out 0)

/-- Sends the first n bytes of the response buffer and frees the request. The manual does not say what a send without a
pending request does; the model sends then too (DESIGN CHOICE, log 99). -/
def State.sendMbx (s : State) (n : Nat) : State :=
  ((s.say (.mailbox (s.mgmt.mbx.reply n))).modMgmt (fun m => { m with mbx := { m.mbx with pending := none } })).presentMbx

/-- MBXSLEN_SEND: hart 0 of the Zenith sends; another hart's write is discarded. -/
def execMbxslenSend (n : BitVec 13) (s : State) : Host.Outcome State Fault Refusal :=
  .next (if s.actsAs 0 then s.sendMbx n.toNat else s)

end Sys2Proof.Machine
end

