-- ==== Sys2Proof/Machine/Faults.lean ====
section
/-! DEFINITION. Translation faults on their way to the guest's ring and to the Zenith, and back: ring entries, FRESUME,
S2RESUME, access counters (R418 to R421, R423). -/

namespace Sys2Proof.Machine

/-! ### Entries (R419, R421) -/

/-- Bytes 0 to 47 of an entry, with what stands at 24. -/
def FaultRec.head (f : FaultRec) (at24 : Word64) : List Byte :=
  leBytes f.token 8 ++ leBytes f.record 8 ++ leBytes f.info.toNat 8 ++ leBytes at24.toNat 8 ++ leBytes f.pc 4
    ++ leBytes f.kind 1 ++ leBytes f.cause 1 ++ leBytes f.level 1 ++ leBytes (bitVal f.write 0) 1
    ++ leBytes (if f.kind = 4 then f.seq.toNat % 2 ^ 40 + f.ctr % 256 * 2 ^ 40 else 0) 8

/-- The 64 bytes of a guest's entry. -/
def FaultRec.guestBytes (f : FaultRec) : List Byte :=
  f.head f.addr ++ leBytes f.context 1 ++ leBytes f.world 1 ++ List.replicate 14 (0 : Byte)

/-- The 64 bytes of a Zenith record. -/
def FaultRec.zenithBytes (f : FaultRec) : List Byte :=
  f.head f.gpa ++ leBytes f.context 1 ++ leBytes f.world 1 ++ leBytes f.part 1 ++ leBytes f.engine 1
    ++ List.replicate 12 (0 : Byte)

/-- The waiter of a token. -/
def State.waiter (s : State) (token : Nat) : Option Waiter := s.outer.suspended.find? (fun w => w.token = token)

/-- Changes the waiters. -/
def State.modWaiters (s : State) (f : List Waiter → List Waiter) : State :=
  { s with outer := { s.outer with suspended := f s.outer.suspended } }

/-- A fresh token, and the state after. -/
def State.newToken (s : State) : Nat × State :=
  (s.outer.nextToken, { s with outer := { s.outer with nextToken := s.outer.nextToken + 1 } })

/-! ### Writing an entry (R418, R421) -/

/-- The next record of the Zenith's queue, when it has room and no handoff is under way (R46). -/
def State.writeZenith (s : State) : State :=
  match s.outer.s2waiting with
  | [] => s
  | f :: fs =>
    if s.outer.s2head + 1 = s.outer.s2tail ∨ s.mgmt.handoff.isSome then s
    else
      let t := s.poke (s.zenithLoc (s.outer.s2base.toNat + 64 * s.outer.s2head.toNat)) f.zenithBytes
      { t with outer := { t.outer with s2waiting := fs, s2head := t.outer.s2head + 1 } }

/-- A ring write that its second stage refuses: the entry stays first, and a record of kind 5 with a token goes to the
Zenith. -/
def State.blockEntry (s : State) (v : Nat) (y : Party) (f : FaultRec) (fs : List FaultRec) (gpa c : Nat) : State :=
  let n := s.newToken
  let k5 : FaultRec := { f with token := n.1, record := 0, info := 0, addr := 0, pc := 0, kind := 5, cause := c, level := 0xFF,
                                write := true, seq := 0, ctr := 0, context := 0, world := y.world, part := y.part,
                                gpa := BitVec.ofNat 64 gpa, engine := 0, blocked := false }
  let t := n.2.setVf v { n.2.vf v with waiting := { f with blocked := true } :: fs }
  (t.modWaiters (fun l => l ++ [⟨n.1, y.part, y.world, 0, true, k5⟩])).zenithFault k5

/-- An entry written at a guest-physical address; on a page of another module it is written once that module has
acknowledged it (R422). -/
def State.ringStore (s : State) (v : Nat) (y : Party) (gpa : Nat) (bs : List Byte) : Chk State :=
  match s.translate2 y gpa true false with
  | .error c => .error (.xlate ⟨true, c, 0xFF, 0, gpa, true, none⟩)
  | .ok (.here l key) => .ok (s.storeAt none false l key bs)
  | .ok (.away m a g) =>
    match s.awaitStores [s.request deviceCore (ringEngine v) 0 m a 0 (.store bs []) g ⟨y, none⟩] with
    | .error e => .error e
    | .ok _ => .ok (s.dropAnswers deviceCore (ringEngine v))

/-- The next entry of a function's ring: to the Zenith without a ring; when there is room, through the second stage. -/
def State.writeRing (s : State) (v : Nat) : State :=
  let x := s.vf v
  match x.waiting with
  | [] => s
  | f :: fs =>
    let n := 2 ^ x.frsize
    if x.frsize = 0 then
      let g := f.toZenith
      let t := s.setVf v { x with waiting := fs }
      (t.modWaiters (fun l => l.map (fun w => if w.token = f.token && f.token != 0 then { w with second := true } else w))).zenithFault g
    else if f.blocked ∨ (x.frhead.toNat + 1) % n = x.frtail.toNat % n then s
    else
      let y : Party := ⟨f.part, f.world, 0⟩
      let gpa := x.frbase.toNat + 64 * (x.frhead.toNat % n)
      match s.ringStore v y gpa f.guestBytes with
      | .error (.xlate e) => s.blockEntry v y f fs gpa e.cause
      | .error (.forward rs) => s.post rs
      | .error (.trap _ _ _) => s.dropAnswers deviceCore (ringEngine v)
      | .error _ => s
      | .ok t =>
        (t.setVf v { t.vf v with waiting := fs, frhead := BitVec.ofNat 16 ((x.frhead.toNat + 1) % n) }).signal v 0

/-- FAULT_RING_ENTRY_WRITE: the next record of the Zenith's queue, or the next entry of the acting function's ring. -/
def execFaultRingEntryWrite (s : State) : Host.Outcome State Fault Refusal :=
  .next (if s.actor.zenith then s.writeZenith else s.writeRing s.actor.vf)

/-- The entry that a failed translation holds up is tried again (R418). -/
def State.unblock (s : State) (v : Nat) : State :=
  let x := s.vf v
  (s.setVf v { x with waiting := x.waiting.map (fun f => { f with blocked := false }) }).modWaiters
    (fun l => l.filter (fun w => !(w.fault.kind = 5 && ((s.part w.part).world w.world).vf = v)))

/-- FAULT_RING_CONFIG_WRITE: FRBASE, or FRSIZE with a legal size, in the acting function's translation page; either
write makes the device try a waiting entry again (R418). -/
def execFaultRingConfigWrite (reg : FrReg) (value : BitVec 64) (s : State) : Host.Outcome State Fault Refusal :=
  let v := s.actor.vf
  let x := s.vf v
  let n := value.toNat % 32
  .next (match reg with
    | .frbase =>
      if s.refusesHost v then s.refuseWrite v 0x410008 value
      else (s.setVf v { x with frbase := value &&& 0xFFFFFFFFFFC0 }).unblock v
    | .frsize =>
      if s.refusesHost v then s.refuseWrite v 0x410010 value
      else
        (s.setVf v { x with frsize := if n = 0 ∨ (6 ≤ n ∧ n ≤ 16) then n else x.frsize }).unblock v)

/-! ### Resuming (R420, R421) -/

/-- A waiting record becomes runnable; one that has ended meanwhile does not. -/
def State.resumeRecord (s : State) (p a : Nat) : State := if ctlState (s.ctl p a) = 4 then s.makeRunnable p a else s

/-- Removes a used token. -/
def State.useToken (s : State) (token : Nat) : State := s.modWaiters (fun l => l.filter (fun w => w.token != token))

/-- FRESUME by the acting function: only a token of its own world, reported to it, and not used yet (R420). -/
def execFresume (token : BitVec 56) (s : State) : Host.Outcome State Fault Refusal :=
  let v := s.actor.vf
  .next (if s.refusesHost v then s.refuseWrite v 0x410030 (token.setWidth 64)
    else match s.waiter token.toNat with
      | none => s
      | some w =>
        if w.second || s.worldOfVf v ≠ some (w.part, w.world) then s
        else (s.useToken w.token).resumeRecord w.part w.record)

/-- The Zenith's waiter of a token. -/
def State.zenithWaiter (s : State) (token : BitVec 56) : Option Waiter :=
  match s.waiter token.toNat with
  | some w => if w.second && s.zenithActs then some w else none
  | none => none

/-- S2RESUME with a token of kind 5: the ring write is tried again, whatever the action (R418). -/
def State.retryRing (s : State) (w : Waiter) : State :=
  (s.useToken w.token).unblock ((s.part w.part).world w.world).vf

/-- End: the continuation ends through EndFaulted with code XLATE2 (R421). -/
def State.endWaiter (s : State) (w : Waiter) : State :=
  let s := s.useToken w.token
  if ctlState (s.ctl w.part w.record) ≠ 4 then s
  else
    let info := BitVec.ofNat 64 (floorTo w.fault.info.toNat 256 + Trap.xlate2.code)
    let e := { w.fault with token := 0, kind := 3, cause := 0, level := 0xFF, info := info, gpa := 0, blocked := false }
    let s := (s.setRecState w.part w.record 6).guestFault e
    (s.leaveGroups w.part w.record (recGroups (s.record w.part w.record))).endUnit w.part w.record .faulted

/-- Reflect: an entry of kind 2 with a new token for the guest; without a ring it acts as End. -/
def State.reflectWaiter (s : State) (w : Waiter) : State :=
  if (s.vf ((s.part w.part).world w.world).vf).frsize = 0 then s.endWaiter w
  else
    let n := s.newToken
    let e := { w.fault with token := n.1, kind := 2, level := 0xFF, gpa := 0, blocked := false }
    ((n.2.useToken w.token).modWaiters (fun l => l ++ [{ w with token := n.1, second := false, fault := e }])).guestFault e

/-- S2RESUME := retry. -/
def execS2resumeRetry (token : BitVec 56) (s : State) : Host.Outcome State Fault Refusal :=
  .next (match s.zenithWaiter token with
    | none => s
    | some w => if w.fault.kind = 5 then s.retryRing w else (s.useToken w.token).resumeRecord w.part w.record)

/-- S2RESUME := reflect. -/
def execS2resumeReflect (token : BitVec 56) (s : State) : Host.Outcome State Fault Refusal :=
  .next (match s.zenithWaiter token with
    | none => s
    | some w => if w.fault.kind = 5 then s.retryRing w else s.reflectWaiter w)

/-- S2RESUME := end. -/
def execS2resumeEnd (token : BitVec 56) (s : State) : Host.Outcome State Fault Refusal :=
  .next (match s.zenithWaiter token with
    | none => s
    | some w => if w.fault.kind = 5 then s.retryRing w else s.endWaiter w)

/-- ACCVAL_READ: a hart of the Zenith reads the counter of the page that ACCSEL names and clears it (R421). -/
def execAccvalRead (rd : BitVec 5) (s : State) : Host.Outcome State Fault Refusal :=
  .next (if s.zenithActs then
      let t := s.modMyHart (fun h => h.setX rd.toNat s.accval)
      { t with outer := { t.outer with accesses := Sparse.erase s.outer.accsel.toNat t.outer.accesses } }
    else s.modMyHart (fun h => h.setX rd.toNat 0))

end Sys2Proof.Machine
end

