-- ==== Sys2Proof/Machine/Fabric.lean ====
section
/-! DEFINITION. Accesses to and from other modules: replies, NACKs, requests that arrive, refused packets (R422, R452). -/

namespace Sys2Proof.Machine

/-! ### Refusals (R452) -/

/-- The NACK and the entry of a refused packet, which names the partition and world of the packet (R53, R54). -/
def State.refusePacket (s : State) (port : Nat) (owner : Nat × Nat) (addr : Nat) (cause : Nat) : State :=
  (s.say (.nack port)).logError ⟨0x40, 769 + port, some owner, addr, port % 256 + cause % 256 * 2 ^ 8⟩

/-- FABRIC_PACKET_REFUSED: a packet for a partition on a port that the partition does not own. -/
def execFabricPacketRefused (pkt : FabricPacket) (s : State) : Host.Outcome State Fault Refusal :=
  .next (if (s.part pkt.part).present && (s.part pkt.part).ports.contains pkt.port then s
    else s.refusePacket pkt.port (pkt.part, pkt.world) pkt.addr.toNat pkt.cause.toNat)

/-! ### Requests that arrive (R422) -/

/-- Bytes and permissions of a request, for the check of R85 that the receiver repeats. -/
def fwdBytes : FwdKind → Nat
  | .load n => n
  | .store d _ => d.length
  | .amo _ w _ _ _ => if w = 1 then 4 else 8
def fwdPerms : FwdKind → Nat
  | .load _ => permLoad
  | .store _ _ => permStore
  | .amo _ _ _ _ _ => permLoad + permStore

/-- The receiver's check: a line of the access that the capability covers in part is enough for a whole-line load. -/
def fwdAllowed (r : FwdRequest) : Bool :=
  let c := r.cap
  let lo := max r.va.toNat c.base
  let hi := min (r.va.toNat + fwdBytes r.kind) c.top
  c.tag && c.otype = 0 && c.grants (fwdPerms r.kind)
    && (match r.kind with
      | .load _ => decide (lo < hi)
      | _ => c.base ≤ r.va.toNat && r.va.toNat + fwdBytes r.kind ≤ c.top)

/-- The function of an AMO by its code (R135). -/
def amoOf (n : Nat) : AmoFn :=
  (([.add, .swap, .cas, .min, .max, .and, .or] : List AmoFn).find? (fun f => f.code = n)).getD .or

/-- The tags of a load's granules: a capability whose Base lies in a granule of this module is returned without its tag
when it is stale (R125, R147). -/
def State.servedTags (s : State) (y : Party) (l n key : Nat) : List Bool :=
  (granules l n).map (fun g =>
    (s.freshCap y (capOfBytes (s.mem.readUnder key (16 * g) 16) (s.mem.tagAt (16 * g)))).tag)

/-- Performs a party's request at a location under a key: the reply's bytes and tags, and the state after. -/
def State.serve (s : State) (y : Party) (k : FwdKind) (l key : Nat) : State × List Byte × List Bool :=
  match k with
  | .load n => (s, s.mem.readUnder key l n, s.servedTags y l n key)
  | .store d tags =>
    let t := s.storeAt none true l key d
    let set := if l % 16 = 0 ∧ d.length = 16 * tags.length then ((granules l d.length).zip tags).filter Prod.snd else []
    ({ t with mem := set.foldl (fun m g => m.setTag (16 * g.1) true) t.mem }, [], [])
  | .amo f w y cmp _ =>
    let n := if w = 1 then 4 else 8
    let bs := s.mem.readUnder key l n
    let new := amoNew (amoOf f.toNat) n (leNat bs) (y.toNat % 2 ^ (8 * n)) (cmp.toNat % 2 ^ (8 * n))
    (s.storeAt none false l key (leBytes new n), bs, [])

/-- The partition-physical address that a request reaches, and the key: those of this module's own leaf for the frame it
names. Of a shadowed pair a request reaches the visible frame; where no leaf maps the frame, the requester's world gives the
key (R315, R415, R422; log 93). -/
def State.served (s : State) (p world pa : Nat) : Nat × Nat :=
  match s.leafOfFrame p pa with
  | none => (pa, s.keyOf p world)
  | some f =>
    let n := pageBytes f.level
    let second := f.shadowed && Marks.has f.page (s.part p).swapped
    (if f.shadowed then f.page + (if second then n else 0) + (pa - f.page) % n else pa, s.pageKey p f.world f.weightKey)

/-- Is a request refused: by the check of R85, by the frames of the partition, by an uncorrectable error in what it reads
(R198), by weight memory and admitted images, which no request writes (R57, R271)? -/
def State.refusesRequest (s : State) (req : FwdRequest) (l n : Nat) : Bool :=
  !fwdAllowed req || !s.frameOk req.part req.pa n ||
    match req.kind with
    | .load _ => (s.mem.poisonIn l n).isSome
    | .store _ _ => s.inWeights req.part l n || s.inImage req.part l n
    | .amo _ _ _ _ _ => (s.mem.poisonIn l n).isSome || s.inWeights req.part l n || s.inImage req.part l n

/-- Does a frame lie in a page that a MIGRATE is copying to another module? A request to it waits (R426 step 3). -/
def State.frameMoving (s : State) (p pa : Nat) : Bool :=
  s.outer.commands.any (fun c => c.copying && c.part = p && match s.leafIn p c.world pa with
    | some f => decide (c.addr / pageBytes f.level = f.gpa / pageBytes f.level)
    | none => false)

/-- FORWARDED_ACCESS: a request of another module for a page of a partition here: the port, the check of R85, the
partition's memory. What is refused gets a NACK and an entry (R53, R422, R452). -/
def execForwardedAccess (req : FwdRequest) (s : State) : Host.Outcome State Fault Refusal :=
  let p := s.part req.part
  let n := fwdBytes req.kind
  let at_ := s.served req.part req.world req.pa
  let l := hbmLoc req.part at_.1
  .next (if p.present && s.frameMoving req.part req.pa then s
    else if !(p.present && p.ports.contains req.port) || s.refusesRequest req l n then
      (s.refusePacket req.port (req.part, req.world) req.pa (Config.fabricCause s.draws)).drew 1
    else
      let r := s.serve ⟨req.part, req.world, req.context⟩ req.kind l at_.2
      r.1.say (.forwardReply req.source r.2.1 r.2.2))

/-! ### Replies to this module's requests (R422) -/

/-- Request number i answered, or removed. -/
def State.setForward (s : State) (i : Nat) (f : Option Forward) : State :=
  { s with outer := { s.outer with forwards := match f with
      | some g => listSet g i s.outer.forwards
      | none => listDrop i s.outer.forwards } }

/-- The granules of another module that a request writes, and the core whose own sequencer writes them (R321). -/
def Forward.written (f : Forward) : List Nat :=
  match f.kind with
  | .load _ => []
  | k => (granules f.line (fwdBytes k)).map (fun g => awayGranule f.module (16 * g))
def Forward.writer (f : Forward) : Option Nat := if f.engine = 0 then some f.core else none

/-- Does an instruction, a word, a page copy or a ring entry wait for the answer of a request? Nothing waits for that of a
write of Cumulus, nor of what a trapped word has left (R422). -/
def Forward.awaited (f : Forward) : Bool :=
  f.engine < 5 || migrateEngine ≤ f.engine || match f.kind with | .load _ => true | _ => false

/-- An AMO of a sequencer at another module takes its place in its order: its core watches the granule from now on (R322). -/
def State.armWatch (s : State) (f : Forward) : State :=
  match f.kind with
  | .amo _ _ _ _ _ =>
    if f.engine = 0 then
      let c := s.core f.core
      s.setCore f.core { c with sys := { c.sys with evwatch := BitVec.ofNat 64 (f.va.toNat / 16 * 16 + 1) } }
    else s
  | _ => s

/-- FORWARDED_REPLY to request number idx, if it has gone out on a port (R452): it performs a write or an AMO there, which
the cores that watch its granule see; whoever waits goes on with it (R322, R422). -/
def execForwardedReply (idx : Nat) (data : List Byte) (tags : List Bool) (s : State) : Host.Outcome State Fault Refusal :=
  .next (match s.outer.forwards[idx]? with
    | none => s
    | some f =>
      if f.reply.isSome || f.port.isNone then s
      else
        let t := s.setForward idx (if f.awaited then some { f with reply := some (some (data, tags)) } else none)
        let t := t.armWatch f
        if f.written.isEmpty then t else t.wake f.writer f.written)

/-- The member of a pass whose write met a NACK parks with the first address of the line (R268, R422). -/
def State.parkWriter (s : State) (f : Forward) : State :=
  let k := clusterOf f.core
  let mine := fun (m : PassMember) => m.task.core = f.core && m.task.number = f.word && m.written && !m.finished
  match (s.cluster k).cumulus.passes.findIdx? (fun p => p.members.any mine) with
  | none => s
  | some i => match (s.cluster k).cumulus.passes[i]? with
    | none => s
    | some p => match p.members.findIdx? mine with
      | none => s
      | some j => match p.members[j]? with
        | none => s
        | some m =>
          let t := s.park k j m.task ⟨Trap.memerr.code, BitVec.ofNat 64 (floorTo f.va.toNat 64), 0, 0xFF, true, 0⟩
          t.putPass k i { p with members := listSet { m with finished := true } j p.members }

/-- A request that met a NACK: whoever waits for it raises MEMERR, precise at its instruction or word (R173, R422); the
member of a pass parks (R268). -/
def State.requestFailed (s : State) (idx : Nat) (f : Forward) : State :=
  if f.awaited then s.setForward idx (some { f with reply := some none })
  else if f.core < deviceCore && f.engine = cumulusEngine then (s.setForward idx none).parkWriter f
  else s.setForward idx none

/-- FORWARDED_ACCESS_TIMEOUT: request number idx met a NACK, or no reply within 2 ms; logged under R53 (R54, R422). The
entry's source, on which the manual is silent, is the requester's cluster, or 768, the host adapter's function bit of R32,
for what the device does of itself (log 29); its owner is the party that asked. -/
def execForwardedAccessTimeout (idx : Nat) (nack : Bool) (s : State) : Host.Outcome State Fault Refusal :=
  let _ := nack
  .next (match s.outer.forwards[idx]? with
    | none => s
    | some f =>
      if f.reply.isSome then s
      else
        let y := f.asker.party
        (s.requestFailed idx f).logError ⟨0x41, if f.core < deviceCore then clusterOf f.core else 768, some (y.part, y.world), f.line, f.module⟩)

end Sys2Proof.Machine
end

