-- ==== Sys2Proof/Machine/Commands.lean ====
section
/-! DEFINITION. Translation commands: invalidations and page migration (R424 to R426). -/

namespace Sys2Proof.Machine

/-! ### Descriptors and tickets (R418, R424) -/

/-- The 32 bytes of XLDESC of a command port. -/
def XlRegs.bytes (x : XlRegs) : List Byte := (upFrom 0 32).map (Sparse.get x.desc 0)

/-- The registers of the acting port: the Zenith's or the acting function's. -/
def State.port (s : State) : XlRegs := if s.actor.zenith then s.outer.xl else (s.vf s.actor.vf).xl
def State.setPort (s : State) (x : XlRegs) : State :=
  if s.actor.zenith then { s with outer := { s.outer with xl := x } }
  else s.setVf s.actor.vf { s.vf s.actor.vf with xl := x }

/-- XLDONE over the tickets completed out of order, at most k of them. -/
def XlRegs.advance (x : XlRegs) : Nat → XlRegs
  | 0 => x
  | k + 1 =>
    let n := x.done + 1
    if Marks.has n.toNat x.early then XlRegs.advance { x with done := n, early := Marks.del n.toNat x.early } k else x

/-- A ticket completes. -/
def XlRegs.finish (x : XlRegs) (ticket : Nat) : XlRegs :=
  let y := { x with early := Marks.add ticket x.early }
  y.advance y.early.length

/-- Is an entry a leaf of level L that keeps R415, its frames within the partition? -/
def State.leafLegal (s : State) (p L e : Nat) : Bool :=
  match checkEntry true L e with
  | .ok (.leafOf page _ _ _ sh) => s.frameOk p page (pageBytes L * if sh then 2 else 1)
  | .ok (.remote _ _ _) => true
  | _ => false

/-- The bytes that an op leaves without a meaning are zero (R424). -/
def reservedZero (op : Nat) (d : List Byte) : Bool :=
  numAt 24 8 d = 0 && (op = 3 || numAt 16 8 d = 0)
    && (op = 1 || op = 4 || numAt 4 4 d = 0)
    && (op = 1 || op = 3 || op = 4 || numAt 8 8 d = 0)

/-- Why a command is refused: the lowest reason that applies; 0 for none (R424). -/
def State.xlReason (s : State) (zenith : Bool) (d : List Byte) : Nat :=
  let op := numAt 0 1 d
  let n := numAt 4 4 d
  let a := numAt 8 8 d
  if op = 0 ∨ 5 < op ∨ (zenith = false ∧ op < 4) then 1
  else if reservedZero op d = false ∨ ((op = 1 ∨ op = 4) ∧ (n = 0 ∨ 2 ^ 24 < n)) then 2
  else if (op = 1 ∨ op = 3 ∨ op = 4) ∧ a % 2 ^ 16 ≠ 0 then 3
  else if op = 3 then
    match s.worldLeaf (numAt 1 1 d) (numAt 2 1 d) a with
    | none => 4
    | some (L, _, _) => if 2 ^ 48 ≤ a then 4 else if s.leafLegal (numAt 1 1 d) L (numAt 16 8 d) then 0 else 5
  else 0

/-- The command of a descriptor: the guest form names its own partition and world. -/
def State.xlCommand (s : State) (d : List Byte) (ticket : Nat) : XlCommand :=
  let own := s.worldOfVf s.actor.vf
  let z := s.actor.zenith
  { zenith := z, vf := s.actor.vf, ticket := ticket, op := numAt 0 1 d,
    part := if z then numAt 1 1 d else (own.map Prod.fst).getD 0,
    world := if z then numAt 2 1 d else (own.map Prod.snd).getD 0,
    context := numAt 3 1 d, pages := numAt 4 4 d, addr := numAt 8 8 d, leaf := BitVec.ofNat 64 (numAt 16 8 d),
    copying := false }

/-- Does the acting unit reach the acting port? -/
def State.reachesPort (s : State) : Bool := if s.actor.zenith then s.zenithActs else !s.refusesHost s.actor.vf

/-- XLGO for a descriptor of an event's op: a new ticket; refused, or under way. -/
def State.xlGo (s : State) (op : Nat) : State :=
  let x := s.port
  let d := x.bytes
  let o := numAt 0 1 d
  if !s.reachesPort then (if s.actor.zenith then s else s.refuseWrite s.actor.vf 0x410060 1)
  else if o ≠ op ∧ 1 ≤ o ∧ o ≤ 5 then s
  else
    let t := x.tick + 1
    let r := s.xlReason s.actor.zenith d
    if r ≠ 0 then
      s.setPort ({ x with tick := t, err := BitVec.ofNat 48 (t.toNat + r * 2 ^ 32 + o * 2 ^ 40) }.finish t.toNat)
    else
      let s := s.setPort { x with tick := t }
      { s with outer := { s.outer with commands := s.outer.commands ++ [s.xlCommand d t.toNat] } }

/-- INV2 (R424, R425). -/
def execInv2 (s : State) : Host.Outcome State Fault Refusal := .next (s.xlGo 1)

/-- INV2W. -/
def execInv2w (s : State) : Host.Outcome State Fault Refusal := .next (s.xlGo 2)

/-- MIGRATE (R426). -/
def execMigrate (s : State) : Host.Outcome State Fault Refusal := .next (s.xlGo 3)

/-- INV1. -/
def execInv1 (s : State) : Host.Outcome State Fault Refusal := .next (s.xlGo 4)

/-- INV1C. -/
def execInv1c (s : State) : Host.Outcome State Fault Refusal := .next (s.xlGo 5)

/-! ### Completion of an invalidation (R425) -/

/-- Does a command belong to the acting port? -/
def XlCommand.ofPort (c : XlCommand) (a : Actor) : Bool := c.zenith = a.zenith && (a.zenith || c.vf = a.vf)

/-- Does a command cover the translations of a party at all? -/
def XlCommand.coversParty (c : XlCommand) (y : Party) : Bool :=
  y.part = c.part && y.world = c.world && (c.op ≤ 3 || y.context = c.context)

/-- Does it cover a translation of a party, of n bytes at x, that depends on these guest-physical addresses? An INV2
covers what its range of guest-physical addresses fed, an INV1 a range of virtual pages (R425). -/
def XlCommand.covers (c : XlCommand) (y : Party) (guests : List Nat) (x n : Nat) : Bool :=
  c.coversParty y && match c.op with
    | 1 => guests.any (fun g => c.addr ≤ g && g < c.addr + c.pages * 2 ^ 16)
    | 4 => decide (x < c.addr + c.pages * 2 ^ 16) && decide (c.addr < x + n)
    | _ => true

/-- Does it cover a translation that a probe of a party holds (R294)? -/
def XlCommand.coversHold (c : XlCommand) (y : Party) (h : Hold) : Bool :=
  !h.guests.isEmpty && c.covers y h.guests (h.vpage * 2 ^ 16) (2 ^ 16)

/-- Does it cover the translations of a piece of Stratus traffic (R359)? What is left to be issued again holds none. -/
def XlCommand.coversTraffic (c : XlCommand) (y : Party) (f : StratFlight) : Bool :=
  !f.again && c.covers y f.guests (spanOf f.pieces).1 (spanOf f.pieces).2

/-- Does it cover a translation that a Stratus block of a party holds? -/
def XlCommand.coversStrat (c : XlCommand) (y : Party) (u : StratRun) : Bool :=
  u.traffic.any (c.coversTraffic y)
    || match u.held with | some h => c.covers y h.2 (spanOf h.1).1 (spanOf h.1).2 | none => false

/-- Does it cover a translation behind a request to another module, as it stood when the request was made? The device's own
requests have none of the first stage. -/
def XlCommand.coversForward (c : XlCommand) (f : Forward) : Bool :=
  c.covers f.asker.party (f.page / 2 ^ 16 * 2 ^ 16 :: f.guests) f.va.toNat (fwdBytes f.kind)
    && (f.core < deviceCore || c.op ≤ 3)

/-- Is this the answer of a table read, which stands for a cached translation of its party (R416, R425)? -/
def XlCommand.drops (c : XlCommand) (f : Forward) : Bool :=
  f.asker.cap.isNone && f.reply.isSome && f.engine < migrateEngine && c.coversParty f.asker.party

/-- Does it cover a translation held or used in a cluster: by traffic of the array, by Stratus blocks, by a descriptor not
read yet? -/
def XlCommand.meetsCluster (c : XlCommand) (s : State) (k : Cluster) : Bool :=
  k.flights.any (fun f => c.covers (s.partyOf f.core) f.guests f.span.1 f.span.2)
    || (match k.strat with | some u => c.coversStrat (s.partyOf u.core) u | none => false)
    || k.resumed.any (fun u => c.coversStrat (s.partyOf u.core) u)
    || k.cumulus.submits.any (fun x => c.coversParty ⟨x.part, x.world, x.context⟩
      && (c.op != 4 || c.covers ⟨x.part, x.world, x.context⟩ [] x.va.toNat 64))

/-- Is a covered translation still held or used: by a probed block, that of a suspended continuation included (R381), by
traffic under way, by a request to another module? -/
def State.stillUsed (s : State) (c : XlCommand) : Bool :=
  let p := s.part c.part
  p.cores.any (fun n => (s.core n).eng.holds.any (c.coversHold (s.partyOf n)))
    || p.areas.any (fun a => a.2.saved.any (fun x => x.core.eng.holds.any (c.coversHold ⟨c.part, x.world, x.context⟩)))
    || p.clust.any (fun k => c.meetsCluster s (s.cluster k))
    || s.outer.forwards.any (fun f => !c.drops f && c.coversForward f)

/-- A command is done: it leaves, and its ticket completes. -/
def State.endCommand (s : State) (c : XlCommand) : State :=
  let s := { s with outer := { s.outer with commands := s.outer.commands.filter (fun d => d != c) } }
  s.setPort (s.port.finish c.ticket)

/-- Does an invalidation cover the page of a counter, which no leaf puts on another module any more? The counter is not kept
(R423). -/
def State.staleCounter (s : State) (c : XlCommand) (page : Nat) : Bool :=
  c.op ≤ 2 && page / 2 ^ 8 % 2 ^ 8 = c.part && page % 2 ^ 8 = c.world && !s.pageAway page

/-- What an invalidation removes: the answers of table reads that its party's walks have had, and counters (R423, R425). -/
def State.forgetReads (s : State) (c : XlCommand) : State :=
  { s with outer := { s.outer with
      forwards := s.outer.forwards.filter (fun f => !c.drops f)
      accesses := s.outer.accesses.filter (fun a => !s.staleCounter c a.1) } }

/-- INVALIDATION_COMPLETE: the oldest command of the acting port, when it is an invalidation and no covered translation
is held or used any more. Beyond those holds this model caches only what walks have read at other modules. -/
def execInvalidationComplete (s : State) : Host.Outcome State Fault Refusal :=
  .next (match s.outer.commands.find? (fun c => c.ofPort s.actor) with
    | none => s
    | some c => if c.op = 3 ∨ s.stillUsed c then s else (s.forgetReads c).endCommand c)

/-! ### Migration (R426) -/

/-- What a leaf maps: its first frame, whether a second one stands above it, and which of the two is visible (R415). -/
structure LeafFrames where
  base : Place
  pair : Bool
  second : Bool
  deriving DecidableEq, Repr

/-- The frames of a leaf. -/
def State.leafFrames (s : State) (p w gpa : Nat) (e L : Nat) : Option LeafFrames :=
  match checkEntry true L e with
  | .ok (.leafOf page _ v k sh) =>
    some ⟨.here (hbmLoc p page) (s.pageKey p v k), sh, sh && Marks.has page (s.part p).swapped⟩
  | .ok (.remote m page _) => some ⟨.away m page (floorTo gpa (2 ^ 16) + p * 2 ^ 8 + w), false, false⟩
  | _ => none

/-- Does a place lie in n bytes from a place? -/
def Place.within (pl base : Place) (n : Nat) : Bool :=
  match pl, base with
  | .here l _, .here b _ => b ≤ l && l < b + n
  | .away m a _, .away k b _ => m = k && b ≤ a && a < b + n
  | _, _ => false

/-- Lines pinned in a cluster by slots and passes (R258). -/
def Cluster.pinned (c : Cluster) : List Nat :=
  (c.slots.map (fun q => q.2.pins)).flatten ++ (c.cumulus.passes.map (fun p => p.pins)).flatten

/-- Pieces of traffic under way in a cluster. -/
def Cluster.moving (c : Cluster) : List Piece :=
  (c.flights.map (fun f => match f.what with | .store _ ps _ _ => ps | .fetch _ _ => [])).flatten
    ++ (match c.strat with
      | some u => (u.traffic.map (fun f => f.pieces)).flatten ++ (match u.held with | some h => h.1 | none => [])
      | none => [])

/-- The holds of a partition's probed blocks, those of suspended continuations included: a page's busy count is the number
of those that name it (R294, R381). -/
def State.busyHolds (s : State) (p : Nat) : List Hold :=
  ((s.part p).cores.map (fun c => (s.core c).eng.holds)).flatten
    ++ ((s.part p).areas.map (fun a => match a.2.saved with | some x => x.core.eng.holds | none => [])).flatten

/-- Are n bytes from a place free of holds, pins and traffic (R426 step 2)? -/
def State.pageFree (s : State) (p : Nat) (base : Place) (n : Nat) : Bool :=
  (s.busyHolds p).all (fun h => !h.place.within base n)
    && (s.part p).clust.all (fun k =>
      let c := s.cluster k
      c.pinned.all (fun l => !(Place.here l 0).within base n) && c.moving.all (fun q => !q.place.within base n)
        && c.cumulus.submits.all (fun x => !x.place.within base n))
    && (match base with
      | .away m a _ => s.outer.forwards.all (fun f =>
          f.core = deviceCore && f.engine = migrateEngine || !(f.module = m && a ≤ f.line && f.line < a + n))
      | .here _ _ => true)

/-- One 16-byte granule as it is copied: bytes, tag, whether it is poisoned. -/
structure CopyUnit where
  bytes : List Byte
  tag : Bool
  bad : Bool
  deriving DecidableEq, Repr

/-- Reads granule i of a page; a poisoned granule, or a NACK, is bad. -/
def State.readGranule (s : State) (y : Party) (base : Place) (i : Nat) : Chk CopyUnit :=
  match base with
  | .here l k =>
    let x := l + 16 * i
    .ok { bytes := s.mem.readUnder k x 16, tag := s.mem.tagAt x, bad := (s.mem.poisonIn x 16).isSome }
  | .away _ _ _ =>
    let pc : Piece := ⟨0, 16, base.plus (16 * i), y, none⟩
    match s.readPiece deviceCore migrateEngine pc with
    | .ok bs => .ok { bytes := bs, tag := s.tagOf deviceCore migrateEngine pc, bad := false }
    | .error (.trap _ _ _) => .ok { bytes := List.replicate 16 0, tag := false, bad := true }
    | .error e => .error e

/-- Every granule of a page; requests for every line of a remote one go out together. -/
def State.readPage (s : State) (y : Party) (base : Place) (n : Nat) : Except (List Forward) (List CopyUnit) :=
  let rs := (upFrom 0 (n / 16)).map (s.readGranule y base)
  let fs := (rs.filterMap (fun r => match r with | .error (.forward fs) => some fs | _ => none)).flatten
  let us := rs.filterMap (fun r => match r with | .ok u => some u | .error _ => none)
  if us.length = n / 16 then .ok us else .error fs.dedup

/-- Writes granule i of a page of this module: a bad one poisons its target line (R198, R426); an admitted image is not
changed (R57; log 97). -/
def State.writeGranule (p l k : Nat) (s : State) (q : Nat × CopyUnit) : State :=
  let x := l + 16 * q.1
  if s.inImage p x 16 then s
  else
    let t := s.storeAt none false x k q.2.bytes
    let m := t.mem.setTag x q.2.tag
    { t with mem := if q.2.bad then { m with poison := Marks.add (unitBase x) m.poison } else m }

/-- Four granules to a line of 64 bytes. -/
def linesOf : List CopyUnit → List (List CopyUnit)
  | a :: b :: c :: d :: l => [a, b, c, d] :: linesOf l
  | [] => []
  | l => [l]

/-- The requests that write the lines of a page to another module, with their tags; a line with a bad granule is poisoned
there instead (R198, R422, R426). -/
def State.pageRequests (s : State) (y : Party) (m a g : Nat) (us : List CopyUnit) : List Forward :=
  ((upFrom 0 us.length).zip (linesOf us)).filterMap (fun q =>
    if q.2.any CopyUnit.bad then none
    else some (s.request deviceCore migrateEngine 0 m (a + 64 * q.1) 0
      (.store (q.2.map CopyUnit.bytes).flatten (q.2.map CopyUnit.tag)) g ⟨y, none⟩))

/-- The lines of a page that are poisoned at another module. -/
def State.poisonLines (s : State) (m a : Nat) (us : List CopyUnit) : State :=
  ((upFrom 0 us.length).zip (linesOf us)).foldl (fun t q =>
    if q.2.any CopyUnit.bad then t.say (.poison m (a + 64 * q.1)) else t) s

/-- The page written to a new place: in one step within this module; at another module once it has acknowledged every
line. -/
def State.writePage (s : State) (y : Party) (new : Place) (us : List CopyUnit) : Chk State :=
  match new with
  | .here b k =>
    let n := 16 * us.length
    let s := { s with mem := { s.mem with poison := Mem.healed b n s.mem.poison } }
    .ok (((upFrom 0 us.length).zip us).foldl (State.writeGranule y.part b k) s)
  | .away m a g =>
    match s.awaitStores (s.pageRequests y m a g us) with
    | .ok _ => .ok (s.poisonLines m a us)
    | .error (.trap _ _ _) => .ok (s.poisonLines m a us)
    | .error e => .error e

/-- Location numbers move with their page: from [lo, lo + n) to a new base. -/
def moved (lo n new x : Nat) : Nat := if lo ≤ x ∧ x < lo + n then x - lo + new else x

/-- Generations of the granules of a page go with it (R147). -/
def moveGens (lo n new : Nat) (g : Sparse (BitVec 8)) : Sparse (BitVec 8) :=
  let there := new / 4096
  let kept := g.filter (fun (q : Nat × BitVec 8) => !(there ≤ q.1 && q.1 < there + n / 4096))
  (upFrom 0 (n / 4096)).foldl (fun t i =>
    match Sparse.find? (lo / 4096 + i) g with
    | some v => Sparse.set (there + i) v t
    | none => t) kept

/-- Numbers of a table renamed. -/
def renameKeys {α : Type} (f : Nat → Nat) (t : Sparse α) : Sparse α := t.foldl (fun u q => Sparse.set (f q.1) q.2 u) []
def renameMarks (f : Nat → Nat) (m : Marks) : Marks := Marks.addAll (m.map f) []

/-- A group, a launch, a sync object and a counter with their records renamed. -/
def Group.rename (f : Nat → Nat) (g : Group) : Group :=
  { g with members := g.members.map f, arrived := renameMarks f g.arrived, early := renameMarks f g.early,
           waiting := renameMarks f g.waiting, gone := renameMarks f g.gone }
def SyncObj.rename (f : Nat → Nat) (o : SyncObj) : SyncObj :=
  { o with mode := match o.mode with
             | .free => .free
             | .shared hs => .shared (renameMarks f hs)
             | .exclusive h => .exclusive (f h)
           waiting := o.waiting.map (fun w => (f w.1, w.2)) }

/-- The partition's tables after records and sync objects moved: `f` on partition-physical addresses, `l` on
locations. -/
def Partition.rename (f l : Nat → Nat) (x : Partition) : Partition :=
  { x with
    recWorlds := renameKeys f x.recWorlds
    sweeps := x.sweeps.map (fun w => { w with granules := w.granules.map (fun g => f (4096 * g) / 4096) })
    groups := x.groups.map (fun (q : Nat × Group) => (q.1, q.2.rename f))
    launches := x.launches.map (fun (q : Nat × Launch) => (q.1, { q.2 with records := renameMarks f q.2.records }))
    pool := x.pool.map (fun e => { e with record := f e.record })
    owed := renameKeys f x.owed
    owner := renameKeys f x.owner
    syncs := renameKeys l (x.syncs.map (fun (q : Nat × SyncObj) => (q.1, q.2.rename f)))
    seqs := x.seqs.map (fun (q : Nat × SeqCounter) => (q.1, { q.2 with waiting := q.2.waiting.map (fun w => (f w.1, w.2)) }))
    areas := x.areas.map (fun (q : Nat × Area) => (q.1, { q.2 with saved := q.2.saved.map (fun y =>
      { y with record := f y.record }) })) }

/-- Records, sync objects, generations and waiters of a page that moved within the module. -/
def State.moveObjects (s : State) (p lo n new : Nat) : State :=
  let f := moved (lo - hbmLoc p 0) n (new - hbmLoc p 0)
  let l := moved lo n new
  let s := s.modPart p (fun x => { x.rename f l with gens := moveGens (lo - hbmLoc p 0) n (new - hbmLoc p 0) x.gens })
  { s with
    older := s.older.filter (fun e => moved lo n new (16 * e.granule) = 16 * e.granule && moved new n lo (16 * e.granule) = 16 * e.granule)
    cores := s.cores.map (fun (q : Nat × Core) =>
      (q.1, { q.2 with run := q.2.run.map (fun r => if r.part = p then { r with record := f r.record } else r) }))
    clusters := s.clusters.map (fun (q : Nat × Cluster) =>
      if s.ownerOf q.1 = some p then
        (q.1, { q.2 with
          rings := q.2.rings.map (fun (r : Nat × Ring) =>
            (r.1, { r.2 with owners := r.2.owners.map (fun (o : Nat × Nat) => (o.1, f o.2)) }))
          cumulus := { q.2.cumulus with submits := q.2.cumulus.submits.map (fun x => { x with record := f x.record }) } })
      else q)
    waiters := s.waiters.map (fun w => match w.1 with | .granule g b => (.granule (l (16 * g) / 16) b, w.2) | _ => w)
    outer := { s.outer with
      forwards := s.outer.forwards.map (fun r =>
        { r with owner := r.owner.map (fun o => if o.1 = p then (p, f o.2) else o) })
      suspended := s.outer.suspended.map (fun w => if w.part = p then { w with record := f w.record } else w) } }

/-- What a MIGRATE copies: both frames of a pair to a pair, else the visible frame; from where, and how many bytes
(R415, R426). -/
def LeafFrames.source (old new : LeafFrames) (n : Nat) : Place × Nat :=
  if old.pair && new.pair then (old.base, 2 * n) else (if old.second then old.base.plus n else old.base, n)

/-- The choice of the visible frame goes with a pair (R415). -/
def State.moveChoice (s : State) (p : Nat) (old new : LeafFrames) : State :=
  let drop := fun (b : Place) (m : Marks) => match b with | .here l _ => Marks.del (l - hbmLoc p 0) m | .away _ _ _ => m
  let add := fun (b : Place) (m : Marks) => match b with | .here l _ => Marks.add (l - hbmLoc p 0) m | .away _ _ _ => m
  s.modPart p (fun x =>
    let m := drop new.base (drop old.base x.swapped)
    { x with swapped := if old.pair && new.pair && old.second then add new.base m else m })

/-- The page of a MIGRATE is on its way from or to another module: accesses to it wait (R426 step 3). -/
def State.markCopying (s : State) (c : XlCommand) : State :=
  { s with outer := { s.outer with commands := s.outer.commands.map (fun d => if d = c then { d with copying := true } else d) } }

/-- The counters of a leaf's 64 KiB pages go when it is on another module no more (R423). -/
def State.forgetCounters (s : State) (c : XlCommand) (L : Nat) : State :=
  { s with outer := { s.outer with accesses := s.outer.accesses.filter (fun a =>
      !(a.1 / 2 ^ 8 % 2 ^ 8 = c.part && a.1 % 2 ^ 8 = c.world && floorTo a.1 (pageBytes L) = floorTo c.addr (pageBytes L))) } }

/-- Steps 3 to 5 of R426: the page copied with its tags under the new leaf's key, the leaf rewritten. Within the module that
is one step; what another module holds is read, or written and acknowledged, first. -/
def State.copyPage (s : State) (c : XlCommand) (L entry : Nat) (old new : LeafFrames) : State :=
  let y : Party := ⟨c.part, c.world, 0⟩
  let src := old.source new (pageBytes L)
  match s.readPage y src.1 src.2 with
  | .error fs => (s.markCopying c).post fs
  | .ok us =>
    match s.writePage y new.base us with
    | .error (.forward fs) => (s.markCopying c).post fs
    | .error _ => s
    | .ok t =>
      let t := t.dropAnswers deviceCore migrateEngine
      let t := match src.1, new.base with
        | .here a _, .here b _ => t.moveObjects c.part a src.2 b
        | _, _ => t
      let t := match new.base with
        | .here _ _ => t.forgetCounters c L
        | .away _ _ _ => t
      ((t.moveChoice c.part old new).poke (hbmLoc c.part entry) (leBytes c.leaf.toNat 8)).endCommand c

/-- MIGRATE_COPY: the oldest command of the Zenith's port, when it is a MIGRATE whose page, both frames of a shadowed
pair included, is free. A leaf that has gone since the command was taken ends it without a copy. -/
def execMigrateCopy (s : State) : Host.Outcome State Fault Refusal :=
  .next (match s.outer.commands.find? (fun c => c.ofPort s.actor) with
    | none => s
    | some c =>
      if c.op ≠ 3 then s
      else match s.worldLeaf c.part c.world c.addr with
        | none => s.endCommand c
        | some (L, entry, e) =>
          match s.leafFrames c.part c.world c.addr e L, s.leafFrames c.part c.world c.addr c.leaf.toNat L with
          | some old, some new =>
            if s.pageFree c.part old.base (if old.pair then 2 * pageBytes L else pageBytes L) then s.copyPage c L entry old new
            else s
          | _, _ => s.endCommand c)

end Sys2Proof.Machine
end

