-- ==== Sys2Proof/Machine/Weights.lean ====
section
/-! DEFINITION. The weight table: registration, removal, advertisement (R270 to R273). -/

namespace Sys2Proof.Machine

/-- Entries of the weight table (R270). -/
def weightEntries : Nat := 4096

/-- Is a layout descriptor laid out as R270 gives, with a format of its class's group (R263)? -/
def layoutOk (l : List Byte) : Bool :=
  l.length = 16 && numAt 0 1 l ≤ 13 && (shapeClass (numAt 1 1 l)).isSome && numAt 2 2 l = 0 && numAt 8 8 l = 0
    && (numAt 0 1 l ≤ 6 || numAt 4 4 l = 0)
    && (match shapeClass (numAt 1 1 l) with | some c => inGroup c.group (numAt 0 1 l) | none => false)

/-- The lowest free entry of the weight table. -/
def State.freeWeight (s : State) : Option Nat :=
  (upFrom 0 weightEntries).find? (fun n => (Sparse.find? n s.outer.weights).isNone)

/-- The first 64 bits of SHAKE256 over a region's bytes and its layout descriptor (R270). -/
def weightIdent (bs layout : List Byte) : BitVec 64 := BitVec.ofNat 64 (leNat (shake256 (bs ++ layout) 8))

/-- The bytes of a region are held under a key from now on. -/
def Mem.rekey (key l : Nat) (bs : List Byte) (m : Mem) : Mem := m.putBytes key l bs

/-- WEIGHT_REGION_REGISTRATION: the firmware registers bytes of the acting partition's memory as a weight region; whatever
keys they were held under; from then on they are held under the partition's weight key (R270, R271). -/
def execWeightRegionRegistration (base len : Nat) (layout : List Byte) (s : State) :
    Host.Outcome State Fault Refusal :=
  let p := s.actor.part
  .next (if !layoutOk layout ∨ len = 0 ∨ s.frameOk p base len = false ∨ (s.part p).present = false then s
    else match s.freeWeight with
      | none => s
      | some n =>
        let l := hbmLoc p base
        let bs := s.mem.raw l len
        let w : Weight := { ident := weightIdent bs layout, part := p, base := base, len := len, layout := layout }
        { s with mem := s.mem.rekey (s.weightKey p) l bs
                 outer := { s.outer with weights := Sparse.set n w s.outer.weights } })

/-- Does a list or a pass name a weight? -/
def HoldList.names (ident : BitVec 64) (l : HoldList) : Bool := l.weight = ident
def Pass.names (ident : BitVec 64) (p : Pass) : Bool := p.members.any (fun m => m.task.weight = ident)

/-- The clusters of a partition after a change of their Cumulus. -/
def State.modCumuli (s : State) (p : Nat) (f : Cumulus → Cumulus) : State :=
  (s.part p).clust.foldl (fun t k => t.modCumulus k f) s

/-- Has some pass of a partition's clusters fetched a weight and not retired? -/
def State.weightBusy (s : State) (p : Nat) (ident : BitVec 64) : Bool :=
  (s.part p).clust.any (fun k => (s.cluster k).cumulus.passes.any (fun q => q.members.length < q.next && q.names ident))

/-- WEIGHT_REMOVAL: forms the passes of every list that names the region of the acting partition, and deletes its entry
once every pass that has fetched it has retired (R273). -/
def execWeightRemoval (ident : BitVec 64) (s : State) : Host.Outcome State Fault Refusal :=
  let p := s.actor.part
  .next (match s.weightOf p ident with
    | none => s
    | some (n, _) =>
      let t := s.modCumuli p (fun u => u.formAll (HoldList.names ident))
      if t.weightBusy p ident then t
      else { t with outer := { t.outer with weights := Sparse.erase n t.outer.weights } })

/-- The identities that the module holds. -/
def State.idents (s : State) : List Nat := s.outer.weights.map (fun q => q.2.ident.toNat)

/-- WEIGHT_SET_ADVERTISE: the set of identities goes to the pod router (R272). -/
def execWeightSetAdvertise (s : State) : Host.Outcome State Fault Refusal :=
  .next (({ s with outer := { s.outer with advertised := Marks.addAll s.idents [] } }).say (.weights s.idents))

end Sys2Proof.Machine
end

