-- ==== Sys2Proof/Machine/Partition.lean ====
section
/-! DEFINITION. The partition interface: the descriptor and its checks, COMMIT, PREEMPT, RELEASE, RESET, RECLAIM, worlds
and their keys, scrubs and receipts, queue export and import (R368, R372, R429 to R436, R447, R448, R450). -/

namespace Sys2Proof.Machine

/-! ### The descriptor (R430, R431) -/

/-- The numbers of the one bits of bytes. -/
def oneBits (bs : List Byte) : List Nat :=
  let x := leNat bs
  (upFrom 0 (8 * bs.length)).filter (bitAt x)

/-- The bytes of a descriptor with its frame tables. -/
structure PartDesc where
  bytes : List Byte
  tables : List (List Byte)
  deriving DecidableEq, Repr

def PartDesc.clust (d : PartDesc) : List Nat := oneBits (sliceB 0 16 d.bytes)
def PartDesc.hbm (d : PartDesc) : List Nat := oneBits (sliceB 16 80 d.bytes)
def PartDesc.ports (d : PartDesc) : List Nat := oneBits (sliceB 96 8 d.bytes)
def PartDesc.xch (d : PartDesc) : BitVec 16 := BitVec.ofNat 16 (numAt 104 2 d.bytes)
def PartDesc.weight (d : PartDesc) : Nat := numAt 106 1 d.bytes
def PartDesc.age (d : PartDesc) : Nat := numAt 107 1 d.bytes
def PartDesc.saveBase (d : PartDesc) : Nat := numAt 112 8 d.bytes
def PartDesc.saveCnt (d : PartDesc) : Nat := numAt 120 4 d.bytes
def PartDesc.chan (d : PartDesc) (i : Nat) : BitVec 32 := BitVec.ofNat 32 (numAt (128 + 4 * i) 4 d.bytes)
def PartDesc.ftAddr (d : PartDesc) : Nat := numAt 1216 8 d.bytes
def PartDesc.opKey (d : PartDesc) : Nat := numAt 1224 2 d.bytes

/-- Bytes of world entry w, and its fields. -/
def PartDesc.entry (d : PartDesc) (w : Nat) : List Byte := sliceB (192 + 16 * w) 16 d.bytes
def entryFlags (e : List Byte) : Nat := numAt 0 1 e
def entryPresent (e : List Byte) : Bool := bitAt (entryFlags e) 0
def entrySealed (e : List Byte) : Bool := bitAt (entryFlags e) 1
def entryVf (e : List Byte) : Nat := numAt 1 1 e
def entryDbg (e : List Byte) : Nat := numAt 2 2 e
def entryRoot (e : List Byte) : Nat := numAt 4 4 e
def entryS2 (e : List Byte) : Nat := numAt 8 8 e

/-- Worlds that the descriptor makes present, and those of them that are sealed. -/
def PartDesc.present (d : PartDesc) : List Nat := (upFrom 0 64).filter (fun w => entryPresent (d.entry w))
def PartDesc.sealedWorlds (d : PartDesc) : List Nat := d.present.filter (fun w => entrySealed (d.entry w))

/-- Reads the descriptor at an address of Zenith memory, with its frame tables. -/
def State.readDesc (s : State) (a : Nat) : PartDesc :=
  let d : PartDesc := { bytes := s.raw (s.zenithLoc a) 1280, tables := [] }
  { d with tables := (upFrom 0 d.clust.length).map (fun j => s.raw (s.zenithLoc (d.ftAddr + 1024 * j)) 1024) }

/-! ### Frame tables (R372) -/

/-- Entry i of a table's bytes. -/
def frameOf (t : List Byte) (i : Nat) : FrameEntry :=
  let b := sliceB (16 * i) 16 t
  { owners := (sliceB 0 8 b).map BitVec.toNat, lexp := bitsAt (numAt 8 1 b) 0 5, last := bitAt (numAt 9 1 b) 0 }

/-- The rotation: entries up to the first LAST; none when no entry has it. -/
def rotationOf (t : List Byte) : Option (List FrameEntry) :=
  let es := (upFrom 0 64).map (frameOf t)
  match es.findIdx? (fun e => e.last) with | some i => some (es.take (i + 1)) | none => none

/-- The reserved bits of entry i are zero. -/
def frameReserved (t : List Byte) (i : Nat) : Bool :=
  let b := sliceB (16 * i) 16 t
  numAt 8 1 b / 32 = 0 && numAt 9 1 b / 2 = 0 && numAt 10 6 b = 0

/-- The one entry of a partition without sealed worlds. -/
def openFrame : FrameEntry := { owners := List.replicate 8 0xFE, lexp := 20, last := true }

/-- Does a table keep R372? -/
def PartDesc.tableOk (d : PartDesc) (t : List Byte) : Bool :=
  match rotationOf t with
  | none => false
  | some es =>
    (upFrom 0 es.length).all (frameReserved t)
      && es.all (fun e => 14 ≤ e.lexp && e.lexp ≤ 20
          && e.owners.all (fun o => o = 0xFE || o = 0xFF || d.sealedWorlds.contains o))
      && (d.sealedWorlds != [] || es = [openFrame])

/-- Pairs of a core and a sealed owner that occur in the tables (R379). -/
def PartDesc.pairs (d : PartDesc) : Nat :=
  (d.tables.map (fun t =>
    let es := (rotationOf t).getD []
    ((upFrom 0 8).map (fun n => ((es.map (fun e => e.owners.getD n 0xFF)).filter (· < 64)).dedup.length)).sum)).sum

/-! ### The checks of COMMIT (R433) -/

/-- The functions that a descriptor names (R32). -/
def PartDesc.functions (d : PartDesc) : List Nat :=
  d.clust.filter (· < 80) ++ d.hbm.map (· + 128) ++ (d.ports.filter (· < 36)).map (· + 769)

/-- Does another partition own something that the descriptor names? -/
def State.taken (s : State) (p : Nat) (d : PartDesc) : Bool :=
  s.parts.any (fun q => q.1 != p && q.2.present
    && (d.clust.any q.2.clust.contains || d.hbm.any q.2.hbm.contains || d.ports.any q.2.ports.contains))

/-- Reason 1. -/
def State.reason1 (s : State) (p : Nat) (d : PartDesc) : Bool :=
  d.functions.any (fun f => !Marks.has f s.mgmt.ready) || s.taken p d

/-- Is a virtual function that a present world names named twice, or by another partition's world? -/
def State.vfClash (s : State) (p : Nat) (d : PartDesc) : Bool :=
  let vs := d.present.map (fun w => entryVf (d.entry w))
  decide (¬ vs.Nodup) || s.parts.any (fun q => q.1 != p && q.2.present
    && q.2.worlds.any (fun w => w.2.present && vs.contains w.2.vf))

/-- Reason 2: reserved bits and fields, ranges, one function for two worlds. -/
def State.reason2 (s : State) (p : Nat) (d : PartDesc) : Bool :=
  d.clust.any (80 ≤ ·) || d.ports.any (36 ≤ ·) || numAt 108 4 d.bytes != 0 || numAt 124 4 d.bytes != 0
    || (sliceB 1226 54 d.bytes).any (· != 0) || decide (8 < d.weight) || decide (d.age < 10) || decide (24 < d.age)
    || d.saveBase % 4096 != 0
    || (upFrom 0 64).any (fun w => entryFlags (d.entry w) / 16 != 0 || bitsAt (entryS2 (d.entry w)) 0 12 != 0
        || entryS2 (d.entry w) / 2 ^ 44 != 0)
    || s.vfClash p d

/-- Does a channel word break R368? A word without CONF has only its reserved bits checked. -/
def PartDesc.badChannel (d : PartDesc) (w : BitVec 32) : Bool :=
  let x := w.toNat
  let sd := bitsAt x 0 3
  let rd := bitsAt x 4 3
  let dead := fun (n : Nat) => 6 ≤ n || !d.clust.any (fun k => dieOf k = n)
  x / 2 ^ 9 != 0 || bitAt x 7 || bitAt x 3 || (bitAt x 8 && (sd = rd || dead sd || dead rd))

/-- Reason 3. -/
def PartDesc.reason3 (d : PartDesc) : Bool :=
  (upFrom 0 16).any (fun i => d.badChannel (d.chan i)) || d.tables.any (fun t => !d.tableOk t)

/-- Reason 4. -/
def PartDesc.reason4 (d : PartDesc) : Bool :=
  decide (d.saveCnt < 8 * d.clust.length + d.pairs)
    || decide ((d.hbm.map channelBytes).sum < d.saveBase + d.saveCnt * areaBytes)

/-- The world of an entry, as far as the descriptor gives it. -/
def PartDesc.applyWorld (d : PartDesc) (w : Nat) (x : World) : World :=
  let e := d.entry w
  { x with present := entryPresent e, isSealed := entrySealed e, tenant := bitAt (entryFlags e) 2,
           l2auth := bitAt (entryFlags e) 3, vf := entryVf e, dbgKey := entryDbg e, rootBlk := entryRoot e,
           s2root := entryS2 e }

/-- Does a descriptor leave a world as it stands? -/
def PartDesc.sameWorld (d : PartDesc) (x : Partition) (w : Nat) : Bool :=
  let y := x.world w
  if entryPresent (d.entry w) = false ∧ y.present = false then true else d.applyWorld w y = y

/-- The frames of a cluster as a descriptor gives them. -/
def PartDesc.framesFor (d : PartDesc) (k : Nat) : List FrameEntry :=
  (rotationOf (d.tables.getD (d.clust.findIdx (· = k)) [])).getD [openFrame]

/-- Reason 5: a change of anything but channel words, WEIGHT and AGE. -/
def State.reason5 (s : State) (p : Nat) (d : PartDesc) : Bool :=
  let x := s.part p
  x.present && !x.held
    && !(d.clust = x.clust && d.hbm = x.hbm && d.ports = x.ports && d.xch = x.xch && d.saveBase = x.saveBase
      && d.saveCnt = x.saveCnt && d.opKey = x.opKey && (upFrom 0 64).all (d.sameWorld x)
      && d.clust.all (fun k => d.framesFor k = (s.cluster k).frames))

/-- The first reason that refuses a COMMIT; 0 for none. -/
def State.commitReason (s : State) (p : Nat) (d : PartDesc) : Nat :=
  if s.reason1 p d then 1 else if s.reason2 p d then 2 else if d.reason3 then 3 else if d.reason4 then 4
  else if s.reason5 p d then 5 else 0

/-! ### Scrubs (R450) -/

/-- The frames of a partition's memory, by location. -/
def State.framesOf (s : State) (p : Nat) : List Nat :=
  (upFrom 0 ((s.part p).memSize / 2 ^ 16)).map (fun i => hbmLoc p (i * 2 ^ 16))

/-- The frames that the leaves under a second-stage table of level L map for a world (R414, R415). -/
def State.framesUnder (s : State) (p w : Nat) : Nat → Nat → List Nat
  | L, table =>
    ((upFrom 0 (if L = 0 then 32 else 512)).map (fun i =>
      match checkEntry true L (leNat (s.raw (hbmLoc p (table + 8 * i)) 8)) with
      | .ok (.table next) => (match L with | 0 => [] | L + 1 => State.framesUnder s p w L next)
      | .ok (.leafOf page _ v false sh) =>
        if v = w then
          (upFrom 0 (pageBytes L / 2 ^ 16 * (if sh then 2 else 1))).map (fun j => hbmLoc p (page + j * 2 ^ 16))
        else []
      | _ => [])).flatten

/-- The frames of a world. -/
def State.worldFrames (s : State) (p w : Nat) : List Nat :=
  (s.framesUnder p w 3 ((s.part p).world w).s2root).dedup

/-- A frame scrubbed: zero under a fresh key. -/
def Mem.scrubFrame (key : Nat) (m : Mem) (l : Nat) : Mem :=
  (m.wipe l (2 ^ 16)).putBytes key l (List.replicate (2 ^ 16) 0)

/-- The module's number of the frame at a location of a partition's memory. -/
def State.frameAt (s : State) (p l : Nat) : Nat := (s.part p).frameNo (l - hbmLoc p 0)

/-- Why a frame is not scrubbed: 1 retired, 2 an uncorrectable error; 0 when it is. -/
def State.scrubReason (s : State) (p l : Nat) : Nat :=
  if Marks.has (s.frameAt p l) s.outer.retired then 1 else if Config.scrubError s.draws l then 2 else 0

/-- The receipt before its signature. -/
def State.receiptBody (s : State) (p w n : Nat) (ex : List (Nat × Nat)) : List Byte :=
  leBytes 0x53435242 4 ++ leBytes p 1 ++ leBytes w 1 ++ leBytes (if ex = [] then 0 else 1) 1 ++ [0] ++ leBytes n 8
    ++ leBytes ex.length 4 ++ List.replicate 4 (0 : Byte) ++ sliceB 0 64 (s.meas s.mgmt.zenith 0)
    ++ (ex.map (fun e => leBytes (floorTo (e.1 - hbmLoc p 0) (2 ^ 16) + e.2) 8)).flatten

/-- Scrubs frames of partition p: those that are not scrubbed become never-reassignable, and the signed receipt follows
for a world, or 0xFF for the whole partition. -/
def State.scrub (s : State) (p w : Nat) (frames : List Nat) : State × List Byte :=
  let ex := (frames.map (fun l => (l, s.scrubReason p l))).filter (fun (e : Nat × Nat) => e.2 != 0)
  let good := frames.filter (fun l => s.scrubReason p l = 0)
  let key := s.freshKey p w
  let body := s.receiptBody p w good.length ex
  let t : State := { s with
    mem := good.foldl (Mem.scrubFrame key) s.mem
    outer := { s.outer with never := Marks.addAll (ex.map (fun e => s.frameAt p e.1)) s.outer.never } }
  (t.drew 9, body ++ s.signature (shake256 body 64))

/-! ### Worlds (R433, R435) -/

/-- The number under which the digest of a debug key is registered: tier and target (R49). -/
def digestNo (tier target : Nat) : Nat := tier * 2 ^ 32 + target

/-- The target of a partition's tier 1, or of a world's tier 0 without its context (R48, R49). -/
def partTarget (p : Nat) : Nat := p * 2 ^ 24
def worldTarget (p w : Nat) : Nat := p * 2 ^ 24 + w * 2 ^ 16

/-- The digest of a key in the firmware key store. -/
def State.storedDigest (s : State) (handle : Nat) : List Byte :=
  shake256 (s.raw (s.zenithLoc (Config.keyStoreAddr handle)) 1793) 64

/-- Changes the debug registers. -/
def State.modDbg (s : State) (f : Debug → Debug) : State := s.modMgmt (fun m => { m with dbg := f m.dbg })

/-- Registers a digest. -/
def Debug.register (d : Debug) (n : Nat) (x : List Byte) : Debug := { d with digests := Sparse.set n x d.digests }

/-- A virtual function as its world's configuration leaves it: two BARs and 64 vectors (R437); DEV, epoch and REARM of
its queues are zero (R446). -/
def freshVf : Vf :=
  { Vf.init with configured := true, bars := List.replicate 6 0, sizes := [0x1000000, 0, 0x10000, 0, 0, 0], msix := 64 }

/-- The permissions of a root capability over memory: all but EXEC (R122). -/
def permMemory : Nat :=
  permLoad + permStore + permLoadCap + permStoreCap + permGlobal + permEngine + permPublish + permBind + permSubmit

/-- Does a party map part of [lo, hi) to an admitted image? -/
def State.mapsImage (s : State) (y : Party) (lo hi : Nat) : Bool :=
  (pagesOf lo hi).any (fun x => match s.translate y x false false with
    | .ok (.here l _) => s.inImage y.part (floorTo l (2 ^ 16)) (2 ^ 16)
    | _ => false)

/-- A capability that the firmware hands out, over n bytes from an address, under the bounds rule of R126; one that reaches
an admitted image carries no STORE (R57). -/
def State.rootCap (s : State) (y : Party) (lo n perms : Nat) : Cap :=
  match deriveCap { Cap.null with cursor := BitVec.ofNat 64 lo, e := 63, tag := true } n with
  | .ok c =>
    let p := if s.mapsImage y c.base c.top && perms / permStore % 2 = 1 then perms - permStore else perms
    { c with perm := BitVec.ofNat 12 p, gen := s.genAt y c.base }
  | .error _ => Cap.null

/-- The root block of a world, a launch parameter block (R158) with tagged root capabilities over an image and over memory
of the world, for records of context 0 (R435, R436): its bytes, and the tags of its granules. What the firmware chooses is
free (log 32). -/
def State.rootBlock (s : State) (p w : Nat) : List Byte × List Bool :=
  let n := Config.rootBlock p w s.draws
  let y : Party := ⟨p, w, 0⟩
  let ims := (s.part p).images
  let im := ims[n 0 % ims.length]?
  let img := match im with
    | some q => s.rootCap y (n 1 * 2 ^ 16) (4 * q.2.words) (permExec + permLoad)
    | none => Cap.null
  let ext := fun i => 1 + n i % 2 ^ 8
  let units := ext 2 * ext 3 * ext 4
  let recs := s.rootCap y (n 5 * 64) (64 * units + n 6) permMemory
  let frame := s.rootCap y (n 7 * 16) (1 + n 8) permMemory
  let order := n 9 % 4
  let template := capBytes frame ++ leBytes (match im with | some q => q.1 | none => 0) 4 ++ leBytes (n 10 % 2 ^ 20) 4
    ++ List.replicate 4 (0xFF : Byte) ++ leBytes (n 11 % 4 * 2 ^ 3) 4 ++ ((upFrom 12 4).map (fun i => leBytes (n i) 8)).flatten
  let bytes := capBytes img ++ capBytes recs ++ capBytes Cap.null ++ ((upFrom 2 3).map (fun i => leBytes (ext i) 4)).flatten
    ++ leBytes order 1 ++ leBytes (if order < 2 then n 16 % 5 else 0) 1 ++ leBytes (n 17 % 4) 1 ++ [0]
    ++ List.replicate 64 (0 : Byte) ++ template
  (bytes, [img.tag, recs.tag] ++ List.replicate 6 false ++ [frame.tag, false, false, false])

/-- Writes the root block of a world (R435). -/
def State.writeRoot (s : State) (p w : Nat) : State :=
  let x := (s.part p).world w
  let b := s.rootBlock p w
  let t := s.drew 1
  match t.guestPlace ⟨p, w, 0⟩ (x.rootBlk * 2 ^ 16) true with
  | some (.here l key) =>
    let t := t.storeAt none false l key (sliceB 0 192 b.1)
    { t with mem := (upFrom 0 12).foldl (fun m i => m.setTag (l + 16 * i) (b.2.getD i false)) t.mem }
  | _ => t

/-- A world becomes present: a new key, its function, its debug key, its root block. -/
def State.openWorld (s : State) (p w : Nat) (d : PartDesc) : State :=
  let key := s.freshKey p w
  let s := s.drew 8
  let x := d.applyWorld w { World.init with key := key }
  let s := (s.modPart p (fun y => y.setWorld w x)).setVf x.vf freshVf
  let dig := s.storedDigest x.dbgKey
  (s.modDbg (fun g => g.register (digestNo 0 (worldTarget p w)) dig)).writeRoot p w

/-- The records of a world that have not ended. -/
def State.worldRecords (s : State) (p w : Nat) : List Nat :=
  ((s.part p).owner.map Prod.fst).filter (fun a => s.recWorld p a = w)

/-- A partition without what belongs to one world: records, save areas, regions, counters. -/
def Partition.dropWorld (x : Partition) (w : Nat) (rs : List Nat) : Partition :=
  { x with
    pool := x.pool.filter (fun e => !rs.contains e.record)
    owner := x.owner.filter (fun (q : Nat × Nat) => !rs.contains q.1)
    owed := x.owed.filter (fun (q : Nat × Word64) => !rs.contains q.1)
    areas := x.areas.map (fun (q : Nat × Area) => match q.2.saved with
      | some y => if y.world = w then (q.1, { q.2 with saved := none }) else q
      | none => q)
    fits := x.fits.filter (fun (q : Nat × FitEntry) => q.2.world != w)
    seqs := x.seqs.filter (fun (q : Nat × SeqCounter) => q.1 / 2 ^ 14 != w)
    sweeps := x.sweeps.filter (fun z => z.world != w)
    worlds := Sparse.erase w x.worlds }

/-- Cumulus without the tasks of a party's world, or of its whole partition. -/
def Cumulus.dropTasks (u : Cumulus) (gone : CumTask → Bool) (sub : Submit → Bool) : Cumulus :=
  { u with
    lists := (u.lists.map (fun l => { l with members := l.members.filter (fun t => !gone t) })).filter
      (fun l => l.members != [])
    passes := (u.passes.map (fun p => { p with members := p.members.filter (fun m => !gone m.task) })).filter
      (fun p => p.members != [])
    submits := u.submits.filter (fun x => !sub x) }

/-- A world stops being present: its function is reset, its records, areas, tasks and regions go, its key is destroyed,
its memory is scrubbed; the receipt has no area of its own (R434, R450). -/
def State.closeWorld (s : State) (p w : Nat) : State :=
  let x := (s.part p).world w
  let frames := s.worldFrames p w
  let s := s.resetVf x.vf
  let rs := s.worldRecords p w
  let s := rs.foldl (fun t a => t.unlist p a) s
  let s := s.modCumuli p (fun u => u.dropTasks (fun t => t.world = w) (fun x => x.world = w))
  let s := (s.modPart p (fun y => y.dropWorld w rs)).setVf x.vf Vf.init
  let s := s.modDbg (fun g => { g with
    opened := g.opened.filter (fun o => !(o.tier = 0 && o.target.toNat / 2 ^ 16 = worldTarget p w / 2 ^ 16)) })
  let r := s.scrub p w frames
  r.1.say (.receipt r.2)

/-! ### COMMIT (R433) -/

/-- The result of an operation of the partition interface. -/
def State.partResult (s : State) (reason : Nat) (refused : Bool) : State :=
  s.modMgmt (fun m => { m with pcReason := reason, pcRefused := refused })

/-- A cluster that a partition gives up, or takes over: nothing of its state stays. -/
def State.freshCluster (s : State) (k : Nat) : State :=
  let s := (coresOf k).foldl State.clearCore s
  let s := (upFrom 0 16).foldl (fun t b => { t with mem := t.mem.wipe (bankLoc k b 0) (bankSize k) }) s
  { s with clusters := Sparse.erase k s.clusters
           cores := (coresOf k).foldl (fun c n => Sparse.erase n c) s.cores }

/-- A cluster of the partition after the commit: WEIGHT, the frame table, entry 0 from now on. A core whose owner byte
changes meets a frame edge (R373, R375). -/
def State.configureCluster (d : PartDesc) (s : State) (k : Nat) : State :=
  let c := s.cluster k
  let new : Cluster := { c with frames := d.framesFor k, frame := 0, frameStart := s.time,
                                cumulus := { c.cumulus with weight := d.weight } }
  let cores := (coresOf k).filter (fun n => c.ownerIn c.frame n != new.ownerIn 0 n)
  cores.foldl State.edgeCore (s.setCluster k new)

/-- The cores whose owner byte a commit changes. -/
def State.commitCores (s : State) (d : PartDesc) : List Nat :=
  (d.clust.map (fun k =>
    let c := s.cluster k
    let new : Cluster := { c with frames := d.framesFor k }
    (coresOf k).filter (fun n => c.ownerIn c.frame n != new.ownerIn 0 n))).flatten

/-- Channel words: a changed one waits until its channel holds nothing (R368). -/
def PartDesc.applyChannels (d : PartDesc) (x : Partition) : Partition :=
  (upFrom 0 16).foldl (fun x i =>
    let c := x.channel i
    if d.chan i = c.word then x.setChannel i { c with pending := none }
    else x.setChannel i (Channel.settle { c with pending := some (d.chan i) })) x

/-- Save areas by address when the pool moves. -/
def Partition.movePool (x : Partition) (base cnt : Nat) : Sparse Area :=
  if x.saveBase = base then x.areas
  else x.areas.foldl (fun t q =>
    let h := x.saveBase + q.1 * areaBytes
    if base ≤ h ∧ (h - base) % areaBytes = 0 ∧ (h - base) / areaBytes < cnt then
      Sparse.set ((h - base) / areaBytes) q.2 t
    else t) []

/-- The resources and fields of the partition after the commit. -/
def PartDesc.applyTo (d : PartDesc) (x : Partition) : Partition :=
  d.applyChannels { x with present := true, clust := d.clust, hbm := d.hbm, ports := d.ports, xch := d.xch, weight := d.weight,
                           age := d.age, areas := x.movePool d.saveBase d.saveCnt, saveBase := d.saveBase,
                           saveCnt := d.saveCnt, opKey := d.opKey }

/-- A world of the partition after the commit. -/
def State.commitWorld (p : Nat) (d : PartDesc) (s : State) (w : Nat) : State :=
  let x := (s.part p).world w
  if entryPresent (d.entry w) = x.present then
    (if x.present then
      let y := d.applyWorld w x
      let t := s.modPart p (fun q => q.setWorld w y)
      if y.vf = x.vf then t else t.setVf y.vf freshVf
    else s)
  else if x.present then s
  else s.openWorld p w d

/-- Applies a descriptor (R433): worlds that go, functions that a staying world gives up, resources, clusters, worlds that stay or come. -/
def State.applyDesc (s : State) (p : Nat) (d : PartDesc) : State :=
  let old := s.part p
  let gone := (upFrom 0 64).filter (fun w => (old.world w).present && !entryPresent (d.entry w))
  let s := gone.foldl (fun t w => t.closeWorld p w) s
  let s := (old.clust.filter (fun k => !d.clust.contains k)).foldl State.freshCluster s
  let s := (d.clust.filter (fun k => !old.clust.contains k)).foldl State.freshCluster s
  let moved := (upFrom 0 64).filter (fun w => (old.world w).present && entryPresent (d.entry w)
    && (old.world w).vf != entryVf (d.entry w))
  let s := moved.foldl (fun t w => (t.resetVf (old.world w).vf).setVf (old.world w).vf Vf.init) s
  let s := if old.present then s
    else
      let dig := s.storedDigest d.opKey
      s.modDbg (fun g => g.register (digestNo 1 (partTarget p)) dig)
  let s := s.modPart p d.applyTo
  let s := d.clust.foldl (State.configureCluster d) s
  (upFrom 0 64).foldl (State.commitWorld p d) s

/-- Does a descriptor close a transfer channel on which a copy of the partition is not yet visible? The COMMIT waits for it
(R297). -/
def State.closesBusy (s : State) (p : Nat) (d : PartDesc) : Bool :=
  let x := s.part p
  (upFrom 0 16).any (fun ch => x.channelOpen ch && !bitAt d.xch.toNat ch && x.cores.any (fun n => s.channelBusy n ch))

/-- COMMIT of the descriptor at PCADDR to the acting partition: refused whole for the first reason, else applied in one
step; the write stalls while save areas are lacking for the edges it makes (R379) or while a channel it closes is busy
(R297). -/
def execCommit (s : State) : Host.Outcome State Fault Refusal :=
  let p := s.actor.part
  let d := s.readDesc s.mgmt.pcAddr.toNat
  let r := s.commitReason p d
  .next (if !s.zenithActs then s
    else if r ≠ 0 then s.partResult r true
    else if !s.canSaveAll p (s.commitCores d) || s.closesBusy p d then s
    else (s.applyDesc p d).partResult 0 false)

/-! ### PREEMPT, RELEASE, RESET, RECLAIM (R434) -/

/-- Every running continuation of a partition is saved, Cumulus forms the partition's lists, dispatch is held. Where a frame
edge is due in the same cycle, the one suspension is the edge's (R376). -/
def State.preempt (s : State) (p : Nat) : State :=
  let s := ((s.part p).clust.filter (fun k => (s.cluster k).frameOver s.time)).foldl State.crossEdge s
  let s := (s.part p).cores.foldl (fun t n => t.forceSuspend n 2) s
  let s := s.modCumuli p (fun u => u.formAll (fun _ => true))
  s.modPart p (fun x => { x with held := true })

/-- PREEMPT of the acting partition; it waits for save areas (R379). -/
def execPreempt (s : State) : Host.Outcome State Fault Refusal :=
  let p := s.actor.part
  .next (if !s.zenithActs then s
    else if !(s.part p).present then s.partResult 0 true
    else if !s.canSaveAll p (s.part p).cores then s
    else (s.preempt p).partResult 0 false)

/-- RELEASE: the hold ends, latched notifies are delivered, and the dispatcher may take up records. -/
def execRelease (s : State) : Host.Outcome State Fault Refusal :=
  let p := s.actor.part
  .next (if !s.zenithActs then s
    else if !(s.part p).present then s.partResult 0 true
    else ((s.modPart p (fun x => { x with held := false })).openGates).partResult 0 false)

/-- What the translation unit, the fabric and the weight table keep of a partition goes, and the openings of its debug
tiers end (R47); the registered keys, which are trust state, stay (R434). -/
def State.forgetPart (s : State) (p : Nat) : State :=
  let cores := (s.part p).cores
  let s := { s with outer := { s.outer with
    suspended := s.outer.suspended.filter (fun w => w.part != p)
    commands := s.outer.commands.filter (fun c => c.part != p)
    forwards := s.outer.forwards.filter (fun f => !cores.contains f.core && f.asker.party.part != p)
    weights := s.outer.weights.filter (fun (w : Nat × Weight) => w.2.part != p)
    accesses := s.outer.accesses.filter (fun (a : Nat × BitVec 16) => a.1 / 2 ^ 8 % 2 ^ 8 != p) } }
  s.modDbg (fun g => { g with
    opened := g.opened.filter (fun o => !((o.tier = 0 || o.tier = 1) && o.target.toNat / 2 ^ 24 = p)) })

/-- RESET (R434): pre-emption, everything of the partition discarded, queues unmapped, keys destroyed, memory scrubbed
with its receipt at PCADDR, the resources returned. -/
def State.resetPart (s : State) (p : Nat) : State :=
  let s := s.preempt p
  let x := s.part p
  let vfs := (x.worlds.filter (fun (w : Nat × World) => w.2.present)).map (fun w => w.2.vf)
  let s := vfs.foldl (fun t v => (t.resetVf v).setVf v Vf.init) s
  let frames := s.framesOf p
  let s := x.clust.foldl State.freshCluster (s.forgetPart p)
  let r := s.scrub p 0xFF frames
  let t := r.1.setPart p Partition.init
  t.poke (t.zenithLoc t.mgmt.pcAddr.toNat) r.2

/-- PARTITION_RESET of the acting partition. -/
def execPartitionReset (s : State) : Host.Outcome State Fault Refusal :=
  let p := s.actor.part
  .next (if !s.zenithActs then s
    else if !(s.part p).present then s.partResult 0 true
    else if !s.canSaveAll p (s.part p).cores then s
    else (s.resetPart p).partResult 0 false)

/-- PCMD_RECLAIM: PCADDR holds the address of a faulted record of the acting partition. -/
def execPcmdReclaim (s : State) : Host.Outcome State Fault Refusal :=
  let p := s.actor.part
  let a := bitsAt s.mgmt.pcAddr.toNat 6 42 * 2 ^ 6
  .next (if !s.zenithActs then s
    else if s.isFaulted p a then (s.reclaim p a).retryAborts.partResult 0 false
    else s.partResult 0 true)

/-! ### Queue export and import (R447, R448) -/

/-- The function and queue that PCARG names. -/
def State.pcVf (s : State) : Nat := bitsAt s.mgmt.pcArg.toNat 0 8
def State.pcQueue (s : State) : Nat := bitsAt s.mgmt.pcArg.toNat 8 6

/-- The canonical state of a queue; `st` is its state before, `r` RUNNABLE, `w` the WAITSIG at its head. -/
def Queue.canonical (f : Queue) (st : Nat) (r : Bool) (w : Option (List Byte)) : List Byte :=
  leBytes 0x51455850 4 ++ leBytes 1 2 ++ leBytes st 1 ++ leBytes (bitVal r 0 + bitVal f.rearm 1) 1
    ++ leBytes f.rbase.toNat 8 ++ leBytes f.rsize 1 ++ List.replicate 3 (0 : Byte) ++ leBytes f.head.toNat 4
    ++ leBytes f.tail.toNat 4 ++ List.replicate 4 (0 : Byte) ++ leBytes f.dorg.toNat 8 ++ leBytes f.dbase.toNat 8
    ++ leBytes (bitVal f.den 0) 1 ++ List.replicate 7 (0 : Byte) ++ leBytes f.dev.toNat 8 ++ leBytes f.epoch.toNat 4
    ++ List.replicate 4 (0 : Byte) ++ leBytes (match w with | some c => (cmdA c).toNat | none => 0) 8
    ++ leBytes (match w with | some c => (cmdB c).toNat | none => 0) 8 ++ List.replicate 40 (0 : Byte)

/-- The lists with a task of a function's world form their passes (R262). -/
def State.formFor (s : State) (v : Nat) : State :=
  match s.worldOfVf v with
  | none => s
  | some (p, w) => s.modCumuli p (fun u => u.formAll (fun l => l.members.any (fun t => t.world = w)))

/-- Step 1 of an export keeps the queue's state, for it may change before the queue has drained (R448). -/
def Queue.noteState (f : Queue) : Queue := { f with before := some (f.before.getD f.state) }

/-- QEXPORT of the queue that PCARG names: the gate at once, with the passes of the affected lists (R262), the rest when
nothing is in flight. -/
def execQexport (s : State) : Host.Outcome State Fault Refusal :=
  let v := s.pcVf
  let q := s.pcQueue
  .next (if !s.zenithActs then s
    else
      let t := ((s.gateQueue v q).modQueue v q Queue.noteState).formFor v
      if !t.queueIdle v q then t
      else
        let f := (t.vf v).queue q
        let w := if t.headWaits v q then some (t.command v q f.head) else none
        let bytes := f.canonical (f.before.getD f.state) (t.sampleRunnable v q) w
        let t := t.closeQueue v q
        (t.poke (t.zenithLoc t.mgmt.pcAddr.toNat) bytes).partResult 0 false)

/-- The queue that a canonical state describes. -/
def Queue.ofCanonical (b : List Byte) : Queue :=
  { Queue.init with
    state := numAt 6 1 b % 4, rearm := bitAt (numAt 7 1 b) 1,
    rbase := BitVec.ofNat 64 (numAt 8 8 b), rsize := numAt 16 1 b % 32, head := BitVec.ofNat 32 (numAt 20 4 b),
    tail := BitVec.ofNat 32 (numAt 24 4 b), dorg := BitVec.ofNat 64 (numAt 32 8 b),
    dbase := BitVec.ofNat 64 (numAt 40 8 b), den := bitAt (numAt 48 1 b) 0, dev := BitVec.ofNat 64 (numAt 56 8 b),
    epoch := BitVec.ofNat 32 (numAt 64 4 b) }

/-- QIMPORT into an UNMAPPED queue of a state with the right magic and version; with RUNNABLE the queue starts as if its
doorbell had been written with TAIL (R447). -/
def execQimport (s : State) : Host.Outcome State Fault Refusal :=
  let v := s.pcVf
  let q := s.pcQueue
  let b := s.raw (s.zenithLoc s.mgmt.pcAddr.toNat) 128
  .next (if !s.zenithActs then s
    else if ((s.vf v).queue q).state ≠ 0 ∨ numAt 0 4 b ≠ 0x51455850 ∨ numAt 4 2 b ≠ 1 then s.partResult 0 true
    else
      let f := Queue.ofCanonical b
      let t := s.modQueue v q (fun _ => f)
      (if bitAt (numAt 7 1 b) 0 then t.doorbell v q f.tail else t).partResult 0 false)

end Sys2Proof.Machine
end

