-- ==== Sys2Proof/Machine/Debug.lean ====
section
/-! DEFINITION. Debug authorisation: nonces, OPEN with its wipe, CLOSE (R47 to R50). -/

namespace Sys2Proof.Machine

/-- Does the acting unit reach the debug registers: a hart of the Zenith, or the host's trusted firmware through the
debug page (R49)? -/
def State.debugActs (s : State) : Bool := s.actor.debugPage || s.zenithActs

/-- DBGCTL := NONCE: a fresh nonce (R48 step 1), made from the debug nonce key and fresh random bytes (R35; log 10). -/
def execDbgctlNonce (s : State) : Host.Outcome State Fault Refusal :=
  .next (if s.debugActs then
      let n := shake256 (s.secret 4 ++ s.random 32) 32
      (s.modDbg (fun d => { d with nonce := n, valid := true })).drew 32
    else s)

/-- DEBUG_NONCE_EXPIRY: 10 s have passed (R48). -/
def execDebugNonceExpiry (s : State) : Host.Outcome State Fault Refusal :=
  .next (s.modDbg (fun d => { d with valid := false }))

/-- DBGCTL := CLOSE: tier 0 or 1 of the requested target closes (R49). -/
def execDbgctlClose (s : State) : Host.Outcome State Fault Refusal :=
  .next (if s.debugActs then
      s.modDbg (fun d => if d.tier.toNat ≤ 1 then
          { d with opened := d.opened.filter (fun o => !(o.tier = d.tier.toNat && o.target = d.target)) }
        else d)
    else s)

/-! ### The wipe (R47, R50) -/

/-- The live records of a world: those that have not ended. -/
def State.liveRecords (s : State) (p w : Nat) : List Nat :=
  (s.worldRecords p w).filter (fun a => ctlState (s.ctl p a) < 5)

/-- A live record of a wiped world ends: suspended where it runs, then ended with KEYS_WIPED. -/
def State.endWiped (p : Nat) (s : State) (a : Nat) : State :=
  let s := match s.coreOf p a with
    | some n => s.forceSuspend n 3
    | none => s
  (s.unlist p a).wipeRecord p a

/-- A world loses its key; a sealed one ends (R50). An unsealed world runs on under a fresh key, which the manual does
not say: its memory is plaintext, and only what leaves it sealed uses a key (DESIGN CHOICE, log 95). -/
def State.wipeWorld (s : State) (p w : Nat) : State :=
  let x := (s.part p).world w
  let key := s.freshKey p w
  let s := s.drew 8
  if x.isSealed then
    let s := (s.liveRecords p w).foldl (State.endWiped p) s
    s.modPart p (fun y => y.setWorld w { y.world w with key := key, wiped := true })
  else s.modPart p (fun y => y.setWorld w { y.world w with key := key })

/-- The worlds of a partition. -/
def State.worldsOf (s : State) (p : Nat) : List Nat :=
  ((s.part p).worlds.filter (fun (q : Nat × World) => q.2.present)).map Prod.fst

/-- Every world key of a partition. -/
def State.wipePart (s : State) (p : Nat) : State := (s.worldsOf p).foldl (fun t w => t.wipeWorld p w) s

/-- Every world key. -/
def State.wipeAll (s : State) : State := (upFrom 0 16).foldl State.wipePart s

/-- The wipe of a tier (R47). Tier 3 destroys the secrets last; the weight keys and the keys of the save areas go with
them, for they are derived from them. -/
def State.wipeTier (s : State) (tier p : Nat) : State :=
  match tier with
  | 0 => s
  | 1 => s.wipePart p
  | 2 => s.wipeAll
  | _ => s.wipeAll.modMgmt (fun m => { m with secrets := false })

/-- The partitions whose worlds a tier's wipe strikes. -/
def wipedParts (tier p : Nat) : List Nat :=
  match tier with
  | 0 => []
  | 1 => [p]
  | _ => upFrom 0 16

/-- Are there save areas for every running continuation that a wipe suspends (R379)? -/
def State.canWipe (s : State) (tier p : Nat) : Bool :=
  (wipedParts tier p).all (fun q => s.canSaveAll q ((s.part q).cores.filter (fun n =>
    match (s.core n).run with | some r => ((s.part q).world r.world).isSealed | none => false)))

/-! ### OPEN (R48, R49) -/

/-- The digest registered for the requested tier and target; tier 0 keys belong to a world, whatever the context. -/
def Debug.wanted (d : Debug) : Option (List Byte) :=
  let t := if d.tier = 0 then floorTo d.target.toNat (2 ^ 16) else d.target.toNat
  Sparse.find? (digestNo d.tier.toNat t) d.digests

/-- The four bytes of the target: partition, world, context, zero. R48 lists them in this order and gives no byte order for
the target as a number; the model puts the partition byte first (DESIGN CHOICE, log 18). -/
def targetBytes (t : BitVec 32) : List Byte := (leBytes t.toNat 4).reverse

/-- The requester's key and signature: in Corona shared memory, or on the debug page. -/
def State.requestKey (s : State) : List Byte :=
  if s.actor.debugPage then (upFrom 0x100 1793).map (Sparse.get s.mgmt.dbg.page 0)
  else s.raw (coronaLoc s.mgmt.dbg.pub.toNat) 1793
def State.requestSig (s : State) : List Byte :=
  if s.actor.debugPage then (upFrom 0x900 1280).map (Sparse.get s.mgmt.dbg.page 0)
  else s.raw (coronaLoc s.mgmt.dbg.sig.toNat) 1280

/-- The 64 bytes that a requester signs (R48 step 2). -/
def State.challenge (s : State) : List Byte :=
  let d := s.mgmt.dbg
  shake256 ([0x44, 0x42] ++ leBytes d.tier.toNat 1 ++ targetBytes d.target ++ d.nonce
    ++ s.raw (s.zenithLoc 0xC104) 64) 64

/-- Why an OPEN fails, as DBGST bits 8 to 10: no key registered, no valid nonce, key or signature rejected; 0 when it
succeeds. -/
def State.openFailure (s : State) : Nat :=
  match s.mgmt.dbg.wanted with
  | none => 4
  | some dig =>
    if s.mgmt.dbg.valid = false then 2
    else if shake256 s.requestKey 64 = dig && Config.falconVerify s.requestKey s.challenge s.requestSig then 0
    else 1

/-- DBGST bits 8 to 10. -/
def Debug.setFailure (d : Debug) (f : Nat) : Debug :=
  { d with reject := bitAt f 0, stale := bitAt f 1, nokey := bitAt f 2, valid := false }

/-- An accepted OPEN: the wipe, the tier open, MEAS14 extended (R48 steps 3 and 4). -/
def State.openTier (s : State) : State :=
  let d := s.mgmt.dbg
  let sig := s.requestSig
  let s := s.wipeTier d.tier.toNat (d.target.toNat / 2 ^ 24)
  let s := s.modDbg (fun x => { x.setFailure 0 with
    opened := (x.opened.filter (fun o => !(o.tier = d.tier.toNat && o.target = d.target))) ++ [⟨d.tier.toNat, d.target⟩] })
  s.extendMeas s.mgmt.zenith 14 (leBytes d.tier.toNat 1 ++ targetBytes d.target ++ [0, 0, 0] ++ shake256 sig 16)

/-- DBGCTL := OPEN (R48 to R50); a failure is logged. The manual does not say what source and owner the entry names; the
model writes source 0 and owner none (DESIGN CHOICE, log 29). The write stalls while save areas are lacking for the wipe. -/
def execDbgctlOpen (s : State) : Host.Outcome State Fault Refusal :=
  let d := s.mgmt.dbg
  let f := s.openFailure
  .next (if !s.debugActs then s
    else if f ≠ 0 then
      (s.modDbg (fun x => x.setFailure f)).logError
        ⟨0x12, 0, none, 0, d.tier.toNat + d.target.toNat * 2 ^ 8 + f * 2 ^ 40⟩
    else if !s.canWipe d.tier.toNat (d.target.toNat / 2 ^ 24) then s
    else s.openTier)

end Sys2Proof.Machine
end

