-- ==== Sys2Proof/Machine/Harts.lean ====
section
/-! DEFINITION. Management harts: their CSRs, exceptions, the external interrupt, MRET (R454, R455). -/

namespace Sys2Proof.Machine

/-! ### CSRs (R454) -/

/-- mstatus: MIE, MPIE and MPP, which reads 3. -/
def Hart.mstatus (h : Hart) : Word64 :=
  BitVec.ofNat 64 (bitVal h.mieBit 3 + bitVal h.mpie 7 + 3 * 2 ^ 11)

/-- MEIP: READYCHG, on hart 0 of the Zenith; a handoff holds it (R32, R46). -/
def State.meip (s : State) (h : HartId) : Bool :=
  s.isZenith h && h.hart = 0 && s.mgmt.readychg && s.mgmt.handoff.isNone

/-- mcycle counts from what was last written (log 11), and minstret counts the instructions retired. -/
def State.hartClock (s : State) (h : HartId) : Word64 := (s.hartOf h).mcycle + BitVec.ofNat 64 (Config.hartCycles s.time)
def State.hartCount (s : State) (h : HartId) : Word64 := (s.hartOf h).minstret

/-- A CSR read; none where the CSR is unimplemented. -/
def State.readCsr (s : State) (h : HartId) (n : Nat) : Option Word64 :=
  let x := s.hartOf h
  match n with
  | 0xF11 | 0xF12 | 0xF13 => some 0
  | 0xF14 => some (BitVec.ofNat 64 h.hart.val)
  | 0x301 => some (BitVec.ofNat 64 (2 * 2 ^ 62 + 2 ^ 0 + 2 ^ 2 + 2 ^ 8 + 2 ^ 12))
  | 0x300 => some x.mstatus
  | 0x305 => some x.mtvec
  | 0x304 => some (BitVec.ofNat 64 (bitVal x.meie 11))
  | 0x344 => some (BitVec.ofNat 64 (bitVal (s.meip h) 11))
  | 0x340 => some x.mscratch
  | 0x341 => some x.mepc
  | 0x342 => some x.mcause
  | 0x343 => some x.mtval
  | 0xB00 | 0xC00 => some (s.hartClock h)
  | 0xB02 | 0xC02 => some (s.hartCount h)
  | 0xC01 => some (BitVec.ofNat 64 s.time)
  | _ => none

/-- A CSR write; none where it is unimplemented or read-only. MODE of mtvec stays 0, mepc is even, mip keeps
what it reads. -/
def State.writeCsr (s : State) (h : HartId) (n : Nat) (v : Word64) : Option State :=
  let upd := fun (f : Hart → Hart) => some (s.setHart h (f (s.hartOf h)))
  match n with
  | 0x344 => some s
  | 0x300 => upd (fun x => { x with mieBit := v.getLsbD 3, mpie := v.getLsbD 7 })
  | 0x305 => upd (fun x => { x with mtvec := (v >>> 2) <<< 2 })
  | 0x304 => upd (fun x => { x with meie := v.getLsbD 11 })
  | 0x340 => upd (fun x => { x with mscratch := v })
  | 0x341 => upd (fun x => { x with mepc := (v >>> 1) <<< 1 })
  | 0x342 => upd (fun x => { x with mcause := v })
  | 0x343 => upd (fun x => { x with mtval := v })
  | 0xB00 => upd (fun x => { x with mcycle := v - BitVec.ofNat 64 (Config.hartCycles s.time) })
  | 0xB02 => upd (fun x => { x with minstret := v })
  | _ => none

/-! ### Traps (R455) -/

/-- mcause of an exception. -/
def hartCauseCode : HartCause → Word64
  | .fetchAccess => 1
  | .illegal => 2
  | .breakpoint => 3
  | .loadMisaligned => 4
  | .loadAccess => 5
  | .storeMisaligned => 6
  | .storeAccess => 7
  | .ecall => 11

/-- mtval of an exception: 0 for ECALL, and the pc or 0 for EBREAK; the address or the instruction for the others
(log 3). -/
def hartTval (c : HartCause) (tval pc : Word64) : Word64 :=
  match c with
  | .ecall => 0
  | .breakpoint => if tval = 0 then 0 else pc
  | _ => tval

/-- Machine-mode trap entry: mepc, mcause and mtval are set, MPIE takes MIE, MIE clears, and the hart goes to mtvec. -/
def Hart.trapTo (h : Hart) (cause tval : Word64) : Hart :=
  { h with mepc := h.pc, mcause := cause, mtval := tval, mpie := h.mieBit, mieBit := false, pc := h.mtvec }

/-- Return from a trap: MIE takes MPIE, MPIE sets, and the hart goes to mepc; one more instruction has retired. -/
def Hart.trapReturn (h : Hart) : Hart :=
  { h with mieBit := h.mpie, mpie := true, pc := h.mepc, minstret := h.minstret + 1 }

/-- The hart of the acting unit. -/
def State.actingHart (s : State) : HartId := s.actor.hart

/-- MANAGEMENT_HART_EXCEPTION on the acting hart. -/
def execManagementHartException (cause : HartCause) (tval : BitVec 64) (s : State) : Host.Outcome State Fault Refusal :=
  let h := s.hartOf s.actingHart
  .next (if s.stalled s.actingHart then s
    else s.setHart s.actingHart (h.trapTo (hartCauseCode cause) (hartTval cause tval h.pc)))

/-- MRET on the acting hart. -/
def execMret (s : State) : Host.Outcome State Fault Refusal :=
  .next (if s.stalled s.actingHart then s else s.setHart s.actingHart (s.hartOf s.actingHart).trapReturn)

/-- mcause of the machine external interrupt. -/
def meiCause : Word64 := 0x800000000000000B

/-- MACHINE_EXTERNAL_INTERRUPT: hart 0 of the Zenith takes it while MEIP is raised and MEIE and MIE are set. -/
def execMachineExternalInterrupt (s : State) : Host.Outcome State Fault Refusal :=
  let z : HartId := ⟨s.mgmt.zenith, 0⟩
  let h := s.hartOf z
  .next (if s.meip z ∧ h.meie ∧ h.mieBit then s.setHart z (h.trapTo meiCause 0) else s)

end Sys2Proof.Machine
end

