-- ==== Sys2Proof/Machine/Spdm.lean ====
section
/-! DEFINITION. The SPDM responder that hart 0 of the Zenith runs (R27 to R29, R40, R41): each event handles the pending
request when its code is the event's. -/

namespace Sys2Proof.Machine

/-- The hart that responds. -/
def State.responder (s : State) : HartId := ⟨s.mgmt.zenith, 0⟩

/-- A row of the dispatch table (R27): the connection states a request is served in, the state that follows, its least
length. -/
structure SpdmRow where
  lo : Nat
  hi : Nat
  next : Option Nat
  least : Nat
  deriving DecidableEq, Repr

/-- The dispatch table by request code. -/
def spdmRow (code : Nat) : Option SpdmRow :=
  if code = 0x84 then some ⟨0, 3, some 1, 4⟩
  else if code = 0xE1 then some ⟨1, 1, some 2, 20⟩
  else if code = 0xE3 then some ⟨2, 2, some 3, 32⟩
  else if code = 0x82 then some ⟨3, 3, none, 8⟩
  else if code = 0x83 then some ⟨3, 3, none, 44⟩
  else if code = 0xE0 then some ⟨3, 3, none, 45⟩
  else none

/-- The code of a request. -/
def reqCode (r : List Byte) : Nat := numAt 1 1 r

/-- The error that R27's first four checks give a request. -/
def spdmError (st : Nat) (r : List Byte) : Option Nat :=
  match spdmRow (reqCode r) with
  | none => some 0x07
  | some x =>
    if st < x.lo ∨ x.hi < st then some 0x04
    else if r.length < x.least then some 0x01
    else if reqCode r ≠ 0x84 ∧ numAt 0 1 r ≠ 0x13 then some 0x41
    else none

/-- The fifth check: are the parameters within what the handler serves? -/
def spdmServes (r : List Byte) : Bool :=
  if reqCode r = 0x82 then numAt 2 1 r = 0 && numAt 4 2 r = 0 && 3960 ≤ numAt 6 2 r
  else if reqCode r = 0x83 then numAt 2 2 r = 0
  else if reqCode r = 0xE0 then numAt 2 2 r = 0xFF01 && numAt 36 1 r = 0
  else true

/-- Bytes of the identity area (R36). -/
def State.identity (s : State) (a n : Nat) : List Byte := s.raw (s.zenithLoc a) n

/-- The bytes of a reply before its signature (R29). -/
def State.spdmBody (s : State) (r : List Byte) : List Byte :=
  if reqCode r = 0x84 then [0x10, 0x04, 0, 0, 0, 1, 0x00, 0x13]
  else if reqCode r = 0xE1 then s.identity 0xC000 20
  else if reqCode r = 0xE3 then s.identity 0xC040 52
  else if reqCode r = 0x82 then [0x13, 0x02, 0, 0, 0x78, 0x0F, 0, 0] ++ s.identity 0xD000 3960
  else if reqCode r = 0x83 then
    (s.identity 0xC100 68) ++ s.random 32 ++ s.identity 0xC164 2 ++ sliceB 36 8 r
  else [0x13, 0x60, 0, 0, 0x10, 0x70, 0x04, 0] ++ s.mrecOf s.mgmt.zenith ++ s.random 32 ++ [0, 0] ++ sliceB 37 8 r

/-- Is a reply signed? -/
def spdmSigned (r : List Byte) : Bool := reqCode r = 0x83 || reqCode r = 0xE0

/-- The response buffer with a reply's bytes from its start. -/
def State.putReply (s : State) (bs : List Byte) : State :=
  s.modMgmt (fun m => { m with mbx := { m.mbx with out := areaPut m.mbx.out 0x1000 0 bs } })

/-- An ERROR reply: state 0 after InvalidRequest, else unchanged (R27). -/
def State.spdmFail (s : State) (code : Nat) : State :=
  let v := if s.mgmt.spdm = 0 then 0x10 else 0x13
  let t := (s.putReply [v, 0x7F, BitVec.ofNat 8 code, 0]).sendMbx 4
  t.modMgmt (fun m => { m with spdm := if code = 0x01 then 0 else m.spdm })

/-- The transcript with a request and its reply's unsigned bytes; GET_VERSION starts it afresh (R28). -/
def transcript (old : HashCtx) (r body : List Byte) : HashCtx :=
  (if reqCode r = 0x84 then [] else old) ++ r ++ body

/-- The registers of the responding hart after an accepted request: the transcript, and what the squeeze, the signature
and the snapshot leave (R19, R28). -/
def State.spdmHart (s : State) (r body : List Byte) : Hart :=
  let h := s.hartOf s.responder
  let t := transcript h.ctx1 r body
  let out := reg (rotBase + 0x2000)
  let h := { h with ctx1 := t, hashSrc := out, hashLen := BitVec.ofNat 32 (if spdmSigned r then 0 else body.length) }
  let h := if reqCode r = 0xE0 then { h with mrec := s.mrecOf s.mgmt.zenith } else h
  if spdmSigned r then
    { h with hashOut := shake256 t 64, falMsg := reg (rotBase + 0x40), falSig := reg (rotBase + 0x2000 + body.length) }
  else h

/-- An accepted request is answered, signed over the squeeze of the transcript where the reply is (R28, R29). -/
def State.spdmAnswer (s : State) (r : List Byte) (x : SpdmRow) : State :=
  let body := s.spdmBody r
  let h := s.spdmHart r body
  let sig := if spdmSigned r then s.signature (shake256 h.ctx1 64) else []
  let t := (s.setHart s.responder h).putReply (body ++ sig)
  let t := t.modMgmt (fun m => { m with spdm := x.next.getD m.spdm })
  (t.sendMbx (body.length + sig.length)).drew 33

/-- Is the responder serving: the first stage is complete, and no handoff is under way (R23, R46)? -/
def State.serving (s : State) : Bool := s.mgmt.bootst = 2 && s.mgmt.handoff.isNone

/-- The responder handles the pending request when its code is one of an event's (R27). -/
def State.respond (s : State) (mine : Nat → Bool) : State :=
  match s.mgmt.mbx.pending with
  | none => s
  | some r =>
    if !s.serving || !mine (reqCode r) then s
    else match spdmError s.mgmt.spdm r, spdmRow (reqCode r) with
      | some e, _ => s.spdmFail e
      | none, some x => if spdmServes r then s.spdmAnswer r x else s.spdmFail 0x01
      | none, none => s

/-- GET_VERSION (R27, R28). -/
def execGetVersion (s : State) : Host.Outcome State Fault Refusal := .next (s.respond (fun c => c = 0x84))

/-- GET_CAPABILITIES (R27). -/
def execGetCapabilities (s : State) : Host.Outcome State Fault Refusal := .next (s.respond (fun c => c = 0xE1))

/-- NEGOTIATE_ALGORITHMS (R27, R40). -/
def execNegotiateAlgorithms (s : State) : Host.Outcome State Fault Refusal := .next (s.respond (fun c => c = 0xE3))

/-- GET_CERTIFICATE (R27, R29). -/
def execGetCertificate (s : State) : Host.Outcome State Fault Refusal := .next (s.respond (fun c => c = 0x82))

/-- CHALLENGE (R27, R29). -/
def execChallenge (s : State) : Host.Outcome State Fault Refusal := .next (s.respond (fun c => c = 0x83))

/-- GET_MEASUREMENTS (R27, R29, R41). -/
def execGetMeasurements (s : State) : Host.Outcome State Fault Refusal := .next (s.respond (fun c => c = 0xE0))

/-- UNSUPPORTED_REQUEST: a code outside the dispatch table (R27, R40). -/
def execUnsupportedRequest (s : State) : Host.Outcome State Fault Refusal :=
  .next (s.respond (fun c => (spdmRow c).isNone))

end Sys2Proof.Machine
end

