-- ==== Sys2Proof/Machine/Interface.lean ====
section
/-! DEFINITION. The interface lock: function commands, frozen registers, the interface mailbox and the messages that
hart 1 of the Zenith answers (R406 to R410). -/

namespace Sys2Proof.Machine

/-! ### VFCMD (R408) -/

/-- A function command is refused: REFUSED is set, nothing else changes. -/
def State.vfRefuse (s : State) (v : Nat) : State := s.setVf v { s.vf v with refused := true }

/-- LOCK: the frozen set is captured. -/
def State.vfLock (s : State) (v : Nat) : State :=
  let f := s.vf v
  if f.configured && f.state = 0 then
    s.setVf v { f with state := 1, captured := f.frozenSet v, cause := 0, refused := false }
  else s.vfRefuse v

/-- START. -/
def State.vfStart (s : State) (v : Nat) : State :=
  let f := s.vf v
  if f.configured && f.state = 1 then s.setVf v { f with state := 2, refused := false } else s.vfRefuse v

/-- STOP: the function is reset (R445). -/
def State.vfStop (s : State) (v : Nat) : State :=
  if (s.vf v).configured then
    let t := s.resetVf v
    t.setVf v { t.vf v with refused := false }
  else s.vfRefuse v

/-- The function that VFSEL names. -/
def State.selected (s : State) : Nat := s.mgmt.vfsel.toNat

/-- VFCMD := LOCK by hart 1 of the Zenith; another hart's write is discarded (R406). -/
def execVfcmdLock (s : State) : Host.Outcome State Fault Refusal :=
  .next (if s.actsAs 1 then s.vfLock s.selected else s)

/-- VFCMD := START. -/
def execVfcmdStart (s : State) : Host.Outcome State Fault Refusal :=
  .next (if s.actsAs 1 then s.vfStart s.selected else s)

/-- VFCMD := STOP; the write stalls while save areas for the function's running units are lacking (R379). -/
def execVfcmdStop (s : State) : Host.Outcome State Fault Refusal :=
  .next (if s.actsAs 1 && s.canAbort s.selected then s.vfStop s.selected else s)

/-! ### The frozen set (R407, R408) -/

/-- Which register of the frozen set a configuration-space offset names: a base address, or the command register. -/
def frozenBar (off : Nat) : Option Nat := if 0x10 ≤ off ∧ off < 0x28 then some ((off - 0x10) / 4) else none

/-- Does an offset lie in a writable register of the frozen set: a base address, or the command register (R407)? -/
def isFrozen (off : Nat) : Bool := (frozenBar off).isSome || off = 0x04 || off = 0x05

/-- A register after a write that begins at its byte k: the bytes below stand. -/
def overByte (old x : Word64) (k : Nat) : Word64 := BitVec.ofNat 64 (old.toNat % 2 ^ (8 * k) + x.toNat * 2 ^ (8 * k))

/-- Is a BAR in use (R407)? -/
def Vf.hasBar (f : Vf) (i : Nat) : Bool := f.sizes.getD i 0 != 0

/-- The BAR that a write of base-address register i changes, and the byte of the BAR at which the register begins: its own,
or the upper half of the BAR below it, which is 64 bits wide as PCIe has it; none for a register of no BAR, which holds 0
(R407; log 96). -/
def Vf.barAt (f : Vf) (i : Nat) : Option (Nat × Nat) :=
  if f.hasBar i then some (i, 0) else if 0 < i ∧ f.hasBar (i - 1) then some (i - 1, 4) else none

/-- The frozen register with a new value. -/
def Vf.writeConfig (f : Vf) (off : Nat) (x : Word64) : Vf :=
  match frozenBar off with
  | some i => (match f.barAt i with
    | some b => { f with bars := listSet (overByte (f.bars.getD b.1 0) x (b.2 + off % 4)) b.1
                                   (f.bars ++ List.replicate (6 - f.bars.length) 0) }
    | none => f)
  | none => { f with command := (overByte (f.command.setWidth 64) x (off - 0x04)).setWidth 16 }

/-- A write to a 4-byte word of the configuration space outside the frozen set is applied (R407): the word holds what was
written from the byte at which the write begins, its lower bytes stand. Which of its bits PCIe makes read-only is outside this spec (log 96). -/
def Vf.writeOther (f : Vf) (off : Nat) (x : Word64) : Vf :=
  let old : Word64 := BitVec.ofNat 64 (Sparse.get f.config 0 (off / 4))
  let new := (overByte old x (off % 4)).toNat % 2 ^ 32
  if off < 0x1000 then { f with config := Sparse.set (off / 4) new f.config } else f

/-- The log entry of a violation. -/
def State.logFrozen (s : State) (v off : Nat) (x : Word64) : State :=
  s.logError ⟨if (frozenBar off).isSome then 0x31 else 0x32, vfSource v, s.worldOfVf v, off, x.toNat⟩

/-- FROZEN_REGISTER_WRITE by the host in the acting function's configuration space (R408): applied while unlocked; a
violation while locked or running, which moves the function to ERROR at once and aborts what it executes (a running unit
that has no save area ends when it gets one, log 59); discarded in ERROR. A write to another byte of the configuration
space is never a violation (R407). -/
def execFrozenRegisterWrite (off : Nat) (value : BitVec 64) (s : State) : Host.Outcome State Fault Refusal :=
  let v := s.actor.vf
  let f := s.vf v
  .next (if !isFrozen off then s.setVf v (f.writeOther off value)
    else if f.state = 0 then s.setVf v (f.writeConfig off value)
    else if f.state = 3 then s.retryAborts.logFrozen v off value
    else
      let t := (s.abortCommands v).logFrozen v off value
      t.setVf v { t.vf v with state := 3, cause := if (frozenBar off).isSome then 1 else 2 })

/-! ### The interface mailbox (R406) -/

/-- Presents the next held interface request. -/
def State.presentIf (s : State) : State :=
  s.modMgmt (fun m => { m with ifm := m.ifm.present m.handoff.isSome })

/-- Sends n bytes of IFOUT and frees the request. -/
def State.sendIf (s : State) (n : Nat) : State :=
  ((s.say (.interface (s.mgmt.ifm.reply n))).modMgmt (fun m => { m with ifm := { m.ifm with pending := none } })).presentIf

/-- IFRLEN_READ: waits for a request; a hart that does not reach it reads zero. -/
def execIfrlenRead (rd : BitVec 5) (s : State) : Host.Outcome State Fault Refusal :=
  .next (if s.actsAs 1 then
      match s.mgmt.ifm.pending with
      | none => s
      | some r => s.modMyHart (fun h => h.setX rd.toNat (reg r.length))
    else s.modMyHart (fun h => h.setX rd.toNat 0))

/-- IFSLEN_SEND. -/
def execIfslenSend (n : BitVec 13) (s : State) : Host.Outcome State Fault Refusal :=
  .next (if s.actsAs 1 then s.sendIf n.toNat else s)

/-! ### Messages (R409, R410) -/

/-- The hart that answers interface requests. -/
def State.ifHart (s : State) : HartId := ⟨s.mgmt.zenith, 1⟩

/-- Code and function of a request. -/
def ifCode (r : List Byte) : Nat := numAt 0 1 r
def ifVf (r : List Byte) : Nat := numAt 1 1 r

/-- The nonce slot of a function in Zenith memory. -/
def State.nonceLoc (s : State) (v : Nat) : Nat := s.zenithLoc (0xE000 + 32 * v)

/-- Puts bytes into IFOUT from its start and sends n of them. -/
def State.answerIf (s : State) (bs : List Byte) : State :=
  (s.modMgmt (fun m => { m with ifm := { m.ifm with out := areaPut m.ifm.out 0x1000 0 bs } })).sendIf bs.length

/-- The header of a reply. -/
def ifHeader (code v n : Nat) : List Byte := leBytes code 1 ++ leBytes v 1 ++ [0, 0] ++ leBytes n 4

/-- An error reply. -/
def State.ifError (s : State) (v e : Nat) : State :=
  s.answerIf (leBytes 0x7F 1 ++ leBytes v 1 ++ leBytes e 1 ++ [0] ++ leBytes 8 4)

/-- The pending request of an event, which hart 1 handles when its code is the event's. VFSEL becomes its function. -/
def State.onIf (s : State) (mine : Nat → Bool) (f : State → List Byte → Nat → State) : State :=
  match s.mgmt.ifm.pending with
  | none => s
  | some r =>
    if !s.serving || !mine (ifCode r) then s
    else f (s.modMgmt (fun m => { m with vfsel := BitVec.ofNat 8 (ifVf r) })) r (ifVf r)

/-- LOCK_INTERFACE: LOCK, and a fresh start nonce in the function's slot. -/
def execLockInterface (s : State) : Host.Outcome State Fault Refusal :=
  .next (s.onIf (fun c => c = 0x81) (fun s _ v =>
    let t := s.vfLock v
    if (t.vf v).refused then t.ifError v 2
    else
      let n := t.random 32
      ((t.poke (t.nonceLoc v) n).drew 32).answerIf (ifHeader 0x01 v 40 ++ n)))

/-- START_INTERFACE: the nonce first, then the state. -/
def execStartInterface (s : State) : Host.Outcome State Fault Refusal :=
  .next (s.onIf (fun c => c = 0x83) (fun s r v =>
    if s.raw (s.nonceLoc v) 32 ≠ sliceB 8 32 r then s.ifError v 3
    else
      let t := s.vfStart v
      if (t.vf v).refused then t.ifError v 2 else t.answerIf (ifHeader 0x03 v 8)))

/-- STOP_INTERFACE: STOP; its reply tells nothing of a refusal. -/
def execStopInterface (s : State) : Host.Outcome State Fault Refusal :=
  .next (if !s.canAbort (match s.mgmt.ifm.pending with | some r => ifVf r | none => 0) then s
    else s.onIf (fun c => c = 0x84) (fun s _ v => (s.vfStop v).answerIf (ifHeader 0x04 v 8)))

/-- GET_INTERFACE_STATE. -/
def execGetInterfaceState (s : State) : Host.Outcome State Fault Refusal :=
  .next (s.onIf (fun c => c = 0x85) (fun s _ v =>
    s.answerIf (ifHeader 0x05 v 16 ++ leBytes (s.vf v).status.toNat 8)))

/-- The report without its signature: header, VFCFG, MEAS0 of the Zenith, the requester's nonce (R410). -/
def State.reportBody (s : State) (r : List Byte) (v : Nat) : List Byte :=
  ifHeader 0x02 v 1512 ++ sliceB 0 128 (s.vf v).captured ++ sliceB 0 64 (s.meas s.mgmt.zenith 0) ++ sliceB 8 32 r

/-- Hart 1's private registers after a report: the snapshot, the hash and the signature engine as it used them (R19). -/
def State.reportHart (s : State) (body : List Byte) : Hart :=
  { s.hartOf s.ifHart with
    mrec := s.mrecOf s.mgmt.zenith, ctx0 := body, hashSrc := reg (rotBase + 0x4000), hashLen := 232,
    hashOut := shake256 body 64, falMsg := reg (rotBase + 0x40), falSig := reg (rotBase + 0x4000 + 232) }

/-- GET_INTERFACE_REPORT: served in CONFIG_LOCKED and RUN to a request of 40 bytes at least. -/
def execGetInterfaceReport (s : State) : Host.Outcome State Fault Refusal :=
  .next (s.onIf (fun c => c = 0x82) (fun s r v =>
    let st := (s.vf v).state
    if r.length < 40 then s.ifError v 4
    else if !(s.vf v).configured || !(st = 1 || st = 2) then s.ifError v 2
    else
      let body := s.reportBody r v
      let t := s.setHart s.ifHart (s.reportHart body)
      (t.answerIf (body ++ s.signature (shake256 body 64))).drew 1))

/-- UNKNOWN_INTERFACE_REQUEST: error 1. -/
def execUnknownInterfaceRequest (s : State) : Host.Outcome State Fault Refusal :=
  .next (s.onIf (fun c => !(0x81 ≤ c && c ≤ 0x85)) (fun s _ v => s.ifError v 1))

end Sys2Proof.Machine
end

