-- ==== Sys2Proof/Machine/Launch.lean ====
section
/-! DEFINITION. Launches: the parameter block, its checks, the traversal, groups, rings and home, the records; chains
and their completion (R158 to R162, R441 to R443). -/

namespace Sys2Proof.Machine

/-! ### The launch parameter block (R158) -/

/-- A launch parameter block as its 192 bytes and tags give it. -/
structure LaunchBlock where
  img : Cap
  recs : Cap
  memb : Cap
  X : Nat
  Y : Nat
  Z : Nat
  order : Nat
  swz : Nat
  flags : Nat
  fstride : Nat
  rings : List Nat
  template : List Byte
  frame : Cap
  deriving DecidableEq, Repr

/-- The number of units. -/
def LaunchBlock.N (b : LaunchBlock) : Nat := b.X * b.Y * b.Z

def LaunchBlock.home (b : LaunchBlock) : Bool := bitAt b.flags 1
def LaunchBlock.index (b : LaunchBlock) : Bool := bitAt b.flags 0

/-- The party that a block's capabilities belong to: the launching world, the template's context. -/
def LaunchBlock.party (b : LaunchBlock) (y : Party) : Party := { y with context := ctlContext (recCtl b.template) }

/-- A block from its bytes and the tags of its granules; stale capabilities lose their tag (R125). -/
def State.blockOf (s : State) (y : Party) (bs : List Byte) (tags : List Bool) : LaunchBlock :=
  let tpl := sliceB 128 64 bs
  let z : Party := { y with context := ctlContext (recCtl tpl) }
  let cap := fun (o : Nat) => s.freshCap z (capOfBytes (sliceB o 16 bs) (tags.getD (o / 16) false))
  { img := cap 0, recs := cap 16, memb := cap 32, X := numAt 48 4 bs, Y := numAt 52 4 bs, Z := numAt 56 4 bs,
    order := numAt 60 1 bs, swz := numAt 61 1 bs, flags := numAt 62 1 bs, fstride := numAt 63 1 bs,
    rings := (upFrom 0 8).map (fun j => numAt (64 + 8 * j) 8 bs), template := tpl, frame := cap 128 }

/-- The engine number under which launch reads go out to other modules. -/
def launchEngine : Nat := 7

/-- A capability that carries permissions and covers n bytes from its cursor. -/
def launchCap (c : Cap) (perm n : Nat) : Bool :=
  c.tag && c.otype = 0 && c.grants perm && c.base ≤ c.cursor.toNat && c.cursor.toNat + n ≤ c.top

/-- The checks of the capabilities that look at no memory (R162). -/
def LaunchBlock.badCaps (b : LaunchBlock) : Bool :=
  !(b.img.tag && b.img.otype = 0 && b.img.grants permExec)
    || !launchCap b.recs (permStore + permLoadCap + permStoreCap) (64 * b.N) || decide (b.recs.cursor.toNat % 64 ≠ 0)
    || (b.memb.tag && !launchCap b.memb permLoad (4 * b.N))
    || (b.fstride != 0 && !(b.frame.tag && b.frame.otype = 0))

/-- An address in each page that the checks and the frames of a launch translate (R158, R162). -/
def LaunchBlock.walked (b : LaunchBlock) : List Nat :=
  pagesOf b.img.base b.img.top ++ pagesOf b.recs.cursor.toNat (b.recs.cursor.toNat + 64 * b.N)
    ++ (if b.memb.tag then pagesOf b.memb.cursor.toNat (b.memb.cursor.toNat + 4 * b.N) else [])
    ++ (if b.fstride = 0 then [b.frame.base] else (upFrom 0 b.N).map (fun i => b.frame.base + i * 2 ^ b.fstride))

/-- The wait of a launch for the table entries on other modules that its checks read (R416, R422). -/
def State.launchWalks (s : State) (y : Party) (b : LaunchBlock) : Chk Unit :=
  if b.badCaps || decide (2 ^ 24 < b.N) then .ok () else checkAll (s.awaitGen (b.party y)) b.walked

/-- Reads the block at A, and waits for what its checks read on other modules; none where R441 answers BADCAP: not aligned,
not translated, not readable. -/
def State.readBlock (s : State) (y : Party) (A : Word64) : Chk (Option LaunchBlock) :=
  if A.toNat % 64 ≠ 0 then .ok none
  else match s.guestPieces y A.toNat 192 false with
    | none => .ok none
    | some ps =>
      match s.readPieces deviceCore launchEngine ps with
      | .error (.trap _ _ _) => .ok none
      | .error e => .error e
      | .ok bs =>
        let b := s.blockOf y bs (ps.map (s.tagOf deviceCore launchEngine))
        match s.launchWalks y b with
        | .error e => .error e
        | .ok _ => .ok (some b)

/-! ### The traversal (R159) -/

/-- The strips of width w of an extent. -/
def strips (n w : Nat) : List Nat := (upFrom 0 (ceilDiv n w)).map (· * w)

/-- Row-major: strips in ascending x, y outer and x inner within a strip. -/
def rowMajor (X Y swz : Nat) : List (Nat × Nat) :=
  ((strips X (2 ^ swz)).map (fun x0 =>
    ((upFrom 0 Y).map (fun y => (upFrom x0 (min (2 ^ swz) (X - x0))).map (fun x => (x, y)))).flatten)).flatten

/-- The smallest m with 2^m ≥ n, searched up to k. -/
def coverBits (n : Nat) : Nat → Nat → Nat
  | m, 0 => m
  | m, k + 1 => if n ≤ 2 ^ m then m else coverBits n (m + 1) k

/-- The even bits of d, m of them. -/
def evenBits (d : Nat) : Nat → Nat
  | 0 => 0
  | m + 1 => d % 2 + 2 * evenBits (d / 4) m

/-- HilbertXY from step s on, k steps. -/
def hilbertFrom (t sd x y : Nat) : Nat → Nat × Nat
  | 0 => (x, y)
  | k + 1 =>
    let rx := t / 2 % 2
    let ry := (t + rx) % 2
    let p := if ry = 0 then
        (if rx = 1 then (sd - 1 - y, sd - 1 - x) else (y, x))
      else (x, y)
    hilbertFrom (t / 4) (2 * sd) (p.1 + sd * rx) (p.2 + sd * ry) k

/-- HilbertXY(2^m, d). -/
def hilbertXY (m d : Nat) : Nat × Nat := hilbertFrom d 1 0 0 m

/-- The points of one plane in their order. -/
def planeOrder (X Y order swz : Nat) : List (Nat × Nat) :=
  let m := coverBits (max X Y) 0 32
  let inside := fun (p : Nat × Nat) => decide (p.1 < X) && decide (p.2 < Y)
  match order with
  | 0 => rowMajor X Y swz
  | 1 => (rowMajor Y X swz).map (fun p => (p.2, p.1))
  | 2 => ((upFrom 0 (4 ^ m)).map (fun d => (evenBits d m, evenBits (d / 2) m))).filter inside
  | _ => ((upFrom 0 (4 ^ m)).map (hilbertXY m)).filter inside

/-- The units in traversal order, z outermost. -/
def LaunchBlock.units (b : LaunchBlock) : List (Nat × Nat × Nat) :=
  ((upFrom 0 b.Z).map (fun z => (planeOrder b.X b.Y b.order b.swz).map (fun p => (p.1, p.2, z)))).flatten

/-- The linear index of a unit. -/
def LaunchBlock.linear (b : LaunchBlock) (u : Nat × Nat × Nat) : Nat := u.1 + b.X * (u.2.1 + b.Y * u.2.2)

/-! ### The checks (R162) -/

/-- The place of one address of a party that is neither a window's nor a failed translation's. -/
def State.plainPlace (s : State) (y : Party) (va : Nat) (write : Bool) : Option Place :=
  match windowOf va with
  | .translated => match s.translate y va write false with | .ok pl => some pl | .error _ => none
  | _ => none

/-- The image whose memory a capability bounds exactly (R158). -/
def State.imageFor (s : State) (y : Party) (c : Cap) : Option Nat :=
  (List.find? (fun (q : Nat × Image) => c.top - c.base = 4 * q.2.words
    && (cuts c.base (4 * q.2.words)).all (fun x => match s.plainPlace y x.1 false with
      | some (.here l _) => decide (l = hbmLoc y.part (q.2.base + (x.1 - c.base)))
      | _ => false)) (s.part y.part).images).map Prod.fst

/-- Where the record of unit i goes: partition-physical address and key (R155, R158). -/
def State.recordPlace (s : State) (y : Party) (b : LaunchBlock) (i : Nat) : Option (Nat × Nat) :=
  match s.plainPlace y (b.recs.cursor.toNat + 64 * i) true with
  | some (.here l k) => (recordAt y.part (.here l k)).map (fun a => (a, k))
  | _ => none

/-- The pieces of the membership of unit i; none where it does not translate (R158). -/
def State.memberPieces (s : State) (y : Party) (b : LaunchBlock) (i : Nat) : Option (List Piece) :=
  (cuts (b.memb.cursor.toNat + 4 * i) 4).mapM (fun c =>
    (s.plainPlace y c.1 false).map (fun pl => (⟨c.1, c.2, pl, y, none⟩ : Piece)))

/-- The wait for memberships that lie on other modules (R422). -/
def State.awaitMembers (s : State) (y : Party) (b : LaunchBlock) : Chk Unit :=
  if b.badCaps || decide (2 ^ 24 < b.N) || !b.memb.tag then .ok ()
  else checkAll (fun i => match s.memberPieces (b.party y) b i with
    | none => .ok ()
    | some ps => match s.readPieces deviceCore launchEngine ps with
      | .ok _ => .ok ()
      | .error (.trap _ _ _) => .ok ()
      | .error e => .error e) (upFrom 0 b.N)

/-- The groups of every unit in index order: from MEMBCAP where it is tagged, else the template's; none when the
membership cannot be read. -/
def State.membership (s : State) (y : Party) (b : LaunchBlock) : Option (List (List Nat)) :=
  if b.memb.tag then
    (upFrom 0 b.N).mapM (fun i => match s.memberPieces y b i with
      | some ps => match s.readPieces deviceCore launchEngine ps with
        | .ok bs => some (bs.map BitVec.toNat)
        | .error _ => none
      | none => none)
  else some (List.replicate b.N (recGroups b.template))

/-- The frame of unit i (R126, R158). -/
def State.unitFrame (s : State) (y : Party) (b : LaunchBlock) (i : Nat) : Option Cap :=
  if b.fstride = 0 then some b.frame
  else
    match deriveCap { b.frame with cursor := BitVec.ofNat 64 (b.frame.base + i * 2 ^ b.fstride) } (2 ^ b.fstride) with
    | .ok c => some { c with gen := s.genAt y c.base }
    | .error _ => none

/-- The checks of the capabilities. -/
def State.badCap (s : State) (y : Party) (b : LaunchBlock) : Bool := b.badCaps || (s.imageFor y b.img).isNone

/-- The checks of the shape. -/
def State.badShape (s : State) (y : Party) (b : LaunchBlock) : Bool :=
  b.X = 0 || b.Y = 0 || b.Z = 0 || decide (2 ^ 24 < b.N) || decide (3 < b.order) || decide (4 < b.swz)
    || (2 ≤ b.order && b.swz != 0) || decide (4 ≤ b.flags) || !(b.fstride = 0 || (6 ≤ b.fstride && b.fstride ≤ 30))
    || (b.fstride != 0 && (decide (b.frame.top < b.frame.base + b.N * 2 ^ b.fstride)
      || (upFrom 0 b.N).any (fun i => (s.unitFrame y b i).isNone)))

/-- A unit names one group in two slots. -/
def namesTwice (gs : List Nat) : Bool :=
  let l := gs.filter (· != 0xFF)
  decide (¬ l.Nodup)

/-- Length and FULL of a ring entry (R161). -/
def ringLen (e : Nat) : Nat := bitsAt e 0 5
def ringFull (e : Nat) : Nat := bitsAt e 16 16

/-- The ring checks of BADRING. -/
def LaunchBlock.badRing (b : LaunchBlock) : Bool :=
  b.rings.any (fun e => 16 < ringLen e || ringFull e / 2 ^ ringLen e != 0 || bitsAt e 5 11 != 0 || bitsAt e 32 32 != 0
    || (ringLen e != 0 && !b.home))

/-- The configured rings: number, length, FULL. -/
def LaunchBlock.ringsSet (b : LaunchBlock) : List (Nat × Nat) :=
  ((upFrom 0 8).zip b.rings).filter (fun (q : Nat × Nat) => ringLen q.2 != 0)

/-- Does a cluster serve the launch's frame in some entry of its rotation (R162, R372)? -/
def Cluster.serves (c : Cluster) (own : Nat) : Bool :=
  (upFrom 0 (max 1 (rotationLength c.frames))).any (fun i => (upFrom 0 8).any (fun n => c.ownerIn i n = own))

/-- The clusters that serve the launch's frame. -/
def State.servingClusters (s : State) (y : Party) (b : LaunchBlock) : List Nat :=
  (s.part y.part).clust.filter (fun k => (s.cluster k).serves (if ctlSealed (recCtl b.template) then y.world else 0xFE))

/-- Those of them that are ready (R34; log 105). -/
def State.readyHomes (s : State) (y : Party) (b : LaunchBlock) : List Nat :=
  (s.servingClusters y b).filter (fun k => Marks.has k s.mgmt.ready)

/-- Those of them in which every configured ring is free. -/
def State.freeHomes (s : State) (y : Party) (b : LaunchBlock) : List Nat :=
  (s.readyHomes y b).filter (fun k => b.ringsSet.all (fun q => ((s.cluster k).ring q.1).len = 0))

/-- Idle cores of a cluster. -/
def State.idleCores (s : State) (k : Nat) : Nat := ((coresOf k).filter (fun n => (s.core n).run.isNone)).length

/-- The home: most idle cores, the lowest cluster among equals (R162). -/
def State.chooseHome (s : State) (ks : List Nat) : Option Nat :=
  match ks with
  | [] => none
  | k :: l => some (l.foldl (fun x y =>
      if s.idleCores x < s.idleCores y ∨ (s.idleCores x = s.idleCores y ∧ y < x) then y else x) k)

/-- An accepted launch before its records are made. -/
structure LaunchPlan where
  block : LaunchBlock
  party : Party
  image : Nat
  number : Nat
  places : List (Nat × Nat)
  groups : List (List Nat)
  deriving DecidableEq, Repr

/-- The next number of a launch in a partition. -/
def Partition.nextLaunch (x : Partition) : Nat := (x.launches.map Prod.fst).foldl max 0 + 1

/-- The status of R162: the first failure (NOTREADY where no cluster that could be the home is ready: R34; log 105), or the places and groups. -/
def State.checkLaunch (s : State) (y : Party) (b : LaunchBlock) : Except Nat (Nat × List (Nat × Nat) × List (List Nat)) :=
  let z := b.party y
  if s.badCap z b then .error 1
  else match s.imageFor z b.img, (upFrom 0 b.N).mapM (s.recordPlace z b), s.membership z b with
    | some im, some ps, some gs =>
      let named := (gs.flatten.filter (· != 0xFF)).dedup
      if s.badShape z b then .error 2
      else if gs.any namesTwice then .error 3
      else if named.any (fun g => ((s.part y.part).group g).members != []) then .error 4
      else if b.badRing then .error 5
      else if b.home && s.servingClusters y b != [] && s.readyHomes y b = [] then .error 8
      else if b.home && s.servingClusters y b != [] && s.freeHomes y b = [] then .error 6
      else if b.home && s.servingClusters y b = [] then .error 7
      else .ok (im, ps, gs)
    | _, _, _ => .error 1

/-! ### Acceptance (R160 to R162) -/

/-- Fills the groups that the units name (R160). -/
def Partition.fillGroups (x : Partition) (named : List Nat) (units : List (Nat × List Nat)) : Partition :=
  named.foldl (fun x g =>
    x.setGroup g { Group.init with members := (units.filter (fun u => u.2.contains g)).map Prod.fst }) x

/-- Configures the rings of the home (R161). -/
def Cluster.setRings (c : Cluster) (n : Nat) (rs : List (Nat × Nat)) : Cluster :=
  rs.foldl (fun c q => c.setRing q.1
    { Ring.init with len := ringLen q.2, full := BitVec.ofNat 16 (ringFull q.2), launch := n }) c

/-- Takes groups, rings and a number for a launch of a chain. -/
def State.reserve (s : State) (y : Party) (b : LaunchBlock) (chain im : Nat) (ps : List (Nat × Nat))
    (gs : List (List Nat)) : State × LaunchPlan :=
  let x := s.part y.part
  let n := x.nextLaunch
  let home := if b.home then s.chooseHome (s.freeHomes y b) else none
  let addrs := ps.map Prod.fst
  let named := (gs.flatten.filter (· != 0xFF)).dedup
  let l : Launch := { records := Marks.addAll addrs [], home := home, groups := named, rings := b.ringsSet.map Prod.fst,
                      chain := chain, ended := .retired }
  let x := { x with launches := Sparse.set n l x.launches }
  let s := s.setPart y.part (x.fillGroups named (addrs.zip gs))
  let s := match home with
    | some k => s.setCluster k ((s.cluster k).setRings n b.ringsSet)
    | none => s
  (s, ⟨b, b.party y, im, n, ps, gs⟩)

/-- Checks the launches of a chain in order, each with the groups and rings of those before it taken; the first failure
gives its status and index (R442). -/
def State.reserveAll (s : State) (y : Party) (chain : Nat) : Nat → List (Option LaunchBlock) →
    Except (Nat × Nat) (State × List LaunchPlan)
  | _, [] => .ok (s, [])
  | i, none :: _ => .error (1, i)
  | i, some b :: bs =>
    match s.checkLaunch y b with
    | .error st => .error (st, i)
    | .ok r =>
      let q := s.reserve y b chain r.1 r.2.1 r.2.2
      match State.reserveAll q.1 y chain (i + 1) bs with
      | .error e => .error e
      | .ok t => .ok (t.1, q.2 :: t.2)

/-- The 64 bytes of the record of a unit (R158). -/
def State.unitRecord (s : State) (p : LaunchPlan) (u : Nat × Nat × Nat) : List Byte × Bool :=
  let b := p.block
  let i := b.linear u
  let f := (s.unitFrame p.party b i).getD Cap.null
  let c := recCtl b.template
  let ctl := putBits (putBits (putBits (putBits (putBits c 0 3 1) 5 6 p.party.world) 11 1 0) 12 1 0) 24 8 0
  let args := if b.index then sliceB 32 16 b.template ++ leBytes u.2.2 8 ++ leBytes (u.2.1 * 2 ^ 32 + u.1) 8
    else sliceB 32 32 b.template
  (capBytes f ++ leBytes p.image 4 ++ sliceB 20 4 b.template ++ (p.groups.getD i []).map (BitVec.ofNat 8)
    ++ leBytes ctl 4 ++ args, f.tag)

/-- Writes the record of a unit and puts it into the pool. -/
def State.createUnit (p : LaunchPlan) (s : State) (u : Nat × Nat × Nat) : State :=
  let r := s.unitRecord p u
  let place := p.places.getD (p.block.linear u) (0, 0)
  let l := hbmLoc p.party.part place.1
  let s := s.storeAt none false l place.2 r.1
  let s := { s with mem := s.mem.setTag l r.2 }
  let s := s.setRecWorld p.party.part place.1 p.party.world
  let s := s.modPart p.party.part (fun x => { x with owner := Sparse.set place.1 p.number x.owner
                                                     owed := Sparse.erase place.1 x.owed })
  s.enterPool p.party.part place.1

/-- Creates the records of a launch in traversal order. -/
def State.createLaunch (s : State) (p : LaunchPlan) : State := p.block.units.foldl (State.createUnit p) s

/-! ### Chains (R442) -/

/-- The commands of the chain at HEAD; none when it is ill-formed: not one to four LAUNCHes, a SIG before the last, or a
wrap past TAIL. -/
def State.chainAt (s : State) (v q : Nat) : Nat → BitVec 32 → Option (List (List Byte))
  | 0, _ => none
  | k + 1, n =>
    let c := s.command v q n
    if n = ((s.vf v).queue q).tail ∨ cmdMalformed c ∨ cmdOp c ≠ 1 then none
    else if cmdLink c then
      (if cmdSig c then none
      else match State.chainAt s v q k (n + 1) with | some l => some (c :: l) | none => none)
    else some [c]

/-- HEAD moves past a chain. -/
def State.passChain (s : State) (v q n : Nat) : State :=
  s.modQueue v q (fun f => { f with head := f.head + BitVec.ofNat 32 n,
                                    state := if f.stopping && f.state = 1 then 2 else f.state, stopping := false })

/-- The chain as the device keeps it. -/
def chainOf (v q : Nat) (c : List Byte) (ps : List LaunchPlan) : Chain :=
  { vf := v, queue := q, launches := ps.map (fun p => (p.party.part, p.number)), tag := cmdTag c, sig := cmdSig c,
    iova := cmdIova c, value := cmdValue c }

/-- The blocks of a chain, once what its checks read on other modules is there. -/
def State.readChain (s : State) (y : Party) (cs : List (List Byte)) : Chk (List (Option LaunchBlock)) :=
  match mapChk (fun c => s.readBlock y (cmdA c)) cs with
  | .error e => .error e
  | .ok bs => match checkAll (s.awaitMembers y) (bs.filterMap id) with
    | .error e => .error e
    | .ok _ => .ok bs

/-- A well-formed chain: refused whole with a status and an index, or accepted, all its records entering the pool in
one step (R162, R442). -/
def State.launchChain (s : State) (v q : Nat) (y : Party) (cs : List (List Byte)) : State :=
  match s.readChain y cs with
  | .error (.forward fs) => s.post fs
  | .error (.xlate f) => s.walkAway deviceCore launchEngine f
  | .error _ => s
  | .ok bs =>
    let last := cs.getLastD []
    let n := s.outer.nextChain
    match s.reserveAll y n 0 bs with
    | .error e => ((s.complete v q last (cmdValue last) e.1 e.2).passChain v q cs.length).dropAnswers deviceCore launchEngine
    | .ok r =>
      let t := r.2.foldl State.createLaunch r.1
      let t := { t with outer := { t.outer with chains := Sparse.set n (chainOf v q last r.2) t.outer.chains
                                                nextChain := n + 1 } }
      (t.passChain v q cs.length).dropAnswers deviceCore launchEngine

/-- LAUNCH: the chain at HEAD of the acting queue; BADCHAIN stops the queue with HEAD where it is and no completion
(R441, R442). -/
def execLaunch (s : State) : Host.Outcome State Fault Refusal :=
  .next (s.take 1 (fun v q y _ =>
    match s.chainAt v q 4 ((s.vf v).queue q).head with
    | none => s.modQueue v q (fun f => { f with state := 3, err := 9, stopping := false })
    | some cs => s.launchChain v q y cs))

/-! ### Completion (R442, R443) -/

/-- The status of a chain by the worst end of its units. -/
def UnitEnd.status : UnitEnd → Nat
  | .retired => 0
  | .faulted => 11
  | .aborted => 10
  | .wiped => 14

/-- The launches of a chain. -/
def State.launchesOf (s : State) (c : Chain) : List Launch :=
  c.launches.filterMap (fun l => Sparse.find? l.2 (s.part l.1).launches)

/-- Is every write of a partition's cores performed: no store to another module is outstanding (R310, R443)? -/
def State.storesDone (s : State) (p : Nat) : Bool :=
  s.outer.forwards.all (fun f => match f.kind with
    | .store _ _ => !(f.core < deviceCore && s.ownerOf (clusterOf f.core) = some p)
    | _ => true)

/-- Have the Cumulus tasks of a launch's units all completed, so that their results are written (R267, R307, R443)? -/
def State.tasksDone (s : State) (p n : Nat) : Bool :=
  (s.part p).clust.all (fun k =>
    let u := (s.cluster k).cumulus
    let mine := fun (t : CumTask) => t.part = p && t.launch = n
    u.submits.all (fun x => !(x.part = p && x.launch = n))
      && u.lists.all (fun l => l.members.all (fun t => !mine t))
      && u.passes.all (fun q => q.members.all (fun m => m.finished || !mine m.task)))

/-- LAUNCH_COMPLETION: once every unit of every launch of a chain has ended and every write is performed, those of its
Cumulus tasks included, the chain's completion is written (R442, R443). -/
def execLaunchCompletion (chain : Nat) (s : State) : Host.Outcome State Fault Refusal :=
  .next (match Sparse.find? chain s.outer.chains with
    | none => s
    | some c =>
      let ls := s.launchesOf c
      if ls.all (fun l => l.records.isEmpty) && c.launches.all (fun l => s.storesDone l.1 && s.tasksDone l.1 l.2) then
        let st := (ls.foldl (fun (e : UnitEnd) (l : Launch) => e.worse l.ended) .retired).status
        let t := { s with outer := { s.outer with chains := Sparse.erase chain s.outer.chains } }
        if c.sig then t.dmaWrite c.vf c.iova.toNat (completion c.value c.tag st 0) else t
      else s)

end Sys2Proof.Machine
end

