-- ==== Sys2Proof/Machine/Mirage.lean ====
section
/-! DEFINITION. Mirage: the surrogate network, comparisons, transitions at the end of an execution, training, image
removal (R394 to R402). -/

namespace Sys2Proof.Machine

/-! ### The network (R384, R396, R397) -/

/-- A unit: its weights in input order, and its bias. -/
structure NetUnit where
  weights : List FVal
  bias : FVal
  deriving DecidableEq, Repr

/-- RoundRNE to BF16 and to FP32, as values. -/
def bfVal (v : FVal) : FVal := FloatKind.bf16.rneVal v
def f32Val (v : FVal) : FVal := FloatKind.fp32.rneVal v

/-- The units of a layer with n inputs from its parameters, unit after unit. -/
def unitsOfLayer (n : Nat) (ws : List FVal) : Nat → List NetUnit
  | 0 => []
  | k + 1 => ⟨ws.take n, ws.getD n .zero⟩ :: unitsOfLayer n (ws.drop (n + 1)) k

/-- The layers of a network of given sizes from its parameters, layer after layer. -/
def layersOf : List Nat → List FVal → List (List NetUnit)
  | a :: b :: sizes, ws => unitsOfLayer a ws b :: layersOf (b :: sizes) (ws.drop ((a + 1) * b))
  | _, _ => []

/-- The working weights of a region: the masters rounded to BF16 (R396). -/
def FitEntry.network (f : FitEntry) (sizes : List Nat) : List (List NetUnit) :=
  layersOf sizes ((upFrom 1 (paramsOf sizes)).map (fun i => bfVal (FloatKind.fp32.dec (Sparse.get f.words 0 i).toNat)))

/-- z of a unit (R397). -/
def NetUnit.z (u : NetUnit) (a : List FVal) : FVal := f32Val (FVal.total (u.bias :: List.zipWith FVal.mul u.weights a))

/-- max(z, +0). -/
def relu (v : FVal) : FVal := if v.isNan ∨ v.cmp .zero = some 1 then v else .zero

/-- The forward pass: for each layer its inputs and its z (R397). -/
def forwardPass : List (List NetUnit) → List FVal → List (List FVal × List FVal)
  | [], _ => []
  | l :: ls, a =>
    let z := l.map (fun u => u.z a)
    (a, z) :: forwardPass ls (z.map (fun v => bfVal (relu v)))

/-- y of the forward pass. -/
def netOutputs (net : List (List NetUnit)) (a : List FVal) : List FVal :=
  match (forwardPass net a).getLast? with
  | some r => r.2
  | none => []

/-- Lane i of registers, as values. -/
def laneVals (f : Fmt) (vs : List Vec) (i : Nat) : List FVal :=
  vs.map (fun v => f.dec (bitsAt v.toNat (f.bits * i) f.bits))

/-- The surrogate's output registers (R394): each lane converted to the format. -/
def surrogate (net : List (List NetUnit)) (f : Fmt) (ins : List Vec) (nOut : Nat) : List Vec :=
  let ys := (upFrom 0 f.lanes).map (fun i => netOutputs net ((laneVals f ins i).map bfVal))
  (upFrom 0 nOut).map (fun u => packLanes f.bits (ys.map (fun y => f.enc true false (y.getD u .zero))))

/-! ### The comparison (R400) -/

/-- Is one value not above another? -/
def FVal.atMost (x y : FVal) : Bool := match x.cmp y with | some c => decide (c ≤ 0) | none => false

/-- Does the error of a lane stay within a threshold? Where t is finite and not zero: |s − t| ≤ T·|t|. -/
def laneAgrees (T s t : FVal) : Bool :=
  let mag := fun (v : FVal) => if v.sign then v.neg else v
  if T.isNan || s.isNan || t.isNan then false
  else if t.isInf then (if s = t then FVal.zero else .inf false).atMost T
  else if t.cmp .zero = some 0 then (if s.cmp .zero = some 0 then FVal.zero else .inf false).atMost T
  else (mag (FVal.total [s, t.neg])).atMost (T.mul (mag t))

/-- The comparison of surrogate and block results. -/
def agrees (T : FVal) (f : Fmt) (s t : List Vec) : Bool :=
  (List.zipWith (fun a b => (List.zipWith (fun x y => laneAgrees T (f.dec x) (f.dec y))
    (lanesOf f.bits a) (lanesOf f.bits b)).all id) s t).all id

/-! ### Training (R398, R401) -/

/-- The deltas of every layer of one lane, targets t, the mean taken over 2^g lanes. -/
def deltas (t : List FVal) (g : Nat) : List (List NetUnit × List FVal) → List (List FVal)
  | [] => []
  | [(_, y)] => [List.zipWith (fun a b => f32Val ((FVal.total [a, b.neg]).mul (.fin false 1 (1 - g)))) y t]
  | (_, z) :: (l, y) :: rest =>
    let ds := deltas t g ((l, y) :: rest)
    let above := ds.headD []
    let d := (upFrom 0 z.length).map (fun j =>
      if (z.getD j .zero).cmp .zero = some 1 then
        f32Val (FVal.total (List.zipWith (fun u e => FVal.mul (u.weights.getD j .zero) e) l above))
      else .zero)
    d :: ds

/-- What one lane brings to a step: inputs, z and deltas of each layer. -/
structure LanePass where
  a : List (List FVal)
  z : List (List FVal)
  d : List (List FVal)
  deriving DecidableEq, Repr

/-- One lane of a batch. -/
def lanePass (net : List (List NetUnit)) (g : Nat) (ins ts : List FVal) : LanePass :=
  let fw := forwardPass net (ins.map bfVal)
  ⟨fw.map Prod.fst, fw.map Prod.snd, deltas ts g (List.zip net (fw.map Prod.snd))⟩

/-- The gradients of a layer in the order of its parameters. -/
def layerGrads (lanes : List LanePass) (layer nIn nOut : Nat) : List FVal :=
  ((upFrom 0 nOut).map (fun u =>
    let d := fun (p : LanePass) => (p.d.getD layer []).getD u .zero
    (upFrom 0 nIn).map (fun j =>
        f32Val (FVal.total (lanes.map (fun p => FVal.mul (d p) ((p.a.getD layer []).getD j .zero)))))
      ++ [f32Val (FVal.total (lanes.map d))])).flatten

/-- The gradients of every layer. -/
def allGrads (lanes : List LanePass) : Nat → List Nat → List FVal
  | n, a :: b :: sizes => layerGrads lanes n a b ++ allGrads lanes (n + 1) (b :: sizes)
  | _, _ => []

/-- The number of bits of a lane count. -/
def lanesLog (f : Fmt) : Nat := Nat.log2 f.lanes

/-- One SGD step: the new words, none when it meets a non-finite value (R398, R401). -/
def FitEntry.sgd (f : FitEntry) (b : Binding) (x : Batch) : Option (Sparse (BitVec 32)) :=
  let fm := fmtOf b.format
  let net := f.network b.layers
  let lr := FloatKind.fp32.dec f.trainLr.toNat
  let ins := (upFrom 0 fm.lanes).map (laneVals fm x.ins)
  let ts := (upFrom 0 fm.lanes).map (laneVals fm x.outs)
  let lanes := List.zipWith (lanePass net (lanesLog fm)) ins ts
  let gs := allGrads lanes 0 b.layers
  let masters := (upFrom 1 b.params).map (fun i => FloatKind.fp32.dec (Sparse.get f.words 0 i).toNat)
  let news : List Nat := List.zipWith (fun m g => FloatKind.fp32.rne (FVal.total [m, (lr.mul g).neg])) masters gs
  let met := ins.flatten ++ ts.flatten ++ (lanes.map (fun p => p.z.flatten ++ p.d.flatten)).flatten ++ gs ++ [lr]
    ++ news.map FloatKind.fp32.dec
  if met.all FVal.isFinite then
    some (((upFrom 1 b.params).zip news).foldl (fun w (q : Nat × Nat) => Sparse.set q.1 (BitVec.ofNat 32 q.2) w) f.words)
  else none

/-- A region enters TRAIN; the learning rate is read (R395, R399). -/
def FitEntry.enterTrain (f : FitEntry) : FitEntry := { f with state := .train, trainLr := f.lr, trainNext := 0 }

/-- One step of a region in TRAIN; the last one ends in SHADOW (R395, R399, R401). -/
def FitEntry.trainStep (f : FitEntry) : FitEntry :=
  match f.binding, f.batches[f.trainNext]? with
  | some b, some x =>
    (match f.sgd b x with
    | none => { f with state := .fallback, cause := 5 }
    | some ws =>
      if f.trainNext + 1 < f.batches.length then { f with words := ws, trainNext := f.trainNext + 1 }
      else { f with words := ws, state := .shadow, shadok := 0 })
  | _, _ => { f with state := .shadow, shadok := 0 }

/-- A region goes to the training queue of cluster k, and to no other (R399). -/
def State.queueTraining (s : State) (k n : Nat) : State :=
  let p := s.ownerOf k
  let without := fun (q : Nat × Cluster) =>
    if s.ownerOf q.1 = p then (q.1, { q.2 with training := q.2.training.filter (fun m => m != n) }) else q
  let t := { s with clusters := s.clusters.map without }
  t.setCluster k { t.cluster k with training := (t.cluster k).training ++ [n] }

/-- TRAIN_STEP: the Mirage of the acting core's cluster takes a step of the region that entered TRAIN first; pre-emption
of the partition pauses it (R398, R399, R403). -/
def execTrainStep (s : State) : Host.Outcome State Fault Refusal :=
  let k := s.home
  .next (match s.ownerOf k, s.myCluster.training with
    | some p, n :: rest =>
      let drop := s.setMyCluster { s.myCluster with training := rest }
      if (s.part p).held then s
      else match Sparse.find? n (s.part p).fits with
        | none => drop
        | some f =>
          if f.state ≠ .train then drop
          else
            let g := f.trainStep
            (if g.state = .train then s else drop).putFit p n g
    | _, _ => s)

/-! ### The end of an execution (R394, R395) -/

/-- A batch is recorded; enough batches start the training (R395). -/
def FitEntry.record (f : FitEntry) (x : Batch) : FitEntry :=
  let need := min (max 1 (bitsAt f.sample.toNat 8 8)) 16
  let g := { f with batches := f.batches ++ [x], obscnt := f.obscnt + 1 }
  if need ≤ g.obscnt then g.enterTrain else g

/-- A comparison is applied (R395). -/
def FitEntry.compared (f : FitEntry) (passed : Bool) : FitEntry :=
  if !passed then { f with state := .fallback, cause := 1 }
  else if f.state = .shadow then
    let g := { f with shadok := f.shadok + 1 }
    if max 1 (bitsAt f.sample.toNat 16 8) ≤ g.shadok then { g with state := .serve, scount := 0 } else g
  else f

/-- What Mirage does with an execution that ran its block: only while the region is in the state it sampled, under the
binding it fits (R392, R395). -/
def FitEntry.apply (f : FitEntry) (x : RegionRun) (ins outs : List Vec) (fmt : Nat) : FitEntry :=
  match f.binding with
  | none => f
  | some b =>
    if f.state ≠ x.sampled ∨ b.mismatch x fmt ≠ 0 then f
    else
      match x.sampled with
      | .observe => f.record ⟨ins, outs⟩
      | .shadow | .serve =>
        if x.sampled = .serve ∧ !x.checks then f
        else
          let fm := fmtOf b.format
          let sur := surrogate (f.network b.layers) fm ins x.nOut
          f.compared (agrees (FloatKind.fp32.dec f.thresh.toNat) fm sur outs)
      | _ => f

/-- The vector queue without its head. -/
def Core.popVec (c : Core) : Core := { c with eng := { c.eng with vecQ := c.eng.vecQ.tail } }

/-- The outputs that a block left unwritten become full with their old values (R394). -/
def Core.fillOutputs (c : Core) (x : RegionRun) : Core :=
  (regRange x.firstOut x.nOut).foldl (fun d n => if Marks.has n x.written then d else d.markFull n) c

/-- Is it too late in a cycle for a core's execution: one of a higher core has completed in it (R395, R405)? It completes in
a later cycle then. -/
def FitEntry.passed (f : FitEntry) (now core : Nat) : Bool := f.last.1 = now && core < f.last.2

/-- Has an execution of a higher core completed in this cycle? -/
def State.fitPassed (s : State) (r : Running) (id : Nat) : Bool :=
  match s.fitOf r id with
  | some q => q.2.passed s.time s.actor.core
  | none => false

/-- REGION_EXECUTION_COMPLETE: the region block at the head of the acting core's vector queue has reached its VEND and
its words have completed. Mirage acts before the outputs are full; executions of one cycle come in ascending core number
(R385, R394, R395, R405). -/
def execRegionExecutionComplete (s : State) : Host.Outcome State Fault Refusal :=
  .next (match s.me.run, s.me.eng.vecQ with
    | some r, b :: _ =>
      (match b.region with
      | some x =>
        (match x.inputs with
        | some (ins, fmt) =>
          if !x.ended || x.skipped || !s.me.eng.vecFlight.isEmpty || s.fitPassed r x.id then s
          else
            let outs := (regRange x.firstOut x.nOut).map s.me.getV
            let t := match s.fitOf r x.id with
              | none => s
              | some (n, f) =>
                let g := { f.apply x ins outs fmt with last := (s.time, s.actor.core) }
                let t := s.putFit r.part n g
                if g.state = FitState.train ∧ f.state ≠ FitState.train then t.queueTraining s.home n else t
            t.setMe (t.me.fillOutputs x).popVec
        | none => s)
      | none => s)
    | _, _ => s)

/-- The network that answers an execution: the binding's, else the one its shape word gives for its registers. -/
def FitEntry.answerNet (f : FitEntry) (x : RegionRun) (fmt : Nat) : Option (List (List NetUnit)) :=
  match f.binding with
  | some b => if b.mismatch x fmt = 0 then some (f.network b.layers) else none
  | none => (f.bindTo x fmt).map (fun b => f.network b.layers)

/-- Registers of free values. -/
def freeAnswer (draw nOut : Nat) (f : Fmt) : List Vec :=
  (upFrom 0 nOut).map (fun u => packLanes f.bits ((upFrom 0 f.lanes).map (Config.unboundAnswer draw u)))

/-- SURROGATE_ANSWER: the surrogate alone answers the execution at the head of the acting core's vector queue (R394),
after every earlier word that writes one of its outputs (R202).
Where no network fits it any more the manual gives no value (log 28). -/
def execSurrogateAnswer (s : State) : Host.Outcome State Fault Refusal :=
  .next (match s.me.run, s.me.eng.vecQ with
    | some r, b :: _ =>
      (match b.region with
      | some x =>
        (match x.inputs with
        | some (ins, fmt) =>
          if !x.skipped || s.me.eng.vecFlight.any (fun g => g.writes (regRange x.firstOut x.nOut)) then s
          else
            let fm := fmtOf fmt
            let net := match s.fitOf r x.id with | some (_, f) => f.answerNet x fmt | none => none
            let outs := match net with
              | some l => surrogate l fm ins x.nOut
              | none => freeAnswer s.draws x.nOut fm
            let c := ((regRange x.firstOut x.nOut).zip outs).foldl (fun d q => (d.setV q.1 q.2).markFull q.1) s.me
            (s.setMe c.popVec).drew 1
        | none => s)
      | none => s)
    | _, _ => s)

/-! ### Image removal (R402) -/

/-- Has a core an execution of a region that has passed its APXBEGIN and not completed? -/
def Core.executes (c : Core) : Bool :=
  c.eng.vecQ.any (fun b => b.region.isSome) || (match c.sys.region with | .closed => false | _ => true)

/-- Executions of regions of an image's code hash under way in a partition, on cores or in save areas. -/
def State.executing (s : State) (p : Nat) (h : BitVec 128) : Bool :=
  s.cores.any (fun q => match q.2.run with
    | some r => r.part = p && s.hashOf r = h && q.2.executes
    | none => false)
  || (s.part p).areas.any (fun q => match q.2.saved with
    | some x => (match x.core.run with | some r => s.hashOf r = h | none => false) && x.core.executes
    | none => false)

/-- IMAGE_REMOVAL: the firmware removes an image of the acting partition; its regions become INVALID with cause 3, their
entries are freed, and no control store holds it any more (R330, R402). It waits for executions under way. -/
def execImageRemoval (handle : Nat) (s : State) : Host.Outcome State Fault Refusal :=
  let p := s.actor.part
  .next (match Sparse.find? handle (s.part p).images with
    | none => s
    | some im =>
      if s.executing p im.hash then s
      else
        let t := s.modPart p (fun x => { x with
          images := Sparse.erase handle x.images
          fits := x.fits.filter (fun q => q.2.hash != im.hash) })
        { t with clusters := t.clusters.map (fun q => (q.1, match q.2.store with
            | some cs => if cs.part = p ∧ cs.image = handle then { q.2 with store := none } else q.2
            | none => q.2)) })

end Sys2Proof.Machine
end

