-- ==== Sys2Proof/Machine/Ready.lean ====
section
/-! DEFINITION. Resets, stage 0, readiness, configuration records, monitors (R30 to R33, R36 to R38, R51, R52). -/

namespace Sys2Proof.Machine

/-! ### Resets (R30, R31) -/

/-- The SRAM of the module lies between HBM and the management memories, L1 and the banks, and in Corona, its shared memory
(log 1). -/
def sramLo : Nat := 2 ^ 52
def sramLen : Nat := 2 ^ 72 - 2 ^ 52
def coronaLen : Nat := 2 ^ 64

/-- Where the error ring lies in Corona shared memory: 1,024 entries of 32 bytes (R53). -/
def Mgmt.elogLoc (m : Mgmt) : Nat := coronaLoc m.elogBase.toNat
def elogBytes : Nat := 32768

/-- What a module reset keeps of the management state: the roles, the error log and its registers. -/
def Mgmt.afterReset (m : Mgmt) : Mgmt :=
  { Mgmt.init with zenith := m.zenith, elogBase := m.elogBase, elogHead := m.elogHead, elogTail := m.elogTail }

/-- What a module reset keeps of the outer side: the notify latch, the never-reassignable map; the retired frames, the
counter of tokens and the outputs are not the module's registers. -/
def Outer.afterReset (x : Outer) : Outer :=
  { Outer.init with latch := x.latch, never := x.never, retired := x.retired, nextToken := x.nextToken,
                    outputs := x.outputs }

/-- The module after a reset, with the memory, the management state and the outer side it keeps. Memory outside the
module's SRAM keeps its bytes (log 34). -/
def State.afterReset (s : State) (mem : Mem) (m : Mgmt) (x : Outer) : State :=
  { State.reset with mem := mem.wipe sramLo sramLen, mgmt := m, outer := x, sched := s.sched, actor := s.actor,
                     draws := s.draws }

/-- Memory at a module reset: Corona shared memory is cleared but for the error ring (R30). -/
def State.keepRing (s : State) : Mem :=
  let lo := coronaLoc 0
  let r := s.mgmt.elogLoc
  (s.mem.wipe lo (r - lo)).wipe (r + elogBytes) (lo + coronaLen - (r + elogBytes))

/-- MODULE_RESET (R30). -/
def execModuleReset (s : State) : Host.Outcome State Fault Refusal :=
  .next (s.afterReset s.keepRing s.mgmt.afterReset s.outer.afterReset)

/-- POWER_ON_RESET: roles, latch, error log and frame map are cleared too (R30, R31). -/
def execPowerOnReset (s : State) : Host.Outcome State Fault Refusal :=
  .next (s.afterReset (s.mem.wipe (coronaLoc 0) coronaLen) Mgmt.init
    { Outer.init with retired := s.outer.retired, nextToken := s.outer.nextToken, outputs := s.outer.outputs })

/-! ### Stage 0 (R31, R36) -/

/-- The base of the boot image in a complex's memory (R23). -/
def fwBase : Nat := 0x20000000

/-- The identity record that follows the firmware and its signature in the boot image of a complex (R36). -/
def State.identityRecord (s : State) (c : Fin 2) : List Byte :=
  let n := leNat (s.raw (mgmtLoc c fwBase) 8)
  s.raw (mgmtLoc c (fwBase + 8 + n + 1280)) 3968

/-- The device certificate of an identity record. -/
def certOf (r : List Byte) : List Byte := sliceB 76 3892 r

/-- The checks that stage 0 makes (R31, R36). -/
def identityOk (r : List Byte) : Bool :=
  let c := certOf r
  numAt 0 4 r = 0x49444E54 && numAt 4 4 r = 3960 && sliceB 12 64 r = sliceB 0 64 Config.romRootDigest
    && numAt 0 4 c = 0x44435254 && numAt 4 2 c = 1 && sliceB 8 1793 c = devicePublic
    && Config.falconVerify Config.romRootKey (shake256 (sliceB 0 2612 c) 64) (sliceB 2612 1280 c)

/-- The CAPABILITIES reply (R36; log 13). -/
def capabilitiesBytes : List Byte :=
  [0x13, 0x61, 0, 0, 0, 16, 0, 0] ++ leBytes 0x36 4 ++ leBytes 4096 4 ++ leBytes 4096 4

/-- The fixed fields of the ALGORITHMS reply: two structures, length 52, DMTF, raw bit stream only, BaseAsymSel and
BaseHashSel 0, one extended entry each (R36; their places are SPDM's, log 13). -/
def algorithmsFixed : List Byte :=
  [0x13, 0x63, 2, 0] ++ leBytes 52 2 ++ [0x01, 0] ++ leBytes 1 4 ++ leBytes 0 4 ++ leBytes 0 4
    ++ List.replicate 12 (0 : Byte) ++ [1, 1, 0, 0]

/-- The ALGORITHMS reply: the fixed fields, the two extended selections (R40), AEAD and key schedule that select none (R36;
log 13). -/
def algorithmsBytes : List Byte :=
  algorithmsFixed ++ [4, 0, 1, 0x0A, 4, 0, 2, 0x0A] ++ [3, 0x20, 0, 0, 5, 0x20, 0, 0]

/-- The CHALLENGE_AUTH template for a chain (R36). -/
def challengeBytes (chain : List Byte) : List Byte :=
  [0x13, 0x03, 0x00, 0x01] ++ shake256 chain 64 ++ List.replicate 42 (0 : Byte)

/-- Stage 0 fills the identity area of a complex. -/
def State.fillIdentity (s : State) (c : Fin 2) (chain : List Byte) : State :=
  (((s.poke (mgmtLoc c 0xC000) capabilitiesBytes).poke (mgmtLoc c 0xC040) algorithmsBytes).poke (mgmtLoc c 0xC100)
    (challengeBytes chain)).poke (mgmtLoc c 0xD000) chain

/-- STAGE_0 on hart 0 of the acting hart's complex: the secrets, the checks, the identity area; the Zenith goes on with
the first stage, its nonce slots zeroed (R31, R35, R36, R409). It runs once on each complex after a reset. -/
def execStage0 (s : State) : Host.Outcome State Fault Refusal :=
  let c := s.hid.cplx
  let r := s.identityRecord c
  .next (if Marks.has c.val s.mgmt.staged then s
    else
      let s := s.modMgmt (fun m => { m with secrets := m.secrets || m.staged.isEmpty, staged := Marks.add c.val m.staged })
      if identityOk r then
        let t := (s.fillIdentity c (sliceB 8 3960 r)).poke (mgmtLoc c 0xE000) (List.replicate 8192 (0 : Byte))
        if c = s.mgmt.zenith then t.startHart ⟨c, 0⟩ (reg firstStageAt) else t
      else (s.modMgmt (fun m => { m with mismatch := true })).say .identityMismatch)

/-! ### Readiness (R32, R33) -/

/-- Is a bit of the maps a function? -/
def isFunction (b : Nat) : Bool :=
  b < 80 || (128 ≤ b && b < 805 && b != 768) || b = 768 || (816 ≤ b && b < 822)

/-- The die link that a cluster or channel depends on. -/
def linkOf (b : Nat) : Option Nat :=
  if b < 80 then some (816 + dieOf b)
  else if 128 ≤ b ∧ b < 768 then
    let st := (b - 128) / 32
    some (816 + if st < 8 then st / 2 else 4 + (st - 8) / 6)
  else none

/-- The entry of a readiness failure. -/
def readyEntry (b : Nat) : LogEntry := ⟨0x10, b, none, 0, b⟩

/-- FUNCTION_READY: never before its die link; a failed function stays failed. -/
def execFunctionReady (bit : Nat) (s : State) : Host.Outcome State Fault Refusal :=
  let m := s.mgmt
  let link := match linkOf bit with | some l => Marks.has l m.ready | none => true
  .next (if isFunction bit && link && !Marks.has bit m.ready && !Marks.has bit m.failed then
      s.modMgmt (fun m => { m with ready := Marks.add bit m.ready, readychg := true })
    else s)

/-- READINESS_LIMIT_MISSED: the function is marked failed and logged; a pod port for want of its far end. -/
def execReadinessLimitMissed (bit : Nat) (s : State) : Host.Outcome State Fault Refusal :=
  let m := s.mgmt
  .next (if isFunction bit && !Marks.has bit m.ready && !Marks.has bit m.failed then
      (s.modMgmt (fun m => { m with
        failed := Marks.add bit m.failed, readychg := true,
        farEnd := if 769 ≤ bit ∧ bit < 805 then Marks.add bit m.farEnd else m.farEnd })).logError (readyEntry bit)
    else s)

/-- FUNCTION_FAILED_IN_SERVICE: READYMAP and FAILMAP change in one write; logged (R33, R34; what the partition that owns it
takes beyond that, log 29). -/
def execFunctionFailedInService (bit : Nat) (s : State) : Host.Outcome State Fault Refusal :=
  .next (if Marks.has bit s.mgmt.ready then
      (s.modMgmt (fun m => { m with
        ready := Marks.del bit m.ready, failed := Marks.add bit m.failed, readychg := true })).logError (readyEntry bit)
    else s)

/-- POD_PORT_RETURNS_TO_SERVICE: only a port that failed for want of a far end. -/
def execPodPortReturnsToService (port : Nat) (s : State) : Host.Outcome State Fault Refusal :=
  let b := 769 + port
  .next (if Marks.has b s.mgmt.farEnd then
      s.modMgmt (fun m => { m with
        ready := Marks.add b m.ready, failed := Marks.del b m.failed, farEnd := Marks.del b m.farEnd, readychg := true })
    else s)

/-- READYCHG_CLEAR: the W1C write of a hart of the Zenith. During a handoff it has no effect: READYCHG stays set until the
new Zenith clears it (R46). -/
def execReadychgClear (s : State) : Host.Outcome State Fault Refusal :=
  .next (if s.zenithActs && s.mgmt.handoff.isNone then s.modMgmt (fun m => { m with readychg := false }) else s)

/-! ### Configuration records (R37, R38) -/

/-- Type, version, target, payload and sequence number of a record. -/
structure Record where
  type : Nat
  version : Nat
  target : Nat
  payload : List Byte
  seq : Nat
  deriving DecidableEq, Repr

/-- The record at an address of Zenith memory. R37 bounds the payload at 4,080 bytes and does not say what a longer one
does; the model takes its first 4,080 bytes (DESIGN CHOICE, log 17). -/
def State.readRecord (s : State) (a : Nat) : Record :=
  let h := s.raw (s.zenithLoc a) 16
  { type := numAt 0 2 h, version := numAt 2 2 h, target := numAt 4 2 h, seq := numAt 8 4 h,
    payload := s.raw (s.zenithLoc (a + 16)) (min (numAt 6 2 h) 4080) }

/-- The number under which the digest of tier t's key stands (R49): target 0. -/
def tierNo (t : Nat) : Nat := t * 2 ^ 32

/-- Is a record skipped: a reserved type or target, an unknown version, a value outside its limits, or a second key for
its tier (R38, R49)? A type 5 record of a tier other than 2 and 3 is skipped too: the manual gives no such case (DESIGN CHOICE,
log 17). -/
def State.skips (s : State) (r : Record) : Bool :=
  r.type = 0 || 5 < r.type || !Config.recordVersionKnown r.type r.version || !(r.target = 0xFFFF || isFunction r.target)
    || !Config.recordInLimit r.type r.payload
    || (r.type = 5 && (!(Config.recordTier r.payload = 2 || Config.recordTier r.payload = 3)
        || (Sparse.find? (tierNo (Config.recordTier r.payload)) s.mgmt.dbg.digests).isSome))

/-- Has a later record set this field of the module (R38)? -/
def Mgmt.fieldNewer (m : Mgmt) (field seq : Nat) : Bool := decide (seq < Sparse.get m.fieldSeq 0 field)

/-- Sets a field of the module that a record names, unless a later record has. -/
def Mgmt.setField (m : Mgmt) (field seq : Nat) (v : Option (BitVec 16)) (f : Monitor → BitVec 16 → Monitor) : Mgmt :=
  match v with
  | none => m
  | some x =>
    if m.fieldNewer field seq then m
    else { m with fieldSeq := Sparse.set field seq m.fieldSeq, mon := f m.mon x }

/-- The thresholds of a type 3 record; TTRIP only falls (R51). -/
def Mgmt.setThresholds (m : Mgmt) (r : Record) : Mgmt :=
  let m := m.setField 0 r.seq (Config.recordThreshold 0 r.payload) (fun q x => { q with twarn := x })
  let m := m.setField 1 r.seq (Config.recordThreshold 1 r.payload) (fun q x => { q with tthrot := x })
  m.setField 2 r.seq (Config.recordThreshold 2 r.payload) (fun q x => { q with ttrip := if x.slt q.ttrip then x else q.ttrip })

/-- The rail values that a record sets, die by die (R51). -/
def Mgmt.setRails (m : Mgmt) (r : Record) : Mgmt :=
  (upFrom 0 7).foldl (fun m d => m.setField (16 + d) r.seq (Config.recordRail r.type d r.payload)
    (fun q x => { q with rail := Sparse.set d x q.rail })) m

/-- What a record's type sets: the thresholds, the rails, a debug key's digest. -/
def Mgmt.applyRecord (m : Mgmt) (r : Record) : Mgmt :=
  let m := m.setRails r
  if r.type = 3 then m.setThresholds r
  else if r.type = 5 then
    let n := tierNo (Config.recordTier r.payload)
    { m with dbg := { m.dbg with digests := Sparse.set n (shake256 (Config.recordKey r.payload) 64) m.dbg.digests } }
  else m

/-- Has a later record of the same type and target been applied? -/
def Mgmt.newer (m : Mgmt) (n seq : Nat) : Bool :=
  match Sparse.find? n m.records with | some q => decide (seq < q.1) | none => false

/-- CONFIG_RECORD_APPLY of the record at `addr`, which stands at offset `off` of F: skipped and logged, or applied once
its target is ready; of two for one field the higher sequence number holds (R38). A type 1, 2 or 4 record is a field of its
type and target; the thresholds and the rails are fields of the module. The manual does not say what the source of a skipped
record's entry holds; the model writes the record's target as it stands (DESIGN CHOICE, log 29). -/
def execConfigRecordApply (addr : Nat) (off : Nat) (s : State) : Host.Outcome State Fault Refusal :=
  let r := s.readRecord addr
  let n := r.type * 2 ^ 16 + r.target
  .next (if s.skips r then
      s.logError ⟨0x11, r.target, none, off, r.type + r.version * 2 ^ 16 + r.target * 2 ^ 32⟩
    else if r.target ≠ 0xFFFF ∧ Marks.has r.target s.mgmt.ready = false then s
    else s.modMgmt (fun m =>
      let m := if m.newer n r.seq then m else { m with records := Sparse.set n (r.seq, r.payload) m.records }
      m.applyRecord r))

/-! ### Monitors (R51, R52) -/

/-- Sets bit d of a mask of dies. -/
def dieBit (m : BitVec 7) (d : Nat) (b : Bool) : BitVec 7 := if b then m ||| (1#7 <<< d) else m

/-- The syndrome of a monitor entry: die and value. -/
def monSyn (d : Nat) (x : BitVec 16) : Nat := d + x.toNat * 2 ^ 16

/-- Has a reading reached a threshold? Temperatures are signed. -/
def reached (x t : BitVec 16) : Bool := !x.slt t

/-- Is a rail outside ±5 % of its record value (R51)? Without a record value it is not. -/
def Monitor.railOut (m : Monitor) (d : Nat) (v : BitVec 16) : Bool :=
  match Sparse.find? d m.rail with
  | none => false
  | some r => decide (20 * v.toNat < 19 * r.toNat ∨ 21 * r.toNat < 20 * v.toNat)

/-- One reading: the values, the sticky bits, and an entry for each bit that it newly sets. -/
def State.readDie (s : State) (r : DieReading) : State :=
  if 7 ≤ r.die then s
  else
    let m := s.mgmt.mon
    let w := reached r.temp m.twarn
    let t := reached r.temp m.tthrot
    let m' : Monitor := { m with
      temp := Sparse.set r.die r.temp m.temp, vcore := Sparse.set r.die r.vcore m.vcore,
      proc := Sparse.set r.die r.proc m.proc, warn := dieBit m.warn r.die w, throt := dieBit m.throt r.die t,
      volt := dieBit m.volt r.die (m.railOut r.die r.vcore),
      hot := if t then m.hot ||| (1#7 <<< r.die) else m.hot &&& ~~~(1#7 <<< r.die) }
    let s := s.modMgmt (fun g => { g with mon := m' })
    let s := if m'.warn = m.warn then s else s.logError ⟨1, 816 + r.die, none, 0, monSyn r.die r.temp⟩
    let s := if m'.throt = m.throt then s else s.logError ⟨2, 816 + r.die, none, 0, monSyn r.die r.temp⟩
    let s := if m'.volt = m.volt then s else s.logError ⟨4, 816 + r.die, none, 0, monSyn r.die r.vcore⟩
    if reached r.temp m.ttrip then
      { s.logError ⟨3, 816 + r.die, none, 0, monSyn r.die r.temp⟩ with stopped := true }
    else s

/-- MONITOR_UPDATE: every 10 µs. At TTRIP the module stops (R51, R52). -/
def execMonitorUpdate (readings : List DieReading) (s : State) : Host.Outcome State Fault Refusal :=
  .next (readings.foldl State.readDie s)

/-- VOLTAGE_FAULT_TIMEOUT: a voltage fault of a die, by its last reading, has lasted 100 µs; the module logs it and stops
(R52). -/
def execVoltageFaultTimeout (die : Nat) (s : State) : Host.Outcome State Fault Refusal :=
  .next (if 7 ≤ die || !s.mgmt.mon.railOut die (Sparse.get s.mgmt.mon.vcore 0 die) then s
    else { s.logError ⟨5, 816 + die, none, 0, monSyn die (Sparse.get s.mgmt.mon.vcore 0 die)⟩ with stopped := true })

end Sys2Proof.Machine
end

