-- ==== Sys2Proof/Machine/SeqArith.lean ====
section
/-! DEFINITION. Integer arithmetic of the sequencer (R87 to R91). None of these sets a flag or raises a trap. -/

namespace Sys2Proof.Machine

/-- ADD: g_a + g_b modulo 2^64 (R87). -/
def execAdd (d : BitVec 5) (a : BitVec 5) (b : BitVec 5) (s : State) : Host.Outcome State Fault Refusal :=
  .next (s.writeG d (s.g a + s.g b))

/-- SUB: g_a − g_b modulo 2^64 (R87). -/
def execSub (d : BitVec 5) (a : BitVec 5) (b : BitVec 5) (s : State) : Host.Outcome State Fault Refusal :=
  .next (s.writeG d (s.g a - s.g b))

/-- MUL: the low 64 bits of the product (R87). -/
def execMul (d : BitVec 5) (a : BitVec 5) (b : BitVec 5) (s : State) : Host.Outcome State Fault Refusal :=
  .next (s.writeG d (s.g a * s.g b))

/-- MULH: bits [127:64] of the signed product (R87). -/
def execMulh (d : BitVec 5) (a : BitVec 5) (b : BitVec 5) (s : State) : Host.Outcome State Fault Refusal :=
  .next (s.writeG d (mulHighS (s.g a) (s.g b)))

/-- MULHU: bits [127:64] of the unsigned product (R87). -/
def execMulhu (d : BitVec 5) (a : BitVec 5) (b : BitVec 5) (s : State) : Host.Outcome State Fault Refusal :=
  .next (s.writeG d (mulHighU (s.g a) (s.g b)))

/-- DIV: the signed quotient (R87). -/
def execDiv (d : BitVec 5) (a : BitVec 5) (b : BitVec 5) (s : State) : Host.Outcome State Fault Refusal :=
  .next (s.writeG d (divS (s.g a) (s.g b)))

/-- DIVU: the unsigned quotient (R87). -/
def execDivu (d : BitVec 5) (a : BitVec 5) (b : BitVec 5) (s : State) : Host.Outcome State Fault Refusal :=
  .next (s.writeG d (divU (s.g a) (s.g b)))

/-- REM: the signed remainder (R87). -/
def execRem (d : BitVec 5) (a : BitVec 5) (b : BitVec 5) (s : State) : Host.Outcome State Fault Refusal :=
  .next (s.writeG d (remS (s.g a) (s.g b)))

/-- REMU: the unsigned remainder (R87). -/
def execRemu (d : BitVec 5) (a : BitVec 5) (b : BitVec 5) (s : State) : Host.Outcome State Fault Refusal :=
  .next (s.writeG d (remU (s.g a) (s.g b)))

/-- AND, bitwise (R87). -/
def execAnd (d : BitVec 5) (a : BitVec 5) (b : BitVec 5) (s : State) : Host.Outcome State Fault Refusal :=
  .next (s.writeG d (s.g a &&& s.g b))

/-- OR, bitwise (R87). -/
def execOr (d : BitVec 5) (a : BitVec 5) (b : BitVec 5) (s : State) : Host.Outcome State Fault Refusal :=
  .next (s.writeG d (s.g a ||| s.g b))

/-- XOR, bitwise (R87). -/
def execXor (d : BitVec 5) (a : BitVec 5) (b : BitVec 5) (s : State) : Host.Outcome State Fault Refusal :=
  .next (s.writeG d (s.g a ^^^ s.g b))

/-- SHL by g_b[5:0] (R87). -/
def execShl (d : BitVec 5) (a : BitVec 5) (b : BitVec 5) (s : State) : Host.Outcome State Fault Refusal :=
  .next (s.writeG d (s.g a <<< shiftOf (s.g b)))

/-- SHR by g_b[5:0], filling with zeros (R87). -/
def execShr (d : BitVec 5) (a : BitVec 5) (b : BitVec 5) (s : State) : Host.Outcome State Fault Refusal :=
  .next (s.writeG d (s.g a >>> shiftOf (s.g b)))

/-- SAR by g_b[5:0], filling with copies of bit 63 (R87). -/
def execSar (d : BitVec 5) (a : BitVec 5) (b : BitVec 5) (s : State) : Host.Outcome State Fault Refusal :=
  .next (s.writeG d ((s.g a).sshiftRight (shiftOf (s.g b))))

/-- MIN, signed (R88). -/
def execMin (d : BitVec 5) (a : BitVec 5) (b : BitVec 5) (s : State) : Host.Outcome State Fault Refusal :=
  .next (s.writeG d (if (s.g a).slt (s.g b) then s.g a else s.g b))

/-- MAX, signed (R88). -/
def execMax (d : BitVec 5) (a : BitVec 5) (b : BitVec 5) (s : State) : Host.Outcome State Fault Refusal :=
  .next (s.writeG d (if (s.g a).slt (s.g b) then s.g b else s.g a))

/-- MINU, unsigned (R88). -/
def execMinu (d : BitVec 5) (a : BitVec 5) (b : BitVec 5) (s : State) : Host.Outcome State Fault Refusal :=
  .next (s.writeG d (if (s.g a).ult (s.g b) then s.g a else s.g b))

/-- MAXU, unsigned (R88). -/
def execMaxu (d : BitVec 5) (a : BitVec 5) (b : BitVec 5) (s : State) : Host.Outcome State Fault Refusal :=
  .next (s.writeG d (if (s.g a).ult (s.g b) then s.g b else s.g a))

/-- SEL: g_a when g_d is not zero, else g_b; reads g_d before it writes it (R88). -/
def execSel (d : BitVec 5) (a : BitVec 5) (b : BitVec 5) (s : State) : Host.Outcome State Fault Refusal :=
  .next (s.writeG d (if s.g d ≠ 0 then s.g a else s.g b))

/-- CLZ: zero bits above the highest one bit; 64 for zero (R89). -/
def execClz (d : BitVec 5) (a : BitVec 5) (s : State) : Host.Outcome State Fault Refusal :=
  .next (s.writeG d (BitVec.ofNat 64 (zerosAbove (s.g a).toNat 64)))

/-- POPC: the number of one bits (R89). -/
def execPopc (d : BitVec 5) (a : BitVec 5) (s : State) : Host.Outcome State Fault Refusal :=
  .next (s.writeG d (BitVec.ofNat 64 (onesOf (s.g a).toNat 64)))

/-- FFS: the index of the lowest one bit; 64 for zero (R89). -/
def execFfs (d : BitVec 5) (a : BitVec 5) (s : State) : Host.Outcome State Fault Refusal :=
  .next (s.writeG d (BitVec.ofNat 64 (lowestOne (s.g a).toNat 0 64)))

/-- CMP.cc: 1 when the condition holds, else 0 (R90). -/
def execCmpCc (d : BitVec 5) (a : BitVec 5) (b : BitVec 5) (c : BitVec 3) (s : State) : Host.Outcome State Fault Refusal :=
  .next (s.writeG d (flagWord (condHolds c (s.g a) (s.g b))))

/-- ADDI (R91). -/
def execAddi (d : BitVec 5) (a : BitVec 5) (i : BitVec 16) (s : State) : Host.Outcome State Fault Refusal :=
  .next (s.writeG d (s.g a + immS i))

/-- ANDI (R91). -/
def execAndi (d : BitVec 5) (a : BitVec 5) (i : BitVec 16) (s : State) : Host.Outcome State Fault Refusal :=
  .next (s.writeG d (s.g a &&& immZ i))

/-- ORI (R91). -/
def execOri (d : BitVec 5) (a : BitVec 5) (i : BitVec 16) (s : State) : Host.Outcome State Fault Refusal :=
  .next (s.writeG d (s.g a ||| immZ i))

/-- XORI (R91). -/
def execXori (d : BitVec 5) (a : BitVec 5) (i : BitVec 16) (s : State) : Host.Outcome State Fault Refusal :=
  .next (s.writeG d (s.g a ^^^ immZ i))

/-- SHLI (R91). -/
def execShli (d : BitVec 5) (a : BitVec 5) (h : BitVec 6) (s : State) : Host.Outcome State Fault Refusal :=
  .next (s.writeG d (s.g a <<< h.toNat))

/-- SHRI (R91). -/
def execShri (d : BitVec 5) (a : BitVec 5) (h : BitVec 6) (s : State) : Host.Outcome State Fault Refusal :=
  .next (s.writeG d (s.g a >>> h.toNat))

/-- SARI (R91). -/
def execSari (d : BitVec 5) (a : BitVec 5) (h : BitVec 6) (s : State) : Host.Outcome State Fault Refusal :=
  .next (s.writeG d ((s.g a).sshiftRight h.toNat))

/-- MOVI (R91). -/
def execMovi (d : BitVec 5) (i : BitVec 16) (s : State) : Host.Outcome State Fault Refusal :=
  .next (s.writeG d (immS i))

/-- MOVHI: chunk k of g_d becomes imm16 (R91). -/
def execMovhi (d : BitVec 5) (k : BitVec 2) (i : BitVec 16) (s : State) : Host.Outcome State Fault Refusal :=
  .next (s.writeG d (replaceChunk (s.g d) k i))

end Sys2Proof.Machine
end

