-- ==== Sys2Proof/Machine/SeqCont.lean ====
section
/-! DEFINITION. Continuation instructions of the sequencer (R104 to R111): SPAWN, SUBMIT, WAITSEQ, GBAR, GRANK, GSIZE,
SUSPEND, YIELD, RETIRE. -/

namespace Sys2Proof.Machine

/-! ### SPAWN (R106, R157) -/

/-- The checks of SPAWN, and the partition-physical address of the record: capability, alignment, translation, a readable
record (R106); what a window or another module holds is no record (R155; log 22). -/
def State.spawnTarget (s : State) (c : Cap) : Chk Nat := do
  let x := c.cursor.toNat
  capCheck c x 64 (permLoad + permStore + permLoadCap + permStoreCap)
  require (x % 64 = 0) .align x
  require (windowOf x = .translated) .contstate x
  let ps ← s.piecesOf s.actor.core s.party c x 64 true false
  match ps.head? with
  | some ⟨_, _, .here l _, _⟩ =>
    let _ ← s.readPieces s.actor.core 0 ps
    .ok (l - hbmLoc s.party.part 0)
  | _ => trapN .contstate x

/-- The control word of a record that SPAWN makes runnable: the spawner's world, no class above the spawner's (R106). -/
def spawnedCtl (ctl world cls : Nat) : Nat :=
  putBits (putBits (putBits ctl 5 6 world) 3 2 (min (ctlClass ctl) cls)) 0 3 1

/-- SPAWN's atomic step on a record of state 0 or 3, 2, 1 or 4, or retired (R106, R157). -/
def State.spawn (s : State) (x a : Nat) : Chk State :=
  let p := s.party.part
  let ctl := s.ctl p a
  let st := ctlState ctl
  let put := fun v => s.setRecBytesBy (some s.actor.core) p a 28 (leBytes v 4)
  if st = 0 ∨ st = 3 then
    if s.mem.tagAt (hbmLoc p a) = false then trapN .captag x
    else .ok (((put (spawnedCtl ctl s.party.world s.me.sys.cls)).setRecWorld p a s.party.world).enterPool p a)
  else if st = 2 then .ok (put (putBits ctl 11 1 1))
  else if st = 1 ∨ st = 4 then .ok s
  else trapN .contstate x

/-- SPAWN (R106), once the sequencer's earlier accesses are performed (R311). -/
def execSpawn (a : BitVec 4) (s : State) : Host.Outcome State Fault Refusal :=
  s.runSeq (do
    let r ← s.spawnTarget (s.c a)
    waitUnless (s.performed s.actor.core) .other
    let t ← (s.perform s.actor.core (· = 0)).spawn (s.c a).cursor.toNat r
    .ok t.advance)

/-! ### SUBMIT (R107) -/

/-- The memory a descriptor may lie in: not L1, no FIFO bank (R107). -/
def Reach.descriptor : Reach := ⟨false, true, false, true⟩

/-- The checks of SUBMIT: the place of the descriptor (R107). -/
def State.submitPlace (s : State) (c : Cap) : Chk Place := do
  let x := c.cursor.toNat
  capCheck c x 64 (permLoad + permSubmit)
  require (x % 64 = 0) .align x
  s.checkKind s.actor.core s.party Reach.descriptor x 64 x
  s.placeOf s.actor.core s.party x false false

/-- SUBMIT: the continuation waits, and Cumulus holds the translation of the descriptor until it has read it (R107). -/
def State.submitTask (s : State) (c : Cap) : Chk State := do
  let pl ← s.submitPlace c
  match s.me.run with
  | none => .ok s
  | some r =>
    let t ← s.suspendAs 4 (s.me.pc + 1)
    let k := s.home
    let u := (t.cluster k).cumulus
    let x : Submit := ⟨s.actor.core, r.record, r.part, r.world, r.context, r.isSealed, c.cursor, pl, r.launch⟩
    .ok (t.setCluster k { t.cluster k with cumulus := { u with submits := u.submits ++ [x] } })

/-- SUBMIT (R107). -/
def execSubmit (a : BitVec 4) (s : State) : Host.Outcome State Fault Refusal := s.runSeq (s.submitTask (s.c a))

/-! ### WAITSEQ (R109) -/

/-- WAITSEQ on counter i with a target: it takes the report at once, or suspends until the counter reaches the target, to
take it at the next pickup (R109; State.finishWaitSeq). -/
def State.waitSeq (s : State) (i target : Nat) : Chk State :=
  if 63 < i then trapN .argrange i
  else
    match s.me.run with
    | none => .ok s
    | some r =>
      let n := seqIndex r.world r.context i
      let c := (s.part r.part).seq n
      if c.done.toNat < target then
        match s.suspendAs 4 (s.me.pc + 1) with
        | .error e => .error e
        | .ok t =>
          .ok (t.modPart r.part (fun x =>
            let y := x.seq n
            x.setSeq n { y with waiting := y.waiting ++ [(r.record, target)] }))
      else
        let w := c.takeReport target
        .ok ((s.modPart r.part (fun x => x.setSeq n w.2)).writeG 1 w.1)

/-- WAITSEQ (R109). -/
def execWaitseq (a : BitVec 5) (b : BitVec 5) (s : State) : Host.Outcome State Fault Refusal :=
  s.runSeq (s.waitSeq (s.g a).toNat (s.g b).toNat)

/-! ### Groups (R110, R111, R160) -/

/-- The group in slot k of the running record, when it is in use; else ARGRANGE with info k (R110, R111). -/
def State.groupInSlot (s : State) (r : Running) (k : BitVec 2) : Chk (Nat × Group) :=
  let id := r.groups.getD k.toNat 0xFF
  let g := (s.part r.part).group id
  if id = 0xFF ∨ g.members = [] then trapN .argrange k.toNat else .ok (id, g)

/-- Would the arrival of a record complete the current generation (R110)? -/
def Group.completes (g : Group) (a : Nat) : Bool :=
  !Marks.has a g.arrived && g.members.all (fun m => m = a || Marks.has m g.arrived || Marks.has m g.gone)

/-- The group after a record's arrival; one that has arrived already counts towards the next generation (R110). -/
def Group.arrive (g : Group) (a : Nat) : Group :=
  if Marks.has a g.arrived then { g with early := Marks.add a g.early } else { g with arrived := Marks.add a g.arrived }

/-- GBAR: an open region traps an arrival that would suspend; the queued blocks are waited for before the arrival (R110,
R311). -/
def State.barrier (s : State) (k : BitVec 2) : Chk State :=
  match s.me.run with
  | none => .ok s
  | some r => do
    let ig ← s.groupInSlot r k
    let last := ig.2.completes r.record
    require (s.me.sys.region.isClosed || last) .apxseq 0
    s.waitRelease
    if last then
      let s := s.releaseOlder s.actor.core
      .ok ((s.modPart r.part (fun x => x.setGroup ig.1 (ig.2.arrive r.record))).closeGroup r.part ig.1).advance
    else
      let t ← s.suspendAs 4 (s.me.pc + 1)
      let g := ig.2.arrive r.record
      .ok (t.modPart r.part (fun x => x.setGroup ig.1 { g with waiting := Marks.add r.record g.waiting }))

/-- GBAR (R110). -/
def execGbar (k : BitVec 2) (s : State) : Host.Outcome State Fault Refusal := s.runSeq (s.barrier k)

/-- The position of a record among the members (R111). -/
def Group.rank (g : Group) (a : Nat) : Nat := g.members.idxOf a

/-- GRANK (R111). -/
def execGrank (d : BitVec 5) (k : BitVec 2) (s : State) : Host.Outcome State Fault Refusal :=
  s.runSeq (match s.me.run with
    | none => .ok s
    | some r => match s.groupInSlot r k with
      | .error e => .error e
      | .ok ig => .ok (s.writeG d (w64 (ig.2.rank r.record))))

/-- GSIZE (R111). -/
def execGsize (d : BitVec 5) (k : BitVec 2) (s : State) : Host.Outcome State Fault Refusal :=
  s.runSeq (match s.me.run with
    | none => .ok s
    | some r => match s.groupInSlot r k with
      | .error e => .error e
      | .ok ig => .ok (s.writeG d (w64 ig.2.members.length)))

/-! ### SUSPEND, YIELD, RETIRE (R105) -/

/-- SUSPEND: with wake-pending set it clears it and goes on after the QFENCE wait and the lease release (R105). An open
region traps either way, since SUSPEND is a suspension point (R112, R166). -/
def State.suspendOrWake (s : State) : Chk State :=
  match s.me.run with
  | none => .ok s
  | some r =>
    if ctlWake (s.ctl r.part r.record) then do
      s.canSuspend
      let t := s.releaseOlder s.actor.core
      .ok ((t.setCtl r.part r.record (putBits (s.ctl r.part r.record) 11 1 0)).releaseLease s.actor.core).advance
    else s.suspendAs 3 (s.me.pc + 1)

/-- SUSPEND (R105). -/
def execSuspend (s : State) : Host.Outcome State Fault Refusal := s.runSeq s.suspendOrWake

/-- YIELD: runnable again, at the end of its class (R105). -/
def execYield (s : State) : Host.Outcome State Fault Refusal :=
  s.runSeq (match s.me.run with
    | none => .ok s
    | some r => match s.suspendAs 1 (s.me.pc + 1) with
      | .error e => .error e
      | .ok t => .ok (t.enterPool r.part r.record))

/-- Is a record of this context still alive (R47; log 23)? -/
def State.contextLives (s : State) (r : Running) : Bool :=
  ((s.part r.part).owner.map Prod.fst).any (fun a =>
    let c := s.ctl r.part a
    a != r.record && ctlState c < 5 && s.recWorld r.part a = r.world && ctlContext c = r.context)

/-- The target of a debug tier 0 request: partition, world, context (R49). -/
def debugTarget (part world context : Nat) : BitVec 32 := BitVec.ofNat 32 (part * 2 ^ 24 + world * 2 ^ 16 + context * 2 ^ 8)

/-- When a context has retired, its tier 0 closes (R47). -/
def State.closeContext (s : State) (r : Running) : State :=
  if s.contextLives r then s
  else
    let d := s.mgmt.dbg
    let t := debugTarget r.part r.world r.context
    { s with mgmt := { s.mgmt with dbg := { d with opened := d.opened.filter (fun o => !(o.tier = 0 && o.target = t)) } } }

/-- RETIRE: the record never runs again; its objects are released, its groups no longer wait for it, its launch counts it
as ended (R105, R111, R136, R160, R161). Its copies are globally performed first (R311). -/
def State.retire (s : State) : Chk State :=
  match s.me.run with
  | none => .ok s
  | some r =>
    match s.suspendAs 5 s.me.pc with
    | .error e => .error e
    | .ok t => do
      waitUnless (s.allPerformed s.actor.core) .other
      let t := t.releaseAllSyncs r.part r.record
      let t := t.leaveGroups r.part r.record r.groups
      .ok ((t.endUnit r.part r.record .retired).closeContext r)

/-- RETIRE (R105). -/
def execRetire (s : State) : Host.Outcome State Fault Refusal := s.runSeq s.retire

end Sys2Proof.Machine
end

