-- ==== Sys2Proof/Machine/Update.lean ====
section
/-! DEFINITION. Live update: staging, the standby's first stage, the handoff, the state table, the swap of roles (R43 to
R46). -/

namespace Sys2Proof.Machine

/-- The standby complex. -/
def State.nadir (s : State) : Fin 2 := s.mgmt.zenith + 1

/-- The Nadir goes back to ROM: its harts wait there, its measurement bank is zero (DESIGN CHOICE, log 107: R45 names only
ROM). -/
def State.nadirToRom (s : State) : State :=
  let c := s.nadir
  s.modMgmt (fun m => { m with
    harts := (upFrom 0 4).foldl (fun h n => Sparse.erase (4 * c.val + n) h) m.harts
    meas := (upFrom 0 16).foldl (fun h n => Sparse.erase (measNo c n) h) m.meas })

/-- UPDST. -/
def State.setUpdst (s : State) (n : Nat) : State := s.modMgmt (fun m => { m with updst := n })

/-- UPDCTL := STAGE by a hart of the Zenith (R45): from 0, 4 and 5. -/
def execUpdctlStage (s : State) : Host.Outcome State Fault Refusal :=
  let u := s.mgmt.updst
  .next (if !s.zenithActs then s
    else if u = 0 then s.setUpdst 1
    else if 4 ≤ u then s.nadirToRom.setUpdst 1
    else s)

/-- UPDCTL := ABORT: the Nadir goes to ROM except during a handoff. -/
def execUpdctlAbort (s : State) : Host.Outcome State Fault Refusal :=
  let u := s.mgmt.updst
  .next (if !s.zenithActs ∨ u = 0 ∨ u = 3 then s else s.nadirToRom.setUpdst 0)

/-- Where the boot image holds its two staged images, from its own start (file 01, lines 002, 005, 006), and where the
first stage leaves the result of the first (line 007). -/
def stagedOffsets : List Nat := [0x1000000, 0x1100000]
def stagedResults : Nat := 0x08000000

/-- Admission of the staged image number i of the new boot image by the Nadir's first stage: the outcome stands in its own
memory, and an admitted image extends MEAS8 of its own bank (R23, R26, R45 step 2; log 98). -/
def State.admitStaged (c : Fin 2) (s : State) (i : Nat) : State :=
  let a := s.mgmt.updsrc.toNat + stagedOffsets.getD i 0
  let word := fun n => leNat (s.raw (coronaLoc (a + 4 * n)) 4)
  let r := admissionOf word (word 1)
  let hash := shake256 (s.raw (coronaLoc a) (4 * word 1)) 16
  let t := s.poke (mgmtLoc c (stagedResults + 32 * i)) (r.bytes hash)
  if r.status = 0 then t.extendMeas c 8 hash else t

/-- STANDBY_FIRST_STAGE: the Nadir verifies the new image at UPDSRC and extends MEAS0 of its own bank with its digest,
MEAS1 with the Zenith's MEAS0, and admits its staged images; its harts 1 to 3 start at the firmware's first byte, and its hart 0, which ran the first
stage, runs on from where that leaves it (R23, R45 step 2; log 98). -/
def execStandbyFirstStage (s : State) : Host.Outcome State Fault Refusal :=
  let a := s.mgmt.updsrc.toNat
  let n := leNat (s.raw (coronaLoc a) 8)
  let digest := shake256 (s.raw (coronaLoc (a + 8)) n) 64
  let c := s.nadir
  .next (if s.mgmt.updst ≠ 1 then s
    else if Config.falconVerify (sliceB 0 1793 Config.vendKey) digest (s.raw (coronaLoc (a + 8 + n)) 1280) then
      let t := (s.extendMeas c 0 digest).extendMeas c 1 (s.meas s.mgmt.zenith 0)
      let t := [0, 1].foldl (State.admitStaged c) t
      let t := ([1, 2, 3] : List (Fin 4)).foldl (fun t i => t.startHart ⟨c, i⟩ (s.mgmt.updsrc + 8)) t
      (t.startHart ⟨c, 0⟩ Config.standbyEntry).setUpdst 2
    else s.setUpdst 5)

/-- UPDCTL := HANDOFF: from 2 it stalls the writing hart, and management traffic pauses (R45 step 3). -/
def execUpdctlHandoff (s : State) : Host.Outcome State Fault Refusal :=
  .next (if !s.zenithActs ∨ s.mgmt.updst ≠ 2 then s
    else s.modMgmt (fun m => { m with updst := 3, handoff := some s.hid }))

/-! ### The state table (R44) -/

/-- An entry: tag, optional, payload. -/
structure TableEntry where
  tag : Nat
  isOptional : Bool
  payload : List Byte
  deriving DecidableEq, Repr

/-- The entries of a table's bytes; none when one runs past the end. -/
def tableEntries (bs : List Byte) : Nat → Option (List TableEntry)
  | 0 => if bs = [] then some [] else none
  | k + 1 =>
    if bs = [] then some []
    else
      let n := numAt 4 4 bs
      let whole := 8 + ceilDiv n 8 * 8
      if bs.length < 8 + n then none
      else match tableEntries (bs.drop whole) k with
        | some es => some (⟨numAt 0 2 bs, bitAt (numAt 2 2 bs) 0, sliceB 8 n bs⟩ :: es)
        | none => none

/-- The tag under which the nonce slots travel (R409). -/
def nonceTag : Nat := 0x0101

/-- Is an entry known to the importer? -/
def TableEntry.known (e : TableEntry) : Bool := e.tag = nonceTag || Config.stateTagKnown e.tag

/-- The entries that an importer takes; none when it refuses the table. Beside R44's two refusals the model refuses a table
with another magic, with a total length below 64 or other than the bytes at hand, whose header bytes 24 to 63 are not zero, or
with an entry that runs past the end; the manual does not list these (DESIGN CHOICE, log 19). -/
def importTable (bs : List Byte) : Option (List TableEntry) :=
  if numAt 0 4 bs ≠ 0x53544154 ∨ numAt 4 2 bs ≠ Config.stateMajor ∨ numAt 8 8 bs ≠ bs.length ∨ bs.length < 64
      ∨ (sliceB 24 40 bs).any (· != 0) then none
  else
    match tableEntries (bs.drop 64) (bs.length / 8) with
    | none => none
    | some es => if es.all (fun e => e.known || e.isOptional) then some (es.filter TableEntry.known) else none

/-- The state table at STADDR, as long as its header says. The manual does not say which memory STADDR addresses; the model
takes Corona shared memory, as for UPDSRC (DESIGN CHOICE, log 19). -/
def State.stateTable (s : State) : List Byte :=
  let a := coronaLoc s.mgmt.staddr.toNat
  s.raw a (leNat (s.raw (a + 8) 8))

/-- The HANDOFF write returns: the adapter presents held requests again, latched notifies are delivered (R45, R46,
R439). -/
def State.endHandoff (s : State) (updst : Nat) : State :=
  let s := s.modMgmt (fun m =>
    { m with updst := updst, handoff := none, mbx := m.mbx.present false, ifm := m.ifm.present false })
  s.openGates

/-- The commit: the nonce slots stand in the new Zenith's memory, and the roles swap in one step; the SPDM connection
starts in state 0 (R45 step 5, R46, R409). -/
def State.swapRoles (s : State) (es : List TableEntry) : State :=
  let c := s.nadir
  let s := es.foldl (fun t e =>
    if e.tag = nonceTag then t.poke (mgmtLoc c 0xE000) (sliceB 0 8192 e.payload) else t) s
  (s.modMgmt (fun m => { m with zenith := c, spdm := 0 })).endHandoff 4

/-- STATE_TABLE_IMPORT: the Nadir imports the table and commits, or refuses it (R44, R45 step 4). -/
def execStateTableImport (s : State) : Host.Outcome State Fault Refusal :=
  .next (if s.mgmt.updst ≠ 3 then s
    else match importTable s.stateTable with
      | some es => s.swapRoles es
      | none => s.endHandoff 5)

/-- HANDOFF_TIMEOUT: no commit within 50 µs (R45). -/
def execHandoffTimeout (s : State) : Host.Outcome State Fault Refusal :=
  .next (if s.mgmt.updst ≠ 3 then s else s.endHandoff 5)

end Sys2Proof.Machine
end

