-- ==== Sys2Proof/Machine/Dispatch.lean ====
section
/-! DEFINITION. The meaning of every constructor of Instr: one arm each, a direct call. -/

namespace Sys2Proof.Machine

def exec (i : Instr) (s : State) : Host.Outcome State Fault Refusal :=
  match i with
  | .add d a b => Sys2Proof.Machine.execAdd d a b s
  | .sub d a b => Sys2Proof.Machine.execSub d a b s
  | .mul d a b => Sys2Proof.Machine.execMul d a b s
  | .mulh d a b => Sys2Proof.Machine.execMulh d a b s
  | .mulhu d a b => Sys2Proof.Machine.execMulhu d a b s
  | .div d a b => Sys2Proof.Machine.execDiv d a b s
  | .divu d a b => Sys2Proof.Machine.execDivu d a b s
  | .rem d a b => Sys2Proof.Machine.execRem d a b s
  | .remu d a b => Sys2Proof.Machine.execRemu d a b s
  | .and d a b => Sys2Proof.Machine.execAnd d a b s
  | .or d a b => Sys2Proof.Machine.execOr d a b s
  | .xor d a b => Sys2Proof.Machine.execXor d a b s
  | .shl d a b => Sys2Proof.Machine.execShl d a b s
  | .shr d a b => Sys2Proof.Machine.execShr d a b s
  | .sar d a b => Sys2Proof.Machine.execSar d a b s
  | .min d a b => Sys2Proof.Machine.execMin d a b s
  | .max d a b => Sys2Proof.Machine.execMax d a b s
  | .minu d a b => Sys2Proof.Machine.execMinu d a b s
  | .maxu d a b => Sys2Proof.Machine.execMaxu d a b s
  | .sel d a b => Sys2Proof.Machine.execSel d a b s
  | .clz d a => Sys2Proof.Machine.execClz d a s
  | .popc d a => Sys2Proof.Machine.execPopc d a s
  | .ffs d a => Sys2Proof.Machine.execFfs d a s
  | .cmpCc d a b c => Sys2Proof.Machine.execCmpCc d a b c s
  | .acqst r sel => Sys2Proof.Machine.execAcqst r sel s
  | .relst r sel => Sys2Proof.Machine.execRelst r sel s
  | .drain c => Sys2Proof.Machine.execDrain c s
  | .pmtgive c => Sys2Proof.Machine.execPmtgive c s
  | .pmtinit p c => Sys2Proof.Machine.execPmtinit p c s
  | .addi d a imm => Sys2Proof.Machine.execAddi d a imm s
  | .andi d a imm => Sys2Proof.Machine.execAndi d a imm s
  | .ori d a imm => Sys2Proof.Machine.execOri d a imm s
  | .xori d a imm => Sys2Proof.Machine.execXori d a imm s
  | .shli d a h => Sys2Proof.Machine.execShli d a h s
  | .shri d a h => Sys2Proof.Machine.execShri d a h s
  | .sari d a h => Sys2Proof.Machine.execSari d a h s
  | .movi d imm => Sys2Proof.Machine.execMovi d imm s
  | .movhi d k imm => Sys2Proof.Machine.execMovhi d k imm s
  | .mbsend a c => Sys2Proof.Machine.execMbsend a c s
  | .mbrecv d c => Sys2Proof.Machine.execMbrecv d c s
  | .bCc a b c o => Sys2Proof.Machine.execBCc a b c o s
  | .j o => Sys2Proof.Machine.execJ o s
  | .jal o => Sys2Proof.Machine.execJal o s
  | .loopst o => Sys2Proof.Machine.execLoopst o s
  | .jr a => Sys2Proof.Machine.execJr a s
  | .stwin a n w => Sys2Proof.Machine.execStwin a n w s
  | .vrun sel o => Sys2Proof.Machine.execVrun sel o s
  | .mrun sel o => Sys2Proof.Machine.execMrun sel o s
  | .xrun sel o => Sys2Proof.Machine.execXrun sel o s
  | .attngo sel o => Sys2Proof.Machine.execAttngo sel o s
  | .cqpop d => Sys2Proof.Machine.execCqpop d s
  | .sweepq d => Sys2Proof.Machine.execSweepq d s
  | .spawn a => Sys2Proof.Machine.execSpawn a s
  | .submit a => Sys2Proof.Machine.execSubmit a s
  | .waitseq a b => Sys2Proof.Machine.execWaitseq a b s
  | .gbar k => Sys2Proof.Machine.execGbar k s
  | .grank d k => Sys2Proof.Machine.execGrank d k s
  | .gsize d k => Sys2Proof.Machine.execGsize d k s
  | .apxbegin n v imm => Sys2Proof.Machine.execApxbegin n v imm s
  | .apxend n v imm => Sys2Proof.Machine.execApxend n v imm s
  | .apxctlStart imm => Sys2Proof.Machine.execApxctlStart imm s
  | .apxctlStop imm => Sys2Proof.Machine.execApxctlStop imm s
  | .apxctlInval imm => Sys2Proof.Machine.execApxctlInval imm s
  | .apxctlRestart imm => Sys2Proof.Machine.execApxctlRestart imm s
  | .apxq d imm => Sys2Proof.Machine.execApxq d imm s
  | .trap imm => Sys2Proof.Machine.execTrap imm s
  | .sregr d n => Sys2Proof.Machine.execSregr d n s
  | .sregw a n => Sys2Proof.Machine.execSregw a n s
  | .fence sel => Sys2Proof.Machine.execFence sel s
  | .cderive d a b => Sys2Proof.Machine.execCderive d a b s
  | .candperm d a b => Sys2Proof.Machine.execCandperm d a b s
  | .cincr d a b => Sys2Proof.Machine.execCincr d a b s
  | .csetcur d a b => Sys2Proof.Machine.execCsetcur d a b s
  | .cseal d a b => Sys2Proof.Machine.execCseal d a b s
  | .cunseal d a b => Sys2Proof.Machine.execCunseal d a b s
  | .cgetbase d a => Sys2Proof.Machine.execCgetbase d a s
  | .cgetlen d a => Sys2Proof.Machine.execCgetlen d a s
  | .cgetperm d a => Sys2Proof.Machine.execCgetperm d a s
  | .cgettag d a => Sys2Proof.Machine.execCgettag d a s
  | .cmov d a => Sys2Proof.Machine.execCmov d a s
  | .ctest d a b => Sys2Proof.Machine.execCtest d a b s
  | .lds d a z f k => Sys2Proof.Machine.execLds d a z f k s
  | .sts g a z f k => Sys2Proof.Machine.execSts g a z f k s
  | .ldc d a f k => Sys2Proof.Machine.execLdc d a f k s
  | .stc sel a f k => Sys2Proof.Machine.execStc sel a f k s
  | .ldq q a b f => Sys2Proof.Machine.execLdq q a b f s
  | .stq q a b f => Sys2Proof.Machine.execStq q a b f s
  | .gather q a m z => Sys2Proof.Machine.execGather q a m z s
  | .scatter q a m z => Sys2Proof.Machine.execScatter q a m z s
  | .amoadd d a b w sel => Sys2Proof.Machine.execAmoadd d a b w sel s
  | .amoswap d a b w sel => Sys2Proof.Machine.execAmoswap d a b w sel s
  | .amocas d a b w sel => Sys2Proof.Machine.execAmocas d a b w sel s
  | .amomin d a b w sel => Sys2Proof.Machine.execAmomin d a b w sel s
  | .amomax d a b w sel => Sys2Proof.Machine.execAmomax d a b w sel s
  | .amoand d a b w sel => Sys2Proof.Machine.execAmoand d a b w sel s
  | .amoor d a b w sel => Sys2Proof.Machine.execAmoor d a b w sel s
  | .bind a b => Sys2Proof.Machine.execBind a b s
  | .unbind a b => Sys2Proof.Machine.execUnbind a b s
  | .publish a b => Sys2Proof.Machine.execPublish a b s
  | .syncinit a => Sys2Proof.Machine.execSyncinit a s
  | .acqSh a => Sys2Proof.Machine.execAcqSh a s
  | .acqEx a => Sys2Proof.Machine.execAcqEx a s
  | .rel a => Sys2Proof.Machine.execRel a s
  | .revoke a => Sys2Proof.Machine.execRevoke a s
  | .vend sel => Sys2Proof.Machine.execVend sel s
  | .vshape a sel x => Sys2Proof.Machine.execVshape a sel x s
  | .vadd d a b sel x y v => Sys2Proof.Machine.execVadd d a b sel x y v s
  | .vsub d a b sel x y v => Sys2Proof.Machine.execVsub d a b sel x y v s
  | .vmul d a b sel x y v => Sys2Proof.Machine.execVmul d a b sel x y v s
  | .vfma d a b sel x y v => Sys2Proof.Machine.execVfma d a b sel x y v s
  | .vmin d a b sel x y v => Sys2Proof.Machine.execVmin d a b sel x y v s
  | .vmax d a b sel x y v => Sys2Proof.Machine.execVmax d a b sel x y v s
  | .vabs d a sel x v => Sys2Proof.Machine.execVabs d a sel x v s
  | .vneg d a sel x v => Sys2Proof.Machine.execVneg d a sel x v s
  | .vcvt d a f sel x v => Sys2Proof.Machine.execVcvt d a f sel x v s
  | .vquant d a m sel x => Sys2Proof.Machine.execVquant d a m sel x s
  | .vsacc d a b sel x y => Sys2Proof.Machine.execVsacc d a b sel x y s
  | .vexp d a sel x v => Sys2Proof.Machine.execVexp d a sel x v s
  | .vrcp d a sel x => Sys2Proof.Machine.execVrcp d a sel x s
  | .vrsq d a sel x => Sys2Proof.Machine.execVrsq d a sel x s
  | .vred d a sel x v => Sys2Proof.Machine.execVred d a sel x v s
  | .vcmp d a b sel x y v => Sys2Proof.Machine.execVcmp d a b sel x y v s
  | .vsel d a b sel x y => Sys2Proof.Machine.execVsel d a b sel x y s
  | .vpart d a sel x v => Sys2Proof.Machine.execVpart d a sel x v s
  | .vperm d a b sel x y => Sys2Proof.Machine.execVperm d a b sel x y s
  | .vshuf d a b sel x y v => Sys2Proof.Machine.execVshuf d a b sel x y v s
  | .vbcast d a b sel x y => Sys2Proof.Machine.execVbcast d a b sel x y s
  | .vsplat d a sel x => Sys2Proof.Machine.execVsplat d a sel x s
  | .viota d sel => Sys2Proof.Machine.execViota d sel s
  | .vand d a b sel x y => Sys2Proof.Machine.execVand d a b sel x y s
  | .vor d a b sel x y => Sys2Proof.Machine.execVor d a b sel x y s
  | .vxor d a b sel x y => Sys2Proof.Machine.execVxor d a b sel x y s
  | .vnot d a sel x => Sys2Proof.Machine.execVnot d a sel x s
  | .vshl d a b sel x y => Sys2Proof.Machine.execVshl d a b sel x y s
  | .vshr d a b sel x y => Sys2Proof.Machine.execVshr d a b sel x y s
  | .vsar d a b sel x y => Sys2Proof.Machine.execVsar d a b sel x y s
  | .vpopc d a sel x v => Sys2Proof.Machine.execVpopc d a sel x v s
  | .vpushix a sel x q => Sys2Proof.Machine.execVpushix a sel x q s
  | .vpushc a sel x => Sys2Proof.Machine.execVpushc a sel x s
  | .vtopb8 d a sel x => Sys2Proof.Machine.execVtopb8 d a sel x s
  | .vshadd d a b sel x y => Sys2Proof.Machine.execVshadd d a b sel x y s
  | .vmov d a sel x => Sys2Proof.Machine.execVmov d a sel x s
  | .mend sel => Sys2Proof.Machine.execMend sel s
  | .mshape sel r c t => Sys2Proof.Machine.execMshape sel r c t s
  | .tfetch sel c t o => Sys2Proof.Machine.execTfetch sel c t o s
  | .trel sel t => Sys2Proof.Machine.execTrel sel t s
  | .had sel t z => Sys2Proof.Machine.execHad sel t z s
  | .acczero sel a => Sys2Proof.Machine.execAcczero sel a s
  | .accrd sel a c o => Sys2Proof.Machine.execAccrd sel a c o s
  | .accwr sel a c o => Sys2Proof.Machine.execAccwr sel a c o s
  | .mwait sel => Sys2Proof.Machine.execMwait sel s
  | .mmulLb2 sel a x w c => Sys2Proof.Machine.execMmulLb2 sel a x w c s
  | .mmulLb3 sel a x w c => Sys2Proof.Machine.execMmulLb3 sel a x w c s
  | .mmulLb4 sel a x w c => Sys2Proof.Machine.execMmulLb4 sel a x w c s
  | .mmulLb5 sel a x w c => Sys2Proof.Machine.execMmulLb5 sel a x w c s
  | .mmulLb6 sel a x w c => Sys2Proof.Machine.execMmulLb6 sel a x w c s
  | .mmulLb7 sel a x w c => Sys2Proof.Machine.execMmulLb7 sel a x w c s
  | .mmulLb8 sel a x w c => Sys2Proof.Machine.execMmulLb8 sel a x w c s
  | .mmulI8 sel a x w c => Sys2Proof.Machine.execMmulI8 sel a x w c s
  | .mmulE4m3 sel a x w c => Sys2Proof.Machine.execMmulE4m3 sel a x w c s
  | .mmulE5m2 sel a x w c => Sys2Proof.Machine.execMmulE5m2 sel a x w c s
  | .mmulFp16 sel a x w c => Sys2Proof.Machine.execMmulFp16 sel a x w c s
  | .mmulBf16 sel a x w c => Sys2Proof.Machine.execMmulBf16 sel a x w c s
  | .mmulFp32 sel a x w c => Sys2Proof.Machine.execMmulFp32 sel a x w c s
  | .mmulFp64 sel a x w c => Sys2Proof.Machine.execMmulFp64 sel a x w c s
  | .xloop l => Sys2Proof.Machine.execXloop l s
  | .xbound l n => Sys2Proof.Machine.execXbound l n s
  | .xsstr l sel => Sys2Proof.Machine.execXsstr l sel s
  | .xdstr l sel => Sys2Proof.Machine.execXdstr l sel s
  | .xsrc c o => Sys2Proof.Machine.execXsrc c o s
  | .xdst c o => Sys2Proof.Machine.execXdst c o s
  | .xemit c n => Sys2Proof.Machine.execXemit c n s
  | .xprobe c => Sys2Proof.Machine.execXprobe c s
  | .qload c o => Sys2Proof.Machine.execQload c o s
  | .btld c o => Sys2Proof.Machine.execBtld c o s
  | .btgatherK c t => Sys2Proof.Machine.execBtgatherK c t s
  | .btgatherV c t => Sys2Proof.Machine.execBtgatherV c t s
  | .score t => Sys2Proof.Machine.execScore t s
  | .pvacc t => Sys2Proof.Machine.execPvacc t s
  | .merge c o => Sys2Proof.Machine.execMerge c o s
  | .mask m => Sys2Proof.Machine.execMask m s
  | .loop t l => Sys2Proof.Machine.execLoop t l s
  | .brcnt t => Sys2Proof.Machine.execBrcnt t s
  | .lcset l n => Sys2Proof.Machine.execLcset l n s
  | .ostore c o => Sys2Proof.Machine.execOstore c o s
  | .jmp t => Sys2Proof.Machine.execJmp t s
  | .functionReady bit => Sys2Proof.Machine.execFunctionReady bit s
  | .readinessLimitMissed bit => Sys2Proof.Machine.execReadinessLimitMissed bit s
  | .functionFailedInService bit => Sys2Proof.Machine.execFunctionFailedInService bit s
  | .podPortReturnsToService port => Sys2Proof.Machine.execPodPortReturnsToService port s
  | .configRecordApply addr off => Sys2Proof.Machine.execConfigRecordApply addr off s
  | .registerWrite port off value => Sys2Proof.Machine.execRegisterWrite port off value s
  | .hashInit ctx => Sys2Proof.Machine.execHashInit ctx s
  | .hashAbsorb ctx => Sys2Proof.Machine.execHashAbsorb ctx s
  | .hashSqueeze ctx => Sys2Proof.Machine.execHashSqueeze ctx s
  | .measurementExtend index => Sys2Proof.Machine.execMeasurementExtend index s
  | .hartgo addr => Sys2Proof.Machine.execHartgo addr s
  | .rndwRead rd n => Sys2Proof.Machine.execRndwRead rd n s
  | .mbxrlenRead rd => Sys2Proof.Machine.execMbxrlenRead rd s
  | .mailboxRequestPending req => Sys2Proof.Machine.execMailboxRequestPending req s
  | .mbxslenSend n => Sys2Proof.Machine.execMbxslenSend n s
  | .monitorUpdate readings => Sys2Proof.Machine.execMonitorUpdate readings s
  | .voltageFaultTimeout die => Sys2Proof.Machine.execVoltageFaultTimeout die s
  | .hostAccessRefused acc => Sys2Proof.Machine.execHostAccessRefused acc s
  | .hostWriteWeightRegion acc => Sys2Proof.Machine.execHostWriteWeightRegion acc s
  | .revokeSweepComplete idx => Sys2Proof.Machine.execRevokeSweepComplete idx s
  | .vectorWordCompletion idx => Sys2Proof.Machine.execVectorWordCompletion idx s
  | .tfetchLanded idx => Sys2Proof.Machine.execTfetchLanded idx s
  | .accrdWritesPerformed idx => Sys2Proof.Machine.execAccrdWritesPerformed idx s
  | .transferCopy ch => Sys2Proof.Machine.execTransferCopy ch s
  | .deferredMemerr record => Sys2Proof.Machine.execDeferredMemerr record s
  | .ageing record => Sys2Proof.Machine.execAgeing record s
  | .bankModeSwitch bank mode => Sys2Proof.Machine.execBankModeSwitch bank mode s
  | .bankSwitchComplete bank => Sys2Proof.Machine.execBankSwitchComplete bank s
  | .taskAdmission idx => Sys2Proof.Machine.execTaskAdmission idx s
  | .patienceExpiry idx => Sys2Proof.Machine.execPatienceExpiry idx s
  | .weightRemoval ident => Sys2Proof.Machine.execWeightRemoval ident s
  | .imageRemoval handle => Sys2Proof.Machine.execImageRemoval handle s
  | .ifrlenRead rd => Sys2Proof.Machine.execIfrlenRead rd s
  | .ifslenSend n => Sys2Proof.Machine.execIfslenSend n s
  | .frozenRegisterWrite off value => Sys2Proof.Machine.execFrozenRegisterWrite off value s
  | .channelWordChange ch => Sys2Proof.Machine.execChannelWordChange ch s
  | .fresume token => Sys2Proof.Machine.execFresume token s
  | .s2resumeRetry token => Sys2Proof.Machine.execS2resumeRetry token s
  | .s2resumeReflect token => Sys2Proof.Machine.execS2resumeReflect token s
  | .s2resumeEnd token => Sys2Proof.Machine.execS2resumeEnd token s
  | .accvalRead rd => Sys2Proof.Machine.execAccvalRead rd s
  | .faultRingConfigWrite reg value => Sys2Proof.Machine.execFaultRingConfigWrite reg value s
  | .forwardedAccess req => Sys2Proof.Machine.execForwardedAccess req s
  | .forwardedAccessTimeout idx nack => Sys2Proof.Machine.execForwardedAccessTimeout idx nack s
  | .fabricPacketRefused pkt => Sys2Proof.Machine.execFabricPacketRefused pkt s
  | .doorbellWrite value => Sys2Proof.Machine.execDoorbellWrite value s
  | .launchCompletion chain => Sys2Proof.Machine.execLaunchCompletion chain s
  | .collectiveResult ident remote => Sys2Proof.Machine.execCollectiveResult ident remote s
  | .notAnInstruction engine => Sys2Proof.Machine.execNotAnInstruction engine s
  | .uncorrectableSoftError unit => Sys2Proof.Machine.execUncorrectableSoftError unit s
  | .managementHartException cause tval => Sys2Proof.Machine.execManagementHartException cause tval s
  | .stratusFetchComplete idx => Sys2Proof.Machine.execStratusFetchComplete idx s
  | .ostoreWritesPerformed idx => Sys2Proof.Machine.execOstoreWritesPerformed idx s
  | .forwardedReply idx data tags => Sys2Proof.Machine.execForwardedReply idx data tags s
  | .weightRegionRegistration base len layout => Sys2Proof.Machine.execWeightRegionRegistration base len layout s
  | .imageAdmission base slot => Sys2Proof.Machine.execImageAdmission base slot s
  | .powerOnReset => Sys2Proof.Machine.execPowerOnReset s
  | .moduleReset => Sys2Proof.Machine.execModuleReset s
  | .stage0 => Sys2Proof.Machine.execStage0 s
  | .readychgClear => Sys2Proof.Machine.execReadychgClear s
  | .falconVerify => Sys2Proof.Machine.execFalconVerify s
  | .falconSign => Sys2Proof.Machine.execFalconSign s
  | .msnap => Sys2Proof.Machine.execMsnap s
  | .getVersion => Sys2Proof.Machine.execGetVersion s
  | .getCapabilities => Sys2Proof.Machine.execGetCapabilities s
  | .negotiateAlgorithms => Sys2Proof.Machine.execNegotiateAlgorithms s
  | .getCertificate => Sys2Proof.Machine.execGetCertificate s
  | .challenge => Sys2Proof.Machine.execChallenge s
  | .getMeasurements => Sys2Proof.Machine.execGetMeasurements s
  | .unsupportedRequest => Sys2Proof.Machine.execUnsupportedRequest s
  | .updctlStage => Sys2Proof.Machine.execUpdctlStage s
  | .standbyFirstStage => Sys2Proof.Machine.execStandbyFirstStage s
  | .updctlHandoff => Sys2Proof.Machine.execUpdctlHandoff s
  | .stateTableImport => Sys2Proof.Machine.execStateTableImport s
  | .handoffTimeout => Sys2Proof.Machine.execHandoffTimeout s
  | .updctlAbort => Sys2Proof.Machine.execUpdctlAbort s
  | .dbgctlNonce => Sys2Proof.Machine.execDbgctlNonce s
  | .dbgctlOpen => Sys2Proof.Machine.execDbgctlOpen s
  | .dbgctlClose => Sys2Proof.Machine.execDbgctlClose s
  | .debugNonceExpiry => Sys2Proof.Machine.execDebugNonceExpiry s
  | .nop => Sys2Proof.Machine.execNop s
  | .eret => Sys2Proof.Machine.execEret s
  | .wfe => Sys2Proof.Machine.execWfe s
  | .sev => Sys2Proof.Machine.execSev s
  | .qfence => Sys2Proof.Machine.execQfence s
  | .mlease => Sys2Proof.Machine.execMlease s
  | .mrelease => Sys2Proof.Machine.execMrelease s
  | .suspend => Sys2Proof.Machine.execSuspend s
  | .yield => Sys2Proof.Machine.execYield s
  | .retire => Sys2Proof.Machine.execRetire s
  | .loadQueueFill => Sys2Proof.Machine.execLoadQueueFill s
  | .arrayGrant => Sys2Proof.Machine.execArrayGrant s
  | .leaseGrantLimit => Sys2Proof.Machine.execLeaseGrantLimit s
  | .xend => Sys2Proof.Machine.execXend s
  | .maxupd => Sys2Proof.Machine.execMaxupd s
  | .expq => Sys2Proof.Machine.execExpq s
  | .rescale => Sys2Proof.Machine.execRescale s
  | .wait => Sys2Proof.Machine.execWait s
  | .done => Sys2Proof.Machine.execDone s
  | .stratusBlockAccept => Sys2Proof.Machine.execStratusBlockAccept s
  | .pickup => Sys2Proof.Machine.execPickup s
  | .frameEdge => Sys2Proof.Machine.execFrameEdge s
  | .forcedSuspend => Sys2Proof.Machine.execForcedSuspend s
  | .engineTrapDelivery => Sys2Proof.Machine.execEngineTrapDelivery s
  | .runPass => Sys2Proof.Machine.execRunPass s
  | .epilogueRun => Sys2Proof.Machine.execEpilogueRun s
  | .weightSetAdvertise => Sys2Proof.Machine.execWeightSetAdvertise s
  | .regionExecutionComplete => Sys2Proof.Machine.execRegionExecutionComplete s
  | .surrogateAnswer => Sys2Proof.Machine.execSurrogateAnswer s
  | .trainStep => Sys2Proof.Machine.execTrainStep s
  | .vfcmdLock => Sys2Proof.Machine.execVfcmdLock s
  | .vfcmdStart => Sys2Proof.Machine.execVfcmdStart s
  | .vfcmdStop => Sys2Proof.Machine.execVfcmdStop s
  | .lockInterface => Sys2Proof.Machine.execLockInterface s
  | .getInterfaceReport => Sys2Proof.Machine.execGetInterfaceReport s
  | .startInterface => Sys2Proof.Machine.execStartInterface s
  | .stopInterface => Sys2Proof.Machine.execStopInterface s
  | .getInterfaceState => Sys2Proof.Machine.execGetInterfaceState s
  | .unknownInterfaceRequest => Sys2Proof.Machine.execUnknownInterfaceRequest s
  | .commit => Sys2Proof.Machine.execCommit s
  | .preempt => Sys2Proof.Machine.execPreempt s
  | .release => Sys2Proof.Machine.execRelease s
  | .partitionReset => Sys2Proof.Machine.execPartitionReset s
  | .pcmdReclaim => Sys2Proof.Machine.execPcmdReclaim s
  | .qexport => Sys2Proof.Machine.execQexport s
  | .qimport => Sys2Proof.Machine.execQimport s
  | .inv2 => Sys2Proof.Machine.execInv2 s
  | .inv2w => Sys2Proof.Machine.execInv2w s
  | .inv1 => Sys2Proof.Machine.execInv1 s
  | .inv1c => Sys2Proof.Machine.execInv1c s
  | .invalidationComplete => Sys2Proof.Machine.execInvalidationComplete s
  | .migrate => Sys2Proof.Machine.execMigrate s
  | .migrateCopy => Sys2Proof.Machine.execMigrateCopy s
  | .faultRingEntryWrite => Sys2Proof.Machine.execFaultRingEntryWrite s
  | .qctlMap => Sys2Proof.Machine.execQctlMap s
  | .qctlStop => Sys2Proof.Machine.execQctlStop s
  | .qctlUnmap => Sys2Proof.Machine.execQctlUnmap s
  | .launch => Sys2Proof.Machine.execLaunch s
  | .signal => Sys2Proof.Machine.execSignal s
  | .waitsig => Sys2Proof.Machine.execWaitsig s
  | .waitsigReread => Sys2Proof.Machine.execWaitsigReread s
  | .collective => Sys2Proof.Machine.execCollective s
  | .bbcopy => Sys2Proof.Machine.execBbcopy s
  | .bbarm => Sys2Proof.Machine.execBbarm s
  | .reclaim => Sys2Proof.Machine.execReclaim s
  | .vfReset => Sys2Proof.Machine.execVfReset s
  | .mret => Sys2Proof.Machine.execMret s
  | .machineExternalInterrupt => Sys2Proof.Machine.execMachineExternalInterrupt s

end Sys2Proof.Machine
end

