-- ==== Sys2Proof/Machine/RiscvDecode.lean ====
section
/-! DEFINITION. The instructions of the management harts: RV64IMAC with Zicsr and Zifencei (R1), encoded as the RISC-V
unprivileged and privileged architectures give them; the manual names the set and not the encodings (log 100). A compressed
word has the effect of the word it stands for. -/

namespace Sys2Proof.Machine

/-- The operations of the integer and the M instructions. -/
inductive RvAlu where
  | add | sub | sll | slt | sltu | xor | srl | sra | or | and
  | mul | mulh | mulhsu | mulhu | div | divu | rem | remu
  deriving DecidableEq, Repr

/-- The read-modify-write operations of A. -/
inductive RvAmo where
  | swap | add | xor | and | or | min | max | minu | maxu
  deriving DecidableEq, Repr

/-- The conditions of branches. -/
inductive RvCond where
  | eq | ne | lt | ge | ltu | geu
  deriving DecidableEq, Repr

/-- What a CSR instruction does with its operand. -/
inductive RvCsr where
  | write | set | clear
  deriving DecidableEq, Repr

/-- An instruction. Registers are numbers 0 to 31; n is a width in bytes; `w`: the 32-bit form. -/
inductive RvOp where
  | lui (rd : Nat) (imm : Word64)
  | auipc (rd : Nat) (imm : Word64)
  | jal (rd : Nat) (off : Word64)
  | jalr (rd rs : Nat) (off : Word64)
  | branch (c : RvCond) (a b : Nat) (off : Word64)
  | load (rd rs : Nat) (off : Word64) (n : Nat) (signed : Bool)
  | store (rs src : Nat) (off : Word64) (n : Nat)
  | aluImm (f : RvAlu) (w : Bool) (rd rs : Nat) (imm : Word64)
  | alu (f : RvAlu) (w : Bool) (rd a b : Nat)
  /-- FENCE, FENCE.I, WFI and hints -/
  | nothing
  | ecall
  | ebreak
  | mret
  | csr (f : RvCsr) (imm : Bool) (rd src num : Nat)
  | lr (rd rs n : Nat)
  | sc (rd rs src n : Nat)
  | amo (f : RvAmo) (rd rs src n : Nat)
  deriving DecidableEq, Repr

/-- The low n bits of a number, sign-extended. -/
def sx (n x : Nat) : Word64 := (BitVec.ofNat n x).signExtend 64

/-- The bits of a word gathered into a number: each part is a lowest bit, a count and the place it takes. -/
def gatherBits (w : Nat) (ps : List (Nat × Nat × Nat)) : Nat := (ps.map (fun p => bitsAt w p.1 p.2.1 * 2 ^ p.2.2)).sum

/-! ### 32-bit words -/

def rvRd (w : Nat) : Nat := bitsAt w 7 5
def rvRs1 (w : Nat) : Nat := bitsAt w 15 5
def rvRs2 (w : Nat) : Nat := bitsAt w 20 5
def rvF3 (w : Nat) : Nat := bitsAt w 12 3
def rvF7 (w : Nat) : Nat := bitsAt w 25 7

def rvImmI (w : Nat) : Word64 := sx 12 (bitsAt w 20 12)
def rvImmS (w : Nat) : Word64 := sx 12 (gatherBits w [(25, 7, 5), (7, 5, 0)])
def rvImmB (w : Nat) : Word64 := sx 13 (gatherBits w [(31, 1, 12), (7, 1, 11), (25, 6, 5), (8, 4, 1)])
def rvImmU (w : Nat) : Word64 := sx 32 (bitsAt w 12 20 * 2 ^ 12)
def rvImmJ (w : Nat) : Word64 := sx 21 (gatherBits w [(31, 1, 20), (12, 8, 12), (20, 1, 11), (21, 10, 1)])

/-- The condition of a branch. -/
def rvCondOf : Nat → Option RvCond
  | 0 => some .eq
  | 1 => some .ne
  | 4 => some .lt
  | 5 => some .ge
  | 6 => some .ltu
  | 7 => some .geu
  | _ => none

/-- The operation of OP: function 3, then function 7. -/
def rvAluOf (f3 f7 : Nat) : Option RvAlu :=
  match f7, f3 with
  | 0, 0 => some .add
  | 0, 1 => some .sll
  | 0, 2 => some .slt
  | 0, 3 => some .sltu
  | 0, 4 => some .xor
  | 0, 5 => some .srl
  | 0, 6 => some .or
  | 0, 7 => some .and
  | 0x20, 0 => some .sub
  | 0x20, 5 => some .sra
  | 1, 0 => some .mul
  | 1, 1 => some .mulh
  | 1, 2 => some .mulhsu
  | 1, 3 => some .mulhu
  | 1, 4 => some .div
  | 1, 5 => some .divu
  | 1, 6 => some .rem
  | 1, 7 => some .remu
  | _, _ => none

/-- Which operations have a 32-bit form. -/
def RvAlu.hasW : RvAlu → Bool
  | .add | .sub | .sll | .srl | .sra | .mul | .div | .divu | .rem | .remu => true
  | _ => false

/-- OP and OP-32. -/
def rvRegOp (w32 : Bool) (w : Nat) : Option RvOp :=
  match rvAluOf (rvF3 w) (rvF7 w) with
  | some f => if w32 && !f.hasW then none else some (.alu f w32 (rvRd w) (rvRs1 w) (rvRs2 w))
  | none => none

/-- OP-IMM and OP-IMM-32. A shift amount has six bits, five in the 32-bit form. -/
def rvImmOp (w32 : Bool) (w : Nat) : Option RvOp :=
  let n := if w32 then 5 else 6
  let top := bitsAt w (20 + n) (12 - n)
  let shift := fun (f : RvAlu) => some (RvOp.aluImm f w32 (rvRd w) (rvRs1 w) (sx 7 (bitsAt w 20 n)))
  let plain := fun (f : RvAlu) => if w32 && !f.hasW then none else some (RvOp.aluImm f w32 (rvRd w) (rvRs1 w) (rvImmI w))
  match rvF3 w with
  | 0 => plain .add
  | 1 => if top = 0 then shift .sll else none
  | 2 => plain .slt
  | 3 => plain .sltu
  | 4 => plain .xor
  | 5 => if top = 0 then shift .srl else if top = 2 ^ (10 - n) then shift .sra else none
  | 6 => plain .or
  | _ => plain .and

/-- LOAD: the width and the sign by function 3. -/
def rvLoad (w : Nat) : Option RvOp :=
  let f := rvF3 w
  if f = 7 then none else some (.load (rvRd w) (rvRs1 w) (rvImmI w) (2 ^ (f % 4)) (f < 4))

/-- The operation of an AMO word by its upper five bits. -/
def rvAmoOf : Nat → Option RvAmo
  | 0x00 => some .add
  | 0x01 => some .swap
  | 0x04 => some .xor
  | 0x08 => some .or
  | 0x0C => some .and
  | 0x10 => some .min
  | 0x14 => some .max
  | 0x18 => some .minu
  | 0x1C => some .maxu
  | _ => none

/-- AMO: LR, SC and the read-modify-write words, of 4 and 8 bytes. -/
def rvAtomic (w : Nat) : Option RvOp :=
  let n := 2 ^ rvF3 w
  if rvF3 w ≠ 2 ∧ rvF3 w ≠ 3 then none
  else if bitsAt w 27 5 = 2 then (if rvRs2 w = 0 then some (.lr (rvRd w) (rvRs1 w) n) else none)
  else if bitsAt w 27 5 = 3 then some (.sc (rvRd w) (rvRs1 w) (rvRs2 w) n)
  else match rvAmoOf (bitsAt w 27 5) with
    | some f => some (.amo f (rvRd w) (rvRs1 w) (rvRs2 w) n)
    | none => none

/-- The operation of a CSR word by the low two bits of function 3. -/
def rvCsrOf : Nat → Option RvCsr
  | 1 => some .write
  | 2 => some .set
  | 3 => some .clear
  | _ => none

/-- SYSTEM: ECALL, EBREAK, MRET, WFI and the CSR words. -/
def rvSystem (w : Nat) : Option RvOp :=
  if rvF3 w = 0 then
    if w = 0x00000073 then some .ecall else if w = 0x00100073 then some .ebreak
    else if w = 0x30200073 then some .mret else if w = 0x10500073 then some .nothing else none
  else match rvCsrOf (rvF3 w % 4) with
    | some f => some (.csr f (4 ≤ rvF3 w) (rvRd w) (rvRs1 w) (bitsAt w 20 12))
    | none => none

/-- A 32-bit word. -/
def rvDecode32 (w : Nat) : Option RvOp :=
  match bitsAt w 0 7 with
  | 0x37 => some (.lui (rvRd w) (rvImmU w))
  | 0x17 => some (.auipc (rvRd w) (rvImmU w))
  | 0x6F => some (.jal (rvRd w) (rvImmJ w))
  | 0x67 => if rvF3 w = 0 then some (.jalr (rvRd w) (rvRs1 w) (rvImmI w)) else none
  | 0x63 => (rvCondOf (rvF3 w)).map (fun c => .branch c (rvRs1 w) (rvRs2 w) (rvImmB w))
  | 0x03 => rvLoad w
  | 0x23 => if rvF3 w < 4 then some (.store (rvRs1 w) (rvRs2 w) (rvImmS w) (2 ^ rvF3 w)) else none
  | 0x13 => rvImmOp false w
  | 0x1B => rvImmOp true w
  | 0x33 => rvRegOp false w
  | 0x3B => rvRegOp true w
  | 0x0F => if rvF3 w < 2 then some .nothing else none
  | 0x2F => rvAtomic w
  | 0x73 => rvSystem w
  | _ => none

/-! ### 16-bit words -/

/-- The registers x8 to x15 of a three-bit field. -/
def rvShort (w lo : Nat) : Nat := 8 + bitsAt w lo 3

/-- The six-bit immediate of the CI form. -/
def immCI (w : Nat) : Nat := gatherBits w [(12, 1, 5), (2, 5, 0)]

/-- Offsets of C.LW and C.SW, and of C.LD and C.SD. -/
def offC4 (w : Nat) : Word64 := BitVec.ofNat 64 (gatherBits w [(10, 3, 3), (6, 1, 2), (5, 1, 6)])
def offC8 (w : Nat) : Word64 := BitVec.ofNat 64 (gatherBits w [(10, 3, 3), (5, 2, 6)])

/-- Quadrant 0. -/
def rvDecodeC0 (w : Nat) : Option RvOp :=
  let k := gatherBits w [(11, 2, 4), (7, 4, 6), (6, 1, 2), (5, 1, 3)]
  match bitsAt w 13 3 with
  | 0 => if k = 0 then none else some (.aluImm .add false (rvShort w 2) 2 (BitVec.ofNat 64 k))
  | 2 => some (.load (rvShort w 2) (rvShort w 7) (offC4 w) 4 true)
  | 3 => some (.load (rvShort w 2) (rvShort w 7) (offC8 w) 8 true)
  | 6 => some (.store (rvShort w 7) (rvShort w 2) (offC4 w) 4)
  | 7 => some (.store (rvShort w 7) (rvShort w 2) (offC8 w) 8)
  | _ => none

/-- The register operations of quadrant 1. -/
def rvShortOp (w : Nat) : Option RvOp :=
  let d := rvShort w 7
  let op := fun (f : RvAlu) (w32 : Bool) => some (RvOp.alu f w32 d d (rvShort w 2))
  match bitsAt w 12 1, bitsAt w 5 2 with
  | 0, 0 => op .sub false
  | 0, 1 => op .xor false
  | 0, 2 => op .or false
  | 0, 3 => op .and false
  | 1, 0 => op .sub true
  | 1, 1 => op .add true
  | _, _ => none

/-- Shifts, C.ANDI and the register operations of quadrant 1. -/
def rvArithC (w : Nat) : Option RvOp :=
  let d := rvShort w 7
  match bitsAt w 10 2 with
  | 0 => some (.aluImm .srl false d d (BitVec.ofNat 64 (immCI w)))
  | 1 => some (.aluImm .sra false d d (BitVec.ofNat 64 (immCI w)))
  | 2 => some (.aluImm .and false d d (sx 6 (immCI w)))
  | _ => rvShortOp w

/-- C.ADDI16SP and C.LUI. -/
def rvLuiC (w : Nat) : Option RvOp :=
  if immCI w = 0 then none
  else if rvRd w = 2 then
    some (.aluImm .add false 2 2 (sx 10 (gatherBits w [(12, 1, 9), (6, 1, 4), (5, 1, 6), (3, 2, 7), (2, 1, 5)])))
  else some (.lui (rvRd w) (sx 18 (immCI w * 2 ^ 12)))

/-- Quadrant 1. -/
def rvDecodeC1 (w : Nat) : Option RvOp :=
  let d := rvRd w
  let z := fun (c : RvCond) =>
    some (RvOp.branch c (rvShort w 7) 0 (sx 9 (gatherBits w [(12, 1, 8), (10, 2, 3), (5, 2, 6), (3, 2, 1), (2, 1, 5)])))
  match bitsAt w 13 3 with
  | 0 => some (.aluImm .add false d d (sx 6 (immCI w)))
  | 1 => if d = 0 then none else some (.aluImm .add true d d (sx 6 (immCI w)))
  | 2 => some (.aluImm .add false d 0 (sx 6 (immCI w)))
  | 3 => rvLuiC w
  | 4 => rvArithC w
  | 5 => some (.jal 0 (sx 12 (gatherBits w
      [(12, 1, 11), (11, 1, 4), (9, 2, 8), (8, 1, 10), (7, 1, 6), (6, 1, 7), (3, 3, 1), (2, 1, 5)])))
  | 6 => z .eq
  | _ => z .ne

/-- C.JR, C.MV, C.EBREAK, C.JALR and C.ADD. -/
def rvJumpC (w : Nat) : Option RvOp :=
  let d := rvRd w
  let r := bitsAt w 2 5
  if bitsAt w 12 1 = 0 then
    (if r ≠ 0 then some (.alu .add false d 0 r) else if d = 0 then none else some (.jalr 0 d 0))
  else if r ≠ 0 then some (.alu .add false d d r)
  else if d = 0 then some .ebreak else some (.jalr 1 d 0)

/-- Quadrant 2. -/
def rvDecodeC2 (w : Nat) : Option RvOp :=
  let d := rvRd w
  let r := bitsAt w 2 5
  match bitsAt w 13 3 with
  | 0 => some (.aluImm .sll false d d (BitVec.ofNat 64 (immCI w)))
  | 2 => if d = 0 then none
    else some (.load d 2 (BitVec.ofNat 64 (gatherBits w [(12, 1, 5), (4, 3, 2), (2, 2, 6)])) 4 true)
  | 3 => if d = 0 then none
    else some (.load d 2 (BitVec.ofNat 64 (gatherBits w [(12, 1, 5), (5, 2, 3), (2, 3, 6)])) 8 true)
  | 4 => rvJumpC w
  | 6 => some (.store 2 r (BitVec.ofNat 64 (gatherBits w [(9, 4, 2), (7, 2, 6)])) 4)
  | 7 => some (.store 2 r (BitVec.ofNat 64 (gatherBits w [(10, 3, 3), (7, 3, 6)])) 8)
  | _ => none

/-- Is a word 32 bits long: its low two bits are ones? -/
def rvLong (w : Nat) : Bool := w % 4 = 3

/-- The instruction of a word; none where it is not implemented (R455). -/
def rvDecode (w : Nat) : Option RvOp :=
  match w % 4 with
  | 0 => rvDecodeC0 w
  | 1 => rvDecodeC1 w
  | 2 => rvDecodeC2 w
  | _ => rvDecode32 w

end Sys2Proof.Machine
end

