-- ==== Sys2Proof/Machine/Riscv.lean ====
section
/-! DEFINITION. One instruction of a management hart (R1, R19, R20, R454, R455): fetch, arithmetic, loads and stores with
the register window's operations, CSRs, atomics, traps. Where the manual names only the RISC-V standard, the standard's
behaviour is taken (log 100). -/

namespace Sys2Proof.Machine

/-! ### Arithmetic -/

/-- An operation on n-bit values; a shift takes its amount modulo n; a division by zero gives all ones and the dividend. -/
def RvAlu.apply {n : Nat} (f : RvAlu) (x y : BitVec n) : BitVec n :=
  let wide := fun (a b : BitVec (2 * n)) => ((a * b) >>> n).setWidth n
  let k := y.toNat % n
  match f with
  | .add => x + y
  | .sub => x - y
  | .sll => x <<< k
  | .slt => if x.slt y then 1 else 0
  | .sltu => if x.ult y then 1 else 0
  | .xor => x ^^^ y
  | .srl => x >>> k
  | .sra => x.sshiftRight k
  | .or => x ||| y
  | .and => x &&& y
  | .mul => x * y
  | .mulh => wide (x.signExtend (2 * n)) (y.signExtend (2 * n))
  | .mulhsu => wide (x.signExtend (2 * n)) (y.setWidth (2 * n))
  | .mulhu => wide (x.setWidth (2 * n)) (y.setWidth (2 * n))
  | .div => if y = 0 then BitVec.allOnes n else x.sdiv y
  | .divu => if y = 0 then BitVec.allOnes n else x / y
  | .rem => if y = 0 then x else x.srem y
  | .remu => if y = 0 then x else x % y

/-- An operation of 64 bits, or of the low 32 bits with the result sign-extended. -/
def rvAlu (f : RvAlu) (w32 : Bool) (x y : Word64) : Word64 :=
  if w32 then (f.apply (x.setWidth 32) (y.setWidth 32)).signExtend 64 else f.apply x y

/-- Does a branch condition hold? -/
def RvCond.holds (c : RvCond) (x y : Word64) : Bool :=
  match c with
  | .eq => x = y
  | .ne => x ≠ y
  | .lt => x.slt y
  | .ge => !x.slt y
  | .ltu => x.ult y
  | .geu => !x.ult y

/-- What an AMO of n bits stores: the old value and the operand. -/
def RvAmo.apply {n : Nat} (f : RvAmo) (x y : BitVec n) : BitVec n :=
  match f with
  | .swap => y
  | .add => x + y
  | .xor => x ^^^ y
  | .and => x &&& y
  | .or => x ||| y
  | .min => if x.slt y then x else y
  | .max => if x.slt y then y else x
  | .minu => if x.ult y then x else y
  | .maxu => if x.ult y then y else x

/-- Bytes as a register holds them after a load. -/
def loaded (bs : List Byte) (signed : Bool) : Word64 :=
  if signed then sx (8 * bs.length) (leNat bs) else BitVec.ofNat 64 (leNat bs)

/-! ### The operations behind the window's control registers -/

/-- The operation that a write of a control register performs: the word's offset and the value written, zero in the bytes
that the write leaves out (R19, R32, R43, R49, R406, R421, R432). -/
def State.windowOp (s : State) (o : Nat) (v : Nat) : Option Instr :=
  let pick := fun (l : List Instr) (n : Nat) => if n = 0 then none else l[n - 1]?
  match o with
  | 0x000 =>
    let c := BitVec.ofNat 1 (bitsAt v 8 1)
    pick [.hashInit c, .hashAbsorb c, .hashSqueeze c] (v % 4)
  | 0x100 => pick [.falconVerify, .falconSign] (v % 4)
  | 0x200 => some (.measurementExtend (BitVec.ofNat 4 v))
  | 0x708 => some (.mbxslenSend (BitVec.ofNat 13 v))
  | 0x720 => some (.hartgo (BitVec.ofNat 64 v))
  | 0x728 => some .msnap
  | 0x768 => pick [.vfcmdLock, .vfcmdStart, .vfcmdStop] (v % 4)
  | 0x780 => some (.ifslenSend (BitVec.ofNat 13 v))
  | 0x900 => if v % 2 = 1 then some .readychgClear else none
  | 0x918 => pick [.updctlStage, .updctlHandoff, .updctlAbort] (v % 4)
  | 0xA40 => pick [.dbgctlNonce, .dbgctlOpen, .dbgctlClose] (v % 4)
  | 0xB18 =>
    let t := BitVec.ofNat 56 v
    pick [.s2resumeRetry t, .s2resumeReflect t, .s2resumeEnd t] (bitsAt v 62 2 + 1)
  | 0xB40 =>
    if v % 2 = 0 then none
    else some (([.inv2, .inv2, .inv2w, .migrate, .inv1, .inv1c] : List Instr).getD (Sparse.get s.outer.xl.desc 0 0).toNat .inv2)
  | 0xC10 => pick [.commit, .preempt, .release, .partitionReset, .pcmdReclaim, .qexport, .qimport] (v % 8)
  | _ => none

/-- Must a write of the word at offset o touch its lowest byte to reach the control field there? HARTGO and S2RESUME are
whole words, MSNAP takes any write. -/
def opByte (o : Nat) : Bool := !(o = 0x720 || o = 0x728 || o = 0xB18)

/-- The operation of one part of a store, if it has one. -/
def State.partOp (s : State) (h : HartId) (q : Nat × Nat × List Byte) : Option (Instr × Nat) :=
  match hartPlace h q.1 with
  | .window o =>
    if opByte o && q.2.1 != 0 then none
    else
      let v := (overWord 0 q.2.1 q.2.2).toNat
      (s.windowOp o v).map (fun i => (i, bitsAt v 4 4))
  | _ => none

/-- The state in which a control register's operation acts: for the Zenith's own ports, PCMD naming the partition. -/
def State.asPort (s : State) (part : Nat) : State :=
  { s with actor := { s.actor with zenith := true, debugPage := false, part := part } }

/-- Does the operation keep the writing hart stalled for now (R45, R49, R406, R432)? -/
def State.opStalls (s : State) (i : Instr) : Bool :=
  let p := s.actor.part
  match i with
  | .vfcmdStop => s.actsAs 1 && !s.canAbort s.selected
  | .dbgctlOpen => s.debugActs && s.openFailure = 0 && !s.canWipe s.mgmt.dbg.tier.toNat (s.mgmt.dbg.target.toNat / 2 ^ 24)
  | .commit =>
    let d := s.readDesc s.mgmt.pcAddr.toNat
    s.zenithActs && s.commitReason p d = 0 && (!s.canSaveAll p (s.commitCores d) || s.closesBusy p d)
  | .preempt | .partitionReset => s.zenithActs && (s.part p).present && !s.canSaveAll p (s.part p).cores
  | .qexport => s.zenithActs && !((s.gateQueue s.pcVf s.pcQueue).formFor s.pcVf).queueIdle s.pcVf s.pcQueue
  | _ => false

/-- The next state of an operation; none is a stop, for the operations of the window answer with a next state. -/
def nextOf (s : State) (r : Host.Outcome State Fault Refusal) : State := match r with | .next t => t | _ => s

/-- Performs the operation of a part of a store. -/
def State.doPart (h : HartId) (s : State) (q : Nat × Nat × List Byte) : State :=
  match s.partOp h q with
  | none => s
  | some (i, p) => { nextOf s (exec i (s.asPort p)) with actor := s.actor }

/-! ### Loads and stores -/

/-- What an instruction comes to: done, an exception with mcause's event and mtval, or a stall in which it has no effect
yet. -/
inductive HartEnd (α : Type) where
  | ok (a : α)
  | trap (cause : HartCause) (tval : Word64)
  | stall

/-- Does anything respond at every byte of an access (R455)? -/
def responds (h : HartId) (a n : Nat) : Bool := (upFrom a n).all (fun x => hartPlace h x != .nowhere)

/-- Does an access touch the word at an offset of the window? -/
def touches (o a n : Nat) : Bool := a < rotBase + o + 8 && rotBase + o < a + n

/-- Does a load wait for a request: MBXRLEN by hart 0 of the Zenith, IFRLEN by hart 1 (R20, R406)? -/
def State.loadStalls (s : State) (a n : Nat) : Bool :=
  (touches 0x700 a n && s.actsAs 0 && s.mgmt.mbx.pending.isNone)
    || (touches 0x778 a n && s.actsAs 1 && s.mgmt.ifm.pending.isNone)

/-- A read of ACCVAL clears the counter (R421). -/
def State.clearAccval (s : State) (a n : Nat) : State :=
  if touches 0xB68 a n && s.zenithActs then
    { s with outer := { s.outer with accesses := Sparse.erase s.outer.accsel.toNat s.outer.accesses } }
  else s

/-- A load of n bytes: what it reads, and the state after it. -/
def State.hartLoad (s : State) (a : Word64) (n : Nat) : HartEnd (State × List Byte) :=
  if !responds s.hid a.toNat n then .trap .loadAccess a
  else if s.loadStalls a.toNat n then .stall
  else .ok ((s.clearAccval a.toNat n).drew n, s.hartBytes s.hid a.toNat n)

/-- What an LR of another hart of the same memory reserved, a store of n bytes at a takes away. -/
def Hart.lose (x : Hart) (a n : Nat) : Hart :=
  match x.resv with
  | some (b, bs) => if a < b + bs.length && b < a + n then { x with resv := none } else x
  | none => x

/-- The reservations of the other harts after a store: those of its own complex, and in shared memory of both. -/
def State.loseResv (s : State) (h : HartId) (a n : Nat) : State :=
  s.modMgmt (fun m => { m with harts := m.harts.map (fun (q : Nat × Hart) =>
    if q.1 ≠ hartNo h ∧ (q.1 / 4 = h.cplx.val ∨ Config.hartShared a) then (q.1, q.2.lose a n) else q) })

/-- A store: its bytes reach memory and plain registers, and the control registers that it writes perform their operations,
word by word in ascending order (R19, R20). -/
def State.hartStore (s : State) (a : Word64) (bs : List Byte) : HartEnd State :=
  let h := s.hid
  let ws := wordWrites a.toNat bs
  if !responds h a.toNat bs.length then .trap .storeAccess a
  else if ws.any (fun q => match s.partOp h q with | some (i, p) => (s.asPort p).opStalls i | none => false) then .stall
  else .ok (ws.foldl (fun t q => State.doPart h (State.putHartWord h t q) q) (s.loseResv h a.toNat bs.length))

/-! ### Instructions -/

/-- Changes the acting hart, whether or not its own store has just stalled it in a HANDOFF. -/
def State.modHid (s : State) (f : Hart → Hart) : State := s.modHart s.hid f

/-- The hart goes on at an address with one instruction more retired. -/
def Hart.retire (x : Hart) (pc : Word64) : Hart := { x with pc := pc, minstret := x.minstret + 1 }

/-- An instruction of `len` bytes is done and writes a register. -/
def State.rvDone (s : State) (len : Nat) (rd : Nat) (v : Word64) : State :=
  s.modHid (fun x => (x.setX rd v).retire (x.pc + BitVec.ofNat 64 len))

/-- A CSR instruction: the old value goes to rd, the new one to the CSR where the instruction writes (R454); a CSR that is not
implemented, or a write of a read-only one, is an illegal instruction (R455). -/
def State.rvCsr (s : State) (f : RvCsr) (imm : Bool) (rd src num len : Nat) (raw : Word64) : HartEnd State :=
  let y := if imm then BitVec.ofNat 64 src else s.hart.getX src
  match s.readCsr s.hid num with
  | none => .trap .illegal raw
  | some old =>
    let new := match f with | .write => y | .set => old ||| y | .clear => old &&& ~~~y
    if f ≠ .write ∧ src = 0 then .ok (s.rvDone len rd old)
    else match s.writeCsr s.hid num new with
      | none => .trap .illegal raw
      | some t =>
        let u := t.rvDone len rd old
        .ok (if num = 0xB02 then u.modHid (fun x => { x with minstret := (t.hartOf t.hid).minstret }) else u)

/-- LR: a load that reserves the bytes it reads. -/
def State.rvLr (s : State) (rd : Nat) (a : Word64) (n len : Nat) : HartEnd State :=
  if a.toNat % n ≠ 0 then .trap .loadMisaligned a
  else match s.hartLoad a n with
    | .ok (t, bs) => .ok ((t.rvDone len rd (loaded bs true)).modHid (fun x => { x with resv := some (a.toNat, bs) }))
    | .trap c v => .trap c v
    | .stall => .stall

/-- SC: stores and answers 0 while the reservation stands and the bytes are as they were read, else answers 1; the
reservation ends. -/
def State.rvSc (s : State) (rd src : Nat) (a : Word64) (n len : Nat) : HartEnd State :=
  if a.toNat % n ≠ 0 then .trap .storeMisaligned a
  else if !responds s.hid a.toNat n then .trap .storeAccess a
  else
    let free := fun (t : State) => t.modHid (fun x => { x with resv := none })
    if s.hart.resv = some (a.toNat, s.hartBytes s.hid a.toNat n) then
      match s.hartStore a (leBytes (s.hart.getX src).toNat n) with
      | .ok t => .ok (free (t.rvDone len rd 0))
      | .trap c v => .trap c v
      | .stall => .stall
    else .ok (free (s.rvDone len rd 1))

/-- An AMO: the old value goes to rd, the result to memory, in one step. -/
def State.rvAmo (s : State) (f : RvAmo) (rd src : Nat) (a : Word64) (n len : Nat) : HartEnd State :=
  let y := s.hart.getX src
  if a.toNat % n ≠ 0 then .trap .storeMisaligned a
  else if !responds s.hid a.toNat n then .trap .storeAccess a
  else match s.hartLoad a n with
    | .ok (t, bs) =>
      let r := (f.apply (BitVec.ofNat (8 * n) (leNat bs)) (BitVec.ofNat (8 * n) y.toNat)).toNat
      (match t.hartStore a (leBytes r n) with
      | .ok u => .ok (u.rvDone len rd (loaded bs true))
      | .trap c v => .trap c v
      | .stall => .stall)
    | .trap c v => .trap c v
    | .stall => .stall

/-- One instruction of the acting hart, `len` bytes long. -/
def State.rvExec (s : State) (op : RvOp) (len : Nat) (raw : Word64) : HartEnd State :=
  let x := s.hart
  let pc := x.pc
  let go := fun (t : State) (a : Word64) => t.modHid (fun y => y.retire a)
  match op with
  | .lui rd imm => .ok (s.rvDone len rd imm)
  | .auipc rd imm => .ok (s.rvDone len rd (pc + imm))
  | .jal rd off => .ok (go (s.modHid (fun y => y.setX rd (pc + BitVec.ofNat 64 len))) (pc + off))
  | .jalr rd rs off =>
    .ok (go (s.modHid (fun y => y.setX rd (pc + BitVec.ofNat 64 len))) (((x.getX rs + off) >>> 1) <<< 1))
  | .branch c a b off => .ok (go s (if c.holds (x.getX a) (x.getX b) then pc + off else pc + BitVec.ofNat 64 len))
  | .load rd rs off n signed => (match s.hartLoad (x.getX rs + off) n with
    | .ok (t, bs) => .ok (t.rvDone len rd (loaded bs signed))
    | .trap c v => .trap c v
    | .stall => .stall)
  | .store rs src off n => (match s.hartStore (x.getX rs + off) (leBytes (x.getX src).toNat n) with
    | .ok t => .ok (t.rvDone len 0 0)
    | .trap c v => .trap c v
    | .stall => .stall)
  | .aluImm f w rd rs imm => .ok (s.rvDone len rd (rvAlu f w (x.getX rs) imm))
  | .alu f w rd a b => .ok (s.rvDone len rd (rvAlu f w (x.getX a) (x.getX b)))
  | .nothing => .ok (s.rvDone len 0 0)
  | .ecall => .trap .ecall 0
  | .ebreak => .trap .breakpoint pc
  | .mret => .ok (s.modHid Hart.trapReturn)
  | .csr f imm rd src num => s.rvCsr f imm rd src num len raw
  | .lr rd rs n => s.rvLr rd (x.getX rs) n len
  | .sc rd rs src n => s.rvSc rd src (x.getX rs) n len
  | .amo f rd rs src n => s.rvAmo f rd src (x.getX rs) n len

/-! ### Fetch and the step of a hart -/

/-- A byte that a hart fetches; none where no memory responds, and in the window (R455). -/
def State.fetchByte (s : State) (h : HartId) (a : Nat) : Option Byte :=
  match hartPlace h a with
  | .rom b => some b
  | .mem l => some (s.mem.byte l)
  | _ => none

/-- The two bytes at an address as a number. -/
def State.fetchHalf (s : State) (h : HartId) (a : Nat) : Option Nat :=
  match s.fetchByte h a, s.fetchByte h (a + 1) with
  | some x, some y => some (leNat [x, y])
  | _, _ => none

/-- The word at a hart's pc and its length in bytes, or the address of the part that does not respond. -/
def State.fetchHart (s : State) (h : HartId) (a : Nat) : Except Nat (Nat × Nat) :=
  match s.fetchHalf h a with
  | none => .error a
  | some x =>
    if !rvLong x then .ok (x, 2)
    else match s.fetchHalf h (a + 2) with
      | none => .error (a + 2)
      | some y => .ok (x + y * 2 ^ 16, 4)

/-- An exception on the acting hart (R455). -/
def State.rvTrap (s : State) (c : HartCause) (tval : Word64) : State :=
  s.modHid (fun x => x.trapTo (hartCauseCode c) tval)

/-- One step of the acting hart: the external interrupt where it is due, else its next instruction. A hart that waits in
ROM or stands in its HANDOFF write does nothing (R31, R45). -/
def State.hartStep (s : State) : State :=
  let x := s.hart
  if !x.running || s.stalled s.hid then s
  else if s.meip s.hid && x.meie && x.mieBit then s.modHid (fun y => y.trapTo meiCause 0)
  else match s.fetchHart s.hid x.pc.toNat with
    | .error a => s.rvTrap .fetchAccess (reg a)
    | .ok (w, len) => match rvDecode w with
      | none => s.rvTrap .illegal (reg w)
      | some op => match s.rvExec op len (reg w) with
        | .ok t => t
        | .trap c v => s.rvTrap c v
        | .stall => s

end Sys2Proof.Machine
end

