-- ==== Sys2Proof/Machine/Step.lean ====
section
/-! DEFINITION. One step of the device: the next turn of the schedule, a word of an engine, an event, or an instruction of a
management hart. -/

namespace Sys2Proof.Machine

/-- The turn that comes next; with an empty schedule, the sequencer of the unit that acted last. -/
def State.turn (s : State) : Turn := s.sched.headD (.word .sequencer s.actor)

/-- The unit that acts in a turn. -/
def Turn.actor : Turn → Actor
  | .word _ a => a
  | .event _ a => a
  | .hart a => a

/-- The state in which a turn acts: the schedule moved on, the unit named, time passed. -/
def State.begin (s : State) : State :=
  { s with sched := s.sched.tail, actor := s.turn.actor, time := s.time + Config.stepCycles s.draws, draws := s.draws + 1 }

/-- What a turn runs in a state; none when its engine has nothing to do, and for a management hart's turn. -/
def State.todo (s : State) (t : Turn) : Option Instr :=
  match t with
  | .word e _ => s.pick e
  | .event i _ => some i
  | .hart _ => none

/-- One step. A stopped module answers only a reset (R52). -/
def step (s : State) : Host.Outcome State Fault Refusal :=
  if s.stopped ∧ s.turn ≠ .event .moduleReset s.turn.actor ∧ s.turn ≠ .event .powerOnReset s.turn.actor then
    .fault .moduleStopped
  else
    match s.turn with
    | .hart _ => .next s.begin.hartStep
    | t => match s.begin.todo t with
      | some i => exec i s.begin
      | none => .next s.begin

/-- The state with one instruction word placed as the next thing to run: an image of one word, a running continuation,
and for a word of another engine than the sequencer its queued block (log 9). -/
def State.withFetchWord (s : State) (nbits w : Nat) : State :=
  let w := w % 2 ^ nbits
  let e := engineOfWord w
  let n := placeCore e
  let s := s.poke (hbmLoc 0 0x100000) (imageBytes (oneWordImage e w))
  let s := s.modPart 0 (fun p => { p with images := Sparse.set 1 ⟨0x100000, 13, 0⟩ p.images })
  let s := s.setCore n { s.core n with run := some placedRun, pc := 0, eng := placedEng e }
  let c := s.cluster (clusterOf n)
  let c := if e = .matrix then { c with granted := some (.core n), claims := Marks.add n c.claims } else c
  let c := if e = .stratus then { c with 
      strat := some { freshStrat n 0 [] 1 0 0x3F800000 with checked := true }, store := some ⟨0, 1, [w]⟩ } else c
  let s := s.setCluster (clusterOf n) c
  { s with sched := [.word e { Actor.first with core := n }] }

end Sys2Proof.Machine
end

