-- ==== Sys2Proof/Machine/Scope.lean ====
section
/-! DEFINITION. Parties and scopes (R307, R308, R320): the set of parties that a scope code of FENCE and AMO names, as
seen from the issuing core. -/

namespace Sys2Proof.Machine

/-- Who may observe an access, by the place it stands in (R307, R308). -/
inductive Observer where
  /-- the continuation running on a core, with its engines -/
  | core (n : Nat)
  /-- the array, Cumulus, the Stratus unit and Mirage of a cluster -/
  | units (cluster : Nat)
  /-- a party of another module that reaches a partition's memory -/
  | away (part : Nat)
  /-- another module of the pod, apart from the parties it has in a partition -/
  | pod
  | host
  /-- a management complex of this module -/
  | complex (n : Nat)
  deriving DecidableEq, Repr

/-- The cluster of an observer on this module. -/
def Observer.cluster? : Observer → Option Nat
  | .core n => some (clusterOf n)
  | .units k => some k
  | _ => none

/-- The partition whose memory an observer reaches; the host and the pod reach one through .sys. -/
def State.observerPart (s : State) : Observer → Option Nat
  | .core n => s.ownerOf (clusterOf n)
  | .units k => s.ownerOf k
  | .away p => some p
  | _ => none

/-- Is an observer a party on this module, or one of its units (R307)? -/
def Observer.onModule : Observer → Bool
  | .core _ | .units _ | .complex _ => true
  | _ => false

/-- Does the scope of a code, seen from a core, hold an observer (R308)? `.sys` holds the host and every module of the pod,
this one included. -/
def State.inScope (s : State) (core code : Nat) (o : Observer) : Bool :=
  let home := clusterOf core
  match code with
  | 0 => o = .core core
  | 1 => o.cluster? = some home
  | 2 => o.cluster?.map dieOf = some (dieOf home)
  | 3 => o.onModule
  | 4 => (s.ownerOf home).isSome && s.observerPart o = s.ownerOf home
  | 5 => true
  | _ => false

end Sys2Proof.Machine
end

