-- ==== Sys2Proof/Safety.lean ====
section
/-! DEFINITION. What a safe run is, and the terms in which claims say what an instruction answers, what it changes and
what it leaves alone. -/

namespace Sys2Proof

open Sys2Proof.Machine

/-- An outcome that goes on. -/
def Goes (o : Host.Outcome State Fault Refusal) : Prop := ∃ t, o = .next t

/-- A state from which the next step goes on to a state whose memory is in canonical form. -/
def SafeStep (s : State) : Prop := ∃ t, step s = .next t ∧ t.mem.wf = true

/-- The instruction answers a next state, and that state is as P says. -/
def Answers (i : Instr) (s : State) (P : State → Prop) : Prop := ∃ t, exec i s = .next t ∧ P t

/-- Bytes at the locations that `keep` names read as before under the key they are held under, which is the key they were
held under, but in a 16-byte block with other bytes: there a write merges what it leaves alone as it reads under the
writer's key (R194). -/
def SameBytes (s t : State) (keep : Nat → Prop) : Prop :=
  ∀ l, keep l → t.mem.byte l = s.mem.byteUnder (t.mem.keyAt l) l
    ∧ (t.mem.keyAt l = s.mem.keyAt l ∨ ∃ x, ¬ keep x ∧ x / 16 = l / 16)

/-- Every byte, tag, full bit, pending mark and poisoned unit of the memory is as before. -/
def SameMemory (s t : State) : Prop :=
  SameBytes s t (fun _ => True) ∧ t.mem.tags = s.mem.tags ∧ t.mem.full = s.mem.full ∧ t.mem.pend = s.mem.pend
    ∧ t.mem.poison = s.mem.poison

/-- Nothing but the cores, the memory and the partitions may differ: clusters, management complexes, what lies outside
the module, the clock, the schedule and what unordered writes have replaced are as before. -/
def SameSurroundings (s t : State) : Prop :=
  t.clusters = s.clusters ∧ t.mgmt = s.mgmt ∧ t.outer = s.outer ∧ t.stopped = s.stopped ∧ t.time = s.time
    ∧ t.sched = s.sched ∧ t.actor = s.actor ∧ t.draws = s.draws ∧ t.older = s.older

/-- Every core but the acting one is as before. -/
def OtherCoresSame (s t : State) : Prop := ∀ n, n ≠ s.actor.core → t.core n = s.core n

/-- Every other core is as before but for its event latch, which may have been set (R321). -/
def OtherCoresLatched (s t : State) : Prop :=
  ∀ n, n ≠ s.actor.core → t.core n = s.core n ∨ t.core n = (s.core n).latch

/-- Waiters of other cores, sequencers and engines, wait as before. -/
def OtherWaitersSame (s t : State) : Prop :=
  ∀ w, (∀ e, w.2 ≠ waiterOf s.actor.core e) → (w ∈ t.waiters ↔ w ∈ s.waiters)

/-- The acting core becomes c; nothing else of the machine changes. -/
def OnlyCore (s t : State) (c : Core) : Prop :=
  SameMemory s t ∧ SameSurroundings s t ∧ t.parts = s.parts ∧ OtherCoresSame s t ∧ OtherWaitersSame s t ∧ t.me = c

/-- g_d, unless it is g0, takes v, the core goes to its next word, and nothing else changes. -/
def WroteG (s t : State) (d : BitVec 5) (v : Word64) : Prop :=
  (∀ r : BitVec 5, t.g r = if r = d ∧ r ≠ 0 then v else s.g r)
    ∧ OnlyCore s t { s.me with g := t.me.g, pc := s.me.pc + 1 }

/-- c_d takes v, the core goes to its next word, and nothing else changes. -/
def WroteC (s t : State) (d : BitVec 4) (v : Cap) : Prop :=
  (∀ r : BitVec 4, t.c r = if r = d then v else s.c r)
    ∧ OnlyCore s t { s.me with c := t.me.c, pc := s.me.pc + 1 }

/-- The core goes to a word offset, and nothing else changes. -/
def WentTo (s t : State) (pc : Word64) : Prop := OnlyCore s t { s.me with pc := pc }

/-- The system registers of the core become y, the core goes to a word offset, and nothing else changes. -/
def WroteSys (s t : State) (y : CoreSys) (pc : Word64) : Prop := OnlyCore s t { s.me with sys := y, pc := pc }

/-- The condition of code cc on two registers, as the table of R62 gives it. -/
def CondOf (cc : BitVec 3) (x y : Word64) : Prop :=
  (cc = 0 ∧ x = y) ∨ (cc = 1 ∧ x ≠ y) ∨ (cc = 2 ∧ x.toInt < y.toInt) ∨ (cc = 3 ∧ y.toInt ≤ x.toInt)
    ∨ (cc = 4 ∧ x.toNat < y.toNat) ∨ (cc = 5 ∧ y.toNat ≤ x.toNat)
    ∨ (cc = 6 ∧ x.getLsbD (y.toNat % 64) = true) ∨ (cc = 7 ∧ x.getLsbD (y.toNat % 64) = false)

/-- Trap entry on the acting core (R171, R175): the handler of TRAPVEC runs with the fault registers set, MORE while an engine
trap is held, traps inhibited, what the instruction was reading at other modules is given up, and nothing else of the machine
changes. -/
def EnteredHandler (s t : State) (code : Nat) (info : Word64) (lane : Option Nat) (resume : Word64) : Prop :=
  OnlyCore (s.dropLoads s.actor.core 0) t { s.me with
    pc := s.me.sys.trapvec.setWidth 64
    eng := { s.me.eng with stratQ := [], trapFrom := none }
    sys := { s.me.sys with
      faultInfo := faultInfoOf code lane 0 s.me.pc.toNat s.me.holdsTrap
      faultAddr := info, faultPc := s.me.pc.setWidth 20, eretpc := resume.setWidth 20, inh := true } }

/-- The handler can run: traps are not inhibited and TRAPVEC is set (R172, R175). -/
def CanTrap (s : State) : Prop := s.me.sys.inh = false ∧ s.me.sys.trapvec ≠ 0

/-! ### Memory -/

/-- The locations of this module's memory that pieces cover. -/
def InPieces (ps : List Piece) (l : Nat) : Prop :=
  ∃ p ∈ ps, ∃ a k, p.place = .here a k ∧ a ≤ l ∧ l < a + p.len

/-- No two pieces on this module overlap. -/
def PiecesApart (ps : List Piece) : Prop :=
  ps.Pairwise (fun p q => ∀ a j b k, p.place = .here a j → q.place = .here b k → a + p.len ≤ b ∨ b + q.len ≤ a)

/-- The pieces on this module hold the bytes, in order, under their keys. -/
def HoldBytes (t : State) : List Piece → List Byte → Prop
  | [], _ => True
  | p :: ps, bs =>
    (∀ l k, p.place = .here l k → t.mem.readUnder k l p.len = bs.take p.len) ∧ HoldBytes t ps (bs.drop p.len)

/-- Bytes were stored over pieces: they stand there, every other byte reads as before, and the granules touched have lost
their tags (R125). -/
def Stored (s t : State) (ps : List Piece) (bs : List Byte) : Prop :=
  (PiecesApart ps → HoldBytes t ps bs) ∧ SameBytes s t (fun l => ¬ InPieces ps l)
    ∧ (∀ g, g ∈ t.mem.tags ↔ g ∈ s.mem.tags ∧ g ∉ pieceGranules ps) ∧ t.mem.pend = s.mem.pend

/-- The full bits after a store (R131): granules of the pieces may have become full, under a qualifier only; no granule
has become empty. -/
def FilledOnly (s t : State) (ps : List Piece) (q : Nat) : Prop :=
  (q = 0 → t.mem.full = s.mem.full) ∧ (∀ g, g ∈ s.mem.full → g ∈ t.mem.full)
    ∧ (∀ g, g ∈ t.mem.full → g ∈ s.mem.full ∨ g ∈ pieceGranules ps)

/-- Do pieces of an access touch the 64 bytes of a sync object at x (R136)? -/
def TouchesObject (ps : List Piece) (x : Nat) : Bool :=
  ps.any (fun p => match p.place with | .here l _ => l < x + 64 && x < l + p.len | .away _ _ _ => false)

/-- What an access of the sequencer does beside memory and its own core: the marks of the free sync objects it touches are
gone (R136), replies of other modules to its core's sequencer are used up (R422), and nothing else changes. -/
def AccessFrame (s t : State) (ps : List Piece) : Prop :=
  t.mgmt = s.mgmt ∧ t.stopped = s.stopped ∧ t.time = s.time ∧ t.sched = s.sched ∧ t.actor = s.actor ∧ t.draws = s.draws
    ∧ (∀ p, t.part p = if p = s.party.part then
          { s.part p with syncs := (s.part p).syncs.filter (fun o => !TouchesObject ps o.1) } else s.part p)
    ∧ t.outer = { s.outer with forwards :=
        s.outer.forwards.filter (fun f => !(f.core = s.actor.core && f.engine = 0 && f.reply.isSome)) }
    ∧ OtherWaitersSame s t

/-- What a load leaves alone: other cores and what unordered writes have replaced are as before. -/
def LoadFrame (s t : State) (ps : List Piece) : Prop := AccessFrame s t ps ∧ t.older = s.older ∧ OtherCoresSame s t

/-- What a store leaves alone: no event latch of another core is cleared (R321), and what unordered writes have replaced
changes in the granules of the store only (R309). -/
def StoreFrame (s t : State) (ps : List Piece) : Prop :=
  AccessFrame s t ps ∧ OtherCoresLatched s t
    ∧ t.older.filter (fun e => e.granule ∉ pieceGranules ps) = s.older.filter (fun e => e.granule ∉ pieceGranules ps)

/-- No other engine or core has an unordered write in the granules of pieces: a read of a unit of the acting core sees what
stands there, and its write comes last (R309). -/
def NothingUnordered (s : State) (unit : Nat) (ps : List Piece) : Prop :=
  ∀ e ∈ s.older, e.granule ∈ pieceGranules ps → e.core = s.actor.core ∧ e.unit = unit

/-- The writes of some units of the acting core have been performed: nothing that they replaced is kept any more, and no
other unit's writes were (R102, R142, R310). -/
def Performs (s t : State) (units : Nat → Prop) : Prop :=
  (∀ e ∈ t.older, e.core = s.actor.core → ¬ units e.unit ∧ e ∈ s.older)
    ∧ ∀ e, e.core ≠ s.actor.core → (e ∈ t.older ↔ e ∈ s.older)

/-- Every write of the acting core comes before what its party does from now on; the first of its units have performed theirs
(R102, R311). -/
def OrdersOwn (s t : State) (units : Nat → Prop) : Prop :=
  (∀ e ∈ t.older, e.core = s.actor.core → ¬ units e.unit ∧ e.own = false)
    ∧ ∀ e, e.core ≠ s.actor.core → (e ∈ t.older ↔ e ∈ s.older)

/-- Requests to other modules may have been used up; outside the module everything else is as before. -/
def OuterSameButForwards (s t : State) : Prop :=
  t.outer = { s.outer with forwards := t.outer.forwards, accesses := t.outer.accesses, outputs := t.outer.outputs }

/-- A load under qualifier q from pieces: every byte, tag, pending mark and poisoned unit is as before; .wfc (2) leaves the
granules of the pieces empty, and any other qualifier leaves the full bits as they are (R131). -/
def LoadedOnly (s t : State) (ps : List Piece) (q : Nat) : Prop :=
  SameBytes s t (fun _ => True) ∧ t.mem.tags = s.mem.tags ∧ t.mem.pend = s.mem.pend ∧ t.mem.poison = s.mem.poison
    ∧ (q ≠ 2 → t.mem.full = s.mem.full)
    ∧ (q = 2 → ∀ g, g ∈ t.mem.full ↔ g ∈ s.mem.full ∧ g ∉ pieceGranules ps)

/-- An atomic has been done on n bytes at a place (R135, R322): gd has the old value, the place the new one, EVWATCH the
granule, SCOPEDEMOTED the demotion. -/
def AmoDone (s t : State) (d : BitVec 5) (ps : List Piece) (n x : Nat) (scope : BitVec 3) (old : Word64) (new : Nat) :
    Prop :=
  (∀ r : BitVec 5, t.g r = if r = d ∧ r ≠ 0 then old else s.g r)
    ∧ Stored s t ps (leBytes new n) ∧ FilledOnly s t ps 0 ∧ StoreFrame s t ps ∧ t.clusters = s.clusters
    ∧ t.me = { s.me with
        g := t.me.g, pc := s.me.pc + 1
        sys := { s.me.sys with
          evwatch := BitVec.ofNat 64 (x / 16 * 16 + 1)
          demoted := s.me.sys.demoted || (scope = 5 && s.tenantLimited) } }

/-! ### Sync objects, rings, channels, continuations -/

/-- The sync object marked at a location of the acting partition. -/
def SyncIs (s : State) (l : Nat) (o : SyncObj) : Prop := Sparse.find? l (s.part s.party.part).syncs = some o

/-- The capability names a sync object at location l: the checks of R138 pass. -/
def NamesObject (s : State) (c : Cap) (l : Nat) : Prop := objectCap c = .ok () ∧ s.objectLoc c = .ok l

/-- The core has gone to its next word and only the object at l, with its 64 bytes, has changed (beside SCOPEDEMOTED). -/
def ObjectFrame (s t : State) (p l : Nat) : Prop :=
  t.me = { s.me with pc := s.me.pc + 1, sys := { s.me.sys with demoted := t.me.sys.demoted, event := t.me.sys.event } }
    ∧ SameBytes s t (fun x => x < l ∨ l + 64 ≤ x)
    ∧ (∀ x, x ≠ l → Sparse.find? x (t.part p).syncs = Sparse.find? x (s.part p).syncs)
    ∧ (∀ q, q ≠ p → t.part q = s.part q) ∧ t.clusters = s.clusters ∧ t.mgmt = s.mgmt ∧ t.outer = s.outer
    ∧ OtherCoresLatched s t

/-- The continuation has left its core by a voluntary suspension (R104): its record has the state, and the core is idle, its
registers as they stood; the record's write may be an event that it watches for (R321). -/
def LeftCore (s t : State) (r : Running) (st : Nat) : Prop :=
  (t.me = s.me.idle ∨ t.me = s.me.idle.latch) ∧ ctlState (t.ctl r.part r.record) = st

/-! ### The vector engine -/

/-- Lane i of w bits of a register (R83). -/
def laneAt (w : Nat) (v : Vec) (i : Nat) : Nat := v.toNat / 2 ^ (w * i) % 2 ^ w

/-- The head block of the vector queue is an enabled one outside any region, every source is there, no load queue is named
twice, and the target can take a result (R84, R201, R202). -/
def VecReady (s : State) (b : Block) (rest : List Block) (sel : BitVec 4) (srcs : List Nat) (target : VTarget) : Prop :=
  s.me.eng.vecQ = b :: rest ∧ b.region = none ∧ selOn sel b.sample = true ∧ (∀ n ∈ srcs, s.me.srcReady n = true)
    ∧ (srcs.filter (fun n => 56 ≤ n)).Nodup ∧ s.me.targetReady target = true

/-- A vector word has started (R201): the engine is past it, its result is in flight, its destination register is empty,
each load queue it names has lost its oldest entry, and nothing else has changed. -/
def VecStarted (s t : State) (b : Block) (rest : List Block) (srcs : List Nat) (mark : Option Nat) (f : VecFlight) : Prop :=
  OnlyCore s t { s.me with
      lq := t.me.lq, vEmpty := t.me.vEmpty
      eng := { s.me.eng with vecQ := { b with next := b.next + 1 } :: rest, vecFlight := s.me.eng.vecFlight ++ [f] } }
    ∧ (∀ n, t.me.isEmpty n = (s.me.isEmpty n || mark = some n))
    ∧ (∀ q, t.me.loadQ q = if q + 56 ∈ srcs then (s.me.loadQ q).tail else s.me.loadQ q)

/-- A vector word with port vd has started, and its result in flight is v. -/
def VecWrote (s t : State) (b : Block) (rest : List Block) (srcs : List Nat) (d : BitVec 6) (v : Vec) : Prop :=
  if 60 ≤ d.toNat then VecStarted s t b rest srcs none ⟨.store (d.toNat - 60), v, none⟩
  else VecStarted s t b rest srcs (some d.toNat) ⟨.reg d.toNat, v, none⟩

/-- The word answers a state in which it has started with some result whose lanes of w bits are as `lane` says. -/
def VecLanes (i : Instr) (s : State) (b : Block) (rest : List Block) (srcs : List Nat) (d : BitVec 6) (w : Nat)
    (lane : Nat → Nat) : Prop :=
  ∃ v, Answers i s (fun t => VecWrote s t b rest srcs d v) ∧ ∀ k, k < 2048 / w → laneAt w v k = lane k % 2 ^ w

/-- The word answers a state in which it has started with some result whose lanes of w bits are related as `P` says. -/
def VecLanesBy (i : Instr) (s : State) (b : Block) (rest : List Block) (srcs : List Nat) (d : BitVec 6) (w : Nat)
    (P : Nat → Nat → Prop) : Prop :=
  ∃ v, Answers i s (fun t => VecWrote s t b rest srcs d v) ∧ ∀ k, k < 2048 / w → P k (laneAt w v k)

/-! ### Exact values and roundings, as the manual states them -/

/-- The exact value of a finite number (R233, R240). -/
def finiteRat (neg : Bool) (m : Nat) (e : ℤ) : ℚ := (if neg then -1 else 1) * m * (2 : ℚ) ^ e

/-- The value of an LS20 code as it is written: E = 0 is zero, else 2^(E − 127) · (1 + F/4096) (R236). -/
def ls20Rat (c : Nat) : ℚ := if c / 4096 = 0 then 0 else (2 : ℚ) ^ ((c / 4096 : ℤ) - 127) * (1 + (c % 4096 : Nat) / 4096)

/-- The LS20 codes that the device writes: zero, and E from 1 to 254 (R236, R239). -/
def Ls20Code (c : Nat) : Prop := c = 0 ∨ (1 ≤ c / 4096 ∧ c / 4096 ≤ 254)

/-- The value of a PB8 code: 2^−e · (1 + f/4), and zero for 0xFF (R238). -/
def pb8Rat (c : Nat) : ℚ := if c = 0xFF then 0 else (1 + (c % 4 : Nat) / 4) / (2 : ℚ) ^ (c / 4)

/-- An integer nearest to a value, an even one of two (R240). -/
def NearestInt (x : ℚ) (z : ℤ) : Prop := |x - z| ≤ 1 / 2 ∧ (|x - z| = 1 / 2 → z % 2 = 0)

/-- A value rounded to an integer: to the nearest, or towards zero (R240). -/
def RoundsToInt (rne : Bool) (x : ℚ) (z : ℤ) : Prop :=
  if rne then NearestInt x z else z = if 0 ≤ x then ⌊x⌋ else ⌈x⌉

/-- The code whose value is nearest to x; of two as near the even one, and of two even ones the one of the larger value
(R224, R247). -/
def NearestCode (code : Nat → Prop) (val : Nat → ℚ) (x : ℚ) (y : Nat) : Prop :=
  code y ∧ ∀ q, code q → q ≠ y → |x - val y| < |x - val q|
    ∨ (|x - val y| = |x - val q| ∧ y % 2 = 0 ∧ (q % 2 = 1 ∨ val q < val y))

/-- The code of the largest value not above x, zero below zero (R247). -/
def FloorCode (code : Nat → Prop) (val : Nat → ℚ) (x : ℚ) (y : Nat) : Prop :=
  code y ∧ val y ≤ max x 0 ∧ ∀ q, code q → val q ≤ max x 0 → val q ≤ val y

/-- A value as a PB8 code (R224, R247). -/
def ToPb8 (rne : Bool) (v : FVal) (y : Nat) : Prop :=
  match v with
  | .nan => y = 0xFF
  | .inf n => y = if n then 0xFF else 0x03
  | .fin n m e =>
    if rne then NearestCode (· < 256) pb8Rat (finiteRat n m e) y else FloorCode (· < 256) pb8Rat (finiteRat n m e) y

/-- A value as an LS20 code (R247). -/
def ToLs20 (rne : Bool) (v : FVal) (y : Nat) : Prop :=
  match v with
  | .nan => y = 0
  | .inf n => y = if n then 0 else 0xFEFFF
  | .fin n m e =>
    if rne then NearestCode Ls20Code ls20Rat (max (finiteRat n m e) 0) y else FloorCode Ls20Code ls20Rat (finiteRat n m e) y

/-- A value as an integer of a format: NaN gives 0, the rest is rounded and saturated (R247). -/
def ToIntLane (g : Fmt) (rne : Bool) (v : FVal) (y : Nat) : Prop :=
  match v with
  | .nan => y = 0
  | .inf n => y = wrapInt g.bits (if n then g.lo else g.hi)
  | .fin n m e => ∃ z, RoundsToInt rne (finiteRat n m e) z ∧ y = wrapInt g.bits (max g.lo (min z g.hi))

/-- Lane x of format f becomes lane y of format g (R210, R247). -/
def Converts (f g : Fmt) (rne saturate : Bool) (x y : Nat) : Prop :=
  match g with
  | .flt k => y = k.enc rne saturate (f.dec x)
  | .pb8 => ToPb8 rne (f.dec x) y
  | .ls20 => ToLs20 rne (f.dec x) y
  | _ => if f.isInt && !saturate then y = wrapInt g.bits (f.int x) else ToIntLane g rne (f.dec x) y

/-- What VQUANT takes a lane for: NaN as 0, an infinity as the largest finite value of its sign (R211). -/
def quantInput (k : FloatKind) (x : Nat) : ℚ :=
  match k.dec x with
  | .nan => 0
  | .inf n => match k.dec k.maxCode with | .fin _ m e => finiteRat n m e | _ => 0
  | .fin n m e => finiteRat n m e

/-- A fraction that stands for e^x, or for 2^x: 1 for x = 0, an exact power of 2 for an integer in base 2, and otherwise
between the powers of 2 that enclose the value, the exponent x·log2(e) taken as between 1.44·x and 1.45·x. -/
def NearExp (base2 : Bool) (x : ℚ) (p q : Nat) : Prop :=
  0 < q ∧ (x = 0 → p = q) ∧ ∃ j : ℤ, (2 : ℚ) ^ j ≤ p / q ∧ (p / q : ℚ) ≤ 2 ^ (j + 1)
    ∧ if base2 then j = ⌊x⌋ ∧ (x = j → (p / q : ℚ) = 2 ^ j)
      else min (1.44 * x) (1.45 * x) ≤ j + 1 ∧ (j : ℚ) ≤ max (1.44 * x) (1.45 * x)

/-- A code of VEXP (R214): the special inputs by their table; otherwise a fraction that stands for the exponential, rounded
once. -/
def ExpCode (k : FloatKind) (base2 : Bool) (v : FVal) (y : Nat) : Prop :=
  match v with
  | .nan => y = k.nanCode
  | .inf n => y = if n then 0 else k.overCode
  | .fin n m e => |finiteRat n m e| < 1024 →
    ∃ p q, NearExp base2 (finiteRat n m e) p q ∧ y = k.encQ true false false p q

/-- A code of VRCP (R214): the exact reciprocal rounded once. -/
def RcpCode (k : FloatKind) (v : FVal) (y : Nat) : Prop :=
  match v with
  | .nan => y = k.nanCode
  | .inf n => y = k.signed n 0
  | .fin n m e => if m = 0 then y = k.signed n k.overCode
    else ∃ p q : Nat, 0 < q ∧ (p / q : ℚ) = 1 / |finiteRat n m e| ∧ y = k.encQ true false n p q

/-- A code of VRSQ (R214): a fraction whose square times the operand lies within 2^−200 of 1, rounded once. -/
def RsqCode (k : FloatKind) (v : FVal) (y : Nat) : Prop :=
  match v with
  | .nan => y = k.nanCode
  | .inf n => y = if n then k.nanCode else 0
  | .fin n m e => if m = 0 then y = k.signed n k.overCode else if n then y = k.nanCode
    else ∃ p q : Nat, 0 < q ∧ |(p / q : ℚ) ^ 2 * finiteRat n m e - 1| ≤ 1 / 2 ^ 200 ∧ y = k.encQ true false false p q

/-- A code of VMIN or VMAX (R209): NaN where the variant says so, the number where one input is NaN, and otherwise the input
that no input is smaller, or larger, than; −0 stands below +0. -/
def MinMaxCode (k : FloatKind) (max num : Bool) (x y z : Nat) : Prop :=
  let nx := (k.dec x).isNan
  let ny := (k.dec y).isNan
  if (nx ∧ ny) ∨ ((nx ∨ ny) ∧ num = false) then z = k.nanCode
  else if nx then z = y
  else if ny then z = x
  else (z = x ∨ z = y) ∧ ∀ w ∈ [x, y], (if max then floatLe k w z else floatLe k z w) = true

/-- The relation of a variant of VCMP on two values (R216): a NaN is unequal to everything. -/
def CmpHolds (m : Nat) (x y : FVal) : Prop :=
  (m = 0 ∧ x.cmp y = some 0) ∨ (m = 1 ∧ x.cmp y ≠ some 0) ∨ (m = 2 ∧ x.cmp y = some (-1))
    ∨ (m = 3 ∧ (x.cmp y = some (-1) ∨ x.cmp y = some 0))

/-- The one value of VRED under a float format (R215). -/
def RedCode (k : FloatKind) (m : Nat) (xs : List Nat) (y : Nat) : Prop :=
  if m = 0 then y = k.rne (FVal.sum (xs.map k.dec))
  else if m = 3 then y = k.rne (FVal.sum (xs.map (fun x => (k.dec x).mul (k.dec x))))
  else if xs.any (fun x => (k.dec x).isNan) then y = k.nanCode
  else y ∈ xs ∧ ∀ x ∈ xs, (if m = 1 then floatLe k x y else floatLe k y x) = true

/-! ### Rows of a Stratus block (R337, R353 to R357) -/

/-- A value of a row, and the row's product with another value, rounded once. -/
def timesF (x y : F32) : F32 := toF32 ((f32 x).mul (f32 y))

/-- Factor(x, y) of R353, for an old maximum and a new one that is no smaller. -/
def FactorIs (x y z : F32) : Prop :=
  if (f32 x).cmp (f32 y) = some 0 then z = oneF
  else if f32 x = .inf true ∨ f32 y = .inf false then z = 0
  else match f32 x, f32 y with
    | .fin n m e, .fin k j d => |finiteRat n m e - finiteRat k j d| < 1024 →
      ∃ p q, NearExp false (finiteRat n m e - finiteRat k j d) p q
        ∧ z = BitVec.ofNat 32 (FloatKind.fp32.encQ true false false p q)
    | _, _ => True

/-- P of a score and its row's maximum (R354). -/
def ProbIs (x m : F32) (z : BitVec 8) : Prop :=
  if (f32 x).isNan ∨ f32 x = .inf true ∨ f32 m = .inf true then z = 0xFF
  else if f32 x = .inf false then (if f32 m = .inf false then z = 0x00 else z = 0x03)
  else if f32 m = .inf false then z = 0xFF
  else match f32 x, f32 m with
    | .fin n a e, .fin k j d => |finiteRat n a e - finiteRat k j d| < 1024 →
      ∃ p q, NearExp false (finiteRat n a e - finiteRat k j d) p q
        ∧ NearestCode (· < 256) pb8Rat (p / q : ℚ) z.toNat
    | _, _ => True

/-- The maximum of a row after values that may raise it: one of them or the old one, and no number among them is larger. -/
def MaxIs (old : F32) (xs : List F32) (new : F32) : Prop :=
  (new = old ∨ (new ∈ xs ∧ (f32 new).isNan = false))
    ∧ ((f32 old).isNan = false → ∀ x ∈ old :: xs, (f32 x).isNan = false → floatLe .fp32 x.toNat new.toNat = true)

/-- The pending factors of every row have been applied, and are 1 (R337). -/
def Rescaled (u v : StratRun) : Prop :=
  v = { u with o := v.o, l := v.l, r := v.r } ∧ ∀ i, i < u.qr → let f := u.r.getD i oneF
    v.r.getD i 0 = oneF ∧ v.l.getD i 0 = (if f = oneF then u.l.getD i 0 else timesF (u.l.getD i 0) f)
    ∧ v.o.getD i [] = if f = oneF then u.o.getD i [] else (u.o.getD i []).map (fun x => timesF x f)

/-- The scores of a row have raised its maximum, and the pending factor follows (R337, R354). -/
def Maximised (u v : StratRun) : Prop :=
  v = { u with r := v.r, m := v.m } ∧ ∀ i, i < u.qr → let old := u.m.getD i negInf; let new := v.m.getD i 0
    MaxIs old (u.s.getD i []) new ∧ ∃ f, FactorIs old new f ∧ v.r.getD i 0 = timesF (u.r.getD i oneF) f

/-- Every row has its probabilities, and its sum has taken them in (R337, R354). -/
def Exponentiated (u v : StratRun) : Prop :=
  v = { u with p := v.p, l := v.l } ∧ ∀ i, i < u.qr → let s := u.s.getD i []; let p := v.p.getD i []
    p.length = s.length ∧ (∀ (j : Nat) (x : F32) (z : BitVec 8), s[j]? = some x → p[j]? = some z →
      ProbIs x (u.m.getD i negInf) z)
    ∧ v.l.getD i 0 = toF32 (FVal.total (f32 (u.l.getD i 0) :: p.map (fun c => pb8Dec c.toNat)))

/-- Every lane of every row has taken in its products with the rows of a slot (R337). -/
def Accumulated (u : StratRun) (k : KSlot) (v : StratRun) : Prop :=
  v = { u with o := v.o } ∧ ∀ i d, i < u.qr → d < u.dim →
    (v.o.getD i []).getD d 0 = toF32 (FVal.total (f32 ((u.o.getD i []).getD d 0) ::
      (((u.p.getD i []).zip k.rows).filter (fun q => q.1 ≠ 0xFF)).map (fun q =>
        (pb8Dec q.1.toNat).mul (u.fmt.dec (q.2.getD d 0)))))

/-- Every row has its scores against a slot: −inf where the key is masked, else the product over D rounded per 16 products,
scaled and rounded; a NaN among them sets the row's NAN (R242, R337, R338, R354). -/
def Scored (u : StratRun) (k : KSlot) (v : StratRun) : Prop :=
  v = { u with s := v.s, nan := v.nan } ∧ ∀ i, i < u.qr →
    (∀ j, j < u.bs → let masked := (u.mm = 1 ∧ (u.pos.getD i 0).toNat < k.kpos + j) ∨ (u.mm = 2 ∧ k.len ≤ j)
      let ps := List.zipWith FVal.mul ((u.q.getD i []).map u.fmt.dec) ((k.rows.getD j []).map u.fmt.dec)
      (v.s.getD i []).getD j 0 = if masked then negInf
        else timesF (BitVec.ofNat 32 (floatDot .fp32 (groupsOf 16 ps ps.length) (.fin true 0 0))) (u.scl.setWidth 32))
    ∧ (v.nan.getD i false = true ↔ u.nan.getD i false = true ∨ ∃ x ∈ v.s.getD i [], (f32 x).isNan = true)

/-- Rows of D elements stand at an offset of bytes (R335). -/
def RowsIn (u : StratRun) (n : Nat) (bs : List Byte) (rows : List (List Nat)) : Prop :=
  ∀ i d, i < n → d < u.dim → (rows.getD i []).getD d 0 = numAt ((i * u.dim + d) * u.elem) u.elem bs

/-- O / l with one rounding (R355). -/
def QuotientIs (x y z : F32) : Prop :=
  match f32 x, f32 y with
  | .nan, _ => z = nanF
  | _, .nan => z = nanF
  | .inf _, .inf _ => z = nanF
  | .inf n, .fin k _ _ => z = toF32 (.inf (n != k))
  | .fin n _ _, .inf k => z = toF32 (.fin (n != k) 0 0)
  | .fin n m e, .fin k j d =>
    if j = 0 then z = (if m = 0 then nanF else toF32 (.inf (n != k)))
    else ∃ p q : Nat, 0 < q ∧ (p / q : ℚ) = |finiteRat n m e| / |finiteRat k j d|
      ∧ z = BitVec.ofNat 32 (FloatKind.fp32.encQ true false (n != k) p q)

/-- The record of row i stands in the bytes that OSTORE writes (R336, R355). -/
def RecordIn (v : StratRun) (i : Nat) (bs : List Byte) : Prop :=
  let b := sliceB (i * v.rstr) v.rstr bs
  let m := v.m.getD i negInf
  numAt 0 4 b = m.toNat ∧ numAt 4 4 b = (v.l.getD i 0).toNat
    ∧ numAt 8 4 b = (if v.nan.getD i false then 1 else 0) + (if v.empty.getD i false then 2 else 0) ∧ numAt 12 4 b = 0
    ∧ (∀ (d : Nat) (x : F32), d < v.dim → (v.o.getD i [])[d]? = some x → let z := BitVec.ofNat 32 (numAt (16 + 4 * d) 4 b)
      if v.nan.getD i false then z = nanF else if f32 m = .inf true then z = 0
      else if v.norm then QuotientIs x (v.l.getD i 0) z else z = x)
    ∧ ((v.o.getD i []).length = v.dim → ∀ n, 16 + 4 * v.dim ≤ n → n < v.rstr → b.getD n 0 = 0)

/-- Records have been merged into the rows, one each (R357). -/
def Merged (u : StratRun) (rs : List (List Byte)) (v : StratRun) : Prop :=
  ∃ w, Rescaled u w ∧ v = { w with nan := v.nan, empty := v.empty, l := v.l, o := v.o, m := v.m } ∧ ∀ i, i < u.qr →
    let b := rs.getD i []
    let mr := recWord b 0
    let bad := (f32 mr).isNan ∨ (f32 (recWord b 1)).isNan
    let flag := fun n => (recWord b 2).getLsbD n = true
    let old := w.m.getD i negInf
    let new := v.m.getD i 0
    (v.nan.getD i false = true ↔ w.nan.getD i false = true ∨ flag 0 ∨ bad)
    ∧ (v.empty.getD i false = true ↔ w.empty.getD i false = true ∨ flag 1)
    ∧ (bad → new = old ∧ v.l.getD i 0 = w.l.getD i 0 ∧ v.o.getD i [] = w.o.getD i [])
    ∧ (¬ bad → MaxIs old [mr] new ∧ ∃ fa fb, FactorIs old new fa ∧ FactorIs mr new fb
      ∧ v.l.getD i 0 = toF32 (FVal.total [(f32 (w.l.getD i 0)).mul (f32 fa), (f32 (recWord b 1)).mul (f32 fb)])
      ∧ ∀ (d : Nat) (x : F32), (w.o.getD i [])[d]? = some x → (v.o.getD i []).getD d 0 =
          toF32 (FVal.total [(f32 x).mul (f32 fa), (f32 (recWord b (4 + d))).mul (f32 fb)]))

/-! ### The array and the other engines -/

/-- Memory, partitions, management, other cores and other clusters are as before; requests to other modules may have been
used up. -/
def HomeFrame (s t : State) : Prop :=
  SameMemory s t ∧ t.parts = s.parts ∧ t.mgmt = s.mgmt ∧ OtherCoresSame s t ∧ OuterSameButForwards s t
    ∧ (∀ k, k ≠ s.home → t.cluster k = s.cluster k) ∧ t.actor = s.actor ∧ t.time = s.time

/-- The head matrix block of the core is b, and the array is granted to the core within its 256 step words (R101, R251).
`on`: the word's selector is enabled in the block's sample. -/
def MatReady (s : State) (b : Block) (rest : List Block) (sel : BitVec 4) (on : Bool) : Prop :=
  s.me.eng.matQ = b :: rest ∧ s.myCluster.granted = some (.core s.actor.core) ∧ s.myCluster.steps < 256
    ∧ s.me.eng.restore = none ∧ selOn sel b.sample = on

/-- A matrix word has been run: the block is past it, it counts as a step word, and the cluster is otherwise c. -/
def MatWent (s t : State) (b : Block) (rest : List Block) (c : Cluster) : Prop :=
  t.me = { s.me with eng := { s.me.eng with matQ := { b with next := b.next + 1 } :: rest } }
    ∧ t.myCluster = { c with steps := s.myCluster.steps + 1 } ∧ HomeFrame s t

/-- The unit of the cluster runs a block of the acting core, its start registers checked (R332, R333). -/
def StratReady (s : State) (u : StratRun) : Prop :=
  s.myCluster.strat = some u ∧ u.core = s.actor.core ∧ u.checked = true

/-- A microword has retired: the unit's block is v, ATTNST names the word (R332). -/
def StratWent (s t : State) (u v : StratRun) : Prop :=
  t.me = { s.me with sys := { s.me.sys with upc := BitVec.ofNat 10 u.next } }
    ∧ t.myCluster = { s.myCluster with strat := some v } ∧ HomeFrame s t

/-- A memory microword goes on beside later words, with its traffic (R334). -/
def StratFlies (s t : State) (u v : StratRun) (ask : StratAsk) (ps : List Piece) (w : StratTraffic) : Prop :=
  t.me = s.me ∧ HomeFrame s t
    ∧ ∃ guests, t.myCluster = { s.myCluster with
        strat := some { v with next := u.next + 1, traffic := u.traffic ++ [⟨u.next, ask, ps, w, guests, false⟩] } }

/-! ### Records, the error log, management registers -/

/-- A record stands in its partition's ready pool and is runnable (R156, R164). -/
def Runnable (t : State) (p a : Nat) : Prop := ctlState (t.ctl p a) = 1 ∧ ∃ e ∈ (t.part p).pool, e.record = a

/-- An entry has been recorded in the error log, or counted as lost when the ring is full (R53, R55). Where no tenant has a
copy of it, its 32 bytes stand in the ring. -/
def Logs (s t : State) (e : LogEntry) : Prop :=
  let m := s.mgmt
  if m.elogHead + 1 = m.elogTail then
    t.mgmt.elogHead = m.elogHead ∧ t.mgmt.elogLost = if m.elogLost = BitVec.allOnes 32 then m.elogLost else m.elogLost + 1
  else
    t.mgmt.elogHead = m.elogHead + 1 ∧ t.mgmt.elogLost = m.elogLost
      ∧ (e.world = none → t.raw (coronaLoc (m.elogBase.toNat + 32 * m.elogHead.toNat)) 32 = e.bytes s.time)

/-- The device has put bytes at a location, and changed no other byte. -/
def Poked (s t : State) (l : Nat) (bs : List Byte) : Prop :=
  t.raw l bs.length = bs ∧ SameBytes s t (fun x => x < l ∨ l + bs.length ≤ x)

/-- One management hart has become x, and nothing else but the draws has changed. -/
def HartBecomes (s t : State) (h : HartId) (x : Hart) : Prop :=
  t.hartOf h = x ∧ (∀ g, g ≠ h → t.hartOf g = s.hartOf g)
    ∧ t = { s with mgmt := { s.mgmt with harts := t.mgmt.harts }, draws := t.draws }

/-- One virtual function has become x, and no other has changed. -/
def VfBecomes (s t : State) (v : Nat) (x : Vf) : Prop := t.vf v = x ∧ ∀ w, w ≠ v → t.vf w = s.vf w

/-- One queue of a virtual function has become x; the function's other queues and registers, and every other function, are
as before. -/
def QueueBecomes (s t : State) (v q : Nat) (x : Queue) : Prop :=
  (t.vf v).queue q = x ∧ (∀ r, r ≠ q → (t.vf v).queue r = (s.vf v).queue r)
    ∧ VfBecomes s t v { s.vf v with queues := (t.vf v).queues }

/-- With SIG a command's completion stands at its IOVA, 16 bytes (R440). -/
def Completed (t : State) (v : Nat) (sig : Bool) (iova : Word64) (bs : List Byte) : Prop :=
  sig = true → t.raw (hostLoc v iova.toNat) 16 = bs

/-- The queue of the acting function and queue number. -/
def theQueue (s : State) : Queue := (s.vf s.actor.vf).queue s.actor.queue

/-- The acting queue takes the command c at its head, of an op, for a world of a function that runs (R408, R438, R441). -/
def HeadCommand (s : State) (op : Nat) (c : List Byte) (y : Party) : Prop :=
  (theQueue s).takes = true ∧ (s.vf s.actor.vf).state = 2 ∧ c = s.command s.actor.vf s.actor.queue (theQueue s).head
    ∧ cmdMalformed c = false ∧ headOp c = op ∧ s.worldOfVf s.actor.vf = some (y.part, y.world) ∧ y.context = 0

/-- The queue past the command at its head; a STOP that waited for the boundary takes effect (R438). -/
def pastHead (x : Queue) : Queue :=
  { x with head := x.head + 1, units := 0, bounce := [], stopping := false
           state := if x.stopping && x.state = 1 then 2 else x.state }

/-- The command c at the head has completed with a value, a status and the two bytes at 14 (R440). -/
def HeadDone (s t : State) (c : List Byte) (value : Word64) (status extra : Nat) : Prop :=
  Completed t s.actor.vf (cmdSig c) (cmdIova c) (completion value (cmdTag c) status extra)
    ∧ QueueBecomes s t s.actor.vf s.actor.queue (pastHead (theQueue s))

/-- No byte of memory changes unless a completion is written. -/
def QuietWithoutSig (s t : State) (c : List Byte) : Prop := cmdSig c = false → SameBytes s t (fun _ => True)

/-- A function has been reset (R445): CONFIG_UNLOCKED, every queue UNMAPPED, no chain, rank or latched notify left. -/
def VfWasReset (t : State) (v : Nat) : Prop :=
  (t.vf v).state = 0 ∧ (∀ q, ((t.vf v).queue q).state = 0) ∧ (∀ c ∈ t.outer.chains, c.2.vf ≠ v)
    ∧ (∀ r ∈ t.outer.ranks, r.vf ≠ v) ∧ ∀ l ∈ t.outer.latch, l.1 / 64 ≠ v

end Sys2Proof
end

