-- ==== Sys2Proof/Certificates/Slice0/Obligations.lean ====
section
/-! DEFINITION. The statements about the model, for the provers. -/

open Sys2Proof Sys2Proof.Machine

/-- R87: the three-register operations of opcode 0x01, each result modulo 2^64; they write nothing but gd, and nothing
at all when gd is g0. -/
def Sys2Proof.Claim.ThreeRegisterResults : Prop :=
  ∀ (s : State) (d a b : BitVec 5), let x := s.g a; let y := s.g b
    Answers (.add d a b) s (fun t => WroteG s t d (x + y))
    ∧ Answers (.sub d a b) s (fun t => WroteG s t d (x - y))
    ∧ Answers (.mul d a b) s (fun t => WroteG s t d (x * y))
    ∧ Answers (.mulh d a b) s (fun t => WroteG s t d ((x.signExtend 128 * y.signExtend 128).extractLsb' 64 64))
    ∧ Answers (.mulhu d a b) s (fun t => WroteG s t d ((x.zeroExtend 128 * y.zeroExtend 128).extractLsb' 64 64))
    ∧ Answers (.div d a b) s (fun t => WroteG s t d (if y = 0 then BitVec.allOnes 64 else x.sdiv y))
    ∧ Answers (.divu d a b) s (fun t => WroteG s t d (if y = 0 then BitVec.allOnes 64 else x.udiv y))
    ∧ Answers (.rem d a b) s (fun t => WroteG s t d (if y = 0 then x else x.srem y))
    ∧ Answers (.remu d a b) s (fun t => WroteG s t d (if y = 0 then x else x.umod y))
    ∧ Answers (.and d a b) s (fun t => WroteG s t d (x &&& y))
    ∧ Answers (.or d a b) s (fun t => WroteG s t d (x ||| y))
    ∧ Answers (.xor d a b) s (fun t => WroteG s t d (x ^^^ y))
    ∧ Answers (.shl d a b) s (fun t => WroteG s t d (x <<< (y.toNat % 64)))
    ∧ Answers (.shr d a b) s (fun t => WroteG s t d (x >>> (y.toNat % 64)))
    ∧ Answers (.sar d a b) s (fun t => WroteG s t d (x.sshiftRight (y.toNat % 64)))

/-- R89: CLZ counts the zero bits above the highest one bit, POPC the one bits, FFS finds the lowest one bit; CLZ and FFS
give 64 for zero. -/
def Sys2Proof.Claim.BitCountResults : Prop :=
  ∀ (s : State) (d a : BitVec 5), let x := s.g a
    (∃ n : Nat, Answers (.clz d a) s (fun t => WroteG s t d (BitVec.ofNat 64 n))
      ∧ (x = 0 → n = 64)
      ∧ (x ≠ 0 → n < 64 ∧ x.getLsbD (63 - n) = true ∧ ∀ i, 63 - n < i → x.getLsbD i = false))
    ∧ Answers (.popc d a) s
        (fun t => WroteG s t d (BitVec.ofNat 64 ((List.range 64).countP (fun i => x.getLsbD i))))
    ∧ (∃ n : Nat, Answers (.ffs d a) s (fun t => WroteG s t d (BitVec.ofNat 64 n))
      ∧ (x = 0 → n = 64) ∧ (x ≠ 0 → n < 64 ∧ x.getLsbD n = true ∧ ∀ i, i < n → x.getLsbD i = false))

/-- R91: the immediate forms; ADDI and MOVI sign-extend, ANDI, ORI and XORI zero-extend, MOVHI replaces bits
[16k + 15 : 16k] and keeps the others. -/
def Sys2Proof.Claim.ImmediateResults : Prop :=
  ∀ (s : State) (d a : BitVec 5) (i : BitVec 16) (h : BitVec 6) (k : BitVec 2), let x := s.g a
    Answers (.addi d a i) s (fun t => WroteG s t d (x + i.signExtend 64))
    ∧ Answers (.andi d a i) s (fun t => WroteG s t d (x &&& i.zeroExtend 64))
    ∧ Answers (.ori d a i) s (fun t => WroteG s t d (x ||| i.zeroExtend 64))
    ∧ Answers (.xori d a i) s (fun t => WroteG s t d (x ^^^ i.zeroExtend 64))
    ∧ Answers (.shli d a h) s (fun t => WroteG s t d (x <<< h.toNat))
    ∧ Answers (.shri d a h) s (fun t => WroteG s t d (x >>> h.toNat))
    ∧ Answers (.sari d a h) s (fun t => WroteG s t d (x.sshiftRight h.toNat))
    ∧ Answers (.movi d i) s (fun t => WroteG s t d (i.signExtend 64))
    ∧ ∃ v : Word64, Answers (.movhi d k i) s (fun t => WroteG s t d v)
        ∧ v.extractLsb' (16 * k.toNat) 16 = i
        ∧ ∀ n, n < 64 → n / 16 ≠ k.toNat → v.getLsbD n = (s.g d).getLsbD n

/-- Integer results of the three-register, bit-count and immediate forms, and their frame. -/
def Obligations.ArithmeticResults : Prop :=
  Claim.ThreeRegisterResults ∧ Claim.BitCountResults ∧ Claim.ImmediateResults

/-- R88: MIN and MAX compare signed values, MINU and MAXU unsigned ones, SEL reads gd before it writes it; with their
encodings. -/
def Obligations.MinMaxSelectResults : Prop :=
  ∀ (s : State) (d a b : BitVec 5), let x := s.g a; let y := s.g b
    let w := fun f => 0x08000000 + d.toNat * 2 ^ 21 + a.toNat * 2 ^ 16 + b.toNat * 2 ^ 11 + f
    Answers (.min d a b) s (fun t => WroteG s t d (if x.toInt ≤ y.toInt then x else y))
    ∧ Answers (.max d a b) s (fun t => WroteG s t d (if x.toInt ≤ y.toInt then y else x))
    ∧ Answers (.minu d a b) s (fun t => WroteG s t d (if x.toNat ≤ y.toNat then x else y))
    ∧ Answers (.maxu d a b) s (fun t => WroteG s t d (if x.toNat ≤ y.toNat then y else x))
    ∧ Answers (.sel d a b) s (fun t => WroteG s t d (if s.g d ≠ 0 then x else y))
    ∧ (d = 0 → Answers (.sel d a b) s (fun t => WentTo s t (s.me.pc + 1)))
    ∧ encode (.min d a b) = some (w 0) ∧ encode (.max d a b) = some (w 1) ∧ encode (.minu d a b) = some (w 2)
    ∧ encode (.maxu d a b) = some (w 3) ∧ encode (.sel d a b) = some (w 4)

/-- R90: CMP.cc sets gd to 1 when the condition of R62 holds and to 0 otherwise; with its encoding. -/
def Obligations.CompareWritesCondition : Prop :=
  ∀ (s : State) (d a b : BitVec 5) (cc : BitVec 3),
    (CondOf cc (s.g a) (s.g b) → Answers (.cmpCc d a b cc) s (fun t => WroteG s t d 1))
    ∧ (¬ CondOf cc (s.g a) (s.g b) → Answers (.cmpCc d a b cc) s (fun t => WroteG s t d 0))
    ∧ encode (.cmpCc d a b cc)
        = some (0x10000000 + d.toNat * 2 ^ 21 + a.toNat * 2 ^ 16 + b.toNat * 2 ^ 11 + cc.toNat)

/-- R92: B.cc goes to its own offset plus Sext(off13, 13) when the condition holds and to the next word otherwise; with
its encoding. Nothing but the pc changes. -/
def Obligations.BranchGoesByCondition : Prop :=
  ∀ (s : State) (a b : BitVec 5) (cc : BitVec 3) (o : BitVec 13),
    (CondOf cc (s.g a) (s.g b) → Answers (.bCc a b cc o) s (fun t => WentTo s t (s.me.pc + o.signExtend 64)))
    ∧ (¬ CondOf cc (s.g a) (s.g b) → Answers (.bCc a b cc o) s (fun t => WentTo s t (s.me.pc + 1)))
    ∧ encode (.bCc a b cc o)
        = some (0x60000000 + a.toNat * 2 ^ 21 + b.toNat * 2 ^ 16 + cc.toNat * 2 ^ 13 + o.toNat)

/-- R93, R119: J and JAL go to their own offset plus Sext(off26, 26), JAL with g31 the offset after it; JR goes to g_a;
NOP only goes on. -/
def Sys2Proof.Claim.JumpsAndNop : Prop :=
  ∀ (s : State) (o : BitVec 26) (a : BitVec 5),
    Answers (.j o) s (fun t => WentTo s t (s.me.pc + o.signExtend 64))
    ∧ Answers (.jal o) s (fun t => (∀ r : BitVec 5, t.g r = if r = 31 then s.me.pc + 1 else s.g r)
        ∧ OnlyCore s t { s.me with g := t.me.g, pc := s.me.pc + o.signExtend 64 })
    ∧ Answers (.jr a) s (fun t => WentTo s t (s.g a))
    ∧ Answers .nop s (fun t => WentTo s t (s.me.pc + 1))

/-- R97, R98: STWIN arms the window and the loop counts, or raises ARGRANGE when g_a[63:60] is not zero; LOOPST counts an
iteration, then the drain steps, shifting the window, and then falls through. -/
def Sys2Proof.Claim.LoopWindow : Prop :=
  ∀ (s : State) (a : BitVec 5) (n : BitVec 4) (w : BitVec 8) (o : BitVec 26), let y := s.me.sys
    ((s.g a).extractLsb' 60 4 = 0 → Answers (.stwin a n w) s (fun t =>
        WroteSys s t { y with loopCount := (s.g a).setWidth 60, loopDrain := n.toNat, stagewin := w } (s.me.pc + 1)))
    ∧ ((s.g a).extractLsb' 60 4 ≠ 0 → CanTrap s →
        Answers (.stwin a n w) s (fun t => EnteredHandler s t 4 (s.g a) none s.me.pc))
    ∧ (y.loopCount ≠ 0 → Answers (.loopst o) s (fun t =>
        WroteSys s t { y with loopCount := y.loopCount - 1, stagewin := (y.stagewin <<< 1) ||| 1 }
          (s.me.pc + o.signExtend 64)))
    ∧ (y.loopCount = 0 → 0 < y.loopDrain → Answers (.loopst o) s (fun t =>
        WroteSys s t { y with loopDrain := y.loopDrain - 1, stagewin := y.stagewin <<< 1 } (s.me.pc + o.signExtend 64)))
    ∧ (y.loopCount = 0 → y.loopDrain = 0 → Answers (.loopst o) s (fun t => WentTo s t (s.me.pc + 1)))

/-- Jumps, NOP, the stage window and its loop. -/
def Obligations.JumpsAndLoopWindow : Prop :=
  Claim.JumpsAndNop ∧ Claim.LoopWindow

/-- R115, R175: TRAP enters the handler with code SWTRAP, FAULTADDR its immediate and ERETPC the word after it. -/
def Sys2Proof.Claim.TrapEntersHandler : Prop :=
  ∀ (s : State) (i : BitVec 16), CanTrap s →
    Answers (.trap i) s (fun t => EnteredHandler s t 2 (i.zeroExtend 64) none (s.me.pc + 1))

/-- R175, R177: TRAP with STATUS.INH set or TRAPVEC zero is EndFaulted of the continuation with code SWTRAP: the core is
freed, with nothing queued and no lease on the array. -/
def Sys2Proof.Claim.TrapWithoutHandlerEndsFaulted : Prop :=
  ∀ (s : State) (i : BitVec 16) (r : Running), s.me.run = some r → (s.me.sys.inh = true ∨ s.me.sys.trapvec = 0) →
    s.canSave s.actor.core = true →
    Answers (.trap i) s (fun t => t = s.endFaulted s.actor.core 2 (i.zeroExtend 64) none 0 s.me.pc.toNat s.me.holdsTrap
        s.me.pc.toNat
      ∧ t.me.run = none ∧ t.me.eng = CoreEng.init ∧ t.me.sys.lease = false)

/-- TRAP enters the handler, or ends the continuation faulted. -/
def Obligations.TrapsEnterOrEndFaulted : Prop :=
  Claim.TrapEntersHandler ∧ Claim.TrapWithoutHandlerEndsFaulted

/-- R117, R64: SREGR reads the fault registers, the trap registers, STATUS, the window and loop counts, and zero for a
number that no chapter assigns. -/
def Sys2Proof.Claim.SystemRegisterReads : Prop :=
  ∀ (s : State) (d : BitVec 5) (n : BitVec 12), let y := s.me.sys
    let gives := fun (k : BitVec 12) (v : Word64) => Answers (.sregr d k) s (fun t => WroteG s t d v)
    gives 0x000 (s.me.status) ∧ gives 0x001 y.faultInfo ∧ gives 0x002 y.faultAddr ∧ gives 0x003 (y.faultPc.setWidth 64)
    ∧ gives 0x004 (y.trapvec.setWidth 64) ∧ gives 0x005 (s.worldReg s.actor.core)
    ∧ (s.watchesAway = false → gives 0x006 (if y.event then 1 else 0)) ∧ gives 0x010 (y.stagewin.setWidth 64)
    ∧ gives 0x040 (y.eretpc.setWidth 64) ∧ gives 0x041 (if y.abandon then 1 else 0) ∧ gives 0x046 y.evwatch
    ∧ gives 0x048 y.attncfg ∧ gives 0x049 y.attnscl
    ∧ (0x100 ≤ n.toNat → gives n 0)
    ∧ (n ≠ 6 → gives n (s.readSys n.toNat))

/-- R117, R64, R96, R332: SREGW writes the writable registers of the core and changes nothing else; a write of a
read-only register or of a number that no chapter assigns is discarded. -/
def Sys2Proof.Claim.SystemRegisterWrites : Prop :=
  ∀ (s : State) (a : BitVec 5) (n : BitVec 12), let v := s.g a; let y := s.me.sys
    let becomes := fun (k : BitVec 12) (z : CoreSys) => Answers (.sregw a k) s (fun t => WroteSys s t z (s.me.pc + 1))
    becomes 0x004 { y with trapvec := v.setWidth 20 }
    ∧ becomes 0x010 { y with stagewin := v.setWidth 8 }
    ∧ becomes 0x011 { y with loopCount := v.setWidth 60, loopDrain := min (v.toNat / 2 ^ 60) 8 }
    ∧ becomes 0x040 { y with eretpc := v.setWidth 20 }
    ∧ becomes 0x041 { y with abandon := v.getLsbD 0 }
    ∧ becomes 0x048 { y with attncfg := v } ∧ becomes 0x049 { y with attnscl := v }
    ∧ (v.getLsbD 6 = true →
        becomes 0x000 { y with demoted := y.demoted && !v.getLsbD 1, pendtrap := true })
    ∧ (v.getLsbD 6 = false → Answers (.sregw a 0) s (fun t =>
        t.me = { s.me with pc := s.me.pc + 1
                           sys := { y with demoted := y.demoted && !v.getLsbD 1, pendtrap := false } }
        ∧ (∀ w, w ∈ t.mem.pend ↔ w ∈ s.mem.pend ∧
            ¬ (l1Loc s.actor.core 0 / 8 ≤ w ∧ w < (l1Loc s.actor.core 0 + 2 ^ 18) / 8))
        ∧ SameBytes s t (fun _ => True) ∧ t.mem.tags = s.mem.tags ∧ t.mem.full = s.mem.full
        ∧ SameSurroundings s t ∧ t.parts = s.parts ∧ OtherCoresSame s t))
    ∧ (n.toNat ∈ [0x001, 0x002, 0x003, 0x005, 0x006, 0x020, 0x030, 0x042, 0x043, 0x044, 0x045, 0x046, 0x04A, 0x04B] ∨
        (0x50 ≤ n.toNat ∧ n.toNat ≤ 0x67) ∨ 0x78 ≤ n.toNat → becomes n y)

/-- R118, R102, R103: WFE with the latch set clears it; SEV sets the latch of the eight cores of the cluster; QFENCE goes on
once every queued block has completed; CQPOP takes the oldest entry of cq. -/
def Sys2Proof.Claim.EventsAndQueuesOfTheSequencer : Prop :=
  ∀ (s : State) (d : BitVec 5),
    (s.me.sys.event = true → Answers .wfe s (fun t => WroteSys s t { s.me.sys with event := false } (s.me.pc + 1)))
    ∧ (s.quiet s.actor.core = true → Answers .qfence s (fun t =>
        WentTo { s with older := t.older } t (s.me.pc + 1) ∧ OrdersOwn s t (fun _ => False)))
    ∧ (∀ w l, s.me.cq = w :: l → Answers (.cqpop d) s (fun t =>
        (∀ r : BitVec 5, t.g r = if r = d ∧ r ≠ 0 then w else s.g r)
        ∧ OnlyCore s t { s.me with cq := l, g := t.me.g, pc := s.me.pc + 1 }))
    ∧ Answers .sev s (fun t =>
        t.me = { (s.me.latch) with pc := s.me.pc + 1 }
        ∧ (∀ n, n ≠ s.actor.core → t.core n = if clusterOf n = s.home then (s.core n).latch else s.core n)
        ∧ SameMemory s t ∧ SameSurroundings s t ∧ t.parts = s.parts)

/-- SREGR, SREGW, the event latch, QFENCE and CQPOP. -/
def Obligations.SystemRegistersAndEvents : Prop :=
  Claim.SystemRegisterReads ∧ Claim.SystemRegisterWrites ∧ Claim.EventsAndQueuesOfTheSequencer

/-- R85: CapCheck passes exactly when the capability has its tag, is unsealed, grants the permissions and the bounds hold
the access; otherwise the first failing check in this order gives the trap, with the address as info. -/
def Obligations.CapCheckOrder : Prop :=
  ∀ (c : Cap) (a n perms : Nat),
    (capCheck c a n perms = .ok () ↔
      c.tag = true ∧ c.otype = 0 ∧ c.grants perms = true ∧ c.base ≤ a ∧ a + n ≤ c.top)
    ∧ (c.tag = false → capCheck c a n perms = trapN .captag a)
    ∧ (c.tag = true → c.otype ≠ 0 → capCheck c a n perms = trapN .capseal a)
    ∧ (c.tag = true → c.otype = 0 → c.grants perms = false → capCheck c a n perms = trapN .capperm a)
    ∧ (c.tag = true → c.otype = 0 → c.grants perms = true → (a < c.base ∨ c.top < a + n) →
        capCheck c a n perms = trapN .capbounds a)

/-- R128: the inspecting instructions write a general register; CMOV copies a capability whole; CTEST compares two. -/
def Sys2Proof.Claim.CapabilityInspection : Prop :=
  ∀ (s : State) (d : BitVec 5) (e a b : BitVec 4), let x := s.c a; let y := s.c b
    Answers (.cgetbase d a) s (fun t => WroteG s t d (BitVec.ofNat 64 x.base))
    ∧ Answers (.cgetlen d a) s (fun t => WroteG s t d (BitVec.ofNat 64 (min (x.top - x.base) (2 ^ 64 - 1))))
    ∧ Answers (.cgetperm d a) s (fun t => WroteG s t d
        (x.perm.setWidth 64 ||| (x.otype.setWidth 64 <<< 16) ||| (x.gen.setWidth 64 <<< 24)))
    ∧ Answers (.cgettag d a) s (fun t => WroteG s t d (if x.tag then 1 else 0))
    ∧ Answers (.cmov e a) s (fun t => WroteC s t e x)
    ∧ Answers (.ctest d a b) s (fun t => WroteG s t d
        (if x.tag ∧ y.tag ∧ x.otype = 0 ∧ y.otype = 0 ∧ x.base ≤ y.base ∧ y.top ≤ x.top ∧ y.perm &&& x.perm = y.perm
          then 1 else 0))

/-- R127: CSEAL puts the type of the authority's cursor on an unsealed capability, and CUNSEAL takes it off again under the
same authority: unsealing what was sealed gives the capability back. -/
def Sys2Proof.Claim.SealThenUnseal : Prop :=
  ∀ (s : State) (d a b : BitVec 4), let x := s.c a; let k := s.c b
    (x.tag = true → x.otype = 0 → k.isTypeAuthority = true →
      Answers (.cseal d a b) s (fun t => WroteC s t d { x with otype := k.cursor.setWidth 8 })
      ∧ unsealCap { x with otype := k.cursor.setWidth 8 } k = .ok x)
    ∧ (x.tag = true → x.otype ≠ 0 → k.isTypeAuthority = true → k.cursor = x.otype.setWidth 64 →
      Answers (.cunseal d a b) s (fun t => WroteC s t d { x with otype := 0 }))

/-- Inspecting, copying, sealing and unsealing capabilities. -/
def Obligations.CapabilityInspectionAndSealing : Prop :=
  Claim.CapabilityInspection ∧ Claim.SealThenUnseal

/-- R126: CANDPERM, CINCR and CSETCUR on an unsealed capability; a cursor that would move the bounds costs the tag; a
sealed one raises CAPSEAL. -/
def Sys2Proof.Claim.CursorsAndPermissions : Prop :=
  ∀ (s : State) (d a : BitVec 4) (b : BitVec 5), let x := s.c a; let y := s.g b
    (x.tag = true → x.otype = 0 → Answers (.candperm d a b) s (fun t =>
        WroteC s t d { x with perm := x.perm &&& y.setWidth 12 &&& 0x3FF }))
    ∧ (x.tag = false → CanTrap s → Answers (.candperm d a b) s (fun t => EnteredHandler s t 8 x.cursor none s.me.pc))
    ∧ ((x.tag = false ∨ x.otype = 0) →
        Answers (.cincr d a b) s (fun t => WroteC s t d
          { x with cursor := x.cursor + y, tag := x.tag && x.representable (x.cursor + y) })
        ∧ Answers (.csetcur d a b) s (fun t => WroteC s t d
          { x with cursor := y, tag := x.tag && x.representable y }))
    ∧ (x.tag = true → x.otype ≠ 0 → CanTrap s →
        Answers (.cincr d a b) s (fun t => EnteredHandler s t 9 x.cursor none s.me.pc)
        ∧ Answers (.csetcur d a b) s (fun t => EnteredHandler s t 9 x.cursor none s.me.pc)
        ∧ Answers (.candperm d a b) s (fun t => EnteredHandler s t 9 x.cursor none s.me.pc))

/-- R126, R147: CDERIVE makes bounds that start at or below the cursor and end at or above cursor + n (where that sum is an
address), inside the bounds it derives from, with the generation the machine holds for the new base; it keeps everything
else. -/
def Sys2Proof.Claim.DerivedBoundsContainRequest : Prop :=
  ∀ (s : State) (d a : BitVec 4) (b : BitVec 5), let x := s.c a; let n := (s.g b).toNat
    ∀ c, deriveCap x n = .ok c →
      Answers (.cderive d a b) s (fun t => WroteC s t d { c with gen := s.genAt s.party c.base })
      ∧ c.base ≤ x.cursor.toNat ∧ (x.cursor.toNat + n ≤ 2 ^ 64 → x.cursor.toNat + n ≤ c.top) ∧ x.base ≤ c.base ∧ c.top ≤ x.top
      ∧ c.tag = true ∧ c.otype = 0 ∧ c.perm = x.perm ∧ c.cursor = x.cursor

/-- Derived capabilities never gain bounds or permissions. -/
def Obligations.CapabilityDerivation : Prop :=
  Claim.CursorsAndPermissions ∧ Claim.DerivedBoundsContainRequest

/-- R132, R181: a load from the core's own L1 through a capability that grants LOAD over the bytes, aligned, with no
qualifier, outside PENDTRAP mode, where no sync object lies and no unit is poisoned, puts the bytes, extended as the size
says, into gd, and changes nothing else but the pc (a reply of another module that waits for this core is used up). -/
def Sys2Proof.Claim.OwnL1LoadReadsBytes : Prop :=
  ∀ (s : State) (d : BitVec 5) (a : BitVec 4) (z : BitVec 3) (k : BitVec 11) (off : Nat),
    let c := s.c a; let n := (loadSize z.toNat).1; let l := l1Loc s.actor.core off
    z ≠ 7 → c.tag = true → c.otype = 0 → c.grants permLoad = true →
    (c.cursor.toNat : Int) + k.toInt * n = 0x7F0000000000 + off → off + n ≤ 2 ^ 18 → off % n = 0 →
    c.base ≤ 0x7F0000000000 + off → 0x7F0000000000 + off + n ≤ c.top → s.me.sys.pendtrap = false →
    (∀ o ∈ (s.part s.party.part).syncs, o.1 + 64 ≤ l ∨ l + n ≤ o.1) → s.mem.poisonIn l n = none →
    Answers (.lds d a z 0 k) s (fun t =>
      (∀ r : BitVec 5, t.g r = if r = d ∧ r ≠ 0 then
          (if z = 4 ∨ z = 5 ∨ z = 6 then sext64 (8 * n) (leNat (s.mem.readUnder 0 l n))
           else BitVec.ofNat 64 (leNat (s.mem.readUnder 0 l n)))
        else s.g r)
      ∧ t.me = { s.me with g := t.me.g, pc := s.me.pc + 1 } ∧ SameMemory s t ∧ t.clusters = s.clusters
      ∧ t.parts = s.parts ∧ LoadFrame s t [])

/-- R132, R131: LDS and LDC, once the checks and waits of the access pass and its bytes can be read, write their
destination and change nothing else but the pc and, under .wfc, the full bits of the granules read. -/
def Sys2Proof.Claim.LoadsWriteTheirRegister : Prop :=
  ∀ (s : State) (d : BitVec 5) (e a : BitVec 4) (z : BitVec 3) (f : BitVec 2) (k : BitVec 11) (ps : List Piece)
    (bs : List Byte),
    (let n := (loadSize z.toNat).1
     s.readChecks (s.c a) (scaledAddr (s.c a) k n) n n f.toNat (Reach.ofQualifier f.toNat) permLoad false = .ok ps →
     s.readPieces s.actor.core 0 ps = .ok bs →
     Answers (.lds d a z f k) s (fun t =>
       (∀ r : BitVec 5, t.g r = if r = d ∧ r ≠ 0 then loadValue (loadSize z.toNat).2 bs else s.g r)
       ∧ t.me = { s.me with g := t.me.g, pc := s.me.pc + 1 } ∧ LoadedOnly s t ps f.toNat ∧ t.clusters = s.clusters
       ∧ LoadFrame s t ps))
    ∧ (∀ p, s.readChecks (s.c a) (scaledAddr (s.c a) k 16) 16 16 f.toNat (Reach.ofQualifier f.toNat) permLoad false
        = .ok (p :: ps) →
     s.readPieces s.actor.core 0 (p :: ps) = .ok bs →
     s.awaitGen s.party (capOfBytes bs true).base = .ok () →
     Answers (.ldc e a f k) s (fun t =>
       (∀ r : BitVec 4, t.c r = if r = e then
          s.freshCap s.party (capOfBytes bs (s.tagOf s.actor.core 0 p && (s.c a).grants permLoadCap)) else s.c r)
       ∧ t.me = { s.me with c := t.me.c, pc := s.me.pc + 1 } ∧ LoadedOnly s t (p :: ps) f.toNat
       ∧ t.clusters = s.clusters ∧ LoadFrame s t (p :: ps)))

/-- Loads write their destination from memory and change nothing else. -/
def Obligations.LoadsReadBytes : Prop :=
  Claim.OwnL1LoadReadsBytes ∧ Claim.LoadsWriteTheirRegister

/-- R132, R125, R131: on this module STS stores the low bytes of its source where its checks place them, and every other
byte reads as before; STC stores the 16 bytes of the capability with its tag; no general or capability register changes. -/
def Sys2Proof.Claim.LocalStoresWriteOnlyTheirBytes : Prop :=
  ∀ (s : State) (g : BitVec 5) (e a : BitVec 4) (z f : BitVec 2) (k : BitVec 11) (ps : List Piece),
    (let n := plainSize z.toNat; let x := scaledAddr (s.c a) k n
     capCheck (s.c a) x n permStore = .ok () → s.storeChecks (s.c a) x n n f.toNat = .ok ps →
     (∀ p ∈ ps, ∃ l key, p.place = .here l key) → NothingUnordered s 0 ps →
     Answers (.sts g a z f k) s (fun t =>
       Stored s t ps (leBytes (s.g g).toNat n) ∧ FilledOnly s t ps f.toNat ∧ t.me = { s.me with pc := s.me.pc + 1 }
       ∧ t.clusters = s.clusters ∧ StoreFrame s t ps))
    ∧ (let x := scaledAddr (s.c a) k 16
     ∀ va l key, let p : Piece := ⟨va, 16, .here l key, s.party, some (s.c a)⟩
     storeCapCheck (s.c a) (s.c e) x = .ok () → s.storeChecks (s.c a) x 16 16 f.toNat = .ok [p] →
     Answers (.stc e a f k) s (fun t =>
       t.mem.readUnder key l 16 = capBytes (s.c e) ∧ SameBytes s t (fun y => y < l ∨ l + 16 ≤ y)
       ∧ ((l / 16) ∈ t.mem.tags ↔ (s.c e).tag = true)
       ∧ (∀ g, g ∉ granules l 16 → (g ∈ t.mem.tags ↔ g ∈ s.mem.tags))
       ∧ FilledOnly s t [p] f.toNat ∧ t.me = { s.me with pc := s.me.pc + 1 }
       ∧ t.clusters = s.clusters ∧ StoreFrame s t [p]))

/-- R422, R172: an STS to a page of another module changes no byte of this module. It sends one request with its bytes, goes
on when the request has been acknowledged, and raises MEMERR with the address of the line when it has been refused.
That it waits for the answer is the model's reading (log 90). -/
def Sys2Proof.Claim.RemoteStoreIsForwarded : Prop :=
  ∀ (s : State) (g : BitVec 5) (a : BitVec 4) (z f : BitVec 2) (k : BitVec 11) (va m x page : Nat),
    let n := plainSize z.toNat
    let p : Piece := ⟨va, n, .away m x page, s.party, some (s.c a)⟩
    let req := s.request s.actor.core 0 0 m x (BitVec.ofNat 64 va) (.store (leBytes (s.g g).toNat n) []) page p.asker
    let sent := s.outer.forwards.find? req.same
    capCheck (s.c a) (scaledAddr (s.c a) k n) n permStore = .ok () →
    s.storeChecks (s.c a) (scaledAddr (s.c a) k n) n n f.toNat = .ok [p] →
    (sent = none → Answers (.sts g a z f k) s (fun t =>
      t = { s with outer := { s.outer with
        forwards := s.outer.forwards ++ [req], accesses := t.outer.accesses, outputs := t.outer.outputs } }))
    ∧ (∀ q, sent = some q → q.reply = none → Answers (.sts g a z f k) s (fun t => OnlyCore s t s.me))
    ∧ (∀ q r, sent = some q → q.reply = some (some r) → Answers (.sts g a z f k) s (fun t =>
      SameMemory s t ∧ t.me = { s.me with pc := s.me.pc + 1 } ∧ t.clusters = s.clusters ∧ LoadFrame s t [p]))
    ∧ (∀ q, sent = some q → q.reply = some none → CanTrap s → Answers (.sts g a z f k) s (fun t =>
      EnteredHandler s t 26 (BitVec.ofNat 64 ((BitVec.ofNat 64 va).toNat / 64 * 64)) none s.me.pc))

/-- Stores change their bytes only; one to another module is forwarded and answered. -/
def Obligations.StoresWriteOnlyTheirBytes : Prop :=
  Claim.LocalStoresWriteOnlyTheirBytes ∧ Claim.RemoteStoreIsForwarded

/-- R133, R191: LDQ puts 256 bytes, or the oldest entry of a bank in FIFO mode, on their way into a load queue with room;
STQ stores the oldest entry of a store queue, or appends it to such a bank. -/
def Sys2Proof.Claim.QueueTransfers : Prop :=
  ∀ (s : State) (q : BitVec 2) (a : BitVec 4) (b : BitVec 5) (f : BitVec 2),
    let c := s.c a; let x := indexedAddr c (s.g b)
    (∀ ps bs, s.fifoAt x.toNat = none → s.me.loadQLoad q.toNat < 8 →
      s.readChecks c x 256 16 f.toNat (Reach.ofQualifier f.toNat) permLoad false = .ok ps →
      s.readPieces s.actor.core 0 ps = .ok bs →
      Answers (.ldq q a b f) s (fun t =>
        t.me = { s.me with pc := s.me.pc + 1
                           eng := { s.me.eng with loads := s.me.eng.loads ++ [⟨q.toNat, vecOfBytes bs⟩] } }
        ∧ LoadedOnly s t ps f.toNat ∧ t.clusters = s.clusters ∧ LoadFrame s t ps))
    ∧ (∀ k n off v l, s.fifoAt x.toNat = some (k, n, off) → capCheck c x 256 permLoad = .ok () → x.toNat % 16 = 0 →
      s.checkFifo f.toNat x.toNat k n off = .ok () → s.me.loadQLoad q.toNat < 8 →
      s.firstFor (.fifo k n false) s.actor.core = true → ((s.cluster k).bank n).fifo = v :: l →
      Answers (.ldq q a b f) s (fun t =>
        t.me = { s.me with pc := s.me.pc + 1, eng := { s.me.eng with loads := s.me.eng.loads ++ [⟨q.toNat, v⟩] } }
        ∧ ((t.cluster k).bank n).fifo = l ∧ SameMemory s t))
    ∧ (∀ ps v l, s.fifoAt x.toNat = none → capCheck c x 256 permStore = .ok () →
      s.storeChecks c x 256 16 f.toNat = .ok ps → (∀ p ∈ ps, ∃ l key, p.place = .here l key) →
      NothingUnordered s 0 ps → s.me.storeQ q.toNat = v :: l →
      Answers (.stq q a b f) s (fun t =>
        Stored s t ps (vecBytes v) ∧ FilledOnly s t ps f.toNat ∧ t.me.storeQ q.toNat = l
        ∧ t.me = { s.me with pc := s.me.pc + 1, sq := t.me.sq } ∧ t.clusters = s.clusters ∧ StoreFrame s t ps))
    ∧ (∀ k n off v l, s.fifoAt x.toNat = some (k, n, off) → capCheck c x 256 permStore = .ok () → x.toNat % 16 = 0 →
      s.checkFifo f.toNat x.toNat k n off = .ok () → s.me.storeQ q.toNat = v :: l →
      s.firstFor (.fifo k n true) s.actor.core = true → ((s.cluster k).bank n).fifo.length < fifoRoom k →
      Answers (.stq q a b f) s (fun t =>
        ((t.cluster k).bank n).fifo = ((s.cluster k).bank n).fifo ++ [v] ∧ t.me.storeQ q.toNat = l
        ∧ t.me = { s.me with pc := s.me.pc + 1, sq := t.me.sq } ∧ SameMemory s t))

/-- R134: GATHER reads one element per index of the oldest entry of an index queue into a load queue; SCATTER writes the
elements of the oldest store-queue entry; both pop what they use. No lane's access is made unless every check passes: the
first lane out of the bounds is named in the fault of CAPBOUNDS, any other failed check gives its own, and neither queues nor
memory change. -/
def Sys2Proof.Claim.GatherAndScatter : Prop :=
  ∀ (s : State) (q : BitVec 2) (a : BitVec 4) (m : BitVec 1) (z : BitVec 2) (ix : List Int) (rest : List (List Int))
    (pss : List (List Piece)),
    let c := s.c a; let n := plainSize z.toNat
    s.me.indexQ m.toNat = ix :: rest →
    (∀ bss, gatherCap c n permLoad = .ok () → s.gatherPieces c n ix false = .ok pss → s.me.loadQLoad q.toNat < 8 →
      checkAll (fun ps => s.checkEarly ps ((ps.head?.map Piece.va).getD 0)) pss = .ok () →
      mapChk (fun ps => s.readPieces s.actor.core 0 ps) pss = .ok bss →
      Answers (.gather q a m z) s (fun t =>
        t.me.indexQ m.toNat = rest
        ∧ t.me = { s.me with pc := s.me.pc + 1, iq := t.me.iq
                             eng := { s.me.eng with loads := s.me.eng.loads ++ [⟨q.toNat, vecOfBytes bss.flatten⟩] } }
        ∧ SameMemory s t ∧ t.clusters = s.clusters ∧ LoadFrame s t pss.flatten))
    ∧ (∀ v l, gatherCap c n permStore = .ok () → s.me.storeQ q.toNat = v :: l →
      s.gatherPieces c n ix true = .ok pss → (∀ ps ∈ pss, ∀ p ∈ ps, ∃ l key, p.place = .here l key) → NothingUnordered s 0 pss.flatten →
      Answers (.scatter q a m z) s (fun t =>
        t.me.indexQ m.toNat = rest ∧ t.me.storeQ q.toNat = l
        ∧ t.me = { s.me with pc := s.me.pc + 1, iq := t.me.iq, sq := t.me.sq }
        ∧ (PiecesApart pss.flatten → HoldBytes t pss.flatten (vecBytes v))
        ∧ SameBytes s t (fun y => ¬ InPieces pss.flatten y)
        ∧ (∀ y, y ∈ t.mem.tags ↔ y ∈ s.mem.tags ∧ y ∉ pieceGranules pss.flatten) ∧ t.mem.full = s.mem.full ∧ t.mem.pend = s.mem.pend
        ∧ t.clusters = s.clusters ∧ StoreFrame s t pss.flatten))
    ∧ (∀ (write : Bool) (tr : Trap) (info : Word64) (lane : Option Nat), CanTrap s → tr ≠ .swtrap →
      gatherCap c n (if write then permStore else permLoad) = .ok () → (write = true → s.me.storeQ q.toNat ≠ []) →
      s.gatherPieces c n ix write = .error (.trap tr info lane) →
      Answers (if write then .scatter q a m z else .gather q a m z) s (fun t =>
        EnteredHandler s t tr.code info lane s.me.pc))
    ∧ (∀ (write : Bool) (j : Nat) (i : Int), CanTrap s →
      let at' := fun i : Int => (c.cursor.toNat : Int) + i * n
      let inside := fun i : Int => (c.base : Int) ≤ at' i ∧ at' i + n ≤ c.top
      gatherCap c n (if write then permStore else permLoad) = .ok () → (write = true → s.me.storeQ q.toNat ≠ []) →
      ix.length ≤ 256 / n → ix[j]? = some i → ¬ inside i → (∀ k w, k < j → ix[k]? = some w → inside w) →
      Answers (if write then .scatter q a m z else .gather q a m z) s (fun t =>
        EnteredHandler s t 11 (BitVec.ofInt 64 (at' i)) (some j) s.me.pc))

/-- R133, R181, R185: LDQ and STQ on the core's own L1 complete whenever the capability grants the access, the 256 bytes are
aligned, in its bounds and without a sync object, and the queue has room or an entry: LDQ puts the bytes on their way into the
load queue, STQ stores the oldest entry of the store queue, clears the tags beneath it and pops it. -/
def Sys2Proof.Claim.OwnL1QueueTransfers : Prop :=
  ∀ (s : State) (q : BitVec 2) (a : BitVec 4) (b : BitVec 5) (off : Nat),
    let c := s.c a; let l := l1Loc s.actor.core off
    c.tag = true → c.otype = 0 → c.cursor.toNat + (s.g b).toNat = 0x7F0000000000 + off → off + 256 ≤ 2 ^ 18 →
    off % 16 = 0 → c.base ≤ 0x7F0000000000 + off → 0x7F0000000000 + off + 256 ≤ c.top →
    (∀ o ∈ (s.part s.party.part).syncs, o.1 + 64 ≤ l ∨ l + 256 ≤ o.1) →
    (c.grants permLoad = true → s.me.sys.pendtrap = false → s.mem.poisonIn l 256 = none → s.me.loadQLoad q.toNat < 8 →
      Answers (.ldq q a b 0) s (fun t =>
        t.me = { s.me with pc := s.me.pc + 1
                           eng := { s.me.eng with
                             loads := s.me.eng.loads ++ [⟨q.toNat, vecOfBytes (s.mem.readUnder 0 l 256)⟩] } }
        ∧ SameMemory s t ∧ t.clusters = s.clusters ∧ LoadFrame s t []))
    ∧ (∀ v rest, c.grants permStore = true → s.me.storeQ q.toNat = v :: rest →
      Answers (.stq q a b 0) s (fun t =>
        t.mem.readUnder 0 l 256 = vecBytes v ∧ SameBytes s t (fun y => y < l ∨ l + 256 ≤ y)
        ∧ (∀ y, y ∈ t.mem.tags ↔ y ∈ s.mem.tags ∧ y ∉ granules l 256) ∧ t.mem.full = s.mem.full
        ∧ t.me.storeQ q.toNat = rest ∧ t.me = { s.me with pc := s.me.pc + 1, sq := t.me.sq } ∧ t.clusters = s.clusters
        ∧ StoreFrame s t []))

/-- R134, R181: GATHER and SCATTER on the core's own L1 complete whenever the capability grants the access, every lane of the
oldest index entry lies aligned in its bounds and clear of sync objects, and the queues have an entry or room. Lane j of the
gathered vector is the element at cursor + ix[j] * size; SCATTER stores lane j there unless a later lane has the same index. -/
def Sys2Proof.Claim.OwnL1GatherAndScatter : Prop :=
  ∀ (s : State) (q : BitVec 2) (a : BitVec 4) (m : BitVec 1) (z : BitVec 2) (ix : List Int) (rest : List (List Int))
    (off : Nat),
    let c := s.c a; let n := plainSize z.toNat
    let lane := fun i : Int => l1Loc s.actor.core ((off + i * n : Int).toNat)
    s.me.indexQ m.toNat = ix :: rest → ix.length ≤ 256 / n → c.tag = true → c.otype = 0 →
    c.cursor.toNat = 0x7F0000000000 + off → off % n = 0 →
    (∀ i ∈ ix, (0 : Int) ≤ off + i * n ∧ (off + i * n + n : Int) ≤ 2 ^ 18 ∧ (c.base : Int) ≤ 0x7F0000000000 + off + i * n
      ∧ (0x7F0000000000 + off + i * n + n : Int) ≤ c.top
      ∧ ∀ o ∈ (s.part s.party.part).syncs, o.1 + 64 ≤ lane i ∨ lane i + n ≤ o.1) →
    (c.grants permLoad = true → s.me.sys.pendtrap = false → (∀ i ∈ ix, s.mem.poisonIn (lane i) n = none) →
      s.me.loadQLoad q.toNat < 8 →
      Answers (.gather q a m z) s (fun t =>
        t.me.indexQ m.toNat = rest
        ∧ t.me = { s.me with pc := s.me.pc + 1, iq := t.me.iq
                             eng := { s.me.eng with loads := s.me.eng.loads ++
                               [⟨q.toNat, vecOfBytes (ix.map (fun i => s.mem.readUnder 0 (lane i) n)).flatten⟩] } }
        ∧ SameMemory s t ∧ t.clusters = s.clusters ∧ LoadFrame s t []))
    ∧ (∀ v l, c.grants permStore = true → s.me.storeQ q.toNat = v :: l →
      Answers (.scatter q a m z) s (fun t =>
        (∀ j i, ix[j]? = some i → (∀ k, j < k → ix[k]? ≠ some i) →
          t.mem.readUnder 0 (lane i) n = sliceB (n * j) n (vecBytes v))
        ∧ SameBytes s t (fun y => ∀ i ∈ ix, y < lane i ∨ lane i + n ≤ y)
        ∧ (∀ y, y ∈ t.mem.tags ↔ y ∈ s.mem.tags ∧ ∀ i ∈ ix, y ∉ granules (lane i) n)
        ∧ t.me.indexQ m.toNat = rest ∧ t.me.storeQ q.toNat = l
        ∧ t.me = { s.me with pc := s.me.pc + 1, iq := t.me.iq, sq := t.me.sq } ∧ t.mem.full = s.mem.full
        ∧ t.clusters = s.clusters ∧ StoreFrame s t []))

/-- LDQ, STQ, GATHER and SCATTER move queue entries and bytes, and complete on the core's own L1. -/
def Obligations.VectorQueueTransfers : Prop :=
  Claim.QueueTransfers ∧ Claim.GatherAndScatter ∧ Claim.OwnL1QueueTransfers ∧ Claim.OwnL1GatherAndScatter

/-- R135, R322, R320: the atomics put the old value, sign-extended, into gd and the new value at the address, and set
EVWATCH; AMOCAS compares with gd; .sys scope in a tenant-limited function sets SCOPEDEMOTED. -/
def Obligations.AtomicResults : Prop :=
  ∀ (s : State) (d : BitVec 5) (a : BitVec 4) (b : BitVec 5) (w : BitVec 1) (sc : BitVec 3) (l key : Nat),
    let n := if w = 1 then 4 else 8; let x := (s.c a).cursor.toNat
    let ps : List Piece := [⟨x, n, .here l key, s.party, some (s.c a)⟩]
    let old := leNat (s.mem.readUnder key l n); let y := (s.g b).toNat % 2 ^ (8 * n); let e := (s.g d).toNat % 2 ^ (8 * n)
    let becomes := fun (i : Instr) (v : Nat) =>
      Answers i s (fun t => AmoDone s t d ps n x sc (sext64 (8 * n) old) v)
    s.readChecks (s.c a) x n n 0 Reach.amo (permLoad + permStore) true = .ok ps →
    s.mem.poisonIn l n = none →
    becomes (.amoadd d a b w sc) ((old + y) % 2 ^ (8 * n))
    ∧ becomes (.amoswap d a b w sc) y
    ∧ becomes (.amocas d a b w sc) (if old = e then y else old)
    ∧ becomes (.amomin d a b w sc) (if signedOf (8 * n) y < signedOf (8 * n) old then y else old)
    ∧ becomes (.amomax d a b w sc) (if signedOf (8 * n) old < signedOf (8 * n) y then y else old)
    ∧ becomes (.amoand d a b w sc) (old &&& y)
    ∧ becomes (.amoor d a b w sc) (old ||| y)

/-- R129, R85, R175: an access through a capability without its tag enters the handler with code CAPTAG and the address as
FAULTADDR, whatever else is wrong with it, and has no other effect. -/
def Obligations.UntaggedAccessTraps : Prop :=
  ∀ (s : State) (d : BitVec 5) (e a : BitVec 4) (z : BitVec 3) (y f : BitVec 2) (k : BitVec 11) (b : BitVec 5)
    (w m : BitVec 1) (sc : BitVec 3), let c := s.c a
    c.tag = false → CanTrap s →
    let traps := fun (i : Instr) (x : Int) => Answers i s (fun t => EnteredHandler s t 8 (BitVec.ofInt 64 x) none s.me.pc)
    traps (.lds d a z f k) (scaledAddr c k (loadSize z.toNat).1) ∧ traps (.sts d a y f k) (scaledAddr c k (plainSize y.toNat))
    ∧ traps (.ldc e a f k) (scaledAddr c k 16) ∧ traps (.stc e a f k) (scaledAddr c k 16)
    ∧ traps (.ldq y a b f) (indexedAddr c (s.g b)) ∧ traps (.stq y a b f) (indexedAddr c (s.g b))
    ∧ traps (.gather y a m y) c.cursor.toNat ∧ traps (.scatter y a m y) c.cursor.toNat
    ∧ traps (.amoadd d a b w sc) c.cursor.toNat ∧ traps (.amoswap d a b w sc) c.cursor.toNat
    ∧ traps (.amocas d a b w sc) c.cursor.toNat ∧ traps (.amomin d a b w sc) c.cursor.toNat
    ∧ traps (.amomax d a b w sc) c.cursor.toNat ∧ traps (.amoand d a b w sc) c.cursor.toNat
    ∧ traps (.amoor d a b w sc) c.cursor.toNat

/-- R138, R136: SYNCINIT marks a free object; ACQ on a free object holds it for the running continuation, exclusive or
shared; a second shared holder joins when nobody waits.
Where the rules leave it open, the model's reading (logs 20 and 22). -/
def Sys2Proof.Claim.SyncObjectsAreAcquired : Prop :=
  ∀ (s : State) (a : BitVec 4) (l : Nat), NamesObject s (s.c a) l → let p := s.party.part; let r := s.me.record
    ((Sparse.find? l (s.part p).syncs = none ∨ SyncIs s l ⟨.free, [], []⟩) →
      Answers (.syncinit a) s (fun t => Sparse.find? l (t.part p).syncs = some ⟨.free, [], []⟩ ∧ ObjectFrame s t p l))
    ∧ (∀ o, SyncIs s l o → o.heldBy r = false → ((s.part p).heldSyncs r).length < 8 →
      (o.mode = .free →
        Answers (.acqEx a) s (fun t =>
          Sparse.find? l (t.part p).syncs = some { o with mode := .exclusive r } ∧ ObjectFrame s t p l)
        ∧ Answers (.acqSh a) s (fun t =>
          Sparse.find? l (t.part p).syncs = some { o with mode := .shared [r] } ∧ ObjectFrame s t p l))
      ∧ (∀ hs, o.mode = .shared hs → o.waiting = [] →
        Answers (.acqSh a) s (fun t =>
          Sparse.find? l (t.part p).syncs = some { o with mode := .shared (Marks.add r hs) } ∧ ObjectFrame s t p l))
      ∧ (∀ h run, o.mode = .exclusive h → s.me.run = some run → s.canSuspend = .ok () →
        let leaves := fun t : State => t.me.run = none ∧ t.me.eng = CoreEng.init ∧ ctlState (t.ctl run.part run.record) = 4
        Answers (.acqEx a) s (fun t => leaves t ∧
          Sparse.find? l (t.part p).syncs = some { o with waiting := o.waiting ++ [(r, true)] })
        ∧ Answers (.acqSh a) s (fun t => leaves t ∧
          Sparse.find? l (t.part p).syncs = some { o with waiting := o.waiting ++ [(r, false)] })))

/-- R138, R140: REL by the only holder of an object for which nobody waits leaves it free; FENCE goes on once every access
of the sequencer is performed. -/
def Sys2Proof.Claim.ReleaseAndFence : Prop :=
  ∀ (s : State) (a : BitVec 4) (l : Nat) (o : SyncObj) (sel : BitVec 3), let p := s.party.part; let r := s.me.record
    s.performed s.actor.core = true →
    (NamesObject s (s.c a) l → SyncIs s l o → (o.mode = .exclusive r ∨ o.mode = .shared [r]) → o.waiting = [] →
      Answers (.rel a) s (fun t =>
        Sparse.find? l (t.part p).syncs = some { o with mode := .free } ∧ ObjectFrame s t p l))
    ∧ Answers (.fence sel) s (fun t => Performs s t (· = 0) ∧ WroteSys { s with older := t.older } t
        { s.me.sys with demoted := s.me.sys.demoted || (sel = 5 && s.tenantLimited) } (s.me.pc + 1))

/-- R308: the scopes of FENCE and AMO as seen from a core: .core names the core alone, .cluster and .die what stands in them,
.module everything on the module, .part the partition's parties, .sys those, the host and the pod. Among the parties of the
owning partition a wider code holds every party of a narrower one. -/
def Sys2Proof.Claim.ScopesNest : Prop :=
  ∀ (s : State) (core p : Nat) (o : Observer), s.ownerOf (clusterOf core) = some p →
    (∀ x, s.inScope core 0 x = decide (x = .core core)) ∧ (∀ n, s.inScope core 1 (.units n) = decide (n = clusterOf core))
    ∧ (∀ n, s.inScope core 2 (.core n) = decide (dieOf (clusterOf n) = dieOf (clusterOf core)))
    ∧ (∀ n, s.inScope core 3 (.core n) = true ∧ s.inScope core 3 (.units n) = true ∧ s.inScope core 3 (.complex n) = true)
    ∧ (∀ q, s.inScope core 4 (.away q) = decide (q = p))
    ∧ (∀ code, code < 5 → s.inScope core code .host = false ∧ s.inScope core code .pod = false)
    ∧ (∀ x, s.inScope core 5 x = true)
    ∧ (s.observerPart o = some p → ∀ i j, i ≤ j → j ≤ 5 → s.inScope core i o = true → s.inScope core j o = true)

/-- R309: a store of the sequencer to HBM keeps, granule by granule, what it replaces until something orders it. A read of a
granule returns it whole, as it stands or as an unordered write of another unit of its core, or of a copy of another core,
found it; of two unordered writes the granule ends whole from one.
That the choice is free, and what is kept for it, is the model's own (log 4). -/
def Sys2Proof.Claim.UnorderedAccessesKeepGranulesWhole : Prop :=
  (∀ (s : State) (g : BitVec 5) (a : BitVec 4) (z f : BitVec 2) (k : BitVec 11) (va l key : Nat),
    let n := plainSize z.toNat; let x := scaledAddr (s.c a) k n
    let p : Piece := ⟨va, n, .here l key, s.party, some (s.c a)⟩
    capCheck (s.c a) x n permStore = .ok () → s.storeChecks (s.c a) x n n f.toNat = .ok [p] → NothingUnordered s 0 [p] →
    l < hbmEnd → Answers (.sts g a z f k) s (fun t => t.older = s.older ++ (granules l n).map (fun x =>
      ⟨s.actor.core, 0, x, key, s.mem.readUnder key (16 * x) 16, s.mem.tagAt (16 * x), true⟩)))
  ∧ (∀ (s : State) (core unit l key : Nat) (p : Piece), p.place = .here l key → l % 16 + p.len ≤ 16 →
      s.mem.poisonIn l p.len = none → ∃ bs, s.readPiece core unit p = .ok (sliceB (l % 16) p.len bs)
        ∧ (bs = s.mem.readUnder key (16 * (l / 16)) 16
          ∨ ∃ e ∈ s.older, l < hbmEnd ∧ e.granule = l / 16 ∧ e.key = key ∧ e.bytes = bs
            ∧ (e.core = core → e.unit ≠ unit ∧ e.own = true) ∧ (e.core ≠ core → 16 ≤ e.unit)))
  ∧ (∀ (s : State) (core unit l key : Nat) (fill : Bool) (bs : List Byte), bs ≠ [] → l % 16 + bs.length ≤ 16 →
      let t := s.putHere core unit fill l key bs
      t.mem.readUnder key l bs.length = bs ∨ (s.unordered core unit l = true ∧ t.mem = s.mem))

/-- Sync objects are made, acquired and released; FENCE waits for accesses; the scopes nest; unordered accesses keep granules
whole. -/
def Obligations.SyncObjectsAndFence : Prop :=
  Claim.SyncObjectsAreAcquired ∧ Claim.ReleaseAndFence ∧ Claim.ScopesNest ∧ Claim.UnorderedAccessesKeepGranulesWhole

/-- R139, R141: BIND adds the region of ca to the object that the continuation holds exclusively, UNBIND removes it;
PUBLISH exchanges the visible frame of each shadowed pair that the buffer covers, the sync objects of the pages with it, and
releases the object.
Where the rules leave it open, the model's reading (logs 25 and 45). -/
def Sys2Proof.Claim.RegionsAreBoundAndPublished : Prop :=
  ∀ (s : State) (a b : BitVec 4) (l : Nat) (o : SyncObj),
    let p := s.party.part; let r := s.me.record; let lo := (s.c a).base; let hi := (s.c a).top
    let q : Region := ⟨lo, hi, s.party.world, s.party.context⟩
    (s.bindChecks (s.c a) (s.c b) = .ok (l, o) →
      (o.regions.length < 8 → (s.part p).bindsOver q = false →
        Answers (.bind a b) s (fun t =>
          Sparse.find? l (t.part p).syncs = some { o with regions := o.regions ++ [q] } ∧ ObjectFrame s t p l))
      ∧ (q ∈ o.regions →
        Answers (.unbind a b) s (fun t =>
          Sparse.find? l (t.part p).syncs = some { o with regions := o.regions.filter (· != q) }
          ∧ ObjectFrame s t p l)))
    ∧ (∀ ps, objectCap (s.c b) = .ok () → regionCap (s.c a) permPublish = .ok () → s.objectLoc (s.c b) = .ok l →
      SyncIs s l o → o.mode = .exclusive r → o.waiting = [] →
      (∃ w ∈ o.regions, w.world = q.world ∧ w.context = q.context ∧ w.lo ≤ lo ∧ hi ≤ w.hi) →
      s.pairsOf (s.c a) = some ps → ps.dedup.Pairwise (fun x y => x.1 + 2 * x.2 ≤ y.1 ∨ y.1 + 2 * y.2 ≤ x.1) → s.arraysQuiet s.actor.core = true → s.copiesInto s.actor.core lo hi = false →
      s.performed s.actor.core = true → checkAll (s.awaitGen s.party) (pagesOf lo hi) = .ok () →
      let frames := ps.map Prod.fst; let at' := exchanged p ps.dedup
      Answers (.publish a b) s (fun t =>
        (∀ f, f ∈ (t.part p).swapped ↔ (f ∈ frames ∧ f ∉ (s.part p).swapped) ∨ (f ∉ frames ∧ f ∈ (s.part p).swapped))
        ∧ Sparse.find? (at' l) (t.part p).syncs = some { o with mode := .free }
        ∧ (∀ x, x ≠ l → Sparse.find? (at' x) (t.part p).syncs = Sparse.find? x (s.part p).syncs)
        ∧ SameBytes s t (fun x => x < at' l ∨ at' l + 64 ≤ x) ∧ t.me.g = s.me.g ∧ t.me.c = s.me.c
        ∧ t.me.pc = s.me.pc + 1 ∧ (∀ n, n ≠ p → t.part n = s.part n) ∧ t.mgmt = s.mgmt ∧ t.outer = s.outer))

/-- R148, R149, R147: REVOKE advances by one, modulo 256, the generation of every granule that the range translates to and of no
other, tells another module of the granules that it holds, and begins a sweep; SWEEPQ counts the sweeps under way, and a completed sweep is no longer among them.
Where the rules leave it open, the model's reading (logs 43 and 44). -/
def Sys2Proof.Claim.RevocationAdvancesGenerations : Prop :=
  ∀ (s : State) (a : BitVec 4) (d : BitVec 5) (n : Nat), let c := s.c a; let p := s.party.part
    (∀ gs, capCheck c c.base c.span (permStore + permStoreCap) = .ok () → c.base % 4096 = 0 → c.top % 4096 = 0 →
      c.base < c.top → touchesWindow c.base c.top = false → s.granulesOf c.base c.top = .ok gs →
      (∀ w ∈ (s.part p).sweeps, (∀ g ∈ ownGranules gs, g ∉ w.granules) ∧ ∀ g ∈ awayGranules gs, g ∉ w.away) →
      Answers (.revoke a) s (fun t =>
        (∀ g, Sparse.get (t.part p).gens 0 g = Sparse.get (s.part p).gens 0 g + (if Granule.own g ∈ gs then 1 else 0))
        ∧ (∀ m g, Granule.away m g ∈ gs → Output.revoke m g ∈ t.outer.outputs)
        ∧ (t.part p).sweeps.length = (s.part p).sweeps.length + 1 ∧ t.me.g = s.me.g ∧ t.me.pc = s.me.pc + 1
        ∧ SameMemory s t ∧ t.mgmt = s.mgmt ∧ t.outer = { s.outer with outputs := t.outer.outputs, remoteRevokes := t.outer.remoteRevokes }))
    ∧ Answers (.sweepq d) s (fun t => WroteG s t d (BitVec.ofNat 64 (s.part p).sweeps.length))
    ∧ Answers (.revokeSweepComplete n) s (fun t =>
        (t.part s.actor.part).sweeps = listDrop n (s.part s.actor.part).sweeps
        ∧ (∀ g, g ∈ t.mem.tags → g ∈ s.mem.tags) ∧ SameBytes s t (fun _ => True) ∧ t.cores = s.cores)

/-- BIND, UNBIND, PUBLISH, REVOKE and SWEEPQ. -/
def Obligations.RegionsArePublishedAndRevoked : Prop :=
  Claim.RegionsAreBoundAndPublished ∧ Claim.RevocationAdvancesGenerations

/-- R116, R175: ERET with INH set goes on at ERETPC with INH clear, and lets the engine whose trap was served take words
again; with INH clear it raises NOHANDLER. -/
def Sys2Proof.Claim.ReturnFromTrap : Prop :=
  ∀ (s : State), let y := s.me.sys
    (y.inh = true → s.me.eng.trapFrom = none →
      Answers .eret s (fun t => WroteSys s t { y with inh := false } (y.eretpc.setWidth 64)))
    ∧ (∀ e, y.inh = true → s.me.eng.trapFrom = some e → e ≠ 3 → y.abandon = false →
      Answers .eret s (fun t => OnlyCore s t { s.me with
        pc := y.eretpc.setWidth 64, sys := { y with inh := false }
        eng := { s.me.eng with stopped := Marks.del e s.me.eng.stopped, trapFrom := none } }))
    ∧ (y.inh = false → y.trapvec ≠ 0 → Answers .eret s (fun t => EnteredHandler s t 3 0 none s.me.pc))

/-- R174, R175: with INH clear and a handler set, and its engine's earlier words done, the oldest held engine trap is taken: the fault registers name its
engine and word, MORE says that others are held, FAULTPC and ERETPC the next instruction, and the handler runs with traps
inhibited. -/
def Sys2Proof.Claim.HeldEngineTrapIsDelivered : Prop :=
  ∀ (s : State) (h : HeldTrap) (rest : List HeldTrap) (r : Running) (c : Trap), CanTrap s → s.me.run = some r →
    s.me.eng.heldTraps = h :: rest → s.trapReady s.actor.core = true → h.code = c.code → c ≠ .swtrap → h.engine ≠ 0 →
    Answers .engineTrapDelivery s (fun t => OnlyCore (s.dropLoads s.actor.core 0) t { s.me with
      pc := s.me.sys.trapvec.setWidth 64
      eng := { s.me.eng with heldTraps := rest, stratQ := [], trapFrom := some h.engine }
      sys := { s.me.sys with
        faultInfo := faultInfoOf h.code h.lane h.engine h.word (!rest.isEmpty)
        faultAddr := h.info, faultPc := s.me.pc.setWidth 20, eretpc := s.me.pc.setWidth 20, inh := true } })

/-- R173, R74, R198: a transfer word that is not an instruction is held as ILLEGAL of its engine and word, the engine starts
no later word, and the word has no effect; the sequencer's own word goes to the handler, and so does one that cannot be read,
as MEMERR with an address that the rules leave open (log 26). -/
def Sys2Proof.Claim.IllegalWordsAreHeld : Prop :=
  ∀ (s : State) (w : Nat), let e := s.me.eng
    (s.nextWord .sequencer = some w → s.codeBad .sequencer = false → decodeFor .sequencer w = none → CanTrap s →
      Answers (.notAnInstruction .sequencer) s (fun t => EnteredHandler s t 1 0 none s.me.pc))
    ∧ (s.nextWord .sequencer = some w → s.codeBad .sequencer = true → CanTrap s →
      ∃ x, Answers (.notAnInstruction .sequencer) s (fun t => EnteredHandler s t 26 x none s.me.pc))
    ∧ (∀ b l, s.nextWord .transfer = some w → s.codeBad .transfer = false → decodeFor .transfer w = none → e.xferQ = b :: l →
      Answers (.notAnInstruction .transfer) s (fun t => OnlyCore (s.dropLoads s.actor.core 3) t { s.me with
        eng := { e with heldTraps := holdInOrder ⟨3, 1, 0, none, b.next, s.time⟩ e.heldTraps
                        stopped := Marks.add 3 e.stopped } }))

/-- ERET, delivery of held engine traps, words that are no instruction. -/
def Obligations.TrapReturnAndHeldTraps : Prop :=
  Claim.ReturnFromTrap ∧ Claim.HeldEngineTrapIsDelivered ∧ Claim.IllegalWordsAreHeld

/-- R144: ACQST owns a stage that is full and free and makes it empty; RELST gives it up and makes the next stage full,
once the core's blocks and accesses are done. -/
def Sys2Proof.Claim.StageRingsMove : Prop :=
  ∀ (s : State) (r : BitVec 3) (sel : BitVec 4), let x := s.myCluster.ring r.toNat; let me := s.me.record
    let i := sel.toNat; let n := (i + 1) % x.len
    i < x.len →
    (Sparse.find? i x.owners = none → x.full.getLsbD i = true →
      s.firstFor (.stage s.home r.toNat i) s.actor.core = true →
      Answers (.acqst r sel) s (fun t => let z := t.myCluster.ring r.toNat
        (∀ j, z.full.getLsbD j = if j = i then false else x.full.getLsbD j) ∧ Sparse.find? i z.owners = some me
        ∧ (∀ j, j ≠ i → Sparse.find? j z.owners = Sparse.find? j x.owners) ∧ z.len = x.len
        ∧ t.me = { s.me with pc := s.me.pc + 1 } ∧ SameMemory s t ∧ t.parts = s.parts ∧ OtherCoresSame s t))
    ∧ (Sparse.find? i x.owners = some me → x.full.getLsbD n = false → x.len ≤ 16 → s.waitRelease = .ok () →
      Answers (.relst r sel) s (fun t => let z := t.myCluster.ring r.toNat
        (∀ j, z.full.getLsbD j = if j = n then true else x.full.getLsbD j) ∧ Sparse.find? i z.owners = none
        ∧ (∀ j, j ≠ i → Sparse.find? j z.owners = Sparse.find? j x.owners) ∧ z.len = x.len
        ∧ t.me = { s.me with pc := s.me.pc + 1 } ∧ SameMemory s t ∧ t.parts = s.parts ∧ OtherCoresSame s t))

/-- R146, R142, R368: PMTINIT opens an idle channel with its permits (2 for 0); MBSEND takes a permit and queues its buffer;
MBRECV takes the oldest buffer; PMTGIVE gives a held buffer's permit back; DRAIN waits for nothing when no copy is left;
a changed channel word takes effect once the channel holds nothing. -/
def Sys2Proof.Claim.ChannelsMovePermits : Prop :=
  ∀ (s : State) (p ch a d : BitVec 4),
    let x := s.chan ch.toNat
    let goesOn := fun (t : State) => t.me = { s.me with pc := s.me.pc + 1 } ∧ SameMemory s t
      ∧ SameSurroundings { s with older := t.older } t ∧ OtherCoresSame s t
    (x.exists_ = true → x.queue = [] → x.held = 0 →
      Answers (.pmtinit p ch) s (fun t => t.chan ch.toNat = { x with
        isOpen := true, conf := (if p = 0 then 2 else p.toNat), avail := (if p = 0 then 2 else p.toNat) }
        ∧ t.older = s.older ∧ goesOn t))
    ∧ (x.exists_ = false → Answers (.pmtinit p ch) s (fun t => WentTo s t (s.me.pc + 1)))
    ∧ (capCheck (s.c a) (s.c a).base (s.c a).span (permLoad + permGlobal) = .ok () →
      touchesL1 (s.c a).base (s.c a).top = false → x.ready = true → s.myDie = x.sdie → 0 < x.avail →
      s.firstFor (.channel s.party.part ch.toNat) s.actor.core = true → s.waitRelease = .ok () →
      Answers (.mbsend a ch) s (fun t =>
        t.chan ch.toNat = { x with avail := x.avail - 1, queue := x.queue ++ [s.c a] } ∧ goesOn t
        ∧ OrdersOwn s t (fun u => u = 0 ∨ u = 4)))
    ∧ (∀ c l, x.ready = true → s.myDie = x.rdie → x.queue = c :: l →
      Answers (.mbrecv d ch) s (fun t => t.chan ch.toNat = { x with queue := l, held := x.held + 1 }
        ∧ (∀ r : BitVec 4, t.c r = if r = d then s.freshCap s.party c else s.c r)
        ∧ t.me = { s.me with c := t.me.c, pc := s.me.pc + 1 } ∧ SameMemory s t ∧ SameSurroundings s t))
    ∧ (x.ready = true → s.myDie = x.rdie → 0 < x.held → x.pending = none → s.waitRelease = .ok () →
      Answers (.pmtgive ch) s (fun t =>
        t.chan ch.toNat = { x with held := x.held - 1, avail := x.avail + 1 } ∧ goesOn t
        ∧ OrdersOwn s t (fun u => u = 0 ∨ u = 4)))
    ∧ ((s.part s.party.part).channelOpen ch.toNat = true → s.channelBusy s.actor.core ch.toNat = false →
      Answers (.drain ch) s (fun t =>
        WentTo { s with older := t.older } t (s.me.pc + 1) ∧ Performs s t (· = copyUnit ch.toNat)))
    ∧ (∀ k w, ((s.part s.actor.part).channel k).pending = some w → ((s.part s.actor.part).channel k).queue = [] →
      ((s.part s.actor.part).channel k).held = 0 →
      Answers (.channelWordChange k) s (fun t =>
        (t.part s.actor.part).channel k = { Channel.init with word := w } ∧ t.cores = s.cores ∧ SameMemory s t))

/-- Stage rings, channels, permits and DRAIN. -/
def Obligations.RingsAndChannelsMove : Prop :=
  Claim.StageRingsMove ∧ Claim.ChannelsMovePermits

/-- R99, R101, R186: outside PENDTRAP mode and regions, VRUN, MRUN with a lease and XRUN with a passed probe append their
block with the stage sample and the snapshot; ATTNGO offers its block and waits at the instruction; each is passed over
where its stage is off; MRUN without a lease raises NOLEASE and ATTNGO outside a Nimbus cluster NOUNIT.
Where the rules leave it open, the model's reading (log 21). -/
def Sys2Proof.Claim.BlocksAreQueued : Prop :=
  ∀ (s : State) (sel : BitVec 4) (o : BitVec 20), let y := s.me.sys; let e := s.me.eng
    let on := sel = 0 ∨ (8 ≤ sel.toNat ∧ y.stagewin.getLsbD (sel.toNat - 8) = true)
    let off := 8 ≤ sel.toNat ∧ y.stagewin.getLsbD (sel.toNat - 8) = false
    let queued := fun (t : State) (z : CoreEng) => OnlyCore s t { s.me with eng := z, pc := s.me.pc + 1 }
    (on → y.region = .closed → e.vecQ.length < 16 → Answers (.vrun sel o) s (fun t =>
        queued t { e with vecQ := e.vecQ ++ [⟨o.toNat, o.toNat, y.stagewin, [], s.imageNow, none, false⟩] }))
    ∧ (on → y.lease = true → e.matQ.length < 8 → y.pendtrap = false → Answers (.mrun sel o) s (fun t =>
        queued t { e with matQ := e.matQ ++ [⟨o.toNat, o.toNat, y.stagewin, s.me.c, s.imageNow, none, false⟩] }))
    ∧ (∀ ps hs, on → firstPass s.me.c (s.xferWords o.toNat) o.toNat Nest.fresh 0 = .ok ps →
      s.secondPass s.actor.core e.nextIdent ps [] = .ok hs → e.xferQ.length < 4 → y.pendtrap = false →
      Answers (.xrun sel o) s (fun t => queued t { e with
        xferQ := e.xferQ ++ [⟨o.toNat, o.toNat, e.nextIdent, s.me.c, s.imageNow, Nest.fresh, false⟩]
        holds := e.holds ++ hs, nextIdent := e.nextIdent + 1 }))
    ∧ (on → isNimbus s.home = true → Answers (.attngo sel o) s (fun t =>
        OnlyCore s t { s.me with eng := { e with stratQ := [s.me.stratBlock s.imageNow o.toNat] } }))
    ∧ (off → Answers (.mrun sel o) s (fun t => WentTo s t (s.me.pc + 1))
        ∧ Answers (.xrun sel o) s (fun t => WentTo s t (s.me.pc + 1))
        ∧ Answers (.attngo sel o) s (fun t => WentTo s t (s.me.pc + 1))
        ∧ (y.region = .closed → Answers (.vrun sel o) s (fun t => WentTo s t (s.me.pc + 1))))
    ∧ (on → CanTrap s → y.lease = false →
        Answers (.mrun sel o) s (fun t => EnteredHandler s t 13 (BitVec.ofNat 64 o.toNat) none s.me.pc))
    ∧ (on → CanTrap s → isNimbus s.home = false →
        Answers (.attngo sel o) s (fun t => EnteredHandler s t 14 (BitVec.ofNat 64 o.toNat) none s.me.pc))

/-- R101: MLEASE with no claim registers one and waits at the instruction for the grant; with a claim held it has no
effect; MRELEASE ends the claim of a core with no matrix word left, and a grant to it. -/
def Sys2Proof.Claim.LeaseClaims : Prop :=
  ∀ (s : State), let n := s.actor.core
    (s.me.sys.lease = false → n ∉ s.myCluster.claims → Answers .mlease s (fun t =>
      t.me = { s.me with sys := { s.me.sys with lease := true } }
      ∧ t.myCluster = { s.myCluster with claims := t.myCluster.claims } ∧ n ∈ t.myCluster.claims
      ∧ (∀ k, k ≠ n → (k ∈ t.myCluster.claims ↔ k ∈ s.myCluster.claims)) ∧ SameMemory s t ∧ t.parts = s.parts))
    ∧ (s.me.sys.lease = true → (Resource.other, n) ∉ s.waiters →
      Answers .mlease s (fun t => WentTo s t (s.me.pc + 1)))
    ∧ (s.me.eng.matQ = [] → (∀ f ∈ s.myCluster.flights, f.core ≠ n) → Answers .mrelease s (fun t =>
      t.me = { s.me with pc := s.me.pc + 1, sys := { s.me.sys with lease := false } }
      ∧ n ∉ t.myCluster.claims ∧ (∀ k, k ≠ n → (k ∈ t.myCluster.claims ↔ k ∈ s.myCluster.claims))
      ∧ t.myCluster.granted = (if s.myCluster.granted = some (.core n) then none else s.myCluster.granted)
      ∧ SameMemory s t ∧ t.parts = s.parts ∧ OtherCoresSame s t))

/-- E words queue their block; MLEASE and MRELEASE move claims. -/
def Obligations.BlocksQueueUnderLease : Prop :=
  Claim.BlocksAreQueued ∧ Claim.LeaseClaims

/-- R112, R113: APXBEGIN opens a region execution that names its inputs and samples the region's state; APXEND of the issued
region closes the sequence, names the outputs on its block and marks them empty while the block is queued; out of sequence
both raise APXSEQ. -/
def Sys2Proof.Claim.RegionSequence : Prop :=
  ∀ (s : State) (n : BitVec 4) (v i : BitVec 6), v.toNat + n.toNat ≤ 55 → let y := s.me.sys
    (∀ r, y.region = .closed → s.me.run = some r → Answers (.apxbegin n v i) s (fun t =>
      WroteSys s t { y with region := .opened (RegionRun.start i.toNat v.toNat (n.toNat + 1) (s.fitState r i.toNat)) }
        (s.me.pc + 1)))
    ∧ (∀ x r sel o, y.region = .opened x → x.sampled ≠ .serve → selOn sel y.stagewin = true → s.me.eng.vecQ.length < 16 →
      s.me.run = some r → let outs := s.outputsAhead
      let z : RegionRun := { x with checks := false, offset := o.toNat, firstOut := outs.1, nOut := outs.2 }
      Answers (.vrun sel o) s (fun t =>
        (∀ k, t.me.isEmpty k = (s.me.isEmpty k || decide (outs.1 ≤ k ∧ k < outs.1 + outs.2)))
        ∧ OnlyCore s t { s.me with
            pc := s.me.pc + 1, sys := { y with region := .issued z }, vEmpty := t.me.vEmpty
            eng := { s.me.eng with vecQ :=
              s.me.eng.vecQ ++ [⟨o.toNat, o.toNat, y.stagewin, [], s.imageNow, some z, false⟩] } }))
    ∧ (∀ x, y.region = .issued x → x.id = i.toNat → let queued := s.me.eng.vecQ.any Block.isOpen
      let written := fun k : Nat => s.me.eng.vecFlight.any (fun f => f.writes [k])
      Answers (.apxend n v i) s (fun t =>
      (∀ k, t.me.isEmpty k =
        if queued ∧ v.toNat ≤ k ∧ k ≤ v.toNat + n.toNat then true
        else if queued ∧ x.firstOut ≤ k ∧ k < x.firstOut + x.nOut ∧ written k = false then false
        else s.me.isEmpty k)
      ∧ OnlyCore s t { s.me with
          pc := s.me.pc + 1, sys := { y with region := .closed }, vEmpty := t.me.vEmpty
          eng := { s.me.eng with vecQ := s.me.eng.vecQ.map (closeBlock v.toNat (n.toNat + 1)) } }))
    ∧ (y.region ≠ .closed → CanTrap s →
      Answers (.apxbegin n v i) s (fun t => EnteredHandler s t 16 (BitVec.ofNat 64 i.toNat) none s.me.pc))
    ∧ (y.region = .closed → CanTrap s →
      Answers (.apxend n v i) s (fun t => EnteredHandler s t 16 (BitVec.ofNat 64 i.toNat) none s.me.pc))

/-- R114, R395: the four APXCTL operations move the entry of the running image's region; APXQ reads its state code, OFF
without an entry. -/
def Sys2Proof.Claim.RegionControl : Prop :=
  ∀ (s : State) (d : BitVec 5) (i : BitVec 6) (r : Running) (n : Nat) (f : FitEntry), s.me.run = some r →
    let becomes := fun (j : Instr) (x : FitEntry) => Answers j s (fun t =>
      Sparse.find? n (t.part r.part).fits = some x ∧ t.me = { s.me with pc := s.me.pc + 1 } ∧ SameMemory s t
      ∧ (∀ k, k ≠ n → Sparse.find? k (t.part r.part).fits = Sparse.find? k (s.part r.part).fits)
      ∧ SameSurroundings s t ∧ OtherCoresSame s t)
    (s.fitOf r i.toNat = some (n, f) →
      becomes (.apxctlStart i) (if f.state = .off then { f with state := .observe, obscnt := 0, batches := [], binding := none }
        else f)
      ∧ becomes (.apxctlStop i) { f with state := .off, batches := [] }
      ∧ becomes (.apxctlInval i) { f with state := .invalid, cause := 4, words := [], batches := [] }
      ∧ becomes (.apxctlRestart i) (if f.state = .fallback ∨ f.state = .invalid then
          { f with state := .observe, obscnt := 0, batches := [], binding := none } else f)
      ∧ Answers (.apxq d i) s (fun t => WroteG s t d (BitVec.ofNat 64 f.state.code)))
    ∧ (s.fitOf r i.toNat = none → Answers (.apxq d i) s (fun t => WroteG s t d 0))

/-- Region sequences and the control of regions. -/
def Obligations.RegionExecutions : Prop :=
  Claim.RegionSequence ∧ Claim.RegionControl

/-- R106, R157, R311: once the sequencer's accesses are performed, SPAWN makes an idle or suspended record with a tagged frame runnable in the spawner's world and at most at
its class; a running one gets wake-pending; a runnable or waiting one is left alone.
Where the rules leave it open, the model's reading (log 22). -/
def Sys2Proof.Claim.SpawnMakesRunnable : Prop :=
  ∀ (s : State) (a : BitVec 4) (x : Nat), s.spawnTarget (s.c a) = .ok x → s.performed s.actor.core = true →
    let p := s.party.part; let c := s.ctl p x
    ((ctlState c = 0 ∨ ctlState c = 3) → s.mem.tagAt (hbmLoc p x) = true → Answers (.spawn a) s (fun t =>
      ctlState (t.ctl p x) = 1 ∧ ctlWorld (t.ctl p x) = s.party.world % 64 ∧ ctlClass (t.ctl p x) ≤ s.me.sys.cls
      ∧ (∃ e, (t.part p).pool = (s.part p).pool ++ [e] ∧ e.record = x)
      ∧ SameBytes s t (fun l => l < hbmLoc p x + 28 ∨ hbmLoc p x + 32 ≤ l)
      ∧ t.me = { s.me with pc := s.me.pc + 1 }
      ∧ SameSurroundings { s with older := t.older } t ∧ Performs s t (· = 0) ∧ OtherCoresLatched s t))
    ∧ (ctlState c = 2 → Answers (.spawn a) s (fun t => ctlWake (t.ctl p x) = true ∧ t.parts = s.parts
      ∧ SameBytes s t (fun l => l < hbmLoc p x + 28 ∨ hbmLoc p x + 32 ≤ l) ∧ t.me = { s.me with pc := s.me.pc + 1 }))
    ∧ ((ctlState c = 1 ∨ ctlState c = 4) → Answers (.spawn a) s (fun t =>
      WentTo { s with older := t.older } t (s.me.pc + 1) ∧ Performs s t (· = 0)))
    ∧ (5 ≤ ctlState c → CanTrap s → Answers (.spawn a) s (fun t =>
      EnteredHandler s t 17 (s.c a).cursor none s.me.pc))

/-- R104, R105, R311: SUSPEND, YIELD and RETIRE leave the core once its blocks and its sequencer's accesses are done and no
region is open, RETIRE once its copies are globally performed as well; the record takes state suspended, runnable or retired; a yielding one joins the pool; a SUSPEND that finds wake-pending clears
it and goes on without a lease.
Where the rules leave it open, the model's reading (log 23). -/
def Sys2Proof.Claim.ContinuationsLeaveTheirCore : Prop :=
  ∀ (s : State) (r : Running), s.me.run = some r → s.canSuspend = .ok () → let w := ctlWake (s.ctl r.part r.record)
    (w = false → Answers .suspend s (fun t => LeftCore s t r 3 ∧ OtherCoresLatched s t ∧ t.parts = s.parts
      ∧ SameBytes s t (fun l => l < hbmLoc r.part r.record ∨ hbmLoc r.part r.record + 64 ≤ l)))
    ∧ (w = true → Answers .suspend s (fun t => ctlWake (t.ctl r.part r.record) = false ∧ t.me.pc = s.me.pc + 1
      ∧ t.me.g = s.me.g ∧ t.me.c = s.me.c ∧ t.me.run = some r ∧ t.me.sys.lease = false))
    ∧ Answers .yield s (fun t => LeftCore s t r 1
      ∧ (∃ e, (t.part r.part).pool = (s.part r.part).pool ++ [e] ∧ e.record = r.record)
      ∧ SameBytes s t (fun l => l < hbmLoc r.part r.record ∨ hbmLoc r.part r.record + 64 ≤ l))
    ∧ (s.allPerformed s.actor.core = true → Answers .retire s (fun t => t.me.run = none ∧ t.me.eng = CoreEng.init ∧ t.me.sys.lease = false
      ∧ ((s.part r.part).heldSyncs r.record = [] → (∀ g ∈ r.groups, g = 0xFF) → LeftCore s t r 5)))

/-- SPAWN makes records runnable; SUSPEND, YIELD and RETIRE leave the core. -/
def Obligations.ContinuationsSpawnAndLeave : Prop :=
  Claim.SpawnMakesRunnable ∧ Claim.ContinuationsLeaveTheirCore

/-- R107, R109: SUBMIT hands its descriptor to the cluster's Cumulus and the continuation waits; WAITSEQ waits while DONE is
below its target, and otherwise puts a report that is due into g1, clearing it, or zero. -/
def Sys2Proof.Claim.SubmitAndWaitSequence : Prop :=
  ∀ (s : State) (a b : BitVec 5) (e : BitVec 4) (r : Running), s.me.run = some r →
    (∀ pl, s.submitPlace (s.c e) = .ok pl → s.canSuspend = .ok () → Answers (.submit e) s (fun t =>
      LeftCore s t r 4 ∧ (t.cluster s.home).cumulus.submits = (s.cluster s.home).cumulus.submits
        ++ [⟨s.actor.core, r.record, r.part, r.world, r.context, r.isSealed, (s.c e).cursor, pl, r.launch⟩]))
    ∧ (let i := (s.g a).toNat; let n := seqIndex r.world r.context i; let q := (s.part r.part).seq n
      i ≤ 63 →
      (q.done.toNat < (s.g b).toNat → s.canSuspend = .ok () → Answers (.waitseq a b) s (fun t => LeftCore s t r 4
        ∧ ((t.part r.part).seq n) = { q with waiting := q.waiting ++ [(r.record, (s.g b).toNat)] }))
      ∧ ((s.g b).toNat ≤ q.done.toNat → let due := q.report.toNat % 256 ≠ 0 ∧ q.report.toNat / 2 ^ 16 ≤ (s.g b).toNat
        Answers (.waitseq a b) s (fun t =>
          (∀ d : BitVec 5, t.g d = if d = 1 then (if due then q.report else 0) else s.g d)
          ∧ t.me = { s.me with g := t.me.g, pc := s.me.pc + 1 }
          ∧ (t.part r.part).seq n = { q with report := if due then 0 else q.report }
          ∧ SameMemory s t ∧ SameSurroundings s t ∧ OtherCoresSame s t)))

/-- R110, R111: GRANK and GSIZE read the record's place and the number of members; the arrival that completes a generation
goes on and opens the next one; an earlier arrival waits. -/
def Sys2Proof.Claim.GroupBarriers : Prop :=
  ∀ (s : State) (d : BitVec 5) (k : BitVec 2) (r : Running) (n : Nat) (g : Group), s.me.run = some r →
    s.groupInSlot r k = .ok (n, g) →
    Answers (.grank d k) s (fun t => WroteG s t d (BitVec.ofNat 64 (g.members.idxOf r.record)))
    ∧ Answers (.gsize d k) s (fun t => WroteG s t d (BitVec.ofNat 64 g.members.length))
    ∧ (s.waitRelease = .ok () → g.completes r.record = true → Answers (.gbar k) s (fun t =>
      ((t.part r.part).group n).generation = g.generation + 1 ∧ t.me.pc = s.me.pc + 1 ∧ t.me.g = s.me.g
      ∧ t.me.c = s.me.c ∧ t.me.run = some r))
    ∧ (s.canSuspend = .ok () → g.completes r.record = false → Answers (.gbar k) s (fun t => LeftCore s t r 4
      ∧ ((t.part r.part).group n).generation = g.generation ∧ r.record ∈ ((t.part r.part).group n).waiting))

/-- SUBMIT, WAITSEQ, group barriers and ranks. -/
def Obligations.GroupsAndSequences : Prop :=
  Claim.SubmitAndWaitSequence ∧ Claim.GroupBarriers

/-- R208, R215, R216: the arithmetic words under integer formats, lane by lane, modulo 2^w or saturated to the format's range;
.hi of VMUL takes the upper half of the product; .neg of VFMA subtracts; VCMP sets a lane to all ones where its relation holds
(R216); VRED reduces every lane to lane 0 (R215). -/
def Obligations.VectorIntegerLanes : Prop :=
  ∀ (s : State) (blk : Block) (rest : List Block) (d a b : BitVec 6) (sel : BitVec 4) (x y : BitVec 1) (v : BitVec 1)
    (m : BitVec 2),
    let c := s.me.sys.vshape
    let f := fmtOf c
    let w := f.bits
    let A := fun i => f.int (laneAt w (s.me.srcVal a.toNat) i)
    let B := fun i => f.int (laneAt w (s.me.srcVal b.toNat) i)
    let D := fun i => f.int (laneAt w (s.me.srcVal d.toNat) i)
    let fix := fun (z : Int) => wrapInt w (if v = 1 then sat z f.lo f.hi else z)
    c ≤ 7 →
    (VecReady s blk rest sel [a.toNat, b.toNat] (.port d.toNat) →
      let gives := fun i l => VecLanes i s blk rest [a.toNat, b.toNat] d w l
      gives (.vadd d a b sel x y v) (fun i => fix (A i + B i))
      ∧ gives (.vsub d a b sel x y v) (fun i => fix (A i - B i))
      ∧ (m ≠ 3 → gives (.vmul d a b sel x y m) (fun i =>
          if m = 2 then wrapInt w (A i * B i / 2 ^ w)
          else wrapInt w (if m = 1 then sat (A i * B i) f.lo f.hi else A i * B i)))
      ∧ gives (.vmin d a b sel x y v) (fun i => wrapInt w (min (A i) (B i)))
      ∧ gives (.vmax d a b sel x y v) (fun i => wrapInt w (max (A i) (B i)))
      ∧ gives (.vcmp d a b sel x y m) (fun i =>
          if (m = 0 ∧ A i = B i) ∨ (m = 1 ∧ A i ≠ B i) ∨ (m = 2 ∧ A i < B i) ∨ (m = 3 ∧ A i ≤ B i) then 2 ^ w - 1 else 0))
    ∧ (VecReady s blk rest sel [a.toNat, b.toNat, d.toNat] (.port d.toNat) → d.toNat ≤ 55 →
      VecLanes (.vfma d a b sel x y v) s blk rest [a.toNat, b.toNat, d.toNat] d w
        (fun i => wrapInt w (if v = 1 then D i - A i * B i else D i + A i * B i)))
    ∧ (VecReady s blk rest sel [a.toNat] (.port d.toNat) →
      VecLanes (.vabs d a sel x v) s blk rest [a.toNat] d w (fun i => fix (if A i < 0 then -(A i) else A i))
      ∧ VecLanes (.vneg d a sel x v) s blk rest [a.toNat] d w (fun i => fix (-(A i)))
      ∧ VecLanes (.vred d a sel x m) s blk rest [a.toNat] d w (fun i =>
          let L := (List.range (2048 / w)).map A
          if i ≠ 0 then 0
          else if m = 0 then wrapInt w L.sum
          else if m = 1 then wrapInt w (L.foldl max (A 0))
          else if m = 2 then wrapInt w (L.foldl min (A 0))
          else wrapInt w (L.map (fun z => z * z)).sum))

/-- R209, R214 to R216: the arithmetic words under float formats round the exact result of each lane once; VABS and VNEG
change the sign bit only; VMIN and VMAX take an operand; VCMP compares, unordered with a NaN; VRED reduces every lane to one;
VEXP, VRCP and VRSQ round the function's value once, which the clause bounds for VEXP and VRSQ.
Where the rules leave it open, the model's reading (logs 46, 47 and 48). -/
def Obligations.VectorFloatLanes : Prop :=
  ∀ (s : State) (blk : Block) (rest : List Block) (d a b : BitVec 6) (sel : BitVec 4) (x y : BitVec 1) (v : BitVec 1)
    (m : BitVec 2) (k : FloatKind),
    let w := k.width
    let ca := fun i => laneAt w (s.me.srcVal a.toNat) i
    let cb := fun i => laneAt w (s.me.srcVal b.toNat) i
    let A := fun i => k.dec (ca i)
    let B := fun i => k.dec (cb i)
    let D := fun i => k.dec (laneAt w (s.me.srcVal d.toNat) i)
    fmtOf s.me.sys.vshape = .flt k →
    (VecReady s blk rest sel [a.toNat, b.toNat] (.port d.toNat) →
      let gives := fun i l => VecLanes i s blk rest [a.toNat, b.toNat] d w l
      gives (.vadd d a b sel x y v) (fun i => k.enc true (v = 1) (FVal.sum [A i, B i]))
      ∧ gives (.vsub d a b sel x y v) (fun i => k.enc true (v = 1) (FVal.sum [A i, (B i).neg]))
      ∧ gives (.vmul d a b sel x y (v.zeroExtend 2)) (fun i => k.enc true (v = 1) ((A i).mul (B i)))
      ∧ VecLanesBy (.vmin d a b sel x y v) s blk rest [a.toNat, b.toNat] d w
          (fun i z => MinMaxCode k false (v = 1) (ca i) (cb i) z)
      ∧ VecLanesBy (.vmax d a b sel x y v) s blk rest [a.toNat, b.toNat] d w
          (fun i z => MinMaxCode k true (v = 1) (ca i) (cb i) z)
      ∧ VecLanesBy (.vcmp d a b sel x y m) s blk rest [a.toNat, b.toNat] d w (fun i z =>
          (CmpHolds m.toNat (A i) (B i) → z = 2 ^ w - 1) ∧ (¬ CmpHolds m.toNat (A i) (B i) → z = 0)))
    ∧ (VecReady s blk rest sel [a.toNat, b.toNat, d.toNat] (.port d.toNat) → d.toNat ≤ 55 →
      VecLanes (.vfma d a b sel x y v) s blk rest [a.toNat, b.toNat, d.toNat] d w
        (fun i => k.rne (FVal.sum [D i, if v = 1 then ((A i).mul (B i)).neg else (A i).mul (B i)])))
    ∧ (VecReady s blk rest sel [a.toNat] (.port d.toNat) →
      VecLanes (.vabs d a sel x v) s blk rest [a.toNat] d w
        (fun i => ca i % 2 ^ (w - 1))
      ∧ VecLanes (.vneg d a sel x v) s blk rest [a.toNat] d w (fun i => (ca i + 2 ^ (w - 1)) % 2 ^ w)
      ∧ VecLanesBy (.vred d a sel x m) s blk rest [a.toNat] d w (fun i z =>
          if i = 0 then RedCode k m.toNat ((List.range (2048 / w)).map ca) z else z = 0)
      ∧ VecLanesBy (.vexp d a sel x v) s blk rest [a.toNat] d w (fun i z => ExpCode k (v = 1) (A i) z)
      ∧ VecLanesBy (.vrcp d a sel x) s blk rest [a.toNat] d w (fun i z => RcpCode k (A i) z)
      ∧ VecLanesBy (.vrsq d a sel x) s blk rest [a.toNat] d w (fun i z => RsqCode k (A i) z))

/-- R218 to R220: bitwise words, moves and shifts under any format; a shift count is taken modulo w; VPOPC counts one bits, by
lane or in all of the register (R220). -/
def Sys2Proof.Claim.VectorBitsAndShifts : Prop :=
  ∀ (s : State) (blk : Block) (rest : List Block) (d a b : BitVec 6) (sel : BitVec 4) (x y : BitVec 1),
    let w := (fmtOf s.me.sys.vshape).bits
    let A := s.me.srcVal a.toNat
    let B := s.me.srcVal b.toNat
    (VecReady s blk rest sel [a.toNat, b.toNat] (.port d.toNat) →
      let is := fun i v => Answers i s (fun t => VecWrote s t blk rest [a.toNat, b.toNat] d v)
      let gives := fun i l => VecLanes i s blk rest [a.toNat, b.toNat] d w l
      is (.vand d a b sel x y) (A &&& B) ∧ is (.vor d a b sel x y) (A ||| B) ∧ is (.vxor d a b sel x y) (A ^^^ B)
      ∧ gives (.vshl d a b sel x y) (fun i => laneAt w A i * 2 ^ (laneAt w B i % w) % 2 ^ w)
      ∧ gives (.vshr d a b sel x y) (fun i => laneAt w A i / 2 ^ (laneAt w B i % w))
      ∧ gives (.vsar d a b sel x y) (fun i => wrapInt w (signedOf w (laneAt w A i) / 2 ^ (laneAt w B i % w))))
    ∧ (VecReady s blk rest sel [a.toNat] (.port d.toNat) →
      Answers (.vnot d a sel x) s (fun t => VecWrote s t blk rest [a.toNat] d (~~~A))
      ∧ Answers (.vmov d a sel x) s (fun t => VecWrote s t blk rest [a.toNat] d A)
      ∧ VecLanes (.vpopc d a sel x 0) s blk rest [a.toNat] d w
          (fun i => (List.range w).countP (fun j => (laneAt w A i).testBit j))
      ∧ Answers (.vpopc d a sel x 1) s (fun t => VecWrote s t blk rest [a.toNat] d
          (BitVec.ofNat 2048 ((List.range 2048).countP (fun j => A.getLsbD j)))))

/-- R217, R218: the selecting and permuting words, lane by lane; an index of no lane gives the sentinel 2^(w−1). -/
def Sys2Proof.Claim.VectorPermutes : Prop :=
  ∀ (s : State) (blk : Block) (rest : List Block) (d a b : BitVec 6) (sel : BitVec 4) (x y : BitVec 1) (m : BitVec 2),
    let w := (fmtOf s.me.sys.vshape).bits
    let n := 2048 / w
    let A := fun i => laneAt w (s.me.srcVal a.toNat) i
    let B := fun i => laneAt w (s.me.srcVal b.toNat) i
    let D := fun i => laneAt w (s.me.srcVal d.toNat) i
    let pick := fun j => if j < n then A j else 2 ^ (w - 1)
    (VecReady s blk rest sel [a.toNat, b.toNat] (.port d.toNat) →
      let gives := fun i l => VecLanes i s blk rest [a.toNat, b.toNat] d w l
      gives (.vperm d a b sel x y) (fun i => pick (B i))
      ∧ gives (.vbcast d a b sel x y) (fun _ => pick (B 0))
      ∧ gives (.vshuf d a b sel x y m) (fun i =>
          if m = 0 then (if i % 2 = 0 then A (i / 2) else B (i / 2))
          else if m = 1 then (if i % 2 = 0 then A (n / 2 + i / 2) else B (n / 2 + i / 2))
          else if m = 2 then (if i < n / 2 then A (2 * i) else B (2 * (i - n / 2)))
          else (if i < n / 2 then A (2 * i + 1) else B (2 * (i - n / 2) + 1))))
    ∧ (VecReady s blk rest sel [a.toNat, b.toNat, d.toNat] (.port d.toNat) → d.toNat ≤ 55 →
      VecLanes (.vsel d a b sel x y) s blk rest [a.toNat, b.toNat, d.toNat] d w
        (fun i => if D i ≠ 0 then A i else B i))
    ∧ (VecReady s blk rest sel [a.toNat] (.port d.toNat) →
      VecLanes (.vsplat d a sel x) s blk rest [a.toNat] d w (fun _ => A 0))
    ∧ (VecReady s blk rest sel [] (.port d.toNat) → s.me.sys.vshape ≤ 7 →
      VecLanes (.viota d sel) s blk rest [] d w (fun i => i % 2 ^ w))

/-- Bitwise, shift, selecting and permuting vector words. -/
def Obligations.VectorBitsAndPermutes : Prop :=
  Claim.VectorBitsAndShifts ∧ Claim.VectorPermutes

/-- R210, R247: VCVT writes each lane of the target format by the table of conversions, and zero to the lanes that the source
has none for. -/
def Sys2Proof.Claim.ConversionResults : Prop :=
  ∀ (s : State) (blk : Block) (rest : List Block) (d a : BitVec 6) (q : BitVec 4) (sel : BitVec 4) (x : BitVec 1)
    (m : BitVec 2),
    let f := fmtOf s.me.sys.vshape; let g := fmtOf q.toNat
    VecReady s blk rest sel [a.toNat] (.port d.toNat) →
    VecLanesBy (.vcvt d a q sel x m) s blk rest [a.toNat] d g.bits (fun k y =>
      if k < 2048 / f.bits then
        Converts f g (m.toNat % 2 = 0) (2 ≤ m.toNat) (laneAt f.bits (s.me.srcVal a.toNat) k) y
      else y = 0)

/-- R211: VQUANT gives each block of 32 lanes the smallest LS20 scale that holds its largest magnitude, and each lane its
mantissa, rounded to nearest even and saturated; every other bit is zero. -/
def Sys2Proof.Claim.QuantisationResults : Prop :=
  ∀ (s : State) (blk : Block) (rest : List Block) (d a : BitVec 6) (m : BitVec 4) (sel : BitVec 4) (x : BitVec 1)
    (k : FloatKind), fmtOf s.me.sys.vshape = .flt k → s.me.sys.vshape ≤ 11 → 2 ≤ m.toNat → m.toNat ≤ 8 →
    VecReady s blk rest sel [a.toNat] (.port d.toNat) →
    let n := 2048 / k.width; let Q : ℤ := 2 ^ (m.toNat - 1) - 1
    let y := fun i => quantInput k (laneAt k.width (s.me.srcVal a.toNat) i)
    ∃ v, Answers (.vquant d a m sel x) s (fun t => VecWrote s t blk rest [a.toNat] d v)
      ∧ (∀ j, j < n / 32 →
        ((∀ i, i < 32 → y (32 * j + i) = 0) →
          laneAt 32 v (32 + j) = 0 ∧ ∀ i, i < 32 → laneAt 8 v (32 * j + i) = 0)
        ∧ (∀ b, b < 32 → y (32 * j + b) ≠ 0 → (∀ i, i < 32 → |y (32 * j + i)| ≤ |y (32 * j + b)|) →
          let c := laneAt 32 v (32 + j)
          Ls20Code c ∧ c ≠ 0
          ∧ (|y (32 * j + b)| ≤ ls20Rat c * Q ∨ (c = 0xFEFFF ∧ ls20Rat c * Q < |y (32 * j + b)|))
          ∧ (∀ e, Ls20Code e → e < c → ls20Rat e * Q < |y (32 * j + b)|)
          ∧ ∀ i, i < 32 → ∃ z : ℤ, NearestInt (y (32 * j + i) / ls20Rat c) z
              ∧ laneAt 8 v (32 * j + i) = wrapInt 8 (max (-Q) (min z Q))))
      ∧ (∀ i, n ≤ i → i < 128 → laneAt 8 v i = 0) ∧ ∀ i, n / 32 ≤ i → i < 32 → laneAt 32 v (32 + i) = 0

/-- R213, R236: VSACC reads its five registers in order and adds each partial sum of 40 bits, times its two scales, to its FP32
accumulator with one rounding.
That an exactly zero sum has the sign which the model's reading of R240 gives it is log 48. -/
def Sys2Proof.Claim.ScaledAccumulation : Prop :=
  ∀ (s : State) (blk : Block) (rest : List Block) (d a b : BitVec 6) (sel : BitVec 4) (x y : BitVec 1),
    let srcs := [a.toNat, a.toNat + 1, b.toNat, b.toNat + 1, b.toNat + 2]
    let lane := fun (r i : Nat) => laneAt 32 (s.me.srcVal r) i
    VecReady s blk rest sel srcs (.port d.toNat) → a.toNat ≤ 54 → b.toNat ≤ 53 →
    VecLanes (.vsacc d a b sel x y) s blk rest srcs d 32 (fun i =>
      FloatKind.fp32.rne (FVal.total [FloatKind.fp32.dec (lane b.toNat i),
        (FVal.ofInt (signedOf 40 (laneAt 64 (s.me.srcVal (a.toNat + i / 32)) (i % 32)))).mul
          ((ls20Dec (lane (b.toNat + 1) i)).mul (ls20Dec (lane (b.toNat + 2) i)))]))

/-- R224, R225, R238: VTOPB8 rounds each lane to the nearest probability byte and clears the bytes above; VSHADD adds to each
lane of vd the product of its lane of va and byte: shifted sums of integers, one rounding of floats, and no product for
0xFF. That an exactly zero sum has the sign which the model's reading of R240 gives it is log 48. -/
def Sys2Proof.Claim.ProbabilityByteResults : Prop :=
  ∀ (s : State) (blk : Block) (rest : List Block) (d a b : BitVec 6) (sel : BitVec 4) (x y : BitVec 1),
    let f := fmtOf s.me.sys.vshape; let w := f.bits
    let A := fun i => laneAt w (s.me.srcVal a.toNat) i
    let D := fun i => laneAt w (s.me.srcVal d.toNat) i
    let p := fun i => laneAt 8 (s.me.srcVal b.toNat) i
    (∀ k, f = .flt k → s.me.sys.vshape ≤ 11 → VecReady s blk rest sel [a.toNat] (.port d.toNat) →
      VecLanesBy (.vtopb8 d a sel x) s blk rest [a.toNat] d 8 (fun i z =>
        if i < 2048 / w then ToPb8 true (k.dec (A i)) z else z = 0))
    ∧ (s.me.sys.vshape ≤ 13 → VecReady s blk rest sel [a.toNat, b.toNat, d.toNat] (.port d.toNat) → d.toNat ≤ 55 →
      VecLanes (.vshadd d a b sel x y) s blk rest [a.toNat, b.toNat, d.toNat] d w (fun i =>
        match f with
        | .flt k =>
          if p i = 0xFF then (if (k.dec (D i)).isNan then k.nanCode else D i)
          else k.rne (FVal.total [k.dec (D i), (k.dec (A i)).mul (pb8Dec (p i))])
        | _ =>
          let e := p i / 4
          let part := fun n (on : Bool) => if on then f.int (A i) / 2 ^ n else 0
          wrapInt w (f.int (D i) + if p i = 0xFF then 0
            else part e true + part (e + 1) ((p i).testBit 1) + part (e + 2) ((p i).testBit 0))))

/-- Conversion, quantisation, scaled accumulation and the probability-byte words write the values of their rules. -/
def Obligations.VectorConversions : Prop :=
  Claim.ConversionResults ∧ Claim.QuantisationResults ∧ Claim.ScaledAccumulation ∧ Claim.ProbabilityByteResults

/-- R221 to R223, R200, R226: VPART lists the lanes of each outcome in order and pushes their counts; VPUSHIX and VPUSHC
push to their queues; VSHAPE sets the format from its source; VEND takes the block off its queue. -/
def Obligations.VectorQueuesAndShape : Prop :=
  ∀ (s : State) (blk : Block) (rest : List Block) (d a : BitVec 6) (sel : BitVec 4) (x v : BitVec 1),
    let w := (fmtOf s.me.sys.vshape).bits
    let A := s.me.srcVal a.toNat
    let out := fun i => if v = 1 then laneAt w A i % 4 else if laneAt w A i = 0 then 0 else 1
    let lanes := fun k => (List.range (2048 / w)).filter (fun i => out i = k)
    (VecReady s blk rest sel [a.toNat] (.port d.toNat) → s.me.countRoom = true → 16 ≤ w → ∃ r p,
      Answers (.vpart d a sel x v) s (fun t => VecStarted s t blk rest [a.toNat]
        (if 60 ≤ d.toNat then none else some d.toNat)
        ⟨if 60 ≤ d.toNat then .store (d.toNat - 60) else .reg d.toNat, r, some p⟩)
      ∧ (∀ j, j < 128 → laneAt 16 r j = (((List.range 4).map lanes).flatten).getD j 0x8000)
      ∧ (∀ k, k < 4 → p.toNat / 2 ^ (16 * k) % 2 ^ 16 = (lanes k).length))
    ∧ (VecReady s blk rest sel [a.toNat] (.index v.toNat) → s.me.sys.vshape ≤ 3 → ∃ ix,
      Answers (.vpushix a sel x v) s (fun t => VecStarted s t blk rest [a.toNat] none ⟨.index v.toNat ix, 0, none⟩)
      ∧ ix = (((List.range (2048 / w)).map (laneAt w A)).takeWhile (· ≠ 2 ^ (w - 1))).map (signedOf w))
    ∧ (VecReady s blk rest sel [a.toNat] .count → s.me.countRoom = true →
      Answers (.vpushc a sel x) s (fun t =>
        VecStarted s t blk rest [a.toNat] none ⟨.count, 0, some (A.setWidth 64)⟩))
    ∧ (s.me.eng.vecQ = blk :: rest → blk.region = none →
      (selOn sel blk.sample = true → a.toNat ≤ 55 → s.me.isEmpty a.toNat = false → A.toNat % 2 ^ 64 < 16 →
        Answers (.vshape a sel x) s (fun t => OnlyCore s t { s.me with
          sys := { s.me.sys with vshape := A.toNat % 2 ^ 64 }
          eng := { s.me.eng with vecQ := { blk with next := blk.next + 1 } :: rest } }))
      ∧ Answers (.vend sel) s (fun t => OnlyCore s t { s.me with eng := { s.me.eng with vecQ := rest } }))

/-- R201, R204, R133: a vector word in flight completes by writing its register and marking it full, or by pushing its
entry; data on its way enters its load queue. A push to a queue completes once no earlier push to it is in flight, and not
before. -/
def Sys2Proof.Claim.VectorResultsLand : Prop :=
  ∀ (s : State) (pre : List VecFlight) (f : VecFlight) (fs : List VecFlight) (l : LoadFlight) (ls : List LoadFlight),
    let e := s.me.eng
    let left := { e with vecFlight := pre ++ fs }
    let lands := fun (P : State → Prop) => Answers (.vectorWordCompletion pre.length) s P
    (e.vecFlight = pre ++ f :: fs →
      (∀ n, f.dest = .reg n → f.post = none → lands (fun t => t.me.getV n = f.value ∧ t.me.isEmpty n = false
        ∧ (∀ k, k ≠ n → t.me.getV k = s.me.getV k ∧ t.me.isEmpty k = s.me.isEmpty k)
        ∧ OnlyCore s t { s.me with v := t.me.v, vEmpty := t.me.vEmpty, eng := left }))
      ∧ (∀ q, f.dest = .store q → f.post = none →
        ((∀ g ∈ pre, g.dest ≠ .store q) → lands (fun t => t.me.storeQ q = s.me.storeQ q ++ [f.value]
          ∧ (∀ r, r ≠ q → t.me.storeQ r = s.me.storeQ r) ∧ OnlyCore s t { s.me with sq := t.me.sq, eng := left }))
        ∧ ((∃ g ∈ pre, g.dest = .store q) → lands (fun t => t = s)))
      ∧ (∀ m ix, f.dest = .index m ix → f.post = none →
        ((∀ g ∈ pre, ∀ k, g.dest ≠ .index m k) → lands (fun t => t.me.indexQ m = s.me.indexQ m ++ [ix]
          ∧ (∀ r, r ≠ m → t.me.indexQ r = s.me.indexQ r) ∧ OnlyCore s t { s.me with iq := t.me.iq, eng := left }))
        ∧ ((∃ g ∈ pre, ∃ k, g.dest = .index m k) → lands (fun t => t = s)))
      ∧ (∀ w, f.dest = .count → f.post = some w →
        ((∀ g ∈ pre, g.post = none) → lands (fun t => OnlyCore s t { s.me with cq := s.me.cq ++ [w], eng := left }))
        ∧ ((∃ g ∈ pre, g.post ≠ none) → lands (fun t => t = s))))
    ∧ (e.loads = l :: ls →
      Answers .loadQueueFill s (fun t => t.me.loadQ l.queue = s.me.loadQ l.queue ++ [l.data]
        ∧ OnlyCore s t { s.me with lq := t.me.lq, eng := { e with loads := ls } }))

/-- R66, R73, R84, R201, R212: any vector word but VSHAPE and VEND, its sources in order with their block-or-trap bits: a
disabled one has no effect; a register group that does not fit, then a format that it does not accept, is held as ARGRANGE;
then the first source that is not there is held as REGEMPTY where its bit is set and waited for otherwise; a full target is
waited for. -/
def Sys2Proof.Claim.VectorWordsTrapOrWait : Prop :=
  ∀ (s : State) (blk : Block) (rest : List Block) (i : Instr) (sel : BitVec 4) (op : VOp), let e := s.me.eng
    let held := fun (code info : Nat) => Answers i s (fun t =>
      OnlyCore (s.dropLoads s.actor.core 1) t { s.me with eng := { e with
        heldTraps := holdInOrder ⟨1, code, BitVec.ofNat 64 info, none, blk.next, s.time⟩ e.heldTraps
        stopped := Marks.add 1 e.stopped } })
    let waits := Answers i s (fun t => OnlyCore s t s.me)
    vopOf i = some (sel, op) → e.vecQ = blk :: rest → blk.region = none →
    (selOn sel blk.sample = false → Answers i s (fun t =>
      OnlyCore s t { s.me with eng := { e with vecQ := { blk with next := blk.next + 1 } :: rest } }))
    ∧ (selOn sel blk.sample = true →
      (∀ n, op.group = some n → held 4 n)
      ∧ (op.group = none → op.accepts s.me.sys.vshape = false → held 4 s.me.sys.vshape)
      ∧ (op.group = none → op.accepts s.me.sys.vshape = true →
        (∀ before r after, op.srcs = before ++ r :: after → (∀ q ∈ before, s.me.srcReady q.1 = true) →
          s.me.srcReady r.1 = false → (r.2 = true → held 12 r.1) ∧ (r.2 = false → waits))
        ∧ ((∀ q ∈ op.srcs, s.me.srcReady q.1 = true) →
          (s.me.targetReady op.target = false ∨ (op.posts = true ∧ s.me.countRoom = false)) → waits)))

/-- R65, R205, R206: the sources of every vector word with their block-or-trap bits, the formats it accepts, and the groups
of VSACC. -/
def Sys2Proof.Claim.VectorOperandsAndFormats : Prop :=
  ∀ (d a b : BitVec 6) (sel q : BitVec 4) (x y v : BitVec 1) (m : BitVec 2),
    let ra := (a.toNat, decide (x = 1))
    let rb := (b.toNat, decide (y = 1))
    let is := fun (srcs : List (Nat × Bool)) (ok : Nat → Bool) (i : Instr) => ∃ op, vopOf i = some (sel, op) ∧ op.srcs = srcs
      ∧ op.group = none ∧ ∀ c, c < 16 → op.accepts c = ok c
    let arith := fun c => decide (c ≤ 13)
    let float := fun c => decide (8 ≤ c ∧ c ≤ 13)
    let quant := fun c => decide (8 ≤ c ∧ c ≤ 11)
    let any := fun _ : Nat => true
    (∀ i ∈ [Instr.vadd d a b sel x y v, .vsub d a b sel x y v, .vmin d a b sel x y v, .vmax d a b sel x y v,
      .vcmp d a b sel x y m], is [ra, rb] arith i)
    ∧ is [ra, rb] (fun c => if m = 2 then decide (c ≤ 7) else decide (c ≤ 13)) (.vmul d a b sel x y m)
    ∧ (∀ i ∈ [Instr.vabs d a sel x v, .vneg d a sel x v, .vred d a sel x m], is [ra] arith i)
    ∧ (∀ i ∈ [Instr.vexp d a sel x v, .vrcp d a sel x, .vrsq d a sel x], is [ra] float i)
    ∧ (∀ i ∈ [Instr.vquant d a q sel x, .vtopb8 d a sel x], is [ra] quant i)
    ∧ (∀ i ∈ [Instr.vperm d a b sel x y, .vshuf d a b sel x y m, .vbcast d a b sel x y, .vand d a b sel x y,
      .vor d a b sel x y, .vxor d a b sel x y, .vshl d a b sel x y, .vshr d a b sel x y, .vsar d a b sel x y],
      is [ra, rb] any i)
    ∧ (∀ i ∈ [Instr.vcvt d a q sel x m, .vsplat d a sel x, .vmov d a sel x, .vnot d a sel x, .vpopc d a sel x v,
      .vpushc a sel x], is [ra] any i)
    ∧ (∀ i ∈ [Instr.vfma d a b sel x y v, .vshadd d a b sel x y], is [ra, rb, (d.toNat, false)] arith i)
    ∧ is [ra, rb, (d.toNat, false)] any (.vsel d a b sel x y)
    ∧ is [] (fun c => decide (c ≤ 7)) (.viota d sel) ∧ is [ra] (fun c => decide (c ≤ 3)) (.vpushix a sel x v)
    ∧ is [ra] (fun c => decide ((fmtOf c).bits ∈ [16, 32, 64])) (.vpart d a sel x v)
    ∧ ∃ op, vopOf (.vsacc d a b sel x y) = some (sel, op) ∧ (∀ c, op.accepts c = true)
      ∧ op.srcs = [ra, (a.toNat + 1, ra.2), rb, (b.toNat + 1, rb.2), (b.toNat + 2, rb.2)]
      ∧ op.group = if 54 < a.toNat then some a.toNat else if 53 < b.toNat then some b.toNat else none

/-- Vector results land in the order of their words; any word traps, waits or is passed over by its sources, formats and
groups. -/
def Obligations.VectorWordsCompleteTrapOrWait : Prop :=
  Claim.VectorResultsLand ∧ Claim.VectorWordsTrapOrWait ∧ Claim.VectorOperandsAndFormats

/-- R280, R282, R283, R285, R287, R101: MSHAPE, TREL and HAD change one slot; ACCZERO clears the tile it owns; MWAIT goes on
with no earlier word in flight; MEND takes the block off its queue. A disabled word has no effect but counts as a step word
(R73), and a disabled ACCRD clears what it had marked (R186).
Where the rules leave it open, the model's reading (log 49). -/
def Obligations.MatrixSetupWords : Prop :=
  ∀ (s : State) (b : Block) (rest : List Block) (sel a : BitVec 4) (r c : BitVec 8) (n z : BitVec 2) (o : BitVec 16)
    (e : BitVec 14) (u : BitVec 1),
    let k := s.myCluster
    let slot := k.slot n.toNat
    let put := fun (x : Slot) => { k with slots := Sparse.set n.toNat x k.slots }
    (MatReady s b rest sel false →
      ∀ i ∈ [Instr.mshape sel r c n, .tfetch sel a n o, .trel sel n, .had sel n z, .acczero sel a, .accwr sel a a e,
        .mwait sel, .mmulI8 sel a n z u, .mmulFp32 sel a n z u], Answers i s (fun t => MatWent s t b rest k))
    ∧ (MatReady s b rest sel false →
      (b.marked = false → Answers (.accrd sel a a e) s (fun t => MatWent s t b rest k))
      ∧ (b.marked = true → Answers (.accrd sel a a e) s (fun t =>
        t.myCluster = { k with steps := k.steps + 1 } ∧ SameBytes s t (fun _ => True) ∧ t.mem.full = s.mem.full
        ∧ (∀ y, y ∈ t.mem.pend → y ∈ s.mem.pend)
        ∧ t.me = { s.me with eng := { s.me.eng with matQ := { b with next := b.next + 1 } :: rest } })))
    ∧ (MatReady s b rest sel true →
      Answers (.mshape sel r c n) s (fun t => MatWent s t b rest (put { slot with rows := r.toNat + 1, cols := c.toNat + 1 }))
      ∧ Answers (.trel sel n) s (fun t => MatWent s t b rest (put { slot with pins := [] }))
      ∧ (z ≠ 3 → Answers (.had sel n z) s (fun t => MatWent s t b rest
          (put { slot with mark := if z = 0 then 16 else if z = 1 then 32 else 64 })))
      ∧ (s.ownTile a.toNat = .ok () → Answers (.acczero sel a) s (fun t =>
          (∀ i j, (t.myCluster.tile a.toNat).lane i j = 0)
          ∧ (t.myCluster.tile a.toNat).rows = (k.tile a.toNat).rows ∧ (t.myCluster.tile a.toNat).cols = (k.tile a.toNat).cols
          ∧ (t.myCluster.tile a.toNat).kind = (k.tile a.toNat).kind
          ∧ (∀ m, m ≠ a.toNat → t.myCluster.tile m = k.tile m)
          ∧ MatWent s t b rest { k with tiles := t.myCluster.tiles }))
      ∧ ((∀ f ∈ k.flights, f.core ≠ s.actor.core) →
          Answers (.mwait sel) s (fun t => MatWent s t b rest k)
          ∧ Answers (.mend sel) s (fun t => t.me = { s.me with eng := { s.me.eng with matQ := rest } } ∧ HomeFrame s t
              ∧ t.myCluster.tiles = k.tiles ∧ t.myCluster.slots = k.slots)))

/-- R242, R243, R284: a matrix product of two slots of equal columns leaves a tile of the rows of the first by the rows of
the second, each lane the exact integer sum modulo 2^40, sign-extended, or the float sum rounded per 16 products; with c = 1
it adds to what the lane held. Other tiles and every slot keep their contents. -/
def Obligations.MatrixProducts : Prop :=
  ∀ (s : State) (b : Block) (rest : List Block) (sel a : BitVec 4) (x w : BitVec 2) (c : BitVec 1),
    let k := s.myCluster
    let sa := k.slot x.toNat
    let sb := k.slot w.toNat
    let ints : List (MatFmt × Instr) :=
      [(.lb 2, .mmulLb2 sel a x w c), (.lb 3, .mmulLb3 sel a x w c), (.lb 4, .mmulLb4 sel a x w c),
       (.lb 5, .mmulLb5 sel a x w c), (.lb 6, .mmulLb6 sel a x w c), (.lb 7, .mmulLb7 sel a x w c),
       (.lb 8, .mmulLb8 sel a x w c), (.i8, .mmulI8 sel a x w c)]
    let floats : List (FloatKind × Instr) :=
      [(.e4m3, .mmulE4m3 sel a x w c), (.e5m2, .mmulE5m2 sel a x w c), (.fp16, .mmulFp16 sel a x w c),
       (.bf16, .mmulBf16 sel a x w c), (.fp32, .mmulFp32 sel a x w c), (.fp64, .mmulFp64 sel a x w c)]
    let fits := fun (f : MatFmt) => let n := 32 * sa.cols / f.bits
      n ≤ 256 ∧ (sa.mark = 0 ∨ n % sa.mark = 0) ∧ (sb.mark = 0 ∨ n % sb.mark = 0) ∧ 32 * sa.cols % f.bits = 0
        ∧ (∀ m, f = .lb m → sa.cols % m = 0)
    MatReady s b rest sel true → sb.cols = sa.cols → sb.rows ≤ 256 → s.ownTile a.toNat = .ok () →
    s.slotReady x.toNat = .ok () → s.slotReady w.toNat = .ok () →
    (∀ p ∈ ints, fits p.1 → Answers p.2 s (fun t => let n := 32 * sa.cols / p.1.bits; let z := t.myCluster.tile a.toNat
      z.rows = sa.rows ∧ z.cols = sb.rows ∧ z.kind = .i40
      ∧ (∀ i j, i < sa.rows → j < sb.rows → z.lane i j = (BitVec.ofInt 40
          ((List.zipWith (· * ·) ((sa.intRows p.1 n).getD i []) ((sb.intRows p.1 n).getD j [])).sum
            + if c = 1 then (laneIn .i40 ((k.tile a.toNat).lane i j)).toInt else 0)).signExtend 64)
      ∧ (∀ m, m ≠ a.toNat → t.myCluster.tile m = k.tile m) ∧ MatWent s t b rest { k with tiles := t.myCluster.tiles }))
    ∧ (∀ p ∈ floats, fits (.flt p.1) → Answers p.2 s (fun t =>
      let n := 32 * sa.cols / p.1.width
      let z := t.myCluster.tile a.toNat
      let q := if p.1 = .fp64 then FloatKind.fp64 else .fp32
      let kind := if p.1 = .fp64 then TileKind.fp64 else .fp32
      z.rows = sa.rows ∧ z.cols = sb.rows ∧ z.kind = kind
      ∧ (∀ i j, i < sa.rows → j < sb.rows → z.lane i j = BitVec.ofNat 64 (floatDot q
          (productChunks ((sa.floatRows p.1 n).getD i []) ((sb.floatRows p.1 n).getD j []))
          (if c = 1 then q.dec (laneIn kind ((k.tile a.toNat).lane i j)).toNat else .fin true 0 0)))
      ∧ (∀ m, m ≠ a.toNat → t.myCluster.tile m = k.tile m) ∧ MatWent s t b rest { k with tiles := t.myCluster.tiles }))

/-- R281, R286, R287: TFETCH pins the lines it reads and brings the tile's bytes in when they land; ACCRD sends the tile's
lanes out beside later words; ACCWR loads them; the two completions perform that traffic and retire the word. -/
def Sys2Proof.Claim.MatrixMemoryWords : Prop :=
  ∀ (s : State) (b : Block) (rest : List Block) (sel a c : BitVec 4) (n : BitVec 2) (o : BitVec 16) (e : BitVec 14)
    (ps : List Piece) (bs : List Byte),
    let k := s.myCluster
    let me := s.actor.core
    let slot := k.slot n.toNat
    let tile := k.tile a.toNat
    let bytes := tile.rows * tile.cols * tile.kind.bytes
    MatReady s b rest sel true →
    let x := (b.addr c e.toNat).toNat
    (s.engineChecks me 2 Reach.arrayRead (b.cap c) (b.addr c o.toNat) (slot.rows * (4 * slot.cols)) 16 false = .ok ps →
      s.readPieces me 2 ps = .ok bs →
      Answers (.tfetch sel c n o) s (fun t => MatWent s t b rest { k with
        slots := Sparse.set n.toNat { slot with mark := 0, pins := pinnedLines ps } k.slots
        flights := k.flights ++ [⟨me, b.next, .fetch n.toNat (slotBytes slot.rows slot.cols bs), [], (0, 0)⟩] }))
    ∧ (s.engineChecks me 2 Reach.engineWrite (b.cap c) (b.addr c e.toNat) bytes 16 true = .ok ps →
      s.ownTile a.toNat = .ok () → s.fifoRuns x bytes = [] →
      s.awaitEngine me 2 b.next x ps tile.image = .ok () →
      Answers (.accrd sel a c e) s (fun t => MatWent s t b rest { k with
        flights := k.flights ++ [⟨me, b.next, .store a.toNat ps tile.image (b.marks c e), s.guestsOf s.party x bytes,
          (x, bytes)⟩] }))
    ∧ (s.engineChecks me 2 Reach.arrayRead (b.cap c) (b.addr c e.toNat) bytes 16 false = .ok ps → s.ownTile a.toNat = .ok () →
      s.readPieces me 2 ps = .ok bs →
      Answers (.accwr sel a c e) s (fun t => MatWent s t b rest { k with
        tiles := Sparse.set a.toNat (tile.load bs) k.tiles }))

/-- R287: the oldest word in flight retires when its traffic is done: a TFETCH's slot holds the bytes, an ACCRD's bytes
stand in memory. -/
def Sys2Proof.Claim.MatrixTrafficLands : Prop :=
  ∀ (s : State) (f : MatFlight) (fs : List MatFlight), s.myCluster.flights = f :: fs →
    (∀ n bytes, f.what = .fetch n bytes → Answers (.tfetchLanded 0) s (fun t =>
      t.myCluster.slot n = { s.myCluster.slot n with bytes := bytes } ∧ t.myCluster.flights = fs
      ∧ t.myCluster.tiles = s.myCluster.tiles ∧ SameMemory s t ∧ t.cores = s.cores ∧ t.parts = s.parts))
    ∧ (∀ n ps bs, f.what = .store n ps bs none → bs.length = (ps.map Piece.len).sum →
      (∀ p ∈ ps, ∃ l key, p.place = .here l key) →
      Answers (.accrdWritesPerformed 0) s (fun t =>
        (PiecesApart ps → HoldBytes t ps bs) ∧ SameBytes s t (fun l => ¬ InPieces ps l)
        ∧ (∀ g, g ∈ t.mem.tags ↔ g ∈ s.mem.tags ∧ g ∉ pieceGranules ps) ∧ t.myCluster.flights = fs
        ∧ t.myCluster.tiles = s.myCluster.tiles ∧ t.parts = s.parts
        ∧ ∀ m, t.core m = s.core m ∨ t.core m = (s.core m).latch))

/-- TFETCH, ACCRD and ACCWR and the landing of their traffic. -/
def Obligations.MatrixMemoryWordsLand : Prop :=
  Claim.MatrixMemoryWords ∧ Claim.MatrixTrafficLands

/-- R291, R292, R299: the set-up words of a transfer block change its nest as their rule says and go on; XEMIT puts its
copies on their channel; XEND ends the block. -/
def Sys2Proof.Claim.TransferWords : Prop :=
  ∀ (s : State) (b : XferBlock) (rest : List XferBlock) (l : BitVec 3) (n : BitVec 25) (c : BitVec 4) (o : BitVec 21)
    (k : BitVec 16), let e := s.me.eng
    let nest := b.nest
    let goes := fun (t : State) (m : Nest) => OnlyCore s t { s.me with
      eng := { e with xferQ := { b with next := b.next + 1, nest := m } :: rest } }
    let cap := Sparse.get b.snap Cap.null c.toNat
    e.xferQ = b :: rest →
    Answers (.xloop l) s (fun t => goes t { nest with
      top := l.toNat, counts := [1, 1, 1, 1, 1, 1], sstr := [0, 0, 0, 0, 0, 0], dstr := [0, 0, 0, 0, 0, 0] })
    ∧ (l.toNat ≤ nest.top →
      Answers (.xbound l n) s (fun t => goes t { nest with counts := listSet (n.toNat + 1) l.toNat nest.counts })
      ∧ Answers (.xsstr l n) s (fun t => goes t { nest with sstr := listSet n.toInt l.toNat nest.sstr })
      ∧ Answers (.xdstr l n) s (fun t => goes t { nest with dstr := listSet n.toInt l.toNat nest.dstr }))
    ∧ Answers (.xsrc c o) s (fun t => goes t { nest with src := cap, srcOff := o.toNat, srcReg := c.toNat })
    ∧ Answers (.xdst c o) s (fun t => goes t { nest with dst := cap, dstOff := o.toNat, dstReg := c.toNat })
    ∧ Answers (.xprobe c) s (fun t => goes t nest)
    ∧ Answers (.xemit c k) s (fun t => OnlyCore s t { s.me with eng := { e with
        xferQ := { b with next := b.next + 1, nest := { nest with lastBytes := k.toNat + 1 } } :: rest
        emits := e.emits ++ [⟨b.ident, b.next, c.toNat, k.toNat + 1, nest, 0, false, false, b.marked⟩] } })
    ∧ Answers .xend s (fun t => t.me = { s.me with eng := { e with xferQ := rest, holds := t.me.eng.holds } }
        ∧ (∀ h ∈ e.holds, h.block ≠ b.ident → h ∈ t.me.eng.holds) ∧ SameMemory s t ∧ SameSurroundings s t)

/-- R292, R295, R298: the next copy in block order, on its channel, once its checks pass and it has not failed, writes the source's bytes
over the destination and nowhere else, and moves the emit on.
Where the rules leave it open, the model's reading (logs 52 and 91). -/
def Sys2Proof.Claim.TransferCopiesBytes : Prop :=
  ∀ (s : State) (ch : BitVec 4) (m : Emit) (later : List Emit) (ps qs : List Piece) (bs : List Byte), let me := s.actor.core
    let e := s.me.eng
    let x := (m.nest.source m.next).toNat
    let y := (m.nest.target m.next).toNat
    e.emits = m :: later → m.ch = ch.toNat → m.failed = false → m.reprobe = false →
    copyCaps m.nest m.bytes m.next = .ok () → s.checkStale me m x false = .ok () → s.checkStale me m y true = .ok () →
    s.copyKinds me (waiterOf me 3) x y m.bytes = .ok () → s.copyPieces me m.block m.nest.src x m.bytes false = .ok ps →
    s.copyPieces me m.block m.nest.dst y m.bytes true = .ok qs →
    s.checkWeights me qs = .ok () → s.readPieces me 3 ps (copyUnit m.ch) = .ok bs → bs.length = m.bytes →
    s.fifoRuns y m.bytes = [] → s.awaitEngine me 3 m.word y qs bs = .ok () → NothingUnordered s (copyUnit m.ch) qs →
    Answers (.transferCopy ch) s (fun t =>
      (PiecesApart qs → HoldBytes t qs bs) ∧ SameBytes s t (fun l => ¬ InPieces qs l)
      ∧ (∀ g, g ∈ t.mem.tags ↔ g ∈ s.mem.tags ∧ g ∉ pieceGranules qs)
      ∧ t.me = { s.me with eng := e.advanceEmit 0 m, sys := { s.me.sys with event := t.me.sys.event } }
      ∧ t.clusters = s.clusters ∧ t.parts = s.parts ∧ OtherCoresLatched s t)

/-- Transfer set-up words and the copies they emit. -/
def Obligations.TransferCopies : Prop :=
  Claim.TransferWords ∧ Claim.TransferCopiesBytes

/-- R337 to R339, R354: the arithmetic and control microwords of a Stratus block retire with their effect on the block's
state; a loop word goes back while its counter is not zero; WAIT and DONE need every word retired and every write performed,
and DONE frees the unit.
Where the rules leave it open, the model's reading (log 55). -/
def Obligations.StratusWords : Prop :=
  ∀ (s : State) (u : StratRun) (t10 : BitVec 10) (l m : BitVec 2) (n : BitVec 14), StratReady s u →
    let goes := fun (i : Instr) (v : StratRun) => Answers i s (fun t => StratWent s t u v)
    let on := fun (v : StratRun) => { v with next := u.next + 1 }
    (u.waitFor StratTraffic.isMerge = .ok () →
      (∃ v, goes .maxupd (on v) ∧ Maximised u v) ∧ (∃ v, goes .rescale (on v) ∧ Rescaled u v)
      ∧ ∃ v, goes .expq (on v) ∧ Exponentiated u v)
    ∧ (∀ k x, u.waitFor StratTraffic.isMerge = .ok () → u.slotOf k.toNat = .ok x →
      ∃ v, goes (.pvacc k) (on v) ∧ Accumulated u x v)
    ∧ (∀ k x, u.waitFor StratTraffic.isQuery = .ok () → u.slotOf k.toNat = .ok x →
      (s.myCluster.granted = some (.strat u.core) ∨ s.myCluster.granted = some (.core u.core)) → s.myCluster.steps < 256 →
      ∃ v, Scored u x v ∧ Answers (.score k) s (fun t =>
        t.myCluster = { s.myCluster with
          strat := some { v with wants := false, next := u.next + 1 }
          steps := s.myCluster.steps + 1
          granted := if s.myCluster.granted = some (.strat u.core) then none else s.myCluster.granted }
        ∧ t.me = { s.me with sys := { s.me.sys with upc := BitVec.ofNat 10 u.next } } ∧ HomeFrame s t))
    ∧ goes (.mask m) (on { u with mm := m.toNat })
    ∧ goes (.lcset l n) (on { u with lc := listSet n.toNat l.toNat u.lc })
    ∧ (0 < u.lc.getD l.toNat 0 → goes (.loop t10 l)
        { u with lc := listSet (u.lc.getD l.toNat 0 - 1) l.toNat u.lc, next := t10.toNat })
    ∧ (u.lc.getD l.toNat 0 = 0 → goes (.loop t10 l) (on u))
    ∧ (u.bc = 0 → goes (.brcnt t10) { u with next := t10.toNat })
    ∧ (u.bc ≠ 0 → goes (.brcnt t10) (on { u with bc := u.bc - 1 }))
    ∧ goes (.jmp t10) { u with next := t10.toNat }
    ∧ (u.quiet = .ok () → goes .wait (on u)
      ∧ (s.myCluster.granted ≠ some (.strat u.core) → Answers .done s (fun t =>
        t.myCluster = { s.myCluster with strat := none, resumed := s.myCluster.resumed.filter (fun v => v.core != u.core) }
        ∧ t.me = { s.me with sys := { s.me.sys with upc := BitVec.ofNat 10 u.next } } ∧ t.parts = s.parts
        ∧ SameBytes s t (fun _ => True) ∧ OtherCoresSame s t)))

/-- R334 to R337, R350, R355: the memory microwords read or write the bytes of their operand beside later words: query
rows, table entries, the block of the present entry (.v goes to the next one), partial results, and the records of OSTORE. -/
def Sys2Proof.Claim.StratusMemoryWords : Prop :=
  ∀ (s : State) (u : StratRun) (c k : BitVec 3) (o : BitVec 12) (ps : List Piece) (bs : List Byte), StratReady s u →
    let cap := u.cap c
    let rows := 16 * ((u.qr * u.dim * u.elem + 15) / 16)
    let q := rows + 4 * u.qr
    let r := u.qr * u.rstr
    let block := u.bs * u.dim * u.elem
    let at' := fun (off unit : Nat) => (cap.cursor.toNat + off * unit : Int)
    let asks := fun (x : Int) (m n : Nat) => (⟨8 + c.toNat, x, m, n⟩ : StratAsk)
    let flies := fun (i : Instr) (v : StratRun) (a : StratAsk) (w : StratTraffic) =>
      Answers i s (fun t => StratFlies s t u v a ps w)
    let reads := fun (a : StratAsk) => s.stratPieces u a false = .ok ps ∧ s.readPieces u.core 4 ps = .ok bs
    u.held = none →
    (let a := asks (at' o.toNat 256) q q
     reads a → ∃ qs pos, flies (.qload c o) u a (.query qs pos) ∧ RowsIn u u.qr bs qs
        ∧ ∀ i, i < u.qr → pos.getD i 0 = BitVec.ofNat 32 (numAt (rows + 4 * i) 4 bs))
    ∧ (let x := at' o.toNat 4
       let n := min 64 (((cap.top : Int) - x).toNat / 4)
       let a := asks x 4 (4 * n)
       reads a → ∃ es, flies (.btld c o) u a (.table es o.toNat) ∧ es.length = n
         ∧ ∀ i, i < n → es.getD i 0 = BitVec.ofNat 32 (numAt (4 * i) 4 bs))
    ∧ (let e := (u.table.getD u.tc 0).toNat
       let a := asks (at' (e % 2 ^ 24) block) block block
       let len := e / 2 ^ 24
       u.waitFor StratTraffic.isTable = .ok () → u.tc < u.table.length → reads a →
       ∃ z : KSlot, RowsIn u u.bs bs z.rows ∧ z.kpos = (u.tb + u.tc) * u.bs
         ∧ z.len = (if len = 0 ∨ u.bs < len then u.bs else len)
         ∧ flies (.btgatherK c k) u a (.block k.toNat z)
         ∧ flies (.btgatherV c k) { u with tc := u.tc + 1 } a (.block k.toNat z))
    ∧ (let a := asks (at' o.toNat 256) r r
       reads a → ∃ rs, flies (.merge c o) u a (.merge rs)
         ∧ ∀ i, i < u.qr → rs.getD i [] = sliceB (i * u.rstr) u.rstr bs)
    ∧ (let a := asks (at' o.toNat 256) r r
       s.stratPieces u a true = .ok ps → u.waitFor StratTraffic.isMerge = .ok () →
       (∀ p ∈ ps, ∃ l key, p.place = .here l key) →
       ∃ w v out, Rescaled u w ∧ v = { w with empty := v.empty }
         ∧ (∀ i, i < u.qr → (v.empty.getD i false = true ↔ f32 (w.m.getD i negInf) = .inf true) ∧ RecordIn v i out)
         ∧ flies (.ostore c o) v a (.store out))

/-- R331, R333 to R336, R357: a free unit of a Nimbus cluster takes the next offered block and moves its core past the ATTNGO;
the oldest fetch or store of the unit takes effect when it lands.
Where the rules leave it open, the model's reading (log 58). -/
def Sys2Proof.Claim.StratusTrafficLands : Prop :=
  ∀ (s : State),
    (∀ n b l, isNimbus s.home = true → s.myCluster.strat = none → s.myCluster.resumed = [] → s.nextOffer s.home = some n →
      (s.core n).eng.stratQ = b :: l → (s.core n).sys.pendtrap = false → badStart b.cfg b.scl = none →
      Answers .stratusBlockAccept s (fun t =>
        t.core n = { s.core n with pc := (s.core n).pc + 1, eng := { (s.core n).eng with stratQ := [] } }
        ∧ t.myCluster.strat = some { freshStrat n b.start b.snap b.image b.cfg b.scl with checked := true }
        ∧ SameMemory s t ∧ t.parts = s.parts ∧ ∀ k, k ≠ n → t.core k = s.core k))
    ∧ (∀ u f fs, s.myCluster.strat = some u → u.core = s.actor.core → u.traffic = f :: fs → f.again = false →
      let lands := fun (v : StratRun) => Answers (.stratusFetchComplete 0) s (fun t =>
        t.myCluster.strat = some { v with traffic := fs } ∧ SameMemory s t
        ∧ t.me = { s.me with sys := { s.me.sys with upc := BitVec.ofNat 10 f.word } })
      ((∀ rows pos, f.what = .query rows pos → lands { u with q := rows, pos := pos })
      ∧ (∀ es base, f.what = .table es base → lands { u with table := es, tb := base, tc := 0 })
      ∧ (∀ n k, f.what = .block n k → lands { u with slots := Sparse.set n k u.slots })
      ∧ ∀ rs, f.what = .merge rs → ∃ v, lands v ∧ Merged u rs v)
      ∧ (∀ bs, f.what = .store bs → bs.length = (f.pieces.map Piece.len).sum → NothingUnordered s 4 f.pieces →
        Answers (.ostoreWritesPerformed 0) s (fun t =>
          (PiecesApart f.pieces → HoldBytes t f.pieces bs) ∧ SameBytes s t (fun l => ¬ InPieces f.pieces l)
          ∧ t.myCluster.strat = some { u with traffic := fs } ∧ t.parts = s.parts)))

/-- Memory microwords and the landing of their traffic. -/
def Obligations.StratusMemoryWordsLand : Prop :=
  Claim.StratusMemoryWords ∧ Claim.StratusTrafficLands

/-- R101, R254, R256: with no grant standing the array goes to the first position after the last granted one, in cyclic
order, that has a claim; a grant to another world finds slots and tiles cleared. A grant at its limit of 256 step words or
8,192 cycles ends.
Where the rules leave it open, the model's reading (logs 2, 50 and 57). -/
def Obligations.ArrayIsGranted : Prop :=
  (∀ (s : State) (p i : Nat), let k := s.home
    let c := s.myCluster
    let n := 8 * k + p
    c.granted = none → 0 < i → i ≤ c.positions → p = (c.position + i) % c.positions → c.claimAt k p = true →
    (∀ j, 0 < j → j < i → c.claimAt k ((c.position + j) % c.positions) = false) → c.fetching = false →
    Answers .arrayGrant s (fun t => let z := t.myCluster
      z.position = p ∧ z.steps = 0 ∧ z.grantedAt = s.time ∧ SameMemory s t ∧ t.cores = s.cores ∧ t.parts = s.parts
      ∧ (8 ≤ p → z.granted = some .cumulus)
      ∧ (p < 8 → Marks.has n c.claims = false → z.granted = some (.strat n) ∧ z.slots = c.slots ∧ z.tiles = c.tiles)
      ∧ (p < 8 → Marks.has n c.claims = true → z.granted = some (.core n) ∧ z.lastWorld = some (s.gridOf n)
        ∧ (c.lastWorld ≠ none → c.lastWorld ≠ some (s.gridOf n) →
            z.slots = [] ∧ (∀ m, m < 12 → z.tile m = Tile.init))
        ∧ (c.lastWorld = some (s.gridOf n) → z.slots = c.slots ∧ z.tiles = c.tiles))))
  ∧ (∀ s : State, 256 ≤ s.myCluster.steps ∨ s.myCluster.grantedAt + 8192 ≤ s.time →
      Answers .leaseGrantLimit s (fun t => t.myCluster = { s.myCluster with granted := none } ∧ HomeFrame s t))

/-- R109, R163, R164, R182, R380: an idle core takes up the best record of its partition's pool: without full state its frame
goes to c15, its arguments to g1 to g4, its resume offset to the pc, everything else is as after reset and L1 is cleared; one
that waited for a sequence counter gets its report in g1, which is cleared; with full state, when its area passes the checks,
the core is as it was saved. The record is running and out of the pool.
Where the rules leave it open, the model's reading (logs 8 and 86). -/
def Sys2Proof.Claim.RecordsArePickedUp : Prop :=
  ∀ (s : State) (e : PoolEntry) (p : Nat), let n := s.actor.core
    let r := s.runningOf p e.record
    let b := s.record p e.record
    s.me.run = none → s.ownerOf s.home = some p → (s.part p).held = false → s.bestEntry n p = some e →
    ((s.part p).world r.world).wiped = false → (Sparse.find? r.image (s.part p).images).isSome = true →
    ctlDef (s.ctl p e.record) = 0 → hbmLoc p e.record + 64 ≤ hbmEnd →
    s.mem.poisonIn (hbmLoc p e.record) 64 = none → (∀ f ∈ s.outer.vfs, f.2.state ≠ 3) →
    let waits := fun (q : Nat × SeqCounter) => q.2.waiting.any (fun w => w.1 = e.record)
    (ctlFull (s.ctl p e.record) = false → (∀ q ∈ (s.part p).seqs, waits q = false) → Answers .pickup s (fun t =>
      t.me.run = some r ∧ t.me.pc = BitVec.ofNat 64 (recResume b) ∧ t.me.getC 15 = s.frameCap r
      ∧ (∀ i, i < 4 → t.me.getG (i + 1) = recArg b i) ∧ (∀ i, i = 0 ∨ 4 < i → t.me.getG i = 0)
      ∧ (∀ i, i ≠ 15 → t.me.getC i = Cap.null) ∧ t.me.v = [] ∧ t.me.vEmpty = [] ∧ t.me.lq = [] ∧ t.me.sq = [] ∧ t.me.iq = []
      ∧ t.me.cq = [] ∧ t.me.eng = CoreEng.init ∧ t.me.sys = { CoreSys.init with cls := r.cls }
      ∧ (∀ l, l1Loc n 0 ≤ l → l < l1Loc n 0 + 2 ^ 18 → t.mem.byte l = 0)
      ∧ ctlState (t.ctl p e.record) = 2 ∧ ctlFull (t.ctl p e.record) = false
      ∧ (∀ x ∈ (t.part p).pool, x.record ≠ e.record) ∧ t.clusters = s.clusters ∧ t.mgmt = s.mgmt))
    ∧ (∀ q w, ctlFull (s.ctl p e.record) = false → List.find? waits (s.part p).seqs = some q →
      q.2.waiting.find? (fun w => w.1 = e.record) = some w → Answers .pickup s (fun t =>
        t.me.run = some r ∧ t.me.getG 1 = (q.2.takeReport w.2).1
        ∧ ((t.part p).seq q.1).report = (q.2.takeReport w.2).2.report ∧ ∀ c ∈ (t.part p).seqs, waits c = false))
    ∧ (∀ i x, ctlFull (s.ctl p e.record) = true → s.areaFor p e.record = some (i, x) →
      s.restorable r i x = true → Answers .pickup s (fun t =>
        t.me.run = some r ∧ t.me.pc = x.core.pc ∧ t.me.g = x.core.g ∧ t.me.v = x.core.v ∧ t.me.lq = x.core.lq
        ∧ t.me.sq = x.core.sq ∧ t.me.iq = x.core.iq ∧ t.me.cq = x.core.cq ∧ t.me.sys.fullst = true
        ∧ (Sparse.get (t.part p).areas Area.init i).saved = none
        ∧ ctlState (t.ctl p e.record) = 2 ∧ ctlFull (t.ctl p e.record) = false
        ∧ (∀ y ∈ (t.part p).pool, y.record ≠ e.record)))

/-- R164, R179: a record's effective class rises with each 2^AGE cycles it has waited, up to 3; a MEMERR found after a record
write is owed to the record in its DEFCODE, with the first byte of the unit that the write touched as its address.
Where the rules leave it open, the model's reading (log 26). -/
def Sys2Proof.Claim.WaitingRecordsAgeAndOwe : Prop :=
  (∀ (s : State) (a : Nat), let q := s.actor.part
    Answers (.ageing a) s (fun t =>
      (t.part q).pool = (s.part q).pool.map (fun e => if e.record = a then
          { e with eff := max e.eff (min 3 (e.cls + (s.time - e.since) / 2 ^ (s.part q).age)) } else e)
      ∧ t.part q = { s.part q with pool := (t.part q).pool } ∧ SameMemory s t ∧ t.cores = s.cores ∧ t.outer = s.outer))
  ∧ (∀ (s : State) (a : Nat) (va : Word64), let q := s.actor.part
      let st := ctlState (s.ctl q a)
      let unit := if windowOf va.toNat = .translated then 128 else 16
      1 ≤ st → st ≤ 4 → Answers (.deferredMemerr ⟨a, va⟩) s (fun t =>
        ctlDef (t.ctl q a) = 26 ∧ ctlState (t.ctl q a) = st
        ∧ Sparse.find? a (t.part q).owed = some (BitVec.ofNat 64 (va.toNat / unit * unit))
        ∧ t.part q = { s.part q with owed := (t.part q).owed }
        ∧ SameBytes s t (fun l => l < hbmLoc q a + 28 ∨ hbmLoc q a + 32 ≤ l)))

/-- R167, R373, R375: a forced suspension saves the core in the lowest free area, marks the record runnable with full state
and the area's handle, and leaves the core idle; while a write or a resumed fetch of the core is under way at another module
it waits. At a frame edge the cores that change owner are suspended and cleared, and the others go on.
Where the rules leave it open, the model's reading (log 42). -/
def Sys2Proof.Claim.ForcedSuspensionSaves : Prop :=
  (∀ (s : State) (r : Running) (i : Nat), let p := s.part r.part
    s.me.run = some r → p.freeArea = some i →
    (s.mustGoOn s.actor.core = true → Answers .forcedSuspend s (fun t => t = s))
    ∧ (s.mustGoOn s.actor.core = false → Answers .forcedSuspend s (fun t =>
      t.me.run = none ∧ t.me.eng = CoreEng.init ∧ t.me.sys.lease = false ∧ Runnable t r.part r.record ∧ ctlFull (t.ctl r.part r.record) = true
      ∧ recArg (t.record r.part r.record) 0 = BitVec.ofNat 64 (p.handle i)
      ∧ (∃ x, Sparse.find? i (t.part r.part).areas = some ⟨(Sparse.get p.areas Area.init i).epoch + 1, some x⟩
        ∧ x.record = r.record ∧ x.world = r.world ∧ x.context = r.context ∧ x.kind = 3 ∧ x.core.g = s.me.g
        ∧ x.core.c = s.me.c ∧ x.core.pc = s.me.pc)
      ∧ (∀ j, j ≠ i → Sparse.find? j (t.part r.part).areas = Sparse.find? j p.areas))))
  ∧ (∀ s : State, let k := s.home
      let c := s.myCluster
      let e := c.edgeCores k
      c.frameStart + 2 ^ (c.frameEntry c.frame).lexp ≤ s.time → s.canSaveAll (s.partOfCore (8 * k)) e = true →
      Answers .frameEdge s (fun t =>
        t.myCluster.frame = c.nextFrame c.frame
        ∧ t.myCluster.frameStart = c.frameStart + 2 ^ (c.frameEntry c.frame).lexp
        ∧ (∀ n ∈ e, t.core n = Core.init)
        ∧ (∀ n, n ∉ e → t.core n = s.core n ∨ t.core n = (s.core n).latch)))

/-- Pickup, ageing, owed faults, forced suspension and frame edges. -/
def Obligations.RecordsRunAndAreSuspended : Prop :=
  Claim.RecordsArePickedUp ∧ Claim.WaitingRecordsAgeAndOwe ∧ Claim.ForcedSuspensionSaves

/-- R107, R108, R260, R261, R262: a submitted descriptor is refused with its code in g1, or admitted with the next number of its
counter in g2; its record is runnable either way. Of the tasks of one cycle those of lower cores go first: once a task has
been admitted, none of a lower core is in the same cycle. A list that is full or whose patience has ended forms its pass.
Where the rules leave it open, the model's reading (log 27). -/
def Sys2Proof.Claim.CumulusAdmitsTasks : Prop :=
  (∀ (s : State) (idx l key : Nat) (x : Submit), s.myCluster.cumulus.submits[idx]? = some x → x.place = .here l key →
    ¬ (s.myCluster.cumulus.last.1 = s.time ∧ x.core < s.myCluster.cumulus.last.2) →
    s.awaitCaps x (s.mem.readUnder key l 64) = .ok () → s.mem.poisonIn l 64 = none → ctlState (s.ctl x.part x.record) < 5 →
    let d := s.descriptor x (s.mem.readUnder key l 64) (s.mem.tagAt l) (s.mem.tagAt (l + 16))
    let code := s.refusal s.home d
    let n := seqIndex d.task.world d.task.context d.task.ctr
    let given := ((s.part x.part).seq n).given
    Answers (.taskAdmission idx) s (fun t =>
      t.myCluster.cumulus.submits = listDrop idx s.myCluster.cumulus.submits ∧ Runnable t x.part x.record
      ∧ t.myCluster.cumulus.last = (s.time, x.core) ∧ t.time = s.time
      ∧ (code ≠ 0 → recArg (t.record x.part x.record) 0 = BitVec.ofNat 64 code ∧ recArg (t.record x.part x.record) 1 = 0
        ∧ t.myCluster.cumulus.lists = s.myCluster.cumulus.lists ∧ t.myCluster.cumulus.passes = s.myCluster.cumulus.passes)
      ∧ (code = 0 → recArg (t.record x.part x.record) 0 = 0
        ∧ recArg (t.record x.part x.record) 1 = BitVec.ofNat 64 (given + 1)
        ∧ ((t.part x.part).seq n).given = given + 1)))
  ∧ (∀ (s : State) (idx : Nat) (x : Submit), s.myCluster.cumulus.submits[idx]? = some x →
      s.myCluster.cumulus.last.1 = s.time → x.core < s.myCluster.cumulus.last.2 →
      Answers (.taskAdmission idx) s (fun t => t = s))
  ∧ (∀ (s : State) (idx : Nat) (l : HoldList), s.myCluster.cumulus.lists[idx]? = some l →
      (∀ m ∈ l.members, m.born ≤ s.time) → l.deadline ≤ s.time ∨ rowsOf l.members = l.capacity →
      Answers (.patienceExpiry idx) s (fun t =>
        t.myCluster.cumulus.passes = s.myCluster.cumulus.passes ++ [passOf l.members]
        ∧ t.myCluster.cumulus.lists = s.myCluster.cumulus.lists.filter (fun m => m != l) ∧ HomeFrame s t
        ∧ t.cores = s.cores))

/-- R257, R258, R265, R268: the array phase of a pass fetches every member's activations and the weight into staging, computes
each member's accumulators, and the grant ends with it; at the grant's last step word it stops after the present word, and
staging stands as it is. A member whose fetch traps parks with its code in SEQF.
Where the rules leave it open, the model's reading (logs 61 and 92). -/
def Sys2Proof.Claim.PassesRun : Prop :=
  ∀ (s : State) (i n : Nat) (p : Pass) (w : Weight) (c : ShapeClass) (y : Nat × BitVec 64)
    (got : PassMember → List Piece × List Byte), let u := s.myCluster.cumulus
    let f := matFmtOf w.format
    let ab := rowBytes f c.K
    let l := hbmLoc y.1 w.base
    let reads := fun (x : State) (m : PassMember) => x.activations m.task (m.task.rows * ab)
    let staged := fun (t : State) (j : Nat) (m : PassMember) => ∀ r, r < m.task.rows →
      Sparse.get t.myCluster.cumulus.acts [] (p.firstRow j + r) = sliceB (r * ab) ab (got m).2
    let quietFor := fun (m : PassMember) =>
      (∀ q ∈ s.waiters, q.2 ≠ waiterOf m.task.core cumulusEngine)
      ∧ ∀ g ∈ s.outer.forwards, ¬ (g.core = m.task.core ∧ g.engine = cumulusEngine)
    s.myCluster.granted = some .cumulus → s.atLimit s.home = false → u.passes.findIdx? (fun p => !p.ran) = some i →
    u.passes[i]? = some p → p.members ≠ [] → s.weightOf y.1 y.2 = some (n, w) →
    (∀ m ∈ p.members, (m.task.part, m.task.weight) = y ∧ shapeClass m.task.cls = some c ∧ m.finished = false ∧ quietFor m) →
    (p.next = 0 → (∀ q ∈ w.tile c, s.mem.poisonIn (l + q.1) q.2 = none) → s.myCluster.steps + p.members.length + 2 ≤ 256 →
      (∀ m ∈ p.members, ∀ (v : Cumulus) (k : Nat),
        reads s m = .ok (got m) ∧ reads (s.setMyCluster { s.myCluster with cumulus := v, steps := k }) m = .ok (got m)) →
      Answers .runPass s (fun t => t.myCluster.granted = none ∧ t.myCluster.steps = s.myCluster.steps + p.members.length + 2
        ∧ SameMemory s t ∧ t.parts = s.parts ∧ t.cores = s.cores
        ∧ (∀ j m, p.members[j]? = some m → staged t j m)
        ∧ (∀ k, k < c.N → Sparse.get t.myCluster.cumulus.weights [] k
            = weightColumn f c.K c.N w.scales k (s.mem.readUnder (s.weightKey y.1) l w.len))
        ∧ ∃ q, t.myCluster.cumulus.passes[i]? = some q ∧ q.ran = true ∧ q.members.length = p.members.length
          ∧ (∀ m ∈ p.members, ∀ x ∈ pinnedLines (got m).1, x ∈ q.pins) ∧ (∀ x ∈ w.tileLines c, x ∈ q.pins)
          ∧ q.due = s.time
          ∧ ∀ (j : Nat) (m : PassMember), p.members[j]? = some m →
            let acc := memberAcc f c t.myCluster.cumulus (p.firstRow j) m.task.rows
            q.members[j]? = some
              ({ m with acc := acc, entries := (memberEntries (c.lane w.format) acc).length } : PassMember)))
    ∧ (∀ m, p.members[p.next]? = some m → s.myCluster.steps = 255 →
      (reads s m = .ok (got m) → Answers .runPass s (fun t => HomeFrame s t ∧ t.cores = s.cores
        ∧ t.myCluster.granted = some .cumulus ∧ t.myCluster.steps = 256 ∧ staged t p.next m
        ∧ t.myCluster.cumulus.passes = listSet (p.fetched (got m).1) i u.passes))
      ∧ (∀ e code, reads s m = .error e → (∃ tr info lane, e = .trap tr info lane ∧ code = tr.code)
          ∨ (∃ x, e = .xlate x ∧ x.remote = none ∧ code = if x.second then 25 else 24) → Answers .runPass s (fun t =>
          let k := seqIndex m.task.world m.task.context m.task.ctr
          (∀ r, r < m.task.rows → Sparse.get t.myCluster.cumulus.acts [] (p.firstRow p.next + r) = [])
          ∧ (bitsAt ((s.part m.task.part).seq k).report.toNat 0 8 = 0 → ((t.part m.task.part).seq k).report
            = BitVec.ofNat 64 (m.task.seq.toNat % 2 ^ 48 * 2 ^ 16 + code % 256)))))

/-- R165, R266, R267, R268: an epilogue run waits while a record that its core may take up goes before it. Otherwise on an idle
core it delivers one entry's result and leaves the core as a pickup without
full state and the run leave it; a trap parks the member with its code in SEQF; the last entry of a member writes its rows
and completes the task in sequence order.
Where the rules leave it open, the model's reading (log 61). -/
def Sys2Proof.Claim.EpiloguesScatter : Prop :=
  ∀ (s : State) (i j : Nat) (p : Pass) (m : PassMember) (c : ShapeClass) (e : Vec), let u := s.myCluster.cumulus
    let f := c.lane (s.passFormat m.task)
    let es := memberEntries f m.acc
    let run := runEpi (s.epiWords m.task.part m.task.hash) (epiCore f e)
    let n := seqIndex m.task.world m.task.context m.task.ctr
    let q := (s.part m.task.part).seq n
    let lo := l1Loc s.actor.core 0
    let outside := fun (l : Nat) => l < lo ∨ lo + 2 ^ 18 ≤ l
    u.passes.findIdx? (fun p => p.ran) = some i → u.passes[i]? = some p → p.members.findIdx? (fun m => !m.finished) = some j →
    p.members[j]? = some m → shapeClass m.task.cls = some c → s.mayEpilogue s.actor.core m.task = true →
    m.written = false → es[m.results.length]? = some e →
    (s.recordFirst s.actor.core m.task.part p.due = true → Answers .epilogueRun s (fun t => t = s))
    ∧ (s.recordFirst s.actor.core m.task.part p.due = false →
    (∀ d v, run = .ok (d, v) → m.results.length + 1 < es.length → Answers .epilogueRun s (fun t =>
      t.myCluster.cumulus.passes[i]? = some
        { p with members := listSet { m with results := m.results ++ [v] } j p.members, due := s.time }
      ∧ t.me = d.idle ∧ OtherCoresSame s t ∧ t.parts = s.parts ∧ t.outer = s.outer ∧ t.mgmt = s.mgmt
      ∧ (∀ l, lo ≤ l → l < lo + 2 ^ 18 → t.mem.byte l = 0) ∧ SameBytes s t outside))
    ∧ (∀ d code info, run = .error (d, code, info) → bitsAt q.report.toNat 0 8 = 0 → Answers .epilogueRun s (fun t =>
      ((t.part m.task.part).seq n).report = BitVec.ofNat 64 (m.task.seq.toNat % 2 ^ 48 * 2 ^ 16 + code % 256)
      ∧ t.me.g = d.g ∧ t.me.v = d.v ∧ t.me.run = none))
    ∧ (∀ d v ps, let bs := memberBytes f m.task.rfmt (m.task.rows * c.N) (m.results ++ [v])
      run = .ok (d, v) → m.results.length + 1 = es.length →
      (s.leaveEpi s.actor.core d).scatterPieces m.task bs.length = .ok ps →
      bs.length = (ps.map Piece.len).sum → (∀ x ∈ ps, ∃ l k, x.place = .here l k) → s.scatterPending m.task = false →
      q.waiting = [] → Answers .epilogueRun s (fun t =>
        (PiecesApart ps → HoldBytes t ps bs) ∧ SameBytes s t (fun l => ¬ InPieces ps l ∧ outside l)
        ∧ (q.finished = [] → m.task.seq.toNat = q.done.toNat + 1 →
            ((t.part m.task.part).seq n).done = q.done + 1))))

/-- Cumulus admits tasks, forms passes, runs them and scatters results. -/
def Obligations.CumulusAdmitsAndScatters : Prop :=
  Claim.CumulusAdmitsTasks ∧ Claim.PassesRun ∧ Claim.EpiloguesScatter

/-- R394, R395, R398, R401, R402, R405: an execution that has run its block is given to Mirage and its outputs are full, of one
cycle the one of a lower core first; the
surrogate alone writes the outputs of a skipped one; a training step takes the SGD words, or ends in FALLBACK with cause 5;
an image that leaves takes its regions and its control stores with it.
Where the rules leave it open, the model's reading (logs 28, 53 and 54). -/
def Obligations.MirageActs : Prop :=
  (∀ (s : State) (r : Running) (b : Block) (rest : List Block) (x : RegionRun) (ins : List Vec) (fmt : Nat),
    s.me.run = some r → s.me.eng.vecQ = b :: rest → b.region = some x → x.inputs = some (ins, fmt) →
    (∀ n f, s.fitOf r x.id = some (n, f) → f.last.1 = s.time → s.actor.core < f.last.2 → x.skipped = false →
      Answers .regionExecutionComplete s (fun t => t = s))
    ∧ (x.ended = true → x.skipped = false → s.me.eng.vecFlight = [] →
      (∀ n f, s.fitOf r x.id = some (n, f) → ¬ (f.last.1 = s.time ∧ s.actor.core < f.last.2)) →
      Answers .regionExecutionComplete s (fun t =>
      t.me.eng = { s.me.eng with vecQ := rest } ∧ t.me.v = s.me.v ∧ t.me.g = s.me.g ∧ t.me.pc = s.me.pc
      ∧ (∀ n ∈ regRange x.firstOut x.nOut, n ∉ x.written → t.me.isEmpty n = false)
      ∧ (∀ n, n ∉ regRange x.firstOut x.nOut ∨ n ∈ x.written → t.me.isEmpty n = s.me.isEmpty n)
      ∧ (∀ n f, s.fitOf r x.id = some (n, f) → Sparse.find? n (t.part r.part).fits
          = some { f.apply x ins ((regRange x.firstOut x.nOut).map s.me.getV) fmt with last := (s.time, s.actor.core) })
      ∧ SameMemory s t ∧ OtherCoresSame s t))
    ∧ (∀ n f l, x.skipped = true → s.me.eng.vecFlight.any (fun g => g.writes (regRange x.firstOut x.nOut)) = false →
      s.fitOf r x.id = some (n, f) → f.answerNet x fmt = some l →
      Answers .surrogateAnswer s (fun t =>
        (∀ u, u < x.nOut → t.me.getV (x.firstOut + u) = (surrogate l (fmtOf fmt) ins x.nOut).getD u 0
          ∧ t.me.isEmpty (x.firstOut + u) = false)
        ∧ t.me.eng = { s.me.eng with vecQ := rest } ∧ SameMemory s t ∧ t.parts = s.parts ∧ OtherCoresSame s t)))
  ∧ (∀ (s : State) (p n : Nat) (rest : List Nat) (f : FitEntry) (b : Binding) (x : Batch), s.ownerOf s.home = some p →
      s.myCluster.training = n :: rest → (s.part p).held = false → Sparse.find? n (s.part p).fits = some f →
      f.state = .train → f.binding = some b → f.batches[f.trainNext]? = some x →
      (f.sgd b x = none → Answers .trainStep s (fun t => t.myCluster.training = rest ∧ SameMemory s t
        ∧ Sparse.find? n (t.part p).fits = some { f with state := .fallback, cause := 5 }))
      ∧ (∀ ws, f.sgd b x = some ws → f.trainNext + 1 < f.batches.length → Answers .trainStep s (fun t =>
        t.clusters = s.clusters ∧ SameMemory s t
        ∧ Sparse.find? n (t.part p).fits = some { f with words := ws, trainNext := f.trainNext + 1 }))
      ∧ (∀ ws, f.sgd b x = some ws → f.batches.length ≤ f.trainNext + 1 → Answers .trainStep s (fun t =>
        t.myCluster.training = rest ∧ SameMemory s t
        ∧ Sparse.find? n (t.part p).fits = some { f with words := ws, state := .shadow, shadok := 0 })))
  ∧ (∀ (s : State) (h : Nat) (im : Image), let p := s.actor.part
      Sparse.find? h (s.part p).images = some im → s.executing p im.hash = false → Answers (.imageRemoval h) s (fun t =>
        Sparse.find? h (t.part p).images = none ∧ (∀ q ∈ (t.part p).fits, q.2.hash ≠ im.hash)
        ∧ (∀ k x, (t.cluster k).store = some x → ¬ (x.part = p ∧ x.image = h)) ∧ SameMemory s t ∧ t.cores = s.cores))

/-- R189, R192, R198: a write of MODE starts a switch for a world that may set it, and is discarded otherwise; a switch that
nothing holds up leaves the bank empty, zero and in its new mode; copies probed earlier find the bank changed; a soft error poisons its unit, or clears the tag it hits, and changes no byte.
Where the rules leave it open, the model's reading (log 51). -/
def Sys2Proof.Claim.BanksSwitchAndFail : Prop :=
  (∀ (s : State) (b : BitVec 4) (m : BitVec 2), let x := s.myCluster.bank b.toNat
    (m ≠ 3 → m.toNat ≠ x.mode → x.switching = none → (s.worldOf s.party).l2auth = true →
      Answers (.bankModeSwitch b m) s (fun t => t.myCluster.bank b.toNat = { x with switching := some (m.toNat, s.party.world) }
        ∧ (∀ n, n ≠ b.toNat → t.myCluster.bank n = s.myCluster.bank n) ∧ HomeFrame s t ∧ t.cores = s.cores))
    ∧ ((s.worldOf s.party).l2auth = false → Answers (.bankModeSwitch b m) s (fun t => t = s))
    ∧ (∀ mode world, x.switching = some (mode, world) → s.switchWaits s.home b.toNat = false →
      Answers (.bankSwitchComplete b) s (fun t => let lo := bankLoc s.home b.toNat 0
        t.myCluster.bank b.toNat = ⟨mode, if mode = 0 then 0 else world, none, []⟩
        ∧ (∀ l, lo ≤ l → l < lo + bankSize s.home → t.mem.byte l = 0 ∧ l / 16 ∉ t.mem.tags)
        ∧ SameBytes s t (fun l => l < lo ∨ lo + bankSize s.home ≤ l)
        ∧ (∀ n, t.core n = { s.core n with eng := (s.core n).eng.staleBank s.home b.toNat })
        ∧ (∀ p, t.part p = { s.part p with areas := (t.part p).areas }))))
  ∧ (∀ (s : State) (u : PoisonUnit), poisonSound u = true → Answers (.uncorrectableSoftError u) s (fun t =>
      (∀ x, x ∈ t.mem.poison ↔ x ∈ s.mem.poison ∨ (match u with
        | .granule l => x = l / 16 * 16
        | .line l => x = l / 128 * 128
        | .block l => x = l / 256 * 256 ∨ x = l / 256 * 256 + 128
        | .tag _ => False))
      ∧ (∀ g, g ∈ t.mem.tags ↔ g ∈ s.mem.tags ∧ (match u with | .tag l => g ≠ l / 16 | _ => True))
      ∧ t = { s with mem := { s.mem with poison := t.mem.poison, tags := t.mem.tags } }))

/-- R263, R270 to R273: a registered weight region, of a class and a format of its group, holds its bytes under the partition's
weight key and has the first 64 bits of its SHAKE256 as identity; a removed one leaves the table once no pass uses it; the set of identities goes to the
router.
Where the rules leave it open, the model's reading (log 37). -/
def Sys2Proof.Claim.WeightsComeAndGo : Prop :=
  (∀ (s : State) (base len n : Nat) (layout : List Byte), let p := s.actor.part
    let l := hbmLoc p base
    layoutOk layout = true → 0 < len → s.frameOk p base len = true → (s.part p).present = true → s.freeWeight = some n →
    Answers (.weightRegionRegistration base len layout) s (fun t =>
      (∀ x, l ≤ x → x < l + len → t.mem.byteUnder (s.weightKey p) x = s.mem.byte x)
      ∧ SameBytes s t (fun x => x < l ∨ l + len ≤ x) ∧ t.cores = s.cores ∧ t.parts = s.parts
      ∧ Sparse.find? n t.outer.weights = some { ident := BitVec.ofNat 64 (leNat (shake256 (s.mem.raw l len ++ layout) 8))
                                                part := p, base := base, len := len, layout := layout }
      ∧ (∃ c, shapeClass (numAt 1 1 layout) = some c ∧ inGroup c.group (numAt 0 1 layout) = true)
      ∧ ∀ m, m ≠ n → Sparse.find? m t.outer.weights = Sparse.find? m s.outer.weights))
  ∧ (∀ (s : State) (ident : BitVec 64) (n : Nat) (w : Weight), let p := s.actor.part
      s.weightOf p ident = some (n, w) → s.weightBusy p ident = false → Answers (.weightRemoval ident) s (fun t =>
        Sparse.find? n t.outer.weights = none ∧ SameMemory s t ∧ t.cores = s.cores ∧ t.parts = s.parts
        ∧ ∀ k ∈ (s.part p).clust, ∀ l ∈ (t.cluster k).cumulus.lists, l.weight ≠ ident))
  ∧ (∀ s : State, Answers .weightSetAdvertise s (fun t =>
      (∀ x, x ∈ t.outer.advertised ↔ x ∈ s.idents) ∧ t.outer.outputs = s.outer.outputs ++ [.weights s.idents]
      ∧ t = { s with outer := { s.outer with advertised := t.outer.advertised, outputs := t.outer.outputs } }))

/-- Bank modes, soft errors and weight regions. -/
def Obligations.BanksAndWeightsChange : Prop :=
  Claim.BanksSwitchAndFail ∧ Claim.WeightsComeAndGo

/-- R415, R422, R452: a request of another module that its port, capability and frame allow is served from memory, under the
key of this module's own entry for the frame and with stale tags cleared; one to a page that a migration copies waits; one
that is not allowed, and a packet for a partition that does not own the port, are refused with a NACK and an entry. A reply
reaches the request it answers, once that has gone out on a port; an AMO's arms the watch of its core. A NACK or a time-out is
logged, and ends the wait of whoever waits for the answer, without data; the member of a pass whose write it was parks.
Where the rules leave it open, the model's reading (logs 29, 39 and 93). -/
def Obligations.ModulesExchangeRequests : Prop :=
  (∀ (s : State) (q : FwdRequest), let p := s.part q.part
    let served := s.served q.part q.world q.pa
    let l := hbmLoc q.part served.1
    let key := served.2
    (p.present = true → s.frameMoving q.part q.pa = true → Answers (.forwardedAccess q) s (fun t => t = s))
    ∧ (p.present = true → s.frameMoving q.part q.pa = false → p.ports.contains q.port = true →
      s.refusesRequest q l (fwdBytes q.kind) = false →
      (∀ n, q.kind = .load n → Answers (.forwardedAccess q) s (fun t => SameMemory s t ∧ t.outer.outputs = s.outer.outputs ++
        [.forwardReply q.source (s.mem.readUnder key l n) (s.servedTags ⟨q.part, q.world, q.context⟩ l n key)]))
      ∧ (∀ d tag, q.kind = .store d tag → Answers (.forwardedAccess q) s (fun t =>
        t.mem.readUnder key l d.length = d ∧ SameBytes s t (fun x => x < l ∨ l + d.length ≤ x)
        ∧ t.outer.outputs = s.outer.outputs ++ [.forwardReply q.source [] []]))
      ∧ (∀ f w y z sc, q.kind = .amo f w y z sc → let n := if w = 1 then 4 else 8
        let old := s.mem.readUnder key l n
        Answers (.forwardedAccess q) s (fun t =>
          t.mem.readUnder key l n
            = leBytes (amoNew (amoOf f.toNat) n (leNat old) (y.toNat % 2 ^ (8 * n)) (z.toNat % 2 ^ (8 * n))) n
          ∧ SameBytes s t (fun x => x < l ∨ l + n ≤ x)
          ∧ t.outer.outputs = s.outer.outputs ++ [.forwardReply q.source old []])))
    ∧ (p.present = false ∨ s.frameMoving q.part q.pa = false →
      p.present = false ∨ p.ports.contains q.port = false ∨ s.refusesRequest q l (fwdBytes q.kind) = true →
      Answers (.forwardedAccess q) s (fun t => (∃ rest, t.outer.outputs = s.outer.outputs ++ .nack q.port :: rest)
        ∧ ∃ c, Logs s t ⟨0x40, 769 + q.port, some (q.part, q.world), q.pa, q.port % 256 + c % 256 * 256⟩)))
  ∧ (∀ (s : State) (k : FabricPacket), (s.part k.part).present = false ∨ (s.part k.part).ports.contains k.port = false →
      Answers (.fabricPacketRefused k) s (fun t => (∃ rest, t.outer.outputs = s.outer.outputs ++ .nack k.port :: rest)
        ∧ Logs s t ⟨0x40, 769 + k.port, some (k.part, k.world), k.addr.toNat, k.port % 256 + k.cause.toNat * 256⟩))
  ∧ (∀ (s : State) (i : Nat) (f : Forward) (bs : List Byte) (ts : List Bool) (nack : Bool), s.outer.forwards[i]? = some f →
      f.reply = none →
      let src := if f.core < deviceCore then clusterOf f.core else 768
      let logged := fun (t : State) => Logs s t ⟨0x41, src, some (f.asker.party.part, f.asker.party.world), f.line, f.module⟩
      let arms := f.engine = 0 ∧ (∃ g w y z sc, f.kind = .amo g w y z sc)
      let armed := { s.core f.core with
        sys := { (s.core f.core).sys with evwatch := BitVec.ofNat 64 (f.va.toNat / 16 * 16 + 1) } }
      let mine := fun (m : PassMember) =>
        m.task.core = f.core && m.task.number = f.word && m.written && !m.finished
      (f.port = none → Answers (.forwardedReply i bs ts) s (fun t => t = s))
      ∧ (f.port ≠ none → Answers (.forwardedReply i bs ts) s (fun t =>
        t.outer.forwards = (if f.awaited then listSet { f with reply := some (some (bs, ts)) } i s.outer.forwards
          else listDrop i s.outer.forwards) ∧ t.outer = { s.outer with forwards := t.outer.forwards }
        ∧ SameMemory s t ∧ t.parts = s.parts ∧ t.clusters = s.clusters
        ∧ (∀ n, (arms → n ≠ f.core) → t.core n = s.core n ∨ (f.written ≠ [] ∧ t.core n = (s.core n).latch))
        ∧ (arms → t.core f.core = armed)))
      ∧ (f.awaited = true → Answers (.forwardedAccessTimeout i nack) s (fun t =>
        t.outer.forwards = listSet { f with reply := some none } i s.outer.forwards ∧ logged t))
      ∧ (f.awaited = false → Answers (.forwardedAccessTimeout i nack) s (fun t =>
        t.outer.forwards = listDrop i s.outer.forwards ∧ logged t))
      ∧ (∀ a b p m, f.awaited = false → f.core < deviceCore → f.engine = cumulusEngine →
        let passes := (s.cluster (clusterOf f.core)).cumulus.passes
        passes.findIdx? (fun p => p.members.any mine) = some a → passes[a]? = some p →
        p.members.findIdx? mine = some b → p.members[b]? = some m →
        let k := seqIndex m.task.world m.task.context m.task.ctr
        bitsAt ((s.part m.task.part).seq k).report.toNat 0 8 = 0 → Answers (.forwardedAccessTimeout i nack) s (fun t =>
          ((t.part m.task.part).seq k).report = BitVec.ofNat 64 (m.task.seq.toNat % 2 ^ 48 * 2 ^ 16 + 26))))

/-- R418, R419, R421, R437: the next waiting entry goes to the function's ring, and vector 0 is signalled or, when it is masked,
pending; or it goes to the Zenith's queue, when there is room. A write of FRBASE or of a legal FRSIZE is taken.
Where the rules leave it open, the model's reading (logs 31, 79 and 108). -/
def Sys2Proof.Claim.FaultEntriesAreWritten : Prop :=
  (∀ (s : State) (f : FaultRec) (fs : List FaultRec), let x := s.outer
    s.actor.zenith = true → x.s2waiting = f :: fs → x.s2head + 1 ≠ x.s2tail → s.mgmt.handoff = none →
    Answers .faultRingEntryWrite s (fun t => Poked s t (s.zenithLoc (x.s2base.toNat + 64 * x.s2head.toNat)) f.zenithBytes
      ∧ t.outer = { x with s2waiting := fs, s2head := x.s2head + 1 } ∧ t.parts = s.parts ∧ t.clusters = s.clusters))
  ∧ (∀ (s : State) (f : FaultRec) (fs : List FaultRec) (l key : Nat), let v := s.actor.vf
      let x := s.vf v
      s.actor.zenith = false → x.waiting = f :: fs → x.frsize ≠ 0 → f.blocked = false →
      (x.frhead.toNat + 1) % 2 ^ x.frsize ≠ x.frtail.toNat % 2 ^ x.frsize →
      s.translate2 ⟨f.part, f.world, 0⟩ (x.frbase.toNat + 64 * (x.frhead.toNat % 2 ^ x.frsize)) true false
        = .ok (.here l key) →
      Answers .faultRingEntryWrite s (fun t => t.mem.readUnder key l 64 = f.guestBytes
        ∧ SameBytes s t (fun y => y < l ∨ l + 64 ≤ y)
        ∧ t.parts = s.parts
        ∧ (let n := BitVec.ofNat 16 ((x.frhead.toNat + 1) % 2 ^ x.frsize)
           let masked := bitAt (Sparse.get x.vectors 1 3) 0
           (masked = false → VfBecomes s t v { x with waiting := fs, frhead := n }
             ∧ t.outer.outputs = s.outer.outputs ++ [.msix v 0])
           ∧ (masked = true → t.outer.outputs = s.outer.outputs
             ∧ VfBecomes s t v { x with waiting := fs, frhead := n, pending := Marks.add 0 x.pending }))))
  ∧ (∀ (s : State) (value : BitVec 64), let v := s.actor.vf
      let n := value.toNat % 32
      s.refusesHost v = false →
      Answers (.faultRingConfigWrite .frbase value) s (fun t => (t.vf v).frbase = value &&& 0xFFFFFFFFFFC0
        ∧ (t.vf v).frsize = (s.vf v).frsize ∧ SameMemory s t)
      ∧ Answers (.faultRingConfigWrite .frsize value) s (fun t =>
        (t.vf v).frsize = (if n = 0 ∨ (6 ≤ n ∧ n ≤ 16) then n else (s.vf v).frsize)
        ∧ (t.vf v).frbase = (s.vf v).frbase ∧ SameMemory s t))

/-- R420, R421, R423: FRESUME takes only an unused token of the function's own world that was reported to it; S2RESUME
retries, reflects to the guest's ring under a new token, or ends the continuation; the record that waits becomes
runnable. ACCVAL reads a page's counter and clears it. -/
def Sys2Proof.Claim.FaultsAreResumed : Prop :=
  (∀ (s : State) (k : BitVec 56) (w : Waiter), let v := s.actor.vf
    s.refusesHost v = false → s.waiter k.toNat = some w →
    (w.second = false → s.worldOfVf v = some (w.part, w.world) → Answers (.fresume k) s (fun t =>
      (∀ x ∈ t.outer.suspended, x.token ≠ k.toNat)
      ∧ (ctlState (s.ctl w.part w.record) = 4 → Runnable t w.part w.record)))
    ∧ (w.second = true ∨ s.worldOfVf v ≠ some (w.part, w.world) → Answers (.fresume k) s (fun t => t = s)))
  ∧ (∀ (s : State) (k : BitVec 56) (w : Waiter), s.zenithActs = true → s.waiter k.toNat = some w → w.second = true →
      w.fault.kind ≠ 5 →
      Answers (.s2resumeRetry k) s (fun t => (∀ x ∈ t.outer.suspended, x.token ≠ k.toNat)
        ∧ (ctlState (s.ctl w.part w.record) = 4 → Runnable t w.part w.record))
      ∧ ((s.vf ((s.part w.part).world w.world).vf).frsize ≠ 0 → s.outer.nextToken ≠ k.toNat →
        Answers (.s2resumeReflect k) s (fun t => t.outer.nextToken = s.outer.nextToken + 1
          ∧ (∀ x ∈ t.outer.suspended, x.token ≠ k.toNat) ∧ SameMemory s t
          ∧ ∃ x ∈ t.outer.suspended, x.token = s.outer.nextToken ∧ x.second = false ∧ x.record = w.record
            ∧ x.fault.kind = 2))
      ∧ (ctlState (s.ctl w.part w.record) = 4 → (∀ g ∈ recGroups (s.record w.part w.record), g = 0xFF) →
        Answers (.s2resumeEnd k) s (fun t => ctlState (t.ctl w.part w.record) = 6
          ∧ (∀ x ∈ t.outer.suspended, x.token ≠ k.toNat))))
  ∧ (∀ (s : State) (rd : BitVec 5), rd ≠ 0 →
      (s.zenithActs = true → Answers (.accvalRead rd) s (fun t => (t.hartOf s.hid).getX rd.toNat = s.accval ∧ t.accval = 0
        ∧ (∀ x, x ≠ s.outer.accsel.toNat → Sparse.find? x t.outer.accesses = Sparse.find? x s.outer.accesses)
        ∧ SameMemory s t))
      ∧ (s.isZenith s.hid = false → s.stalled s.hid = false → Answers (.accvalRead rd) s (fun t =>
        HartBecomes s t s.hid { s.hart with x := (t.hartOf s.hid).x } ∧ (t.hartOf s.hid).getX rd.toNat = 0)))

/-- Fault entries are written, resumed, reflected or ended. -/
def Obligations.FaultsAreWrittenAndResumed : Prop :=
  Claim.FaultEntriesAreWritten ∧ Claim.FaultsAreResumed

/-- R19, R21, R41, R454, R455: the hash, signature and snapshot commands of a hart change that hart's registers as their rows
say; MEAS[i] takes SHAKE256 of its old value and the bytes; HARTGO starts the waiting harts 1 to 3; RNDW draws bytes;
exceptions, the external interrupt and MRET move MIE, MPIE, the pc and the trap registers. A hart that stands in its
HANDOFF write does none of it (R45).
Where the rules leave it open, the model's reading (logs 3, 10, 12, 62, 98 and 99). -/
def Sys2Proof.Claim.HartsRunTheirUnits : Prop :=
  ∀ (s : State), let h := s.hart
    let hid := s.hid
    let now := fun (i : Instr) (x : Hart) => Answers i s (fun t => HartBecomes s t hid x)
    (s.stalled hid = true → ∀ (c : BitVec 1) (m : BitVec 4) (rd : BitVec 5) (n : Nat) (x : HartCause) (v : BitVec 64),
      ∀ i ∈ ([.hashInit c, .hashAbsorb c, .hashSqueeze c, .falconVerify, .falconSign, .msnap, .measurementExtend m, .hartgo v,
        .rndwRead rd n, .managementHartException x v, .mret] : List Instr), now i h)
    ∧ (s.stalled hid = false →
    (∀ c : BitVec 1, now (.hashInit c) (h.setCtx c [])
      ∧ now (.hashAbsorb c) (h.setCtx c (h.ctx c ++ s.hartBytes hid h.hashSrc.toNat h.hashLen.toNat))
      ∧ now (.hashSqueeze c) { h with hashOut := shake256 (h.ctx c) 64 })
    ∧ (let pass := Config.falconVerify (s.hartBytes hid h.falKey.toNat 1793)
         ((s.drew 1793).hartBytes hid h.falMsg.toNat 64) ((s.drew 1857).hartBytes hid h.falSig.toNat 1280)
       now .falconVerify { h with falPass := pass })
    ∧ ((∀ k, k < 1280 → hartPlace hid (h.falSig.toNat + k) = .mem (hartLoc hid (h.falSig.toNat + k))) → Answers .falconSign s (fun t =>
        Poked s t (hartLoc hid h.falSig.toNat) (s.signature (s.hartBytes hid h.falMsg.toNat 64)) ∧ t.mgmt = s.mgmt))
    ∧ now .msnap { h with mrec := ((List.range 16).map (s.mrecBlock hid.cplx)).flatten }
    ∧ (∀ i : BitVec 4, let n := h.mextLen.toNat
        (1 ≤ n → n ≤ 4096 → Answers (.measurementExtend i) s (fun t =>
          t.meas hid.cplx i.toNat = shake256 (s.meas hid.cplx i.toNat ++ s.hartBytes hid h.mextSrc.toNat n) 64
          ∧ (∀ c j, j < 16 → (c, j) ≠ (hid.cplx, i.toNat) → t.meas c j = s.meas c j) ∧ t.mgmt.harts = s.mgmt.harts
          ∧ t.mem = s.mem))
        ∧ (n = 0 ∨ 4096 < n → Answers (.measurementExtend i) s (fun t => t = s)))
    ∧ (∀ a : BitVec 64, (s.actsAs 0 = true → Answers (.hartgo a) s (fun t =>
          (∀ n : Fin 4, n ≠ 0 → let z := s.hartOf ⟨hid.cplx, n⟩
            t.hartOf ⟨hid.cplx, n⟩ = if z.running then z else { z with running := true, pc := a })
          ∧ t.hartOf ⟨hid.cplx, 0⟩ = s.hartOf ⟨hid.cplx, 0⟩ ∧ t.mem = s.mem))
        ∧ (s.actsAs 0 = false → Answers (.hartgo a) s (fun t => t = s)))
    ∧ (∀ (rd : BitVec 5) (n : Nat), rd ≠ 0 → n ≤ 8 → Answers (.rndwRead rd n) s (fun t =>
        (t.hartOf hid).getX rd.toNat = BitVec.ofNat 64 (leNat (s.random n)) ∧ t.draws = s.draws + n
        ∧ HartBecomes s t hid { h with x := (t.hartOf hid).x }))
    ∧ (∀ c tval, now (.managementHartException c tval) { h with
        mepc := h.pc, mcause := hartCauseCode c, mtval := hartTval c tval h.pc, mpie := h.mieBit, mieBit := false, pc := h.mtvec })
    ∧ now .mret { h with mieBit := h.mpie, mpie := true, pc := h.mepc, minstret := h.minstret + 1 }
    ∧ (let z : HartId := ⟨s.mgmt.zenith, 0⟩
       let x := s.hartOf z
       s.mgmt.readychg = true → s.mgmt.handoff = none → x.meie = true → x.mieBit = true →
       Answers .machineExternalInterrupt s (fun t => HartBecomes s t z { x with
        mepc := x.pc, mcause := 0x800000000000000B, mtval := 0, mpie := true, mieBit := false, pc := x.mtvec })))

/-- R19, R20, R42, R45, R49, R51, R437, R438: a write through the window or a host page takes the register's rule: own
registers of the hart, of which a misaligned write changes the bytes it meets; registers of the Zenith only from its harts;
TTRIP only falls, which the model compares as signed numbers (log 65); a queue's base only while UNMAPPED; in BAR0 an offset
that no page has discards it, and in BAR2 it goes to the MSI-X table (log 108); a write to a function that is not configured or
in ERROR is refused and logged. READYCHG is cleared by a hart of the Zenith, and not during a handoff.
Where the rules leave it open, the model's reading (logs 31 and 98). -/
def Sys2Proof.Claim.RegisterWritesKeepTheirRules : Prop :=
  (∀ (s : State) (h : HartId) (v : BitVec 64), s.stalled h = false →
    Answers (.registerWrite (.window h) 0x008 v) s (fun t => HartBecomes s t h { s.hartOf h with hashSrc := v })
    ∧ Answers (.registerWrite (.window h) 0x00C v) s (fun t => HartBecomes s t h { s.hartOf h with
        hashSrc := v.extractLsb' 0 32 ++ (s.hartOf h).hashSrc.extractLsb' 0 32, hashLen := v.extractLsb' 32 32 })
    ∧ Answers (.registerWrite (.window h) 0xA00 v) s (fun t =>
        t.mgmt.elogBase = if s.isZenith h then v &&& ~~~0x7FFF#64 else s.mgmt.elogBase)
    ∧ Answers (.registerWrite (.window h) 0x9D0 v) s (fun t => t.mgmt.mon.ttrip
        = if (v.setWidth 16).slt s.mgmt.mon.ttrip then v.setWidth 16 else s.mgmt.mon.ttrip)
    ∧ Answers (.registerWrite (.window h) 0x710 v) s (fun t => t.mgmt.bootst
        = if s.isZenith h ∧ h.hart = 0 then v.setWidth 2 else s.mgmt.bootst)
    ∧ Answers (.registerWrite .debugPage 0x48 v) s (fun t => t = { s with mgmt := { s.mgmt with dbg := { s.mgmt.dbg with
        tier := v.setWidth 2, target := (v >>> 8).setWidth 32 } } }))
  ∧ (∀ (s : State) (h : HartId) (o : Nat) (v : BitVec 64), s.stalled h = true →
      Answers (.registerWrite (.window h) o v) s (fun t => t = s))
  ∧ (∀ (s : State) (f q : Nat) (v : BitVec 64), let x := (s.vf f).queue q
      (s.vf f).configured = true → (s.vf f).state ≠ 3 →
      Answers (.registerWrite (.queuePage f q) 0x00 v) s (fun t => QueueBecomes s t f q
        (if x.state = 0 then { x with rbase := v &&& ~~~0x3F#64 } else x))
      ∧ Answers (.registerWrite (.transPage f) 0x00 v) s (fun t =>
        VfBecomes s t f { s.vf f with ctxtab := v &&& 0xFFFFFFFFF001 })
      ∧ Answers (.registerWrite (.errPage f) 0x00 v) s (fun t =>
        VfBecomes s t f { s.vf f with erbase := v &&& 0xFFFFFFFFFFC0 })
      ∧ Answers (.registerWrite (.bar0 f) 0x410000 v) s (fun t =>
        VfBecomes s t f { s.vf f with ctxtab := v &&& 0xFFFFFFFFF001 })
      ∧ (∀ o, 0x40000 ≤ o → ¬ (0x410000 ≤ o ∧ o < 0x411000) → ¬ (0x420000 ≤ o ∧ o < 0x421000) →
        Answers (.registerWrite (.bar0 f) o v) s (fun t => VfBecomes s t f (s.vf f) ∧ t.outer.outputs = s.outer.outputs
          ∧ SameMemory s t ∧ t.mgmt = s.mgmt))
      ∧ (∀ n, n < 64 → Answers (.registerWrite (.bar2 f) (16 * n + 8) v) s (fun t =>
        let set := Sparse.set (4 * n + 3) (v.toNat / 2 ^ 32) (Sparse.set (4 * n + 2) (v.toNat % 2 ^ 32) (s.vf f).vectors)
        (t.vf f).vectors = set
        ∧ (n ∈ (s.vf f).pending → v.getLsbD 32 = false → Output.msix f n ∈ t.outer.outputs ∧ n ∉ (t.vf f).pending)
        ∧ (n ∈ (s.vf f).pending → v.getLsbD 32 = true → n ∈ (t.vf f).pending))))
  ∧ (∀ (s : State) (f : Nat) (v : BitVec 64), (s.vf f).configured = false ∨ (s.vf f).state = 3 →
      Answers (.registerWrite (.transPage f) 0x00 v) s (fun t => (t.vf f).ctxtab = (s.vf f).ctxtab
        ∧ Output.unsupported f 0x410000 [] ∈ t.outer.outputs
        ∧ ∃ w, Logs s t ⟨if (s.vf f).state = 3 then 0x30 else 0x20, f + 2 ^ 15, w, 0x410000,
            if (s.vf f).state = 3 then 16 else 24⟩))
  ∧ (∀ s : State, Answers .readychgClear s (fun t => let clears := s.isZenith s.hid && s.mgmt.handoff.isNone
      t = { s with mgmt := { s.mgmt with readychg := s.mgmt.readychg && !clears } }))

/-- Management harts, their units and the rules of register writes. -/
def Obligations.HartsAndRegisters : Prop :=
  Claim.HartsRunTheirUnits ∧ Claim.RegisterWritesKeepTheirRules

/-- R20, R22, R406: a request of a legal length is presented when none is pending; its length is read by the hart that owns
the mailbox, and zero by any other; a send emits the first bytes of the buffer and presents the next request. -/
def Sys2Proof.Claim.MailboxesPassRequests : Prop :=
  ∀ (s : State) (req : List Byte) (rd : BitVec 5) (n : BitVec 13), rd ≠ 0 →
    let m := s.mgmt
    let rest := fun (b : Mailbox) => { b with pending := b.waiting.head?, waiting := b.waiting.tail }
    (s.mgmt.handoff = none →
      (s.hid.hart ≠ 1 → m.mbx.pending = none → m.mbx.waiting = [] → 1 ≤ req.length → req.length ≤ 4096 →
        Answers (.mailboxRequestPending req) s (fun t =>
          t = { s with mgmt := { m with mbx := { m.mbx with pending := some req, waiting := [] } } }))
      ∧ (s.hid.hart = 1 → m.ifm.pending = none → m.ifm.waiting = [] → 8 ≤ req.length → req.length ≤ 64 →
        Answers (.mailboxRequestPending req) s (fun t =>
          t = { s with mgmt := { m with ifm := { m.ifm with pending := some req, waiting := [] } } }))
      ∧ (s.actsAs 0 = true → Answers (.mbxslenSend n) s (fun t =>
          t.outer.outputs = s.outer.outputs ++ [.mailbox ((List.range (min n.toNat 4096)).map (Sparse.get m.mbx.out 0))]
          ∧ t.mgmt = { m with mbx := rest m.mbx }))
      ∧ (s.actsAs 1 = true → Answers (.ifslenSend n) s (fun t =>
          t.outer.outputs = s.outer.outputs ++ [.interface ((List.range (min n.toNat 4096)).map (Sparse.get m.ifm.out 0))]
          ∧ t.mgmt = { m with ifm := rest m.ifm })))
    ∧ (∀ r, (s.actsAs 0 = true → m.mbx.pending = some r → Answers (.mbxrlenRead rd) s (fun t =>
        (t.hartOf s.hid).getX rd.toNat = BitVec.ofNat 64 r.length
        ∧ HartBecomes s t s.hid { s.hart with x := (t.hartOf s.hid).x }))
      ∧ (s.actsAs 1 = true → m.ifm.pending = some r → Answers (.ifrlenRead rd) s (fun t =>
        (t.hartOf s.hid).getX rd.toNat = BitVec.ofNat 64 r.length
        ∧ HartBecomes s t s.hid { s.hart with x := (t.hartOf s.hid).x })))
    ∧ (s.actsAs 0 = true → m.mbx.pending = none → Answers (.mbxrlenRead rd) s (fun t => t = s))
    ∧ (s.actsAs 0 = false → s.stalled s.hid = false → Answers (.mbxrlenRead rd) s (fun t => (t.hartOf s.hid).getX rd.toNat = 0))
    ∧ (s.actsAs 1 = false → s.stalled s.hid = false → Answers (.ifrlenRead rd) s (fun t => (t.hartOf s.hid).getX rd.toNat = 0))

/-- R27, R28, R29, R41: the responder answers a request that keeps the checks of R27 with its body, signed where the code asks
for it, extends the transcript, and goes to the state of its row; any other request gets an ERROR reply, and
InvalidRequest closes the connection.
Where the rules leave it open, the model's reading (logs 12, 13 and 63). -/
def Sys2Proof.Claim.SpdmResponderAnswers : Prop :=
  ∀ (s : State) (r : List Byte) (i : Instr) (code : Nat), s.mgmt.mbx.pending = some r → s.mgmt.bootst = 2 →
    s.mgmt.handoff = none → reqCode r = code →
    let rows := [(Instr.getVersion, 0x84), (.getCapabilities, 0xE1), (.negotiateAlgorithms, 0xE3), (.getCertificate, 0x82),
      (.challenge, 0x83), (.getMeasurements, 0xE0)]
    let v : Byte := if s.mgmt.spdm = 0 then 0x10 else 0x13
    let fails := fun (i : Instr) (e : Nat) => Answers i s (fun t =>
      t.outer.outputs = s.outer.outputs ++ [.mailbox [v, 0x7F, BitVec.ofNat 8 e, 0]]
      ∧ t.mgmt.spdm = (if e = 1 then 0 else s.mgmt.spdm) ∧ t.mgmt.mbx.pending = s.mgmt.mbx.waiting.head?
      ∧ t.mgmt.harts = s.mgmt.harts ∧ t.mem = s.mem)
    ((i, code) ∈ rows →
      (∀ e, spdmError s.mgmt.spdm r = some e → fails i e)
      ∧ (spdmError s.mgmt.spdm r = none → spdmServes r = false → fails i 1)
      ∧ (∀ row, spdmError s.mgmt.spdm r = none → spdmServes r = true → spdmRow code = some row → Answers i s (fun t =>
        let body := s.spdmBody r
        let log := (if code = 0x84 then [] else (s.hartOf s.responder).ctx1) ++ r ++ body
        let sig := if code = 0x83 ∨ code = 0xE0 then s.signature (shake256 log 64) else []
        t.outer.outputs = s.outer.outputs ++ [.mailbox (body ++ sig)] ∧ (t.hartOf s.responder).ctx1 = log
        ∧ t.mgmt.spdm = row.next.getD s.mgmt.spdm ∧ t.mgmt.mbx.pending = s.mgmt.mbx.waiting.head? ∧ t.mem = s.mem)))
    ∧ (spdmRow code = none → fails .unsupportedRequest 7)

/-- Mailboxes pass requests, and the SPDM responder answers them. -/
def Obligations.MailboxesAndResponder : Prop :=
  Claim.MailboxesPassRequests ∧ Claim.SpdmResponderAnswers

/-- R30, R31, R36, R51, R52, R54: module reset clears every register and all SRAM of the module but the roles, the notify latch, the
error log and its registers and the map of never-reassignable frames; power-on clears those too. Stage 0 runs once on each
complex, accepts an identity record that keeps R36 and starts the Zenith's hart 0. A rail beyond 5 % of its record value
sets its VOLT bit. A reading at TTRIP, or a lasting voltage fault, stops the module and is
logged; of the reading the clause takes one that newly sets no other bit, for that is logged before. That memory outside the
SRAM keeps its bytes is the model's choice (log 34).
Where the rules leave it open, the model's reading (logs 1, 3 and 65). -/
def Sys2Proof.Claim.ResetsAndStops : Prop :=
  ∀ (s : State), let corona := fun (l : Nat) => coronaLoc 0 ≤ l ∧ l < coronaLoc 0 + 2 ^ 64
    let out := fun (die : Nat) (v : BitVec 16) => ∃ r, Sparse.find? die s.mgmt.mon.rail = some r
      ∧ (20 * v.toNat < 19 * r.toNat ∨ 21 * r.toNat < 20 * v.toNat)
    Answers .moduleReset s (fun t => t.cores = [] ∧ t.clusters = [] ∧ t.parts = [] ∧ t.stopped = false ∧ t.waiters = []
      ∧ t.mgmt.zenith = s.mgmt.zenith ∧ t.mgmt.elogBase = s.mgmt.elogBase ∧ t.mgmt.elogHead = s.mgmt.elogHead
      ∧ t.mgmt.elogTail = s.mgmt.elogTail ∧ t.mgmt.harts = [] ∧ t.mgmt.meas = [] ∧ t.mgmt.ready = []
      ∧ t.outer.vfs = [] ∧ t.outer.latch = s.outer.latch ∧ t.outer.never = s.outer.never
      ∧ (∀ l, l < 2 ^ 52 → ∀ k, t.mem.byteUnder k l = s.mem.byteUnder k l)
      ∧ (∀ l, 2 ^ 52 ≤ l → l < 2 ^ 72 → t.mem.byte l = 0)
      ∧ (∀ l, corona l → t.mem.byte l = if s.mgmt.elogLoc ≤ l ∧ l < s.mgmt.elogLoc + 32768 then s.mem.byte l else 0))
    ∧ Answers .powerOnReset s (fun t => t.cores = [] ∧ t.clusters = [] ∧ t.parts = [] ∧ t.stopped = false
      ∧ t.mgmt = Mgmt.init ∧ t.outer.vfs = [] ∧ t.outer.latch = [] ∧ t.outer.never = []
      ∧ (∀ l, 2 ^ 52 ≤ l → l < 2 ^ 72 ∨ corona l → t.mem.byte l = 0))
    ∧ (let c := s.hid.cplx
       let r := s.identityRecord c
       let m := { s.mgmt with secrets := s.mgmt.secrets || s.mgmt.staged.isEmpty, staged := Marks.add c.val s.mgmt.staged }
       (Marks.has c.val s.mgmt.staged = true → Answers .stage0 s (fun t => t = s))
       ∧ (Marks.has c.val s.mgmt.staged = false →
       (identityOk r = true → Answers .stage0 s (fun t => t.mgmt = { m with harts := t.mgmt.harts }
        ∧ t.raw (mgmtLoc c 0xD000) 3960 = sliceB 8 3960 r ∧ t.raw (mgmtLoc c 0xE000) 8192 = List.replicate 8192 0
        ∧ (c = s.mgmt.zenith → (s.hartOf ⟨c, 0⟩).running = false →
            t.hartOf ⟨c, 0⟩ = { s.hartOf ⟨c, 0⟩ with running := true, pc := BitVec.ofNat 64 firstStageAt })
        ∧ (c ≠ s.mgmt.zenith → t.hartOf ⟨c, 0⟩ = s.hartOf ⟨c, 0⟩)))
       ∧ (identityOk r = false → Answers .stage0 s (fun t => t.mgmt = { m with mismatch := true }
        ∧ t.outer.outputs = s.outer.outputs ++ [.identityMismatch] ∧ t.mem = s.mem))))
    ∧ (∀ rs : List DieReading, Answers (.monitorUpdate rs) s (fun t =>
        t.stopped = (s.stopped || rs.any (fun r => decide (r.die < 7) && !r.temp.slt s.mgmt.mon.ttrip))))
    ∧ (∀ r : DieReading, r.die < 7 → Answers (.monitorUpdate [r]) s (fun t =>
        Sparse.get t.mgmt.mon.temp 0 r.die = r.temp ∧ Sparse.get t.mgmt.mon.vcore 0 r.die = r.vcore
        ∧ Sparse.get t.mgmt.mon.proc 0 r.die = r.proc
        ∧ t.mgmt.mon.warn = s.mgmt.mon.warn ||| (if r.temp.slt s.mgmt.mon.twarn then 0 else 1#7 <<< r.die)
        ∧ t.mgmt.mon.throt = s.mgmt.mon.throt ||| (if r.temp.slt s.mgmt.mon.tthrot then 0 else 1#7 <<< r.die)
        ∧ (out r.die r.vcore → t.mgmt.mon.volt = s.mgmt.mon.volt ||| 1#7 <<< r.die)
        ∧ (¬ out r.die r.vcore → t.mgmt.mon.volt = s.mgmt.mon.volt)
        ∧ t.mgmt.mon.ttrip = s.mgmt.mon.ttrip))
    ∧ (∀ r : DieReading, r.die < 7 → r.temp.slt s.mgmt.mon.ttrip = false → s.mgmt.mon.warn.getLsbD r.die = true →
      s.mgmt.mon.throt.getLsbD r.die = true → (out r.die r.vcore → s.mgmt.mon.volt.getLsbD r.die = true) →
      Answers (.monitorUpdate [r]) s (fun t => t.stopped = true
        ∧ Logs s t ⟨3, 816 + r.die, none, 0, r.die + r.temp.toNat * 2 ^ 16⟩))
    ∧ (∀ die, die < 7 → out die (Sparse.get s.mgmt.mon.vcore 0 die) → Answers (.voltageFaultTimeout die) s (fun t => t.stopped = true
        ∧ Logs s t ⟨5, 816 + die, none, 0, die + (Sparse.get s.mgmt.mon.vcore 0 die).toNat * 2 ^ 16⟩))

/-- R32, R33, R37, R38, R53: a function becomes ready once its die link is; one that misses its limit or fails in service
is marked failed and logged; a pod port without a far end may return; every change sets READYCHG. A configuration record
is skipped and logged, or applied once its target is ready; of two records for one field the higher sequence number
holds; TTRIP only falls.
Where the rules leave it open, the model's reading (log 17). -/
def Sys2Proof.Claim.FunctionsBecomeReadyOrFail : Prop :=
  (∀ (s : State) (b : Nat), let m := s.mgmt
    (isFunction b = true → (∀ l, linkOf b = some l → Marks.has l m.ready = true) → Marks.has b m.ready = false →
      Marks.has b m.failed = false → Answers (.functionReady b) s (fun t =>
        (∀ x, Marks.has x t.mgmt.ready = (decide (x = b) || Marks.has x m.ready))
        ∧ t = { s with mgmt := { m with ready := t.mgmt.ready, readychg := true } }))
    ∧ (isFunction b = true → Marks.has b m.ready = false → Marks.has b m.failed = false →
      Answers (.readinessLimitMissed b) s (fun t =>
        (∀ x, Marks.has x t.mgmt.failed = (decide (x = b) || Marks.has x m.failed)) ∧ t.mgmt.readychg = true
        ∧ t.mgmt.ready = m.ready ∧ (769 ≤ b → b < 805 → Marks.has b t.mgmt.farEnd = true)
        ∧ Logs s t ⟨0x10, b, none, 0, b⟩))
    ∧ (Marks.has b m.ready = true → Answers (.functionFailedInService b) s (fun t =>
        Marks.has b t.mgmt.ready = false ∧ Marks.has b t.mgmt.failed = true ∧ t.mgmt.readychg = true
        ∧ (∀ x, x ≠ b → Marks.has x t.mgmt.ready = Marks.has x m.ready ∧ Marks.has x t.mgmt.failed = Marks.has x m.failed)
        ∧ Logs s t ⟨0x10, b, none, 0, b⟩))
    ∧ (Marks.has (769 + b) m.farEnd = true → Answers (.podPortReturnsToService b) s (fun t =>
        Marks.has (769 + b) t.mgmt.ready = true ∧ Marks.has (769 + b) t.mgmt.failed = false
        ∧ Marks.has (769 + b) t.mgmt.farEnd = false ∧ t.mgmt.readychg = true ∧ t.mem = s.mem)))
  ∧ (∀ (s : State) (a off : Nat), let r := s.readRecord a
      let n := r.type * 2 ^ 16 + r.target
      (s.skips r = true → Answers (.configRecordApply a off) s (fun t => t.mgmt.records = s.mgmt.records
        ∧ Logs s t ⟨0x11, r.target, none, off, r.type + r.version * 2 ^ 16 + r.target * 2 ^ 32⟩))
      ∧ (s.skips r = false → r.target = 0xFFFF ∨ Marks.has r.target s.mgmt.ready = true →
        (∀ q, Sparse.find? n s.mgmt.records = some q → q.1 ≤ r.seq) → Answers (.configRecordApply a off) s (fun t =>
          Sparse.find? n t.mgmt.records = some (r.seq, r.payload)
          ∧ (∀ x, x ≠ n → Sparse.find? x t.mgmt.records = Sparse.find? x s.mgmt.records)
          ∧ t.mgmt.mon.ttrip.sle s.mgmt.mon.ttrip ∧ (r.type ≠ 3 → t.mgmt.mon = { s.mgmt.mon with rail := t.mgmt.mon.rail })
          ∧ (∀ x, r.type = 3 → Config.recordThreshold 0 r.payload = some x → t.mgmt.mon.twarn
              = if r.seq < Sparse.get s.mgmt.fieldSeq 0 0 then s.mgmt.mon.twarn else x)
          ∧ (∀ d x, d < 7 → Config.recordRail r.type d r.payload = some x →
              ¬ r.seq < Sparse.get s.mgmt.fieldSeq 0 (16 + d) → Sparse.find? d t.mgmt.mon.rail = some x)
          ∧ (r.type ≠ 5 → t.mgmt.dbg = s.mgmt.dbg) ∧ t.mem = s.mem)))

/-- Resets, stage 0, monitors, readiness and configuration records. -/
def Obligations.ResetsStopsAndReadiness : Prop :=
  Claim.ResetsAndStops ∧ Claim.FunctionsBecomeReadyOrFail

/-- R407 to R410, R53: LOCK, START and STOP move a configured function between its states, and set REFUSED otherwise; the
frozen set is written while unlocked, a register of no BAR staying as it is, and a write while locked or running ends in ERROR; other configuration bytes are
written in every state; the interface messages answer
with their headers, the start nonce, the state and the signed report; refused host accesses get an error response and an
entry.
Where the rules leave it open, the model's reading (logs 59, 66 and 96). -/
def Obligations.InterfacesLockAndReport : Prop :=
  (∀ (s : State), s.actsAs 1 = true → let v := s.mgmt.vfsel.toNat
    let f := s.vf v
    let refused := fun i => Answers i s (fun t => VfBecomes s t v { f with refused := true } ∧ SameMemory s t)
    (f.configured = true → f.state = 0 → Answers .vfcmdLock s (fun t =>
      VfBecomes s t v { f with state := 1, captured := f.frozenSet v, cause := 0, refused := false } ∧ SameMemory s t))
    ∧ (f.configured = true → f.state = 1 → Answers .vfcmdStart s (fun t =>
      VfBecomes s t v { f with state := 2, refused := false } ∧ SameMemory s t))
    ∧ (f.configured = true → s.canAbort v = true → Answers .vfcmdStop s (fun t =>
      VfWasReset t v ∧ (t.vf v).refused = false))
    ∧ (f.configured = false ∨ f.state ≠ 0 → refused .vfcmdLock) ∧ (f.configured = false ∨ f.state ≠ 1 → refused .vfcmdStart)
    ∧ (f.configured = false → s.canAbort v = true → refused .vfcmdStop))
  ∧ (∀ (s : State) (off : Nat) (x : BitVec 64), let v := s.actor.vf
      let f := s.vf v
      let violates := fun (t : State) => (t.vf v).command = f.command ∧ (t.vf v).bars = f.bars
        ∧ ∃ w, Logs s t ⟨if off < 0x10 then 0x32 else 0x31, v + 2 ^ 15, w, off, x.toNat⟩
      let frozen := off = 0x04 ∨ off = 0x05 ∨ (0x10 ≤ off ∧ off < 0x28)
      (off = 0x04 ∨ (0x10 ≤ off ∧ off < 0x28 ∧ off % 4 = 0) → f.state = 0 → Answers (.frozenRegisterWrite off x) s (fun t =>
        (off = 0x04 → VfBecomes s t v { f with command := x.setWidth 16 })
        ∧ (off ≠ 0x04 → let i := (off - 0x10) / 4
          let used := fun j => f.sizes.getD j 0 ≠ 0
          (used i → (t.vf v).bars.getD i 0 = x)
          ∧ (¬ used i → 0 < i → used (i - 1) →
              (t.vf v).bars.getD (i - 1) 0 = x.setWidth 32 ++ (f.bars.getD (i - 1) 0).setWidth 32)
          ∧ (¬ used i → i = 0 ∨ ¬ used (i - 1) → (t.vf v).bars = f.bars)
          ∧ VfBecomes s t v { f with bars := (t.vf v).bars })
        ∧ SameMemory s t))
      ∧ (frozen → f.state = 1 ∨ f.state = 2 → Answers (.frozenRegisterWrite off x) s (fun t =>
        (t.vf v).state = 3 ∧ (t.vf v).cause = (if off < 0x10 then 2 else 1) ∧ violates t))
      ∧ (frozen → f.state = 3 → Answers (.frozenRegisterWrite off x) s violates)
      ∧ (¬ frozen → off < 0x1000 → Answers (.frozenRegisterWrite off x) s (fun t => SameMemory s t
        ∧ VfBecomes s t v { f with config := (t.vf v).config }
        ∧ (let b := 8 * (off % 4)
           Sparse.find? (off / 4) (t.vf v).config
             = some (Sparse.get f.config 0 (off / 4) % 2 ^ b + x.toNat % 2 ^ (32 - b) * 2 ^ b)))))
  ∧ (∀ (s : State) (r : List Byte), s.mgmt.ifm.pending = some r → s.mgmt.bootst = 2 → s.mgmt.handoff = none →
      let v := numAt 1 1 r
      let c := numAt 0 1 r
      let f := s.vf v
      let tells := fun (i : Instr) (bs : List Byte) (P : State → Prop) => Answers i s (fun t =>
        t.outer.outputs = s.outer.outputs ++ [.interface bs] ∧ t.mgmt.ifm.pending = s.mgmt.ifm.waiting.head?
        ∧ t.mgmt.vfsel = BitVec.ofNat 8 v ∧ P t)
      let gives := fun (i : Instr) (e : Nat) => tells i ([0x7F, BitVec.ofNat 8 v, BitVec.ofNat 8 e, 0, 8, 0, 0, 0]) (fun _ => True)
      (c = 0x81 → f.configured = true → f.state = 0 →
        tells .lockInterface ([0x01, BitVec.ofNat 8 v, 0, 0, 40, 0, 0, 0] ++ s.random 32) (fun t =>
          (t.vf v).state = 1 ∧ t.raw (s.nonceLoc v) 32 = s.random 32))
      ∧ (c = 0x81 → f.configured = false ∨ f.state ≠ 0 → gives .lockInterface 2)
      ∧ (c = 0x83 → s.raw (s.nonceLoc v) 32 ≠ sliceB 8 32 r → gives .startInterface 3)
      ∧ (c = 0x83 → s.raw (s.nonceLoc v) 32 = sliceB 8 32 r → f.configured = true → f.state = 1 →
        tells .startInterface [0x03, BitVec.ofNat 8 v, 0, 0, 8, 0, 0, 0] (fun t => (t.vf v).state = 2))
      ∧ (c = 0x84 → f.configured = true → s.canAbort v = true → Answers .stopInterface s (fun t => VfWasReset t v))
      ∧ (c = 0x85 → tells .getInterfaceState ([0x05, BitVec.ofNat 8 v, 0, 0, 16, 0, 0, 0] ++ leBytes f.status.toNat 8)
        (fun t => t.mem = s.mem))
      ∧ (c = 0x82 → r.length < 40 → gives .getInterfaceReport 4)
      ∧ (c = 0x82 → 40 ≤ r.length → f.configured = true → f.state = 1 ∨ f.state = 2 →
        let body := s.reportBody r v
        tells .getInterfaceReport (body ++ s.signature (shake256 body 64)) (fun t => t.mem = s.mem))
      ∧ (c < 0x81 ∨ 0x85 < c → gives .unknownInterfaceRequest 1))
  ∧ (∀ (s : State) (a : HostAccess), ∃ w,
      Answers (.hostAccessRefused a) s (fun t =>
        Output.unsupported a.vf a.addr.toNat (if a.write then [] else List.replicate a.size 0xFF) ∈ t.outer.outputs
        ∧ Logs s t ⟨if (s.vf a.vf).state = 3 then 0x30 else 0x20, a.vf + 2 ^ 15, w, a.addr.toNat,
            (if (s.vf a.vf).state = 3 then 0 else a.size % 16) + (if a.write then 16 else 0)⟩)
      ∧ Answers (.hostWriteWeightRegion a) s (fun t => Output.unsupported a.vf a.addr.toNat [] ∈ t.outer.outputs
        ∧ Logs s t ⟨0x21, a.vf + 2 ^ 15, w, a.addr.toNat, a.data.toNat⟩))

/-- R44, R45, R46: STAGE, ABORT and HANDOFF move UPDST from the states they may; the standby verifies the image and extends
its measurements, and its harts run; the import of the state table swaps the roles in one step, and a refusal or a time-out
leaves them.
Where the rules leave it open, the model's reading (logs 19, 82 and 98). -/
def Sys2Proof.Claim.LiveUpdateSwapsRoles : Prop :=
  ∀ (s : State), let u := s.mgmt.updst
    let z := s.mgmt.zenith
    (s.zenithActs = true →
      (u = 0 ∨ u = 4 ∨ u = 5 → Answers .updctlStage s (fun t => t.mgmt.updst = 1 ∧ t.mgmt.zenith = z ∧ t.mem = s.mem))
      ∧ (u = 1 ∨ u = 2 ∨ u = 4 ∨ u = 5 → Answers .updctlAbort s (fun t => t.mgmt.updst = 0 ∧ t.mgmt.zenith = z
        ∧ (∀ n : Fin 4, t.hartOf ⟨z + 1, n⟩ = Hart.init ∧ t.hartOf ⟨z, n⟩ = s.hartOf ⟨z, n⟩) ∧ t.mem = s.mem))
      ∧ (u = 3 → Answers .updctlAbort s (fun t => t = s))
      ∧ (u = 2 → Answers .updctlHandoff s (fun t =>
        t = { s with mgmt := { s.mgmt with updst := 3, handoff := some s.hid } }))
      ∧ (u ≠ 2 → Answers .updctlHandoff s (fun t => t = s)))
    ∧ (s.zenithActs = false → ∀ i ∈ [Instr.updctlStage, .updctlAbort, .updctlHandoff], Answers i s (fun t => t = s))
    ∧ (u = 1 → let a := s.mgmt.updsrc.toNat
      let n := leNat (s.raw (coronaLoc a) 8)
      let digest := shake256 (s.raw (coronaLoc (a + 8)) n) 64
      let ok := Config.falconVerify (sliceB 0 1793 Config.vendKey) digest (s.raw (coronaLoc (a + 8 + n)) 1280)
      (ok = true → Answers .standbyFirstStage s (fun t => t.mgmt.updst = 2
        ∧ t.meas (z + 1) 0 = shake256 (s.meas (z + 1) 0 ++ digest) 64
        ∧ t.meas (z + 1) 1 = shake256 (s.meas (z + 1) 1 ++ s.meas z 0) 64 ∧ (∀ j, j < 16 → t.meas z j = s.meas z j)
        ∧ ∀ n : Fin 4, (s.hartOf ⟨z + 1, n⟩).running = false → t.hartOf ⟨z + 1, n⟩ = { s.hartOf ⟨z + 1, n⟩ with
            running := true, pc := if n = 0 then Config.standbyEntry else s.mgmt.updsrc + 8 }))
      ∧ (ok = true → Answers .standbyFirstStage s (fun t =>
          let image := fun i => coronaLoc (a + [0x1000000, 0x1100000].getD i 0)
          let word := fun i n => leNat (s.raw (image i + 4 * n) 4)
          let ext := fun m i => if (admissionOf (word i) (word i 1)).status = 0
            then shake256 (m ++ shake256 (s.raw (image i) (4 * word i 1)) 16) 64 else m
          t.meas (z + 1) 8 = ext (ext (s.meas (z + 1) 8) 0) 1))
      ∧ (ok = false → Answers .standbyFirstStage s (fun t => t = { s with mgmt := { s.mgmt with updst := 5 } })))
    ∧ (u = 3 → (∀ es, importTable s.stateTable = some es → Answers .stateTableImport s (fun t =>
          t.mgmt.updst = 4 ∧ t.mgmt.zenith = z + 1 ∧ t.mgmt.handoff = none ∧ t.mgmt.spdm = 0))
      ∧ (importTable s.stateTable = none → Answers .stateTableImport s (fun t =>
          t.mgmt.updst = 5 ∧ t.mgmt.zenith = z ∧ t.mgmt.handoff = none))
      ∧ Answers .handoffTimeout s (fun t => t.mgmt.updst = 5 ∧ t.mgmt.zenith = z ∧ t.mgmt.handoff = none))

/-- R47 to R50: a nonce is fresh and valid until it is used or expires; OPEN with a registered key and a signature that
verifies opens the tier and extends MEAS14, and any other OPEN is logged with its reason; CLOSE closes tiers 0 and 1.
Where the rules leave it open, the model's reading (logs 12, 18 and 78). -/
def Sys2Proof.Claim.DebugOpensByAuthority : Prop :=
  ∀ (s : State), let d := s.mgmt.dbg
    let z := s.mgmt.zenith
    Answers .debugNonceExpiry s (fun t => t = { s with mgmt := { s.mgmt with dbg := { d with valid := false } } })
    ∧ (s.debugActs = true →
      Answers .dbgctlNonce s (fun t => t = { s with
        mgmt := { s.mgmt with dbg := { d with nonce := shake256 (s.secret 4 ++ s.random 32) 32, valid := true } }, draws := s.draws + 32 })
      ∧ Answers .dbgctlClose s (fun t => SameMemory s t ∧ ∀ o, o ∈ t.mgmt.dbg.opened ↔ o ∈ d.opened
          ∧ (d.tier.toNat ≤ 1 → ¬ (o.tier = d.tier.toNat ∧ o.target = d.target)))
      ∧ (∀ f, s.openFailure = f → f ≠ 0 → Answers .dbgctlOpen s (fun t => t.mgmt.dbg.valid = false
        ∧ t.mgmt.dbg.opened = d.opened ∧ t.mgmt.dbg.nokey = bitAt f 2 ∧ t.mgmt.dbg.stale = bitAt f 1
        ∧ t.mgmt.dbg.reject = bitAt f 0
        ∧ Logs s t ⟨0x12, 0, none, 0, d.tier.toNat + d.target.toNat * 2 ^ 8 + f * 2 ^ 40⟩))
      ∧ (s.openFailure = 0 → s.canWipe d.tier.toNat (d.target.toNat / 2 ^ 24) = true → Answers .dbgctlOpen s (fun t =>
        (⟨d.tier.toNat, d.target⟩ : DbgOpen) ∈ t.mgmt.dbg.opened ∧ t.mgmt.dbg.valid = false
        ∧ (∀ o ∈ d.opened, o ∈ t.mgmt.dbg.opened)
        ∧ t.meas z 14 = shake256 (s.meas z 14 ++ ([BitVec.ofNat 8 d.tier.toNat] ++ targetBytes d.target ++ [0, 0, 0]
            ++ shake256 s.requestSig 16)) 64)))
    ∧ (s.debugActs = false → ∀ i ∈ [Instr.dbgctlNonce, .dbgctlClose, .dbgctlOpen], Answers i s (fun t => t = s))

/-- Live update swaps the roles; debug tiers open by authority. -/
def Obligations.LiveUpdateAndDebug : Prop :=
  Claim.LiveUpdateSwapsRoles ∧ Claim.DebugOpensByAuthority

/-- R297, R433: a COMMIT that R433's checks refuse sets REFUSED with its reason and changes nothing else; one that closes a busy
transfer channel waits; an accepted one gives the partition the descriptor's resources, fields and worlds in one step. A hart that is not of the Zenith changes nothing.
Where the rules leave it open, the model's reading (logs 75 and 76). -/
def Sys2Proof.Claim.CommitAppliesOrRefuses : Prop :=
  ∀ (s : State), let p := s.actor.part
    let d := s.readDesc s.mgmt.pcAddr.toNat
    let r := s.commitReason p d
    (s.zenithActs = false → Answers .commit s (fun t => t = s))
    ∧ (s.zenithActs = true → r ≠ 0 → Answers .commit s (fun t =>
        t = { s with mgmt := { s.mgmt with pcReason := r, pcRefused := true } }))
    ∧ (s.zenithActs = true → r = 0 → s.canSaveAll p (s.commitCores d) = true → s.closesBusy p d = true →
      Answers .commit s (fun t => t = s))
    ∧ (s.zenithActs = true → r = 0 → s.canSaveAll p (s.commitCores d) = true → s.closesBusy p d = false →
      Answers .commit s (fun t =>
        let x := t.part p
        t.mgmt.pcRefused = false ∧ t.mgmt.pcReason = 0 ∧ x.present = true ∧ x.clust = d.clust ∧ x.hbm = d.hbm
        ∧ x.ports = d.ports ∧ x.xch = d.xch ∧ x.weight = d.weight ∧ x.age = d.age ∧ x.saveBase = d.saveBase
        ∧ x.saveCnt = d.saveCnt ∧ x.opKey = d.opKey
        ∧ (∀ w, w < 64 → (x.world w).present = entryPresent (d.entry w))
        ∧ (∀ w, w < 64 → entryPresent (d.entry w) = true → (x.world w).isSealed = entrySealed (d.entry w)
          ∧ (x.world w).vf = entryVf (d.entry w) ∧ (x.world w).rootBlk = entryRoot (d.entry w)
          ∧ (x.world w).s2root = entryS2 (d.entry w))))

/-- R376, R434, R439, R450: PREEMPT saves every running continuation and holds dispatch; RELEASE ends the hold and delivers a
latched notify; RESET leaves the partition and its clusters as after reset, its frames zero or never assigned again;
RECLAIM frees the areas of a faulted record. On a partition that is not present they are refused.
Where the rules leave it open, the model's reading (logs 33 and 77). -/
def Sys2Proof.Claim.PartitionOperations : Prop :=
  ∀ (s : State), let p := s.actor.part
    let x := s.part p
    s.zenithActs = true →
    (∀ i ∈ [Instr.preempt, .release, .partitionReset], x.present = false → Answers i s (fun t =>
      t = { s with mgmt := { s.mgmt with pcReason := 0, pcRefused := true } }))
    ∧ (x.present = true → s.canSaveAll p x.cores = true →
      (∀ n ∈ x.cores, ∀ r, (s.core n).run = some r → r.part = p) →
      Answers .preempt s (fun t => (t.part p).held = true ∧ t.mgmt.pcRefused = false ∧ ∀ n ∈ x.cores, (t.core n).run = none)
      ∧ (p < 16 → Answers .partitionReset s (fun t => t.part p = Partition.init ∧ t.mgmt.pcRefused = false
        ∧ (∀ k ∈ x.clust, t.cluster k = Cluster.init)
        ∧ (∀ a, a < x.memSize / 2 ^ 16 * 2 ^ 16 → a < 2 ^ 48 →
          t.mem.byte (hbmLoc p a) = 0 ∨ Marks.has (s.frameAt p (hbmLoc p (a / 2 ^ 16 * 2 ^ 16))) t.outer.never = true))))
    ∧ (x.present = true → Answers .release s (fun t => (t.part p).held = false ∧ t.mgmt.pcRefused = false))
    ∧ (∀ v q b, x.present = true → q < 64 → s.outer.latch = [(latchNo v q, b)] → s.mgmt.handoff = none →
      ((s.vf v).queue q).gated = false → ((s.vf v).queue q).state ≠ 0 →
      (∀ y ∈ s.parts, y.1 = p ∨ y.2.held = false) → Answers .release s (fun t =>
        t.outer.latch = [] ∧ QueueBecomes s t v q { (s.vf v).queue q with tail := b }))
    ∧ (let a := bitsAt s.mgmt.pcAddr.toNat 6 42 * 2 ^ 6
       (s.isFaulted p a = true → (∀ f ∈ s.outer.vfs, f.2.state ≠ 3) → Answers .pcmdReclaim s (fun t => t.mgmt.pcRefused = false
        ∧ ∀ z ∈ (t.part p).areas, ∀ y, z.2.saved = some y → y.record ≠ a))
       ∧ (s.isFaulted p a = false → Answers .pcmdReclaim s (fun t =>
        t = { s with mgmt := { s.mgmt with pcReason := 0, pcRefused := true } })))

/-- COMMIT applies a descriptor whole; PREEMPT, RELEASE, RESET, RECLAIM. -/
def Obligations.CommitAndPartitionOperations : Prop :=
  Claim.CommitAppliesOrRefuses ∧ Claim.PartitionOperations

/-- R24, R26, R39: an image that passes the checks enters the image table under a free handle with its base, and extends the
Zenith's MEAS8 with its code hash; the result slot says the outcome, and a failed image, of which one that its partition does
not hold whole is the model's choice, leaves only that. While an engine's store into the image is under way the check waits.
Where the rules leave it open, the model's reading (logs 36, 84 and 97). -/
def Obligations.ImagesAreAdmittedOrNot : Prop :=
  ∀ (s : State) (base slot : Nat), let p := s.actor.part
    let word := s.imageWord p base
    let r := admissionOf word (((s.part p).memSize - base) / 4)
    let z := s.mgmt.zenith
    let hash := shake256 (s.raw (hbmLoc p base) (4 * word 1)) 16
    (s.stillWritten p base (4 * word 1) = true → Answers (.imageAdmission base slot) s (fun t => t = s))
    ∧ (s.stillWritten p base (4 * word 1) = false →
    (r.status = 0 → Answers (.imageAdmission base slot) s (fun t =>
      Sparse.find? (s.part p).freeHandle (t.part p).images = some ⟨base, word 1, BitVec.ofNat 128 (leNat hash)⟩
      ∧ (∀ h, h ≠ (s.part p).freeHandle → Sparse.find? h (t.part p).images = Sparse.find? h (s.part p).images)
      ∧ t.meas z 8 = shake256 (s.meas z 8 ++ hash) 64 ∧ Poked s t (s.zenithLoc slot) (r.bytes hash)))
    ∧ (r.status ≠ 0 → Answers (.imageAdmission base slot) s (fun t =>
        t.parts = s.parts ∧ t.mgmt = s.mgmt ∧ Poked s t (s.zenithLoc slot) (r.bytes []))))
    ∧ ((s.part p).memSize < base + 4 * word 1 → r.status ≠ 0)

/-- R408, R438, R439, R445: a doorbell write sets TAIL; a gated one is latched; one to an unmapped queue, or to a function that
refuses the host, gets Unsupported Request and an entry. MAP, STOP and UNMAP move the queue's state. A reset of the function
leaves it unlocked, its queues unmapped, without chains, ranks or latched notifies.
Where the rules leave it open, the model's reading (log 72). -/
def Sys2Proof.Claim.DoorbellsAndQueueControl : Prop :=
  ∀ (s : State) (b : BitVec 32), let v := s.actor.vf
    let q := s.actor.queue
    let x := (s.vf v).queue q
    (q < 64 → s.refusesHost v = true → Answers (.doorbellWrite b) s (fun t =>
      Output.unsupported v (doorbellAt q) [] ∈ t.outer.outputs ∧ ((t.vf v).queue q).tail = x.tail))
    ∧ (s.refusesHost v = false → s.gated v q = true → Answers (.doorbellWrite b) s (fun t =>
      Sparse.find? (latchNo v q) t.outer.latch = some b
      ∧ (∀ n, n ≠ latchNo v q → Sparse.find? n t.outer.latch = Sparse.find? n s.outer.latch)
      ∧ t = { s with outer := { s.outer with latch := t.outer.latch } }))
    ∧ (s.refusesHost v = false → s.gated v q = false → x.state = 0 → Answers (.doorbellWrite b) s (fun t =>
      Output.unsupported v (doorbellAt q) [] ∈ t.outer.outputs ∧ ((t.vf v).queue q).tail = x.tail
      ∧ Logs s t ⟨0x22, v + 2 ^ 15, s.worldOfVf v, doorbellAt q, b.toNat⟩))
    ∧ (s.refusesHost v = false → s.gated v q = false → x.state ≠ 0 → Answers (.doorbellWrite b) s (fun t =>
      QueueBecomes s t v q { x with tail := b } ∧ SameMemory s t))
    ∧ (s.refusesHost v = false →
      (x.state = 0 → 4 ≤ x.rsize → x.rsize ≤ 16 → Answers .qctlMap s (fun t =>
        QueueBecomes s t v q { x with state := 1, head := 0, tail := 0, runnable := false, err := 0 } ∧ SameMemory s t))
      ∧ (x.state = 2 → Answers .qctlMap s (fun t =>
        QueueBecomes s t v q { x with state := 1, runnable := false } ∧ SameMemory s t))
      ∧ (x.state = 1 → Answers .qctlStop s (fun t =>
        QueueBecomes s t v q (if 0 < x.units then { x with stopping := true } else { x with state := 2 })))
      ∧ (x.state ≠ 1 → Answers .qctlStop s (fun t => QueueBecomes s t v q x))
      ∧ (s.queueIdle v q = true → Answers .qctlUnmap s (fun t =>
        QueueBecomes s t v q { x with
          state := 0, gated := false, runnable := s.sampleRunnable v q, stopping := false, before := none }
        ∧ Sparse.find? (latchNo v q) t.outer.latch = none ∧ SameMemory s t))
      ∧ (s.queueIdle v q = false → Answers .qctlUnmap s (fun t => QueueBecomes s t v q { x with gated := true })))
    ∧ (s.canAbort v = true → Answers .vfReset s (fun t => VfWasReset t v))

/-- R262, R447, R448: QEXPORT of an idle queue writes its 128 canonical bytes at PCADDR, with the state it had before the export
began, and closes it; a queue with a command in
flight is only gated; either way no list holds a task of the queue's world any more. QIMPORT takes such a state into an
UNMAPPED queue, which starts when it was RUNNABLE, and is refused otherwise.
Where the rules leave it open, the model's reading (log 73). -/
def Sys2Proof.Claim.QueuesAreExportedAndImported : Prop :=
  ∀ (s : State), let v := s.pcVf
    let q := s.pcQueue
    let x := (s.vf v).queue q
    let a := s.zenithLoc s.mgmt.pcAddr.toNat
    let c := s.raw a 128
    let closed := fun (w : Option (Nat × Nat)) => ∃ p n, w = some (p, n) ∧ (s.part p).held = true
    let formed := fun (t : State) => ∀ p w, s.worldOfVf v = some (p, w) → ∀ k ∈ (s.part p).clust,
      ∀ l ∈ (t.cluster k).cumulus.lists, ∀ m ∈ l.members, m.world ≠ w
    s.zenithActs = true →
    (s.queueIdle v q = true → Answers .qexport s (fun t =>
      Poked s t a (x.canonical (x.before.getD x.state) (s.sampleRunnable v q) (if s.headWaits v q then some (s.command v q x.head) else none))
      ∧ QueueBecomes s t v q { x with
          state := 0, gated := false, runnable := s.sampleRunnable v q, stopping := false, before := none }
      ∧ Sparse.find? (latchNo v q) t.outer.latch = none ∧ t.mgmt.pcRefused = false ∧ formed t))
    ∧ (s.queueIdle v q = false → Answers .qexport s (fun t =>
      QueueBecomes s t v q { x with gated := true, before := some (x.before.getD x.state) } ∧ SameMemory s t ∧ formed t))
    ∧ (x.state ≠ 0 ∨ numAt 0 4 c ≠ 0x51455850 ∨ numAt 4 2 c ≠ 1 → Answers .qimport s (fun t =>
      t = { s with mgmt := { s.mgmt with pcReason := 0, pcRefused := true } }))
    ∧ (x.state = 0 → numAt 0 4 c = 0x51455850 → numAt 4 2 c = 1 → let runs := bitAt (numAt 7 1 c) 0
      (runs = false ∨ numAt 6 1 c % 4 ≠ 0 → Answers .qimport s (fun t =>
        QueueBecomes s t v q (Queue.ofCanonical c) ∧ t.mgmt.pcRefused = false ∧ SameMemory s t))
      ∧ (runs = true → s.mgmt.handoff ≠ none ∨ closed (s.worldOfVf v) → Answers .qimport s (fun t =>
        Sparse.find? (latchNo v q) t.outer.latch = some (Queue.ofCanonical c).tail))
      ∧ (runs = true → s.mgmt.handoff = none → ¬ closed (s.worldOfVf v) → numAt 6 1 c % 4 = 1 →
        Answers .qimport s (fun t => let f := Queue.ofCanonical c
          QueueBecomes s t v q f ∧ f.state = 1 ∧ t.mgmt.pcRefused = false ∧ t.outer.latch = s.outer.latch
          ∧ (f.head ≠ f.tail → ((t.vf v).queue q).takes = true))))

/-- Doorbells, queue control, export and import. -/
def Obligations.QueuesAndDoorbells : Prop :=
  Claim.DoorbellsAndQueueControl ∧ Claim.QueuesAreExportedAndImported

/-- R408, R438, R440, R441: a command completes NOTREADY before RUN and ABORTED in ERROR; a malformed one stops its queue with
HEAD where it is. SIGNAL and WAITSIG complete when what they wait for has come; RECLAIM frees a faulted record's area.
Where the rules leave it open, the model's reading (log 70). -/
def Obligations.CommandsComplete : Prop :=
  ∀ (s : State) (c : List Byte), let v := s.actor.vf
    let q := s.actor.queue
    let x := theQueue s
    let ops := [Instr.launch, .signal, .waitsig, .waitsigReread, .collective, .bbcopy, .bbarm, .reclaim]
    let done := fun (i : Instr) (status : Nat) => Answers i s (fun t =>
      HeadDone s t c (cmdValue c) status 0 ∧ QuietWithoutSig s t c)
    (c = s.command v q x.head → x.takes = true →
      ∀ i ∈ ops,
        ((s.vf v).state ≠ 2 → (s.vf v).state ≠ 3 → done i 8) ∧ ((s.vf v).state = 3 → done i 10)
        ∧ ((s.vf v).state = 2 → cmdMalformed c = true → Answers i s (fun t =>
          Completed t v (cmdSig c) (cmdIova c) (completion (cmdValue c) (cmdTag c) 15 0)
          ∧ QueueBecomes s t v q { x with state := 3, err := 15, stopping := false, units := 0, bounce := [] })))
    ∧ (x.takes = false → ∀ i ∈ ops, Answers i s (fun t => t = s))
    ∧ (∀ y, HeadCommand s 2 c y →
      (s.inFlight v q = false → done .signal 0) ∧ (s.inFlight v q = true → Answers .signal s (fun t => t = s)))
    ∧ (∀ y, HeadCommand s 3 c y → ∀ i ∈ [Instr.waitsig, .waitsigReread],
      ((cmdB c).toNat ≤ leNat (s.raw (hostLoc v (cmdA c).toNat) 8) → s.inFlight v q = false → done i 0)
      ∧ (leNat (s.raw (hostLoc v (cmdA c).toNat) 8) < (cmdB c).toNat → Answers i s (fun t => t = s)))
    ∧ (∀ y a, HeadCommand s 7 c y → s.guestRecord y (cmdA c).toNat = some a →
      (s.isFaulted y.part a = true → s.recWorld y.part a = y.world → (∀ f ∈ s.outer.vfs, f.2.state ≠ 3) →
        Answers .reclaim s (fun t =>
        HeadDone s t c (cmdValue c) 0 0 ∧ ∀ z ∈ (t.part y.part).areas, ∀ u, z.2.saved = some u → u.record ≠ a))
      ∧ (s.isFaulted y.part a = false ∨ s.recWorld y.part a ≠ y.world → done .reclaim 15))
    ∧ (∀ y, HeadCommand s 7 c y → s.guestRecord y (cmdA c).toNat = none → done .reclaim 15)

/-- R444: a rank of legal operands joins, and HEAD goes on; after a withdrawal it completes with MEMBER_WITHDRAWN and the
lowest rank withdrawn. The result is the sum in ascending rank order, written to the output and completed; with a member
withdrawn every rank completes so and no output is written.
Where the rules leave it open, the model's reading (log 74). -/
def Sys2Proof.Claim.CollectivesSumOrWithdraw : Prop :=
  (∀ (s : State) (c : List Byte) (y : Party), let v := s.actor.vf
    let q := s.actor.queue
    let legal := colLegal c = true ∧ (s.guestPieces y (cmdB c).toNat (colLen c) false).isSome = true
      ∧ (s.guestPieces y (colOut c).toNat (colLen c) true).isSome = true
    HeadCommand s 4 c y →
    (¬ legal → Answers .collective s (fun t =>
      QueueBecomes s t v q { theQueue s with state := 3, err := 15, stopping := false, units := 0, bounce := [] }))
    ∧ (legal → Sparse.find? (cmdA c).toNat s.outer.withdrawn = none → Answers .collective s (fun t =>
      t.outer.ranks = s.outer.ranks ++ [rankOf v q c] ∧ SameMemory s t
      ∧ QueueBecomes s t v q { theQueue s with head := (theQueue s).head + 1 }))
    ∧ (∀ low, legal → Sparse.find? (cmdA c).toNat s.outer.withdrawn = some low → Answers .collective s (fun t =>
      HeadDone s t c (cmdValue c) 12 low ∧ QuietWithoutSig s t c)))
  ∧ (∀ (s : State) (r : Rank) (remote : List RemoteInput), s.outer.ranks.filter (fun x => x.ident = r.ident) = [r] →
    (∀ g ∈ remote, g.withdrawn = true → Sparse.find? r.ident.toNat s.outer.withdrawn = none →
      remote.filter (fun x => x.withdrawn) = [g] → Answers (.collectiveResult r.ident remote) s (fun t =>
        r ∉ t.outer.ranks ∧ Sparse.find? r.ident.toNat t.outer.withdrawn = some g.rank
        ∧ Completed t r.vf r.sig r.iova (completion r.value r.tag 12 g.rank)
        ∧ (r.sig = false → SameBytes s t (fun _ => True))))
    ∧ (∀ (own : List Nat) (ins : List (List Nat)) (y : Party) (ps : List Piece),
      (∀ g ∈ remote, g.withdrawn = false) → Sparse.find? r.ident.toNat s.outer.withdrawn = none →
      s.rankInput r = .ok own → gather r.count [(r.rank, own)] remote = some ins →
      s.rankParty r = some y → s.guestPieces y r.output.toNat r.length true = some ps → y.part < 16 → PiecesApart ps →
      4 * (sumLanes ins).length = r.length → Answers (.collectiveResult r.ident remote) s (fun t =>
        r ∉ t.outer.ranks ∧ HoldBytes t ps ((sumLanes ins).map (fun z => leBytes z 4)).flatten
        ∧ Completed t r.vf r.sig r.iova (completion r.value r.tag 0 0))))

/-- R446: a copy with a bad field, or of addresses that are not mapped, stops its queue; one out of sequence, or before a re-arm,
gives RESYNC and moves nothing; a copy of one unit moves its bytes and
DEV takes the number; a longer one goes unit by unit. BBARM advances the epoch and ends REARM.
Where the rules leave it open, the model's reading (logs 64 and 74). -/
def Sys2Proof.Claim.BounceCopiesKeepSequence : Prop :=
  ∀ (s : State) (c : List Byte) (y : Party), let v := s.actor.vf
    let q := s.actor.queue
    let x := theQueue s
    let legal := bbDir c ≤ 1 ∧ 256 ≤ bbLen c ∧ bbLen c ≤ 2 ^ 24
    let mapped := (s.guestPieces y (cmdB c).toNat (bbLen c) (bbDir c = 0)).isSome = true
    let ok := legal ∧ mapped
    let next := bbSeq c = x.dev + 1 ∧ x.rearm = false
    (HeadCommand s 5 c y → x.units = 0 →
      (¬ legal ∨ (¬ mapped ∧ next) → Answers .bbcopy s (fun t =>
        QueueBecomes s t v q { x with state := 3, err := 15, stopping := false, units := 0, bounce := [] }))
      ∧ (legal → ¬ next → Answers .bbcopy s (fun t =>
        HeadDone s t c (cmdValue c) 13 0 ∧ QuietWithoutSig s t c))
      ∧ (ok → bbSeq c = x.dev + 1 → x.rearm = false → (s.worldOf y).isSealed = false → cmdSig c = false →
        (∀ ps, bbDir c = 0 → bbLen c = 256 → x.bounce = [] → s.guestPieces y (cmdB c).toNat 256 true = some ps → PiecesApart ps →
          Answers .bbcopy s (fun t => HoldBytes t ps (s.raw (hostLoc v (cmdA c).toNat) 256)
            ∧ QueueBecomes s t v q (pastHead { x with dev := bbSeq c })))
        ∧ (∀ ps bs, bbDir c = 1 → bbLen c = 256 → (∀ z ∈ (s.vf v).queues, z.2.den = false) → s.guestPieces y (cmdB c).toNat 256 false = some ps →
          s.readPieces deviceCore (bounceEngine q) ps = .ok bs → Answers .bbcopy s (fun t =>
            Poked s t (hostLoc v (cmdA c).toNat) bs ∧ QueueBecomes s t v q (pastHead { x with dev := bbSeq c })))
        ∧ (bbDir c = 0 → 256 < bbLen c → Answers .bbcopy s (fun t => SameMemory s t
          ∧ QueueBecomes s t v q { x with units := 1, bounce := x.bounce ++ s.raw (hostLoc v (cmdA c).toNat) 256 }))))
    ∧ (HeadCommand s 6 c y →
      (x.epoch = BitVec.allOnes 32 → Answers .bbarm s (fun t => HeadDone s t c (cmdValue c) 15 0))
      ∧ (x.epoch ≠ BitVec.allOnes 32 → Answers .bbarm s (fun t =>
        QueueBecomes s t v q (pastHead { x with epoch := x.epoch + 1, rearm := false })
        ∧ Completed t v (cmdSig c) (cmdIova c) (if cmdA c = x.dev then completion (cmdValue c) (cmdTag c) 0 0
          else completion x.dev (cmdTag c) 13 0))))

/-- Collectives sum or withdraw; bounce copies keep their sequence. -/
def Obligations.CollectivesAndBounceCopies : Prop :=
  Claim.CollectivesSumOrWithdraw ∧ Claim.BounceCopiesKeepSequence

/-- R158, R162, R442, R443: an ill-formed chain stops its queue with HEAD where it is; a chain that a check refuses completes
with the status and the index of its first bad launch; an accepted chain's units are all runnable, and its completion comes
with the worst end of its units, once every unit and every Cumulus task of theirs has ended.
Where the rules leave it open, the model's reading (logs 67 and 71). -/
def Obligations.ChainsLaunchWhole : Prop :=
  (∀ (s : State) (c : List Byte) (y : Party), let v := s.actor.vf
    let q := s.actor.queue
    let x := theQueue s
    HeadCommand s 1 c y →
    (s.chainAt v q 4 x.head = none → Answers .launch s (fun t => SameMemory s t
      ∧ QueueBecomes s t v q { x with state := 3, err := 9, stopping := false }))
    ∧ (∀ cs bs, s.chainAt v q 4 x.head = some cs → s.readChain y cs = .ok bs →
      let last := cs.getLastD []
      let n := s.outer.nextChain
      let passed : Queue := { x with head := x.head + BitVec.ofNat 32 cs.length, stopping := false
                                     state := if x.stopping && x.state = 1 then 2 else x.state }
      (∀ st i, s.reserveAll y n 0 bs = .error (st, i) → Answers .launch s (fun t =>
        Completed t v (cmdSig last) (cmdIova last) (completion (cmdValue last) (cmdTag last) st i)
        ∧ QueueBecomes s t v q passed ∧ QuietWithoutSig s t last ∧ t.parts = s.parts))
      ∧ (∀ u ps, s.reserveAll y n 0 bs = .ok (u, ps) → Answers .launch s (fun t =>
        Sparse.find? n t.outer.chains = some (chainOf v q last ps) ∧ t.outer.nextChain = n + 1
        ∧ QueueBecomes s t v q passed
        ∧ ∀ plan ∈ ps, ∀ w ∈ plan.block.units,
          Runnable t y.part (plan.places.getD (plan.block.linear w) (0, 0)).1))))
  ∧ (∀ (s : State) (n : Nat) (c : Chain), Sparse.find? n s.outer.chains = some c →
    let ls := s.launchesOf c
    let st := (ls.foldl (fun (e : UnitEnd) (l : Launch) => e.worse l.ended) .retired).status
    ((∀ l ∈ ls, l.records = []) → (∀ l ∈ c.launches, s.storesDone l.1 = true ∧ s.tasksDone l.1 l.2 = true) → Answers (.launchCompletion n) s (fun t =>
      Sparse.find? n t.outer.chains = none ∧ Completed t c.vf c.sig c.iova (completion c.value c.tag st 0)
      ∧ (c.sig = false → SameBytes s t (fun _ => True))))
    ∧ ((∃ l ∈ ls, l.records ≠ []) ∨ (∃ l ∈ c.launches, s.tasksDone l.1 l.2 = false) →
      Answers (.launchCompletion n) s (fun t => t = s)))

/-- R424, R425, R426: a translation command that its port takes gets the next ticket and is under way, or is refused with the
lowest reason in XLERR and its ticket is done. An invalidation is done when no covered translation is held or used; a
migration copies its page, of a shadowed pair both frames to a pair and the visible one else, under the new leaf's key and
rewrites the leaf.
Where the rules leave it open, the model's reading (logs 69, 79 and 80). -/
def Obligations.TranslationCommands : Prop :=
  (∀ (s : State) (i : Instr) (op : Nat), (i, op) ∈ [(Instr.inv2, 1), (.inv2w, 2), (.migrate, 3), (.inv1, 4), (.inv1c, 5)] →
    let x := s.port
    let d := x.bytes
    let n := x.tick + 1
    let r := s.xlReason s.actor.zenith d
    numAt 0 1 d = op → s.reachesPort = true →
    (r = 0 → Answers i s (fun t => t.port = { x with tick := n }
      ∧ t.outer.commands = s.outer.commands ++ [s.xlCommand d n.toNat] ∧ SameMemory s t))
    ∧ (r ≠ 0 → Answers i s (fun t =>
      t.port = { x with tick := n, err := BitVec.ofNat 48 (n.toNat + r * 2 ^ 32 + op * 2 ^ 40) }.finish n.toNat
      ∧ t.outer.commands = s.outer.commands ∧ SameMemory s t)))
  ∧ (∀ (s : State) (c : XlCommand), s.outer.commands.find? (fun c => c.ofPort s.actor) = some c →
    (c.op ≠ 3 → s.stillUsed c = false → Answers .invalidationComplete s (fun t =>
      c ∉ t.outer.commands ∧ t.port = s.port.finish c.ticket ∧ SameMemory s t))
    ∧ (c.op ≠ 3 → s.stillUsed c = true → Answers .invalidationComplete s (fun t => t = s))
    ∧ (∀ L entry e old new a k n b key, c.op = 3 → s.worldLeaf c.part c.world c.addr = some (L, entry, e) →
      s.leafFrames c.part c.world c.addr e L = some old → s.leafFrames c.part c.world c.addr c.leaf.toNat L = some new →
      old.source new (pageBytes L) = (.here a k, n) → new.base = .here b key →
      s.pageFree c.part old.base (if old.pair then 2 * pageBytes L else pageBytes L) = true →
      (∀ j, j < n → s.inImage c.part (b + j) 16 = false) →
      hbmLoc c.part entry + 8 ≤ b ∨ b + n ≤ hbmLoc c.part entry → Answers .migrateCopy s (fun t =>
        c ∉ t.outer.commands ∧ t.raw (hbmLoc c.part entry) 8 = leBytes c.leaf.toNat 8
        ∧ (∀ j, j < n → t.mem.byteUnder key (b + j) = s.mem.byteUnder k (a + j))
        ∧ (∀ page, b = hbmLoc c.part page →
            Marks.has page (t.part c.part).swapped = (old.pair && new.pair && old.second))
        ∧ SameBytes s t (fun l => ¬ (b ≤ l ∧ l < b + n)
          ∧ ¬ (hbmLoc c.part entry ≤ l ∧ l < hbmLoc c.part entry + 8)))))

/-- R30, R31, R51: after power-on every register, byte of SRAM, key and measurement register is zero or at its reset value:
no core runs, no partition, cluster or function holds anything, complex 0 is the Zenith and waits in ROM, the thresholds
are at their reset values. What the memory outside the SRAM reads as is the model's choice (log 1). -/
def Obligations.ResetLeavesTheMachineClear : Prop :=
  let s := State.reset
  (∀ n, s.core n = Core.init ∧ (s.core n).run = none ∧ (s.core n).pc = 0 ∧ (s.core n).sys.vshape = 10)
  ∧ (∀ n (r : BitVec 5), (s.core n).getG r.toNat = 0) ∧ (∀ n (r : BitVec 4), (s.core n).getC r.toNat = Cap.null)
  ∧ (∀ k, s.cluster k = Cluster.init) ∧ (∀ p, s.part p = Partition.init ∧ (s.part p).present = false)
  ∧ (∀ h, s.hartOf h = Hart.init ∧ (s.hartOf h).running = false) ∧ (∀ c i, s.meas c i = List.replicate 64 0)
  ∧ (∀ v, (s.vf v).configured = false ∧ ∀ q, ((s.vf v).queue q).state = 0)
  ∧ s.mgmt.zenith = 0 ∧ s.mgmt.ready = [] ∧ s.mgmt.readychg = false ∧ s.mgmt.updst = 0 ∧ s.mgmt.handoff = none
  ∧ s.mgmt.mon.twarn = 0x05F0 ∧ s.mgmt.mon.tthrot = 0x0640 ∧ s.mgmt.mon.ttrip = 0x06E0 ∧ s.outer.latch = []
  ∧ s.mem.wf = true ∧ (∀ l, s.mem.byte l = 0) ∧ s.stopped = false

/-- R8, R52, R58, R59, R74, R173, R174, R198, R454, R455: a turn of a core's engine fetches the word at the engine's place in its
image and runs the instruction that the engine's map gives it; a word that is none raises ILLEGAL, one that cannot be read
MEMERR; a held trap comes first; an engine with nothing to do passes; an event's turn runs the event; a turn of a management
hart fetches and runs its next instruction, or takes its exception; a module that has stopped answers only a reset. Turns and
the clock are the model's (log 4), and so is what RISC-V gives the harts' instructions (log 100). -/
def Obligations.StepRunsDecodedInstruction : Prop :=
  (∀ (s : State) (e : EngineId) (a : Actor) (rest : List Turn), s.sched = .word e a :: rest → s.stopped = false →
    let b : State := { s with sched := rest, actor := a, time := s.time + Config.stepCycles s.draws, draws := s.draws + 1 }
    let held := e = .sequencer ∧ b.trapReady a.core = true
    (held → step s = exec .engineTrapDelivery b)
    ∧ (¬ held → b.nextWord e = none → step s = .next b)
    ∧ (∀ w, ¬ held → b.nextWord e = some w → b.codeBad e = true → step s = exec (.notAnInstruction e) b)
    ∧ (∀ w, ¬ held → b.nextWord e = some w → b.codeBad e = false →
      (∀ i, decodeFor e w = some i → step s = exec i b)
      ∧ (decodeFor e w = none → step s = exec (.notAnInstruction e) b)))
  ∧ (∀ (s : State) (r : Running) (im : Image), s.me.run = some r → Sparse.find? r.image (s.part r.part).images = some im →
    let word := fun (i : Nat) => leNat (s.raw (hbmLoc r.part (im.base + 4 * i)) 4)
    let o := s.me.pc.toNat
    s.nextWord .sequencer = some (if o < word 3 then word (word 2 + o) else 0))
  ∧ (∀ (s : State) (i : Instr) (a : Actor) (rest : List Turn), s.sched = .event i a :: rest →
    let b : State := { s with sched := rest, actor := a, time := s.time + Config.stepCycles s.draws, draws := s.draws + 1 }
    (s.stopped = false ∨ i = .moduleReset ∨ i = .powerOnReset → step s = exec i b)
    ∧ (s.stopped = true → i ≠ .moduleReset → i ≠ .powerOnReset → step s = .fault .moduleStopped))
  ∧ (∀ (s : State) (a : Actor) (rest : List Turn), s.sched = .hart a :: rest → s.stopped = false →
    let b : State := { s with sched := rest, actor := a, time := s.time + Config.stepCycles s.draws, draws := s.draws + 1 }
    let h := a.hart
    let x := b.hartOf h
    let traps := fun (cause tval : Word64) => ∃ t, step s = .next t ∧ HartBecomes b t h { x with
      mepc := x.pc, mcause := cause, mtval := tval, mpie := x.mieBit, mieBit := false, pc := x.mtvec }
    let due := b.meip h = true ∧ x.meie = true ∧ x.mieBit = true
    (x.running = false ∨ b.stalled h = true → step s = .next b)
    ∧ (x.running = true → b.stalled h = false →
      (due → traps 0x800000000000000B 0)
      ∧ (∀ w n, ¬ due → b.fetchHart h x.pc.toNat = .ok (w, n) →
        (rvDecode w = none → traps 2 (BitVec.ofNat 64 w))
        ∧ (∀ op t, rvDecode w = some op → b.rvExec op n (BitVec.ofNat 64 w) = .ok t → step s = .next t)
        ∧ (∀ op c v, rvDecode w = some op → b.rvExec op n (BitVec.ofNat 64 w) = .trap c v → traps (hartCauseCode c) v))
      ∧ (∀ v, ¬ due → b.fetchHart h x.pc.toNat = .error v → traps 1 (BitVec.ofNat 64 v))))
  ∧ (∀ (s : State) (a : Actor) (rest : List Turn), s.stopped = true → s.sched = .hart a :: rest ∨
      (∃ e, s.sched = .word e a :: rest) → step s = .fault .moduleStopped)

/-- Words written out from the encodings of R61, R68, R69, R70, R71, R87, R90 to R93, R207 decode to their instructions, and
all-zero words decode to none (R74). -/
def Obligations.DecodeReadsSpecWords : Prop :=
  decodeFor .sequencer 0x04221800 = some (.add 1 2 3) ∧ decodeFor .sequencer 0x10853002 = some (.cmpCc 4 5 6 2)
  ∧ decodeFor .sequencer 0x2021FFFF = some (.addi 1 1 0xFFFF) ∧ decodeFor .sequencer 0x60203FFD = some (.bCc 1 0 1 0x1FFD)
  ∧ decodeFor .sequencer 0x67FFFFFF = some (.j 0x3FFFFFF) ∧ decodeFor .sequencer 0x701F0000 = some (.jr 31)
  ∧ decodeFor .sequencer 0xB4000001 = some .eret
  ∧ decodeFor .vector 0x10618700 = some (.vadd 6 6 7 0 0 0 0) ∧ decodeFor .vector 0x30308203 = some (.vcvt 3 2 2 0 0 3)
  ∧ decodeFor .vector 0x4C404202 = some (.vcmp 4 1 2 0 0 0 2) ∧ decodeFor .vector 0x34C2C400 = some (.vquant 12 11 4 0 0)
  ∧ decodeFor .matrix 0x680DA000 = some (.mmulFp16 0 3 1 2 1) ∧ decodeFor .transfer 0x14000000 = some (.xloop 2)
  ∧ decodeFor .transfer 0x90000000 = some .xend ∧ decodeFor .stratus 0x10000500 = some (.score 5)
  ∧ decodeFor .stratus 0x2C054000 = some (.loop 5 1)
  ∧ (∀ e, decodeFor e 0 = none)

/-- R8, R12, R25, R60 to R71: every well-formed instruction that is a word of an engine is read back by that engine's map from
its own encoding, which has 32 bits. -/
def Obligations.DecodeReadsEveryEncoding : Prop :=
  ∀ (i : Instr) (e : EngineId) (w : Nat), i.wf = true → i.engine = some e → encode i = some w →
    w < 2 ^ 32 ∧ decodeFor e w = some i

/-- Every instruction of an engine has an encoding, and every word that an engine's map reads is the encoding of a
well-formed instruction of that engine (R12, R25): one word, one meaning. -/
def Obligations.WordsAreEncodings : Prop :=
  (∀ (i : Instr) (e : EngineId), i.engine = some e → ∃ w, encode i = some w)
  ∧ (∀ (e : EngineId) (w : Nat) (i : Instr), w < 2 ^ 32 → decodeFor e w = some i →
    i.wf = true ∧ i.engine = some e ∧ encode i = some w)

/-- The memory keeps its canonical form: whatever a step does, from any state whose memory has it, the cells stay in rising
order with none that equals what an unlisted byte reads as (log 1). -/
def Obligations.MemoryStaysCanonical : Prop :=
  ∀ s t : State, s.mem.wf = true → step s = .next t → t.mem.wf = true
end

