-- ==== Sys2Proof/Laws/Sparse.lean ====
section
/-! SUPPORT. What reading a table gives after a number of it is set, erased or modified, and what the sets of numbers
hold. The laws hold of any list, in order or not. -/

namespace Sys2Proof.Machine

variable {α : Type}

@[simp] theorem Sparse.find?_set_same (k : Nat) (v : α) (l : Sparse α) : Sparse.find? k (Sparse.set k v l) = some v := by
  induction l with
  | nil => simp [Sparse.set, Sparse.find?]
  | cons p l ih =>
    obtain ⟨j, w⟩ := p
    by_cases h : j = k
    · simp [Sparse.set, Sparse.find?, h]
    · by_cases h' : k < j
      · simp [Sparse.set, Sparse.find?, h, h']
      · simp [Sparse.set, Sparse.find?, h, h', ih]

theorem Sparse.find?_set_other {k x : Nat} (v : α) (l : Sparse α) (h : x ≠ k) :
    Sparse.find? x (Sparse.set k v l) = Sparse.find? x l := by
  induction l with
  | nil => simp [Sparse.set, Sparse.find?, Ne.symm h]
  | cons p l ih =>
    obtain ⟨j, w⟩ := p
    by_cases hj : j = k
    · subst hj
      simp [Sparse.set, Sparse.find?, Ne.symm h]
    · by_cases h' : k < j
      · simp [Sparse.set, Sparse.find?, hj, h', Ne.symm h]
      · simp [Sparse.set, Sparse.find?, hj, h', ih]

theorem Sparse.find?_set (k x : Nat) (v : α) (l : Sparse α) :
    Sparse.find? x (Sparse.set k v l) = if x = k then some v else Sparse.find? x l := by
  by_cases h : x = k
  · subst h; simp
  · simp [h, Sparse.find?_set_other v l h]

theorem Sparse.find?_erase (k x : Nat) (l : Sparse α) :
    Sparse.find? x (Sparse.erase k l) = if x = k then none else Sparse.find? x l := by
  induction l with
  | nil => simp [Sparse.erase, Sparse.find?]
  | cons p l ih =>
    obtain ⟨j, w⟩ := p
    simp only [Sparse.erase, List.filter_cons] at ih ⊢
    by_cases hj : j = k
    · subst hj
      by_cases hx : x = j
      · subst hx; simpa using ih
      · simpa [hx, Sparse.find?, Ne.symm hx] using ih
    · by_cases hx : j = x
      · subst hx; simp [hj, Sparse.find?]
      · simpa [hj, hx, Sparse.find?] using ih

@[simp] theorem Sparse.find?_erase_same (k : Nat) (l : Sparse α) : Sparse.find? k (Sparse.erase k l) = none := by
  simp [Sparse.find?_erase]

theorem Sparse.get_set (k x : Nat) (v d : α) (l : Sparse α) :
    Sparse.get (Sparse.set k v l) d x = if x = k then v else Sparse.get l d x := by
  unfold Sparse.get
  rw [Sparse.find?_set]
  split <;> simp

@[simp] theorem Sparse.get_set_same (k : Nat) (v d : α) (l : Sparse α) : Sparse.get (Sparse.set k v l) d k = v := by
  simp [Sparse.get_set]

theorem Sparse.get_set_other {k x : Nat} (v d : α) (l : Sparse α) (h : x ≠ k) :
    Sparse.get (Sparse.set k v l) d x = Sparse.get l d x := by
  simp [Sparse.get_set, h]

theorem Sparse.get_erase (k x : Nat) (d : α) (l : Sparse α) :
    Sparse.get (Sparse.erase k l) d x = if x = k then d else Sparse.get l d x := by
  unfold Sparse.get
  rw [Sparse.find?_erase]
  split <;> simp

@[simp] theorem Sparse.get_erase_same (k : Nat) (d : α) (l : Sparse α) : Sparse.get (Sparse.erase k l) d k = d := by
  simp [Sparse.get_erase]

@[simp] theorem Sparse.get_nil (d : α) (k : Nat) : Sparse.get ([] : Sparse α) d k = d := rfl

@[simp] theorem Sparse.find?_nil (k : Nat) : Sparse.find? k ([] : Sparse α) = none := rfl

theorem Sparse.find?_filter (p : Nat → Bool) (x : Nat) (l : Sparse α) :
    Sparse.find? x (l.filter (fun q => p q.1)) = if p x then Sparse.find? x l else none := by
  induction l with
  | nil => simp [Sparse.find?]
  | cons q l ih =>
    obtain ⟨j, w⟩ := q
    rw [List.filter_cons]
    by_cases hj : j = x
    · subst hj
      by_cases hp : p j = true
      · simp [hp, Sparse.find?]
      · simpa [hp] using ih
    · by_cases hp : p j = true
      · simpa [hp, Sparse.find?, hj] using ih
      · simpa [hp, Sparse.find?, hj] using ih

/-! ### Sets of numbers -/

theorem Marks.mem_add (k x : Nat) (m : Marks) : x ∈ Marks.add k m ↔ x = k ∨ x ∈ m := by
  induction m with
  | nil => simp [Marks.add]
  | cons j m ih =>
    by_cases h : j = k
    · subst h; simp [Marks.add]
    · by_cases h' : k < j
      · simp [Marks.add, h, h']
      · simp only [Marks.add, h, h', if_false, List.mem_cons, ih]
        tauto

theorem Marks.mem_del (k x : Nat) (m : Marks) : x ∈ Marks.del k m ↔ x ≠ k ∧ x ∈ m := by
  simp [Marks.del, and_comm]

theorem Marks.mem_addAll (ks : List Nat) (x : Nat) (m : Marks) : x ∈ Marks.addAll ks m ↔ x ∈ ks ∨ x ∈ m := by
  unfold Marks.addAll
  induction ks generalizing m with
  | nil => simp
  | cons k ks ih =>
    rw [List.foldl_cons, ih, Marks.mem_add, List.mem_cons]
    tauto

theorem Marks.mem_delAll (ks : List Nat) (x : Nat) (m : Marks) : x ∈ Marks.delAll ks m ↔ x ∉ ks ∧ x ∈ m := by
  simp [Marks.delAll, and_comm]

theorem Marks.mem_delRange (lo hi x : Nat) (m : Marks) : x ∈ Marks.delRange lo hi m ↔ ¬ (lo ≤ x ∧ x < hi) ∧ x ∈ m := by
  simp only [Marks.delRange, List.mem_filter, Bool.not_eq_true', Bool.and_eq_false_iff, decide_eq_false_iff_not, not_and_or]
  tauto

theorem Marks.has_iff (k : Nat) (m : Marks) : Marks.has k m = true ↔ k ∈ m := by simp [Marks.has]

theorem Marks.has_add (k x : Nat) (m : Marks) : Marks.has x (Marks.add k m) = (decide (x = k) || Marks.has x m) := by
  rw [Bool.eq_iff_iff]
  simp [Marks.has_iff, Marks.mem_add]

theorem Marks.has_del (k x : Nat) (m : Marks) : Marks.has x (Marks.del k m) = (!decide (x = k) && Marks.has x m) := by
  rw [Bool.eq_iff_iff]
  simp [Marks.has_iff, Marks.mem_del]

/-! ### Runs of numbers -/

theorem mem_upFrom (lo n x : Nat) : x ∈ upFrom lo n ↔ lo ≤ x ∧ x < lo + n := by
  induction n generalizing lo with
  | zero => simp [upFrom]
  | succ n ih =>
    rw [upFrom, List.mem_cons, ih]
    omega

@[simp] theorem length_upFrom (lo n : Nat) : (upFrom lo n).length = n := by
  induction n generalizing lo with
  | zero => rfl
  | succ n ih => simp [upFrom, ih]

theorem getElem?_upFrom (lo n i : Nat) : (upFrom lo n)[i]? = if i < n then some (lo + i) else none := by
  induction n generalizing lo i with
  | zero => simp [upFrom]
  | succ n ih =>
    cases i with
    | zero => simp [upFrom]
    | succ i =>
      rw [upFrom, List.getElem?_cons_succ, ih]
      by_cases h : i < n
      · simp [h]; omega
      · simp [h]

theorem upFrom_add (lo n m : Nat) : upFrom lo (n + m) = upFrom lo n ++ upFrom (lo + n) m := by
  induction n generalizing lo with
  | zero => simp [upFrom]
  | succ n ih =>
    rw [Nat.add_right_comm, upFrom, upFrom, ih, List.cons_append, Nat.add_assoc, Nat.add_comm 1 n]

theorem upFrom_zero_eq_range (n : Nat) : upFrom 0 n = List.range n := by
  apply List.ext_getElem?
  intro i
  rw [getElem?_upFrom]
  by_cases h : i < n <;> simp [h]

end Sys2Proof.Machine
end

