-- ==== Sys2Proof/Laws/Mem.lean ====
section
/-! SUPPORT. The memory: reading a byte after a write, and every operation keeps the canonical form. -/

namespace Sys2Proof.Machine

/-! ### The canonical form of cells -/

/-- The cells are in canonical form. -/
abbrev Mem.canonical (cells : List Host.Cell) : Bool := risingFrom 0 cells && cells.all (fun c => c.2 != Mem.unlisted)

theorem Mem.wf_eq (m : Mem) : m.wf = Mem.canonical m.cells := rfl

theorem risingFrom_mono {lo lo' : Nat} {cs : List Host.Cell} (h : risingFrom lo cs = true) (hl : lo' ≤ lo) :
    risingFrom lo' cs = true := by
  cases cs with
  | nil => rfl
  | cons c cs =>
    obtain ⟨l, b⟩ := c
    simp only [risingFrom, Bool.and_eq_true, decide_eq_true_eq] at h ⊢
    exact ⟨hl.trans h.1, h.2⟩

theorem risingFrom_filter {lo : Nat} {cs : List Host.Cell} (p : Host.Cell → Bool) (h : risingFrom lo cs = true) :
    risingFrom lo (cs.filter p) = true := by
  induction cs generalizing lo with
  | nil => rfl
  | cons c cs ih =>
    obtain ⟨l, b⟩ := c
    simp only [risingFrom, Bool.and_eq_true, decide_eq_true_eq] at h
    rw [List.filter_cons]
    split
    · simp only [risingFrom, Bool.and_eq_true, decide_eq_true_eq]
      exact ⟨h.1, ih h.2⟩
    · exact ih (risingFrom_mono h.2 (by omega))

theorem risingFrom_set {lo l : Nat} {b : Byte} {cs : List Host.Cell} (h : risingFrom lo cs = true) (hl : lo ≤ l) :
    risingFrom lo (Sparse.set l b cs) = true := by
  induction cs generalizing lo with
  | nil => simp [Sparse.set, risingFrom, hl]
  | cons c cs ih =>
    obtain ⟨j, w⟩ := c
    simp only [risingFrom, Bool.and_eq_true, decide_eq_true_eq] at h
    rw [Sparse.set]
    split
    · next hj => subst hj; simp only [risingFrom, Bool.and_eq_true, decide_eq_true_eq]; exact h
    · split
      · next hj hlt =>
        simp only [risingFrom, Bool.and_eq_true, decide_eq_true_eq]
        exact ⟨hl, by omega, h.2⟩
      · next hj hlt =>
        simp only [risingFrom, Bool.and_eq_true, decide_eq_true_eq]
        exact ⟨h.1, ih h.2 (by omega)⟩

theorem all_set {l : Nat} {b : Byte} {cs : List Host.Cell} {p : Host.Cell → Bool} (h : cs.all p = true)
    (hb : p (l, b) = true) : (Sparse.set l b cs).all p = true := by
  induction cs with
  | nil => simp [Sparse.set, hb]
  | cons c cs ih =>
    obtain ⟨j, w⟩ := c
    simp only [List.all_cons, Bool.and_eq_true] at h
    rw [Sparse.set]
    split
    · simp only [List.all_cons, Bool.and_eq_true]; exact ⟨hb, h.2⟩
    · split
      · simp only [List.all_cons, Bool.and_eq_true]; exact ⟨hb, h.1, h.2⟩
      · simp only [List.all_cons, Bool.and_eq_true]; exact ⟨h.1, ih h.2⟩

theorem Mem.canonical_filter {cs : List Host.Cell} (p : Host.Cell → Bool) (h : Mem.canonical cs = true) :
    Mem.canonical (cs.filter p) = true := by
  simp only [Mem.canonical, Bool.and_eq_true] at h ⊢
  refine ⟨risingFrom_filter p h.1, ?_⟩
  rw [List.all_eq_true] at h ⊢
  intro c hc
  exact h.2 c (List.mem_of_mem_filter hc)

theorem Mem.canonical_putCell {cs : List Host.Cell} (l : Nat) (b : Byte) (h : Mem.canonical cs = true) :
    Mem.canonical (Mem.putCell l b cs) = true := by
  unfold Mem.putCell
  split
  · exact Mem.canonical_filter _ h
  · next hb =>
    simp only [Mem.canonical, Bool.and_eq_true] at h ⊢
    exact ⟨risingFrom_set h.1 (Nat.zero_le _), all_set h.2 (by simpa using hb)⟩

/-- Cells written one after the other stay canonical. -/
theorem Mem.canonical_foldl {β : Type} (at_ : β → Nat) (to_ : β → Byte) (qs : List β) {cs : List Host.Cell}
    (h : Mem.canonical cs = true) :
    Mem.canonical (qs.foldl (fun c q => Mem.putCell (at_ q) (to_ q) c) cs) = true := by
  induction qs generalizing cs with
  | nil => exact h
  | cons q qs ih => exact ih (Mem.canonical_putCell _ _ h)

theorem Mem.canonical_putCells {cs : List Host.Cell} (l : Nat) (bs : List Byte) (h : Mem.canonical cs = true) :
    Mem.canonical (Mem.putCells l bs cs) = true :=
  Mem.canonical_foldl (fun q : Nat × Byte => q.1) (fun q => q.2) _ h

/-! ### Every operation keeps the form -/

theorem Mem.wf_putByte {m : Mem} (k : Nat) (q : Nat × Byte) (h : m.wf = true) : (m.putByte k q).wf = true :=
  Mem.canonical_putCell q.1 q.2 h

theorem Mem.wf_putBytes {m : Mem} (k l : Nat) (bs : List Byte) (h : m.wf = true) : (m.putBytes k l bs).wf = true := by
  unfold Mem.putBytes
  generalize (upFrom l bs.length).zip bs = qs
  induction qs generalizing m with
  | nil => exact h
  | cons q qs ih => exact ih (Mem.wf_putByte k q h)

theorem Mem.wf_adopt {m : Mem} (k l : Nat) (h : m.wf = true) : (m.adopt k l).wf = true := by
  unfold Mem.adopt
  split
  · exact h
  · exact Mem.wf_putBytes _ _ _ h

theorem Mem.wf_adoptEdges {m : Mem} (k l n : Nat) (h : m.wf = true) : (m.adoptEdges k l n).wf = true := by
  unfold Mem.adoptEdges
  split
  · exact h
  · exact Mem.wf_adopt _ _ (Mem.wf_adopt _ _ h)

theorem Mem.wf_write {m : Mem} (k l : Nat) (bs : List Byte) (h : m.wf = true) : (m.write k l bs).wf = true :=
  Mem.wf_putBytes k l bs (Mem.wf_adoptEdges k l _ h)

theorem Mem.wf_poke {m : Mem} (l : Nat) (bs : List Byte) (h : m.wf = true) : (m.poke l bs).wf = true :=
  Mem.canonical_putCells l bs h

theorem Mem.wf_wipe {m : Mem} (l n : Nat) (h : m.wf = true) : (m.wipe l n).wf = true :=
  Mem.canonical_filter _ h

@[simp] theorem Mem.wf_setTag (m : Mem) (l : Nat) (t : Bool) : (m.setTag l t).wf = m.wf := rfl
@[simp] theorem Mem.wf_fill (m : Mem) (l n : Nat) : (m.fill l n).wf = m.wf := rfl
@[simp] theorem Mem.wf_drainBits (m : Mem) (l n : Nat) : (m.drainBits l n).wf = m.wf := rfl
theorem Mem.wf_init : Mem.init.wf = true := rfl

/-! ### Reading after writing -/

theorem Sparse.get_putCell (l x : Nat) (b : Byte) (cs : List Host.Cell) :
    Sparse.get (Mem.putCell l b cs) Mem.unlisted x = if x = l then b else Sparse.get cs Mem.unlisted x := by
  unfold Mem.putCell
  split
  · next hb => rw [Sparse.get_erase, hb]
  · rw [Sparse.get_set]

theorem Mem.byte_putByte (m : Mem) (k x : Nat) (q : Nat × Byte) :
    (m.putByte k q).byte x = if x = q.1 then q.2 else m.byte x :=
  Sparse.get_putCell q.1 x q.2 m.cells

theorem Mem.keyAt_putByte (m : Mem) (k x : Nat) (q : Nat × Byte) :
    (m.putByte k q).keyAt x = if x = q.1 then k else m.keyAt x := by
  unfold Mem.keyAt Mem.putByte
  split
  · next hk => subst hk; rw [Sparse.get_erase]
  · rw [Sparse.get_set]

/-- A byte reads as it stands under the key that it is held under. -/
theorem Mem.byteUnder_keyAt (m : Mem) (l key : Nat) (h : m.keyAt l = key) : m.byteUnder key l = m.byte l := if_pos h

/-- The pairs of locations and bytes that a write of `bs` at `l` makes. -/
theorem mem_zip_upFrom (l : Nat) (bs : List Byte) (q : Nat × Byte) (h : q ∈ (upFrom l bs.length).zip bs) :
    l ≤ q.1 ∧ q.1 < l + bs.length :=
  (mem_upFrom _ _ _).1 (List.of_mem_zip h).1

/-- Outside a run of bytes just written, each byte and the key it is held under are what they were. -/
theorem Mem.same_putBytes (m : Mem) (k l x : Nat) (bs : List Byte) (h : x < l ∨ l + bs.length ≤ x) :
    (m.putBytes k l bs).byte x = m.byte x ∧ (m.putBytes k l bs).keyAt x = m.keyAt x := by
  unfold Mem.putBytes
  have hq : ∀ q ∈ (upFrom l bs.length).zip bs, x ≠ q.1 := fun q hq => by
    have := mem_zip_upFrom l bs q hq; omega
  generalize (upFrom l bs.length).zip bs = qs at hq
  induction qs generalizing m with
  | nil => exact ⟨rfl, rfl⟩
  | cons q qs ih =>
    have h := ih (m.putByte k q) (fun p hp => hq p (List.mem_cons_of_mem _ hp))
    rw [Mem.byte_putByte, Mem.keyAt_putByte, if_neg (hq q List.mem_cons_self), if_neg (hq q List.mem_cons_self)] at h
    exact h

/-- Bytes just written under a key read back under it. -/
theorem Mem.readUnder_putBytes (m : Mem) (k l : Nat) (bs : List Byte) :
    (m.putBytes k l bs).readUnder k l bs.length = bs := by
  induction bs generalizing m l with
  | nil => rfl
  | cons b bs ih =>
    have hput : m.putBytes k l (b :: bs) = (m.putByte k (l, b)).putBytes k (l + 1) bs := rfl
    have hrest : (m.putBytes k l (b :: bs)).readUnder k (l + 1) bs.length = bs := hput ▸ ih _ _
    have hhead : (m.putBytes k l (b :: bs)).byteUnder k l = b := by
      have hs := Mem.same_putBytes (m.putByte k (l, b)) k (l + 1) l bs (Or.inl (Nat.lt_succ_self l))
      rw [Mem.byte_putByte, Mem.keyAt_putByte, if_pos rfl, if_pos rfl] at hs
      rw [hput, Mem.byteUnder_keyAt _ _ _ hs.2, hs.1]
    rw [Mem.readUnder, List.length_cons, upFrom, List.map_cons, hhead]
    exact congrArg _ hrest

theorem Mem.readUnder_write (m : Mem) (k l : Nat) (bs : List Byte) : (m.write k l bs).readUnder k l bs.length = bs :=
  Mem.readUnder_putBytes (m.adoptEdges k l bs.length) k l bs

/-! ### A block held under a key from now on (R194) -/

/-- What a byte of n says of the same byte of m: it reads, under the key it is held under in n, as it read in m. -/
def Mem.ReadsOn (m n : Mem) (x : Nat) : Prop := n.byte x = m.byteUnder (n.keyAt x) x

theorem Mem.readsOn_same {m n : Mem} {x : Nat} (h : n.byte x = m.byte x ∧ n.keyAt x = m.keyAt x) : Mem.ReadsOn m n x := by
  rw [Mem.ReadsOn, h.1, h.2, Mem.byteUnder_keyAt m x _ rfl]

/-- A byte of bytes that are written as they read under a key. -/
theorem Mem.putBytes_readUnder (m : Mem) (k b n x : Nat) (h : b ≤ x ∧ x < b + n) :
    (m.putBytes k b (m.readUnder k b n)).keyAt x = k ∧ (m.putBytes k b (m.readUnder k b n)).byte x = m.byteUnder k x := by
  suffices ∀ (n b : Nat) (m0 : Mem), b ≤ x → x < b + n →
      (m0.putBytes k b (m.readUnder k b n)).keyAt x = k ∧ (m0.putBytes k b (m.readUnder k b n)).byte x = m.byteUnder k x from
    this n b m h.1 h.2
  clear h
  intro n
  induction n with
  | zero => intro b m0 hb hx; omega
  | succ n ih =>
    intro b m0 hb hx
    have hlen : (m.readUnder k (b + 1) n).length = n := by rw [Mem.readUnder, List.length_map, length_upFrom]
    have hput : m0.putBytes k b (m.readUnder k b (n + 1))
        = (m0.putByte k (b, m.byteUnder k b)).putBytes k (b + 1) (m.readUnder k (b + 1) n) := rfl
    rw [hput]
    by_cases he : x = b
    · subst he
      have hs := Mem.same_putBytes (m0.putByte k (x, m.byteUnder k x)) k (x + 1) x (m.readUnder k (x + 1) n) (by omega)
      rw [hs.1, hs.2, Mem.keyAt_putByte, Mem.byte_putByte]
      exact ⟨if_pos rfl, if_pos rfl⟩
    · exact ih (b + 1) _ (by omega) (by omega)

/-- Adopting a block: each byte reads as before, and a key changes only within the block, to the adopting one. -/
theorem Mem.adopt_cases (m : Mem) (k l x : Nat) :
    ((m.adopt k l).byte x = m.byte x ∧ (m.adopt k l).keyAt x = m.keyAt x)
    ∨ (x / 16 = l / 16 ∧ (m.adopt k l).keyAt x = k ∧ (m.adopt k l).byte x = m.byteUnder k x) := by
  unfold Mem.adopt
  split
  · exact .inl ⟨rfl, rfl⟩
  · have hlen : (m.readUnder k (floorTo l 16) 16).length = 16 := by rw [Mem.readUnder, List.length_map, length_upFrom]
    by_cases hx : floorTo l 16 ≤ x ∧ x < floorTo l 16 + 16
    · exact .inr ⟨by unfold floorTo at hx; omega, Mem.putBytes_readUnder m k _ 16 x hx⟩
    · exact .inl (Mem.same_putBytes m k _ x _ (by rw [hlen]; omega))

/-- After a block's adoption every byte of it is held under the key. -/
theorem Mem.keyAt_adopt (m : Mem) (k l x : Nat) (h : x / 16 = l / 16) : (m.adopt k l).keyAt x = k := by
  have hx : floorTo l 16 ≤ x ∧ x < floorTo l 16 + 16 := by unfold floorTo; omega
  unfold Mem.adopt
  split
  · next ha =>
    rw [List.all_eq_true] at ha
    exact of_decide_eq_true (ha x ((mem_upFrom _ _ _).2 hx))
  · exact (Mem.putBytes_readUnder m k _ 16 x hx).1

/-- A byte of a block that an adoption leaves alone reads the same under every key. -/
theorem Mem.byteUnder_congr {m n : Mem} (x : Nat)
    (h : ∀ y, y / 16 = x / 16 → n.byte y = m.byte y ∧ n.keyAt y = m.keyAt y) (k : Nat) : n.byteUnder k x = m.byteUnder k x := by
  have hb : n.block x = m.block x := by
    refine List.map_congr_left (fun y hy => (h y ?_).1)
    have := (mem_upFrom _ _ _).1 hy
    unfold floorTo at this
    omega
  unfold Mem.byteUnder Mem.foreignByte
  rw [hb, (h x rfl).1, (h x rfl).2]

/-- The edges of a write adopted: each byte reads as before, and a key changes only within the two blocks. -/
theorem Mem.adoptEdges_cases (m : Mem) (k l n x : Nat) :
    Mem.ReadsOn m (m.adoptEdges k l n) x
    ∧ ((m.adoptEdges k l n).keyAt x = m.keyAt x ∨ (n ≠ 0 ∧ (x / 16 = l / 16 ∨ x / 16 = (l + n - 1) / 16))) := by
  unfold Mem.adoptEdges
  split
  · exact ⟨Mem.readsOn_same ⟨rfl, rfl⟩, .inl rfl⟩
  · next hn =>
    have h1 := Mem.adopt_cases m k l x
    have hr1 : Mem.ReadsOn m (m.adopt k l) x := h1.elim Mem.readsOn_same (fun h => by rw [Mem.ReadsOn, h.2.1, h.2.2])
    rcases Mem.adopt_cases (m.adopt k l) k (l + n - 1) x with h2 | ⟨hx, hk, hb⟩
    · refine ⟨by rw [Mem.ReadsOn, h2.1, h2.2]; exact hr1, ?_⟩
      rw [h2.2]
      exact h1.elim (fun h => .inl h.2) (fun h => .inr ⟨hn, .inl h.1⟩)
    · refine ⟨?_, .inr ⟨hn, .inr hx⟩⟩
      rw [Mem.ReadsOn, hk, hb]
      by_cases hs : x / 16 = l / 16
      · have hk1 : (m.adopt k l).keyAt x = k := Mem.keyAt_adopt m k l x hs
        rw [Mem.byteUnder_keyAt _ _ _ hk1, hr1, hk1]
      · refine Mem.byteUnder_congr x (fun y hy => ?_) k
        exact (Mem.adopt_cases m k l y).elim id (fun h => absurd (hy.symm.trans h.1) hs)

/-- Outside a run of bytes just written, each byte reads as before under the key it is held under, and that key changes
only in the 16-byte blocks at the edges of the run. -/
theorem Mem.readsOn_write (m : Mem) (k l x : Nat) (bs : List Byte) (h : x < l ∨ l + bs.length ≤ x) :
    Mem.ReadsOn m (m.write k l bs) x
    ∧ ((m.write k l bs).keyAt x = m.keyAt x
      ∨ (bs.length ≠ 0 ∧ (x / 16 = l / 16 ∨ x / 16 = (l + bs.length - 1) / 16))) := by
  have hs : (m.write k l bs).byte x = (m.adoptEdges k l bs.length).byte x
      ∧ (m.write k l bs).keyAt x = (m.adoptEdges k l bs.length).keyAt x :=
    Mem.same_putBytes (m.adoptEdges k l bs.length) k l x bs h
  have ha := Mem.adoptEdges_cases m k l bs.length x
  rw [Mem.ReadsOn, hs.1, hs.2]
  exact ha

/-- A write to locations that are held under its key already leaves every other byte, and its key, alone. -/
theorem Mem.same_write (m : Mem) (k l x : Nat) (bs : List Byte) (h : x < l ∨ l + bs.length ≤ x)
    (hk : ∀ y, y / 16 = l / 16 ∨ y / 16 = (l + bs.length - 1) / 16 → m.keyAt y = k) :
    (m.write k l bs).byte x = m.byte x ∧ (m.write k l bs).keyAt x = m.keyAt x := by
  have adopt_id : ∀ a, (∀ y, y / 16 = a / 16 → m.keyAt y = k) → m.adopt k a = m := fun a ha => by
    unfold Mem.adopt
    rw [if_pos]
    rw [List.all_eq_true]
    intro y hy
    have := (mem_upFrom _ _ _).1 hy
    refine decide_eq_true (ha y ?_)
    unfold floorTo at this
    omega
  have he : m.adoptEdges k l bs.length = m := by
    unfold Mem.adoptEdges
    split
    · rfl
    · rw [adopt_id l (fun y hy => hk y (.inl hy)), adopt_id _ (fun y hy => hk y (.inr hy))]
  have hs : (m.write k l bs).byte x = (m.adoptEdges k l bs.length).byte x
      ∧ (m.write k l bs).keyAt x = (m.adoptEdges k l bs.length).keyAt x :=
    Mem.same_putBytes (m.adoptEdges k l bs.length) k l x bs h
  rw [he] at hs
  exact hs

theorem Mem.byte_poke_outside (m : Mem) (l x : Nat) (bs : List Byte) (h : x < l ∨ l + bs.length ≤ x) :
    (m.poke l bs).byte x = m.byte x := by
  unfold Mem.poke Mem.byte Mem.putCells
  have hq : ∀ q ∈ (upFrom l bs.length).zip bs, x ≠ q.1 := fun q hq => by
    have := mem_zip_upFrom l bs q hq; omega
  generalize (upFrom l bs.length).zip bs = qs at hq
  generalize m.cells = cs
  induction qs generalizing cs with
  | nil => rfl
  | cons q qs ih =>
    rw [List.foldl_cons, ih (fun p hp => hq p (List.mem_cons_of_mem _ hp)), Sparse.get_putCell,
      if_neg (hq q List.mem_cons_self)]

theorem Mem.same_poke (m : Mem) (l x : Nat) (bs : List Byte) (h : x < l ∨ l + bs.length ≤ x) :
    (m.poke l bs).byte x = m.byte x ∧ (m.poke l bs).keyAt x = m.keyAt x :=
  ⟨Mem.byte_poke_outside m l x bs h, rfl⟩

/-- Bytes that the device has just put at a location stand there. -/
theorem Mem.raw_poke (m : Mem) (l : Nat) (bs : List Byte) : (m.poke l bs).raw l bs.length = bs := by
  induction bs generalizing m l with
  | nil => rfl
  | cons b bs ih =>
    let n : Mem := { m with cells := Mem.putCell l b m.cells }
    have hbyte : ∀ x, (m.poke l (b :: bs)).byte x = (n.poke (l + 1) bs).byte x := fun x => rfl
    rw [Mem.raw, List.length_cons, upFrom, List.map_cons, hbyte, Mem.byte_poke_outside _ _ _ _ (by omega)]
    have hl : n.byte l = b := by
      have := Sparse.get_putCell l l b m.cells
      simpa [Mem.byte, n] using this
    rw [hl]
    refine congrArg _ ?_
    calc (upFrom (l + 1) bs.length).map (m.poke l (b :: bs)).byte
        = (upFrom (l + 1) bs.length).map (n.poke (l + 1) bs).byte := List.map_congr_left (fun x _ => hbyte x)
      _ = bs := ih n (l + 1)

theorem Mem.byte_wipe (m : Mem) (l n x : Nat) : (m.wipe l n).byte x = if l ≤ x ∧ x < l + n then 0 else m.byte x := by
  have h := Sparse.find?_filter (fun j => !(l ≤ j && j < l + n)) x m.cells
  unfold Mem.byte Sparse.get Mem.wipe
  simp only
  rw [h]
  by_cases hx : l ≤ x ∧ x < l + n
  · simp [hx, Mem.unlisted]
  · rw [if_neg hx, if_pos (by simp only [Bool.not_eq_true', Bool.and_eq_false_iff, decide_eq_false_iff_not]; omega)]

theorem Mem.same_wipe (m : Mem) (l n x : Nat) (h : x < l ∨ l + n ≤ x) :
    (m.wipe l n).byte x = m.byte x ∧ (m.wipe l n).keyAt x = m.keyAt x := by
  have hk := Sparse.find?_filter (fun j => !(l ≤ j && j < l + n)) x m.keys
  have hc : ¬ (l ≤ x ∧ x < l + n) := by omega
  refine ⟨by simp [Mem.byte_wipe, hc], ?_⟩
  unfold Mem.keyAt Sparse.get Mem.wipe
  simp only
  rw [hk, if_pos (by simp only [Bool.not_eq_true', Bool.and_eq_false_iff, decide_eq_false_iff_not]; omega)]

end Sys2Proof.Machine
end

