-- ==== Sys2Proof/Laws/State.lean ====
section
/-! SUPPORT. What each update of the state leaves of each field, one lemma per field and update, and what the accessors
read after an update. -/

namespace Sys2Proof.Machine

/-! ### setCore -/

@[simp] theorem State.setCore_mem (s : State) (n : Nat) (c : Core) : (s.setCore n c).mem = s.mem := rfl
@[simp] theorem State.setCore_clusters (s : State) (n : Nat) (c : Core) : (s.setCore n c).clusters = s.clusters := rfl
@[simp] theorem State.setCore_parts (s : State) (n : Nat) (c : Core) : (s.setCore n c).parts = s.parts := rfl
@[simp] theorem State.setCore_mgmt (s : State) (n : Nat) (c : Core) : (s.setCore n c).mgmt = s.mgmt := rfl
@[simp] theorem State.setCore_outer (s : State) (n : Nat) (c : Core) : (s.setCore n c).outer = s.outer := rfl
@[simp] theorem State.setCore_stopped (s : State) (n : Nat) (c : Core) : (s.setCore n c).stopped = s.stopped := rfl
@[simp] theorem State.setCore_time (s : State) (n : Nat) (c : Core) : (s.setCore n c).time = s.time := rfl
@[simp] theorem State.setCore_sched (s : State) (n : Nat) (c : Core) : (s.setCore n c).sched = s.sched := rfl
@[simp] theorem State.setCore_actor (s : State) (n : Nat) (c : Core) : (s.setCore n c).actor = s.actor := rfl
@[simp] theorem State.setCore_draws (s : State) (n : Nat) (c : Core) : (s.setCore n c).draws = s.draws := rfl
@[simp] theorem State.setCore_waiters (s : State) (n : Nat) (c : Core) : (s.setCore n c).waiters = s.waiters := rfl
@[simp] theorem State.setCore_older (s : State) (n : Nat) (c : Core) : (s.setCore n c).older = s.older := rfl

/-! ### setMe -/

@[simp] theorem State.setMe_mem (s : State) (c : Core) : (s.setMe c).mem = s.mem := rfl
@[simp] theorem State.setMe_clusters (s : State) (c : Core) : (s.setMe c).clusters = s.clusters := rfl
@[simp] theorem State.setMe_parts (s : State) (c : Core) : (s.setMe c).parts = s.parts := rfl
@[simp] theorem State.setMe_mgmt (s : State) (c : Core) : (s.setMe c).mgmt = s.mgmt := rfl
@[simp] theorem State.setMe_outer (s : State) (c : Core) : (s.setMe c).outer = s.outer := rfl
@[simp] theorem State.setMe_stopped (s : State) (c : Core) : (s.setMe c).stopped = s.stopped := rfl
@[simp] theorem State.setMe_time (s : State) (c : Core) : (s.setMe c).time = s.time := rfl
@[simp] theorem State.setMe_sched (s : State) (c : Core) : (s.setMe c).sched = s.sched := rfl
@[simp] theorem State.setMe_actor (s : State) (c : Core) : (s.setMe c).actor = s.actor := rfl
@[simp] theorem State.setMe_draws (s : State) (c : Core) : (s.setMe c).draws = s.draws := rfl
@[simp] theorem State.setMe_waiters (s : State) (c : Core) : (s.setMe c).waiters = s.waiters := rfl
@[simp] theorem State.setMe_older (s : State) (c : Core) : (s.setMe c).older = s.older := rfl

/-! ### setCluster -/

@[simp] theorem State.setCluster_mem (s : State) (k : Nat) (c : Cluster) : (s.setCluster k c).mem = s.mem := rfl
@[simp] theorem State.setCluster_cores (s : State) (k : Nat) (c : Cluster) : (s.setCluster k c).cores = s.cores := rfl
@[simp] theorem State.setCluster_parts (s : State) (k : Nat) (c : Cluster) : (s.setCluster k c).parts = s.parts := rfl
@[simp] theorem State.setCluster_mgmt (s : State) (k : Nat) (c : Cluster) : (s.setCluster k c).mgmt = s.mgmt := rfl
@[simp] theorem State.setCluster_outer (s : State) (k : Nat) (c : Cluster) : (s.setCluster k c).outer = s.outer := rfl
@[simp] theorem State.setCluster_stopped (s : State) (k : Nat) (c : Cluster) : (s.setCluster k c).stopped = s.stopped := rfl
@[simp] theorem State.setCluster_time (s : State) (k : Nat) (c : Cluster) : (s.setCluster k c).time = s.time := rfl
@[simp] theorem State.setCluster_sched (s : State) (k : Nat) (c : Cluster) : (s.setCluster k c).sched = s.sched := rfl
@[simp] theorem State.setCluster_actor (s : State) (k : Nat) (c : Cluster) : (s.setCluster k c).actor = s.actor := rfl
@[simp] theorem State.setCluster_draws (s : State) (k : Nat) (c : Cluster) : (s.setCluster k c).draws = s.draws := rfl
@[simp] theorem State.setCluster_waiters (s : State) (k : Nat) (c : Cluster) : (s.setCluster k c).waiters = s.waiters := rfl
@[simp] theorem State.setCluster_older (s : State) (k : Nat) (c : Cluster) : (s.setCluster k c).older = s.older := rfl

/-! ### setMyCluster -/

@[simp] theorem State.setMyCluster_mem (s : State) (c : Cluster) : (s.setMyCluster c).mem = s.mem := rfl
@[simp] theorem State.setMyCluster_cores (s : State) (c : Cluster) : (s.setMyCluster c).cores = s.cores := rfl
@[simp] theorem State.setMyCluster_parts (s : State) (c : Cluster) : (s.setMyCluster c).parts = s.parts := rfl
@[simp] theorem State.setMyCluster_mgmt (s : State) (c : Cluster) : (s.setMyCluster c).mgmt = s.mgmt := rfl
@[simp] theorem State.setMyCluster_outer (s : State) (c : Cluster) : (s.setMyCluster c).outer = s.outer := rfl
@[simp] theorem State.setMyCluster_stopped (s : State) (c : Cluster) : (s.setMyCluster c).stopped = s.stopped := rfl
@[simp] theorem State.setMyCluster_time (s : State) (c : Cluster) : (s.setMyCluster c).time = s.time := rfl
@[simp] theorem State.setMyCluster_sched (s : State) (c : Cluster) : (s.setMyCluster c).sched = s.sched := rfl
@[simp] theorem State.setMyCluster_actor (s : State) (c : Cluster) : (s.setMyCluster c).actor = s.actor := rfl
@[simp] theorem State.setMyCluster_draws (s : State) (c : Cluster) : (s.setMyCluster c).draws = s.draws := rfl
@[simp] theorem State.setMyCluster_waiters (s : State) (c : Cluster) : (s.setMyCluster c).waiters = s.waiters := rfl
@[simp] theorem State.setMyCluster_older (s : State) (c : Cluster) : (s.setMyCluster c).older = s.older := rfl

/-! ### setPart -/

@[simp] theorem State.setPart_mem (s : State) (p : Nat) (x : Partition) : (s.setPart p x).mem = s.mem := rfl
@[simp] theorem State.setPart_cores (s : State) (p : Nat) (x : Partition) : (s.setPart p x).cores = s.cores := rfl
@[simp] theorem State.setPart_clusters (s : State) (p : Nat) (x : Partition) : (s.setPart p x).clusters = s.clusters := rfl
@[simp] theorem State.setPart_mgmt (s : State) (p : Nat) (x : Partition) : (s.setPart p x).mgmt = s.mgmt := rfl
@[simp] theorem State.setPart_outer (s : State) (p : Nat) (x : Partition) : (s.setPart p x).outer = s.outer := rfl
@[simp] theorem State.setPart_stopped (s : State) (p : Nat) (x : Partition) : (s.setPart p x).stopped = s.stopped := rfl
@[simp] theorem State.setPart_time (s : State) (p : Nat) (x : Partition) : (s.setPart p x).time = s.time := rfl
@[simp] theorem State.setPart_sched (s : State) (p : Nat) (x : Partition) : (s.setPart p x).sched = s.sched := rfl
@[simp] theorem State.setPart_actor (s : State) (p : Nat) (x : Partition) : (s.setPart p x).actor = s.actor := rfl
@[simp] theorem State.setPart_draws (s : State) (p : Nat) (x : Partition) : (s.setPart p x).draws = s.draws := rfl
@[simp] theorem State.setPart_waiters (s : State) (p : Nat) (x : Partition) : (s.setPart p x).waiters = s.waiters := rfl
@[simp] theorem State.setPart_older (s : State) (p : Nat) (x : Partition) : (s.setPart p x).older = s.older := rfl

/-! ### modPart -/

@[simp] theorem State.modPart_mem (s : State) (p : Nat) (f : Partition → Partition) : (s.modPart p f).mem = s.mem := rfl
@[simp] theorem State.modPart_cores (s : State) (p : Nat) (f : Partition → Partition) : (s.modPart p f).cores = s.cores := rfl
@[simp] theorem State.modPart_clusters (s : State) (p : Nat) (f : Partition → Partition) : (s.modPart p f).clusters = s.clusters := rfl
@[simp] theorem State.modPart_mgmt (s : State) (p : Nat) (f : Partition → Partition) : (s.modPart p f).mgmt = s.mgmt := rfl
@[simp] theorem State.modPart_outer (s : State) (p : Nat) (f : Partition → Partition) : (s.modPart p f).outer = s.outer := rfl
@[simp] theorem State.modPart_stopped (s : State) (p : Nat) (f : Partition → Partition) : (s.modPart p f).stopped = s.stopped := rfl
@[simp] theorem State.modPart_time (s : State) (p : Nat) (f : Partition → Partition) : (s.modPart p f).time = s.time := rfl
@[simp] theorem State.modPart_sched (s : State) (p : Nat) (f : Partition → Partition) : (s.modPart p f).sched = s.sched := rfl
@[simp] theorem State.modPart_actor (s : State) (p : Nat) (f : Partition → Partition) : (s.modPart p f).actor = s.actor := rfl
@[simp] theorem State.modPart_draws (s : State) (p : Nat) (f : Partition → Partition) : (s.modPart p f).draws = s.draws := rfl
@[simp] theorem State.modPart_waiters (s : State) (p : Nat) (f : Partition → Partition) : (s.modPart p f).waiters = s.waiters := rfl
@[simp] theorem State.modPart_older (s : State) (p : Nat) (f : Partition → Partition) : (s.modPart p f).older = s.older := rfl

/-! ### setVf -/

@[simp] theorem State.setVf_mem (s : State) (v : Nat) (x : Vf) : (s.setVf v x).mem = s.mem := rfl
@[simp] theorem State.setVf_cores (s : State) (v : Nat) (x : Vf) : (s.setVf v x).cores = s.cores := rfl
@[simp] theorem State.setVf_clusters (s : State) (v : Nat) (x : Vf) : (s.setVf v x).clusters = s.clusters := rfl
@[simp] theorem State.setVf_parts (s : State) (v : Nat) (x : Vf) : (s.setVf v x).parts = s.parts := rfl
@[simp] theorem State.setVf_mgmt (s : State) (v : Nat) (x : Vf) : (s.setVf v x).mgmt = s.mgmt := rfl
@[simp] theorem State.setVf_stopped (s : State) (v : Nat) (x : Vf) : (s.setVf v x).stopped = s.stopped := rfl
@[simp] theorem State.setVf_time (s : State) (v : Nat) (x : Vf) : (s.setVf v x).time = s.time := rfl
@[simp] theorem State.setVf_sched (s : State) (v : Nat) (x : Vf) : (s.setVf v x).sched = s.sched := rfl
@[simp] theorem State.setVf_actor (s : State) (v : Nat) (x : Vf) : (s.setVf v x).actor = s.actor := rfl
@[simp] theorem State.setVf_draws (s : State) (v : Nat) (x : Vf) : (s.setVf v x).draws = s.draws := rfl
@[simp] theorem State.setVf_waiters (s : State) (v : Nat) (x : Vf) : (s.setVf v x).waiters = s.waiters := rfl
@[simp] theorem State.setVf_older (s : State) (v : Nat) (x : Vf) : (s.setVf v x).older = s.older := rfl

/-! ### setHart -/

@[simp] theorem State.setHart_mem (s : State) (h : HartId) (x : Hart) : (s.setHart h x).mem = s.mem := rfl
@[simp] theorem State.setHart_cores (s : State) (h : HartId) (x : Hart) : (s.setHart h x).cores = s.cores := rfl
@[simp] theorem State.setHart_clusters (s : State) (h : HartId) (x : Hart) : (s.setHart h x).clusters = s.clusters := rfl
@[simp] theorem State.setHart_parts (s : State) (h : HartId) (x : Hart) : (s.setHart h x).parts = s.parts := rfl
@[simp] theorem State.setHart_outer (s : State) (h : HartId) (x : Hart) : (s.setHart h x).outer = s.outer := rfl
@[simp] theorem State.setHart_stopped (s : State) (h : HartId) (x : Hart) : (s.setHart h x).stopped = s.stopped := rfl
@[simp] theorem State.setHart_time (s : State) (h : HartId) (x : Hart) : (s.setHart h x).time = s.time := rfl
@[simp] theorem State.setHart_sched (s : State) (h : HartId) (x : Hart) : (s.setHart h x).sched = s.sched := rfl
@[simp] theorem State.setHart_actor (s : State) (h : HartId) (x : Hart) : (s.setHart h x).actor = s.actor := rfl
@[simp] theorem State.setHart_draws (s : State) (h : HartId) (x : Hart) : (s.setHart h x).draws = s.draws := rfl
@[simp] theorem State.setHart_waiters (s : State) (h : HartId) (x : Hart) : (s.setHart h x).waiters = s.waiters := rfl
@[simp] theorem State.setHart_older (s : State) (h : HartId) (x : Hart) : (s.setHart h x).older = s.older := rfl

/-! ### say -/

@[simp] theorem State.say_mem (s : State) (o : Output) : (s.say o).mem = s.mem := rfl
@[simp] theorem State.say_cores (s : State) (o : Output) : (s.say o).cores = s.cores := rfl
@[simp] theorem State.say_clusters (s : State) (o : Output) : (s.say o).clusters = s.clusters := rfl
@[simp] theorem State.say_parts (s : State) (o : Output) : (s.say o).parts = s.parts := rfl
@[simp] theorem State.say_mgmt (s : State) (o : Output) : (s.say o).mgmt = s.mgmt := rfl
@[simp] theorem State.say_stopped (s : State) (o : Output) : (s.say o).stopped = s.stopped := rfl
@[simp] theorem State.say_time (s : State) (o : Output) : (s.say o).time = s.time := rfl
@[simp] theorem State.say_sched (s : State) (o : Output) : (s.say o).sched = s.sched := rfl
@[simp] theorem State.say_actor (s : State) (o : Output) : (s.say o).actor = s.actor := rfl
@[simp] theorem State.say_draws (s : State) (o : Output) : (s.say o).draws = s.draws := rfl
@[simp] theorem State.say_waiters (s : State) (o : Output) : (s.say o).waiters = s.waiters := rfl
@[simp] theorem State.say_older (s : State) (o : Output) : (s.say o).older = s.older := rfl

/-! ### drew -/

@[simp] theorem State.drew_mem (s : State) (n : Nat) : (s.drew n).mem = s.mem := rfl
@[simp] theorem State.drew_cores (s : State) (n : Nat) : (s.drew n).cores = s.cores := rfl
@[simp] theorem State.drew_clusters (s : State) (n : Nat) : (s.drew n).clusters = s.clusters := rfl
@[simp] theorem State.drew_parts (s : State) (n : Nat) : (s.drew n).parts = s.parts := rfl
@[simp] theorem State.drew_mgmt (s : State) (n : Nat) : (s.drew n).mgmt = s.mgmt := rfl
@[simp] theorem State.drew_outer (s : State) (n : Nat) : (s.drew n).outer = s.outer := rfl
@[simp] theorem State.drew_stopped (s : State) (n : Nat) : (s.drew n).stopped = s.stopped := rfl
@[simp] theorem State.drew_time (s : State) (n : Nat) : (s.drew n).time = s.time := rfl
@[simp] theorem State.drew_sched (s : State) (n : Nat) : (s.drew n).sched = s.sched := rfl
@[simp] theorem State.drew_actor (s : State) (n : Nat) : (s.drew n).actor = s.actor := rfl
@[simp] theorem State.drew_waiters (s : State) (n : Nat) : (s.drew n).waiters = s.waiters := rfl
@[simp] theorem State.drew_older (s : State) (n : Nat) : (s.drew n).older = s.older := rfl

/-! ### noWait -/

@[simp] theorem State.noWait_mem (s : State) (n : Nat) : (s.noWait n).mem = s.mem := rfl
@[simp] theorem State.noWait_cores (s : State) (n : Nat) : (s.noWait n).cores = s.cores := rfl
@[simp] theorem State.noWait_clusters (s : State) (n : Nat) : (s.noWait n).clusters = s.clusters := rfl
@[simp] theorem State.noWait_parts (s : State) (n : Nat) : (s.noWait n).parts = s.parts := rfl
@[simp] theorem State.noWait_mgmt (s : State) (n : Nat) : (s.noWait n).mgmt = s.mgmt := rfl
@[simp] theorem State.noWait_outer (s : State) (n : Nat) : (s.noWait n).outer = s.outer := rfl
@[simp] theorem State.noWait_stopped (s : State) (n : Nat) : (s.noWait n).stopped = s.stopped := rfl
@[simp] theorem State.noWait_time (s : State) (n : Nat) : (s.noWait n).time = s.time := rfl
@[simp] theorem State.noWait_sched (s : State) (n : Nat) : (s.noWait n).sched = s.sched := rfl
@[simp] theorem State.noWait_actor (s : State) (n : Nat) : (s.noWait n).actor = s.actor := rfl
@[simp] theorem State.noWait_draws (s : State) (n : Nat) : (s.noWait n).draws = s.draws := rfl
@[simp] theorem State.noWait_older (s : State) (n : Nat) : (s.noWait n).older = s.older := rfl

/-! ### wake -/

@[simp] theorem State.wake_mem (s : State) (w : Option Nat) (gs : List Nat) : (s.wake w gs).mem = s.mem := rfl
@[simp] theorem State.wake_clusters (s : State) (w : Option Nat) (gs : List Nat) : (s.wake w gs).clusters = s.clusters := rfl
@[simp] theorem State.wake_parts (s : State) (w : Option Nat) (gs : List Nat) : (s.wake w gs).parts = s.parts := rfl
@[simp] theorem State.wake_mgmt (s : State) (w : Option Nat) (gs : List Nat) : (s.wake w gs).mgmt = s.mgmt := rfl
@[simp] theorem State.wake_outer (s : State) (w : Option Nat) (gs : List Nat) : (s.wake w gs).outer = s.outer := rfl
@[simp] theorem State.wake_stopped (s : State) (w : Option Nat) (gs : List Nat) : (s.wake w gs).stopped = s.stopped := rfl
@[simp] theorem State.wake_time (s : State) (w : Option Nat) (gs : List Nat) : (s.wake w gs).time = s.time := rfl
@[simp] theorem State.wake_sched (s : State) (w : Option Nat) (gs : List Nat) : (s.wake w gs).sched = s.sched := rfl
@[simp] theorem State.wake_actor (s : State) (w : Option Nat) (gs : List Nat) : (s.wake w gs).actor = s.actor := rfl
@[simp] theorem State.wake_draws (s : State) (w : Option Nat) (gs : List Nat) : (s.wake w gs).draws = s.draws := rfl
@[simp] theorem State.wake_waiters (s : State) (w : Option Nat) (gs : List Nat) : (s.wake w gs).waiters = s.waiters := rfl
@[simp] theorem State.wake_older (s : State) (w : Option Nat) (gs : List Nat) : (s.wake w gs).older = s.older := rfl

/-! ### poke -/

@[simp] theorem State.poke_clusters (s : State) (l : Nat) (bs : List Byte) : (s.poke l bs).clusters = s.clusters := rfl
@[simp] theorem State.poke_parts (s : State) (l : Nat) (bs : List Byte) : (s.poke l bs).parts = s.parts := rfl
@[simp] theorem State.poke_mgmt (s : State) (l : Nat) (bs : List Byte) : (s.poke l bs).mgmt = s.mgmt := rfl
@[simp] theorem State.poke_outer (s : State) (l : Nat) (bs : List Byte) : (s.poke l bs).outer = s.outer := rfl
@[simp] theorem State.poke_stopped (s : State) (l : Nat) (bs : List Byte) : (s.poke l bs).stopped = s.stopped := rfl
@[simp] theorem State.poke_time (s : State) (l : Nat) (bs : List Byte) : (s.poke l bs).time = s.time := rfl
@[simp] theorem State.poke_sched (s : State) (l : Nat) (bs : List Byte) : (s.poke l bs).sched = s.sched := rfl
@[simp] theorem State.poke_actor (s : State) (l : Nat) (bs : List Byte) : (s.poke l bs).actor = s.actor := rfl
@[simp] theorem State.poke_draws (s : State) (l : Nat) (bs : List Byte) : (s.poke l bs).draws = s.draws := rfl
@[simp] theorem State.poke_waiters (s : State) (l : Nat) (bs : List Byte) : (s.poke l bs).waiters = s.waiters := rfl
@[simp] theorem State.poke_older (s : State) (l : Nat) (bs : List Byte) : (s.poke l bs).older = s.older := rfl

/-! ### storeAt -/

@[simp] theorem State.storeAt_clusters (s : State) (w : Option Nat) (f : Bool) (l k : Nat) (bs : List Byte) : (s.storeAt w f l k bs).clusters = s.clusters := rfl
@[simp] theorem State.storeAt_parts (s : State) (w : Option Nat) (f : Bool) (l k : Nat) (bs : List Byte) : (s.storeAt w f l k bs).parts = s.parts := rfl
@[simp] theorem State.storeAt_mgmt (s : State) (w : Option Nat) (f : Bool) (l k : Nat) (bs : List Byte) : (s.storeAt w f l k bs).mgmt = s.mgmt := rfl
@[simp] theorem State.storeAt_outer (s : State) (w : Option Nat) (f : Bool) (l k : Nat) (bs : List Byte) : (s.storeAt w f l k bs).outer = s.outer := rfl
@[simp] theorem State.storeAt_stopped (s : State) (w : Option Nat) (f : Bool) (l k : Nat) (bs : List Byte) : (s.storeAt w f l k bs).stopped = s.stopped := rfl
@[simp] theorem State.storeAt_time (s : State) (w : Option Nat) (f : Bool) (l k : Nat) (bs : List Byte) : (s.storeAt w f l k bs).time = s.time := rfl
@[simp] theorem State.storeAt_sched (s : State) (w : Option Nat) (f : Bool) (l k : Nat) (bs : List Byte) : (s.storeAt w f l k bs).sched = s.sched := rfl
@[simp] theorem State.storeAt_actor (s : State) (w : Option Nat) (f : Bool) (l k : Nat) (bs : List Byte) : (s.storeAt w f l k bs).actor = s.actor := rfl
@[simp] theorem State.storeAt_draws (s : State) (w : Option Nat) (f : Bool) (l k : Nat) (bs : List Byte) : (s.storeAt w f l k bs).draws = s.draws := rfl
@[simp] theorem State.storeAt_waiters (s : State) (w : Option Nat) (f : Bool) (l k : Nat) (bs : List Byte) : (s.storeAt w f l k bs).waiters = s.waiters := rfl
@[simp] theorem State.storeAt_older (s : State) (w : Option Nat) (f : Bool) (l k : Nat) (bs : List Byte) : (s.storeAt w f l k bs).older = s.older := rfl

/-! ### sendForward -/

@[simp] theorem State.sendForward_mem (s : State) (f : Forward) : (s.sendForward f).mem = s.mem := rfl
@[simp] theorem State.sendForward_cores (s : State) (f : Forward) : (s.sendForward f).cores = s.cores := rfl
@[simp] theorem State.sendForward_clusters (s : State) (f : Forward) : (s.sendForward f).clusters = s.clusters := rfl
@[simp] theorem State.sendForward_parts (s : State) (f : Forward) : (s.sendForward f).parts = s.parts := rfl
@[simp] theorem State.sendForward_mgmt (s : State) (f : Forward) : (s.sendForward f).mgmt = s.mgmt := rfl
@[simp] theorem State.sendForward_stopped (s : State) (f : Forward) : (s.sendForward f).stopped = s.stopped := rfl
@[simp] theorem State.sendForward_time (s : State) (f : Forward) : (s.sendForward f).time = s.time := rfl
@[simp] theorem State.sendForward_sched (s : State) (f : Forward) : (s.sendForward f).sched = s.sched := rfl
@[simp] theorem State.sendForward_actor (s : State) (f : Forward) : (s.sendForward f).actor = s.actor := rfl
@[simp] theorem State.sendForward_draws (s : State) (f : Forward) : (s.sendForward f).draws = s.draws := rfl
@[simp] theorem State.sendForward_waiters (s : State) (f : Forward) : (s.sendForward f).waiters = s.waiters := rfl
@[simp] theorem State.sendForward_older (s : State) (f : Forward) : (s.sendForward f).older = s.older := rfl

/-! ### dropAnswers -/

@[simp] theorem State.dropAnswers_mem (s : State) (c e : Nat) : (s.dropAnswers c e).mem = s.mem := rfl
@[simp] theorem State.dropAnswers_cores (s : State) (c e : Nat) : (s.dropAnswers c e).cores = s.cores := rfl
@[simp] theorem State.dropAnswers_clusters (s : State) (c e : Nat) : (s.dropAnswers c e).clusters = s.clusters := rfl
@[simp] theorem State.dropAnswers_parts (s : State) (c e : Nat) : (s.dropAnswers c e).parts = s.parts := rfl
@[simp] theorem State.dropAnswers_mgmt (s : State) (c e : Nat) : (s.dropAnswers c e).mgmt = s.mgmt := rfl
@[simp] theorem State.dropAnswers_stopped (s : State) (c e : Nat) : (s.dropAnswers c e).stopped = s.stopped := rfl
@[simp] theorem State.dropAnswers_time (s : State) (c e : Nat) : (s.dropAnswers c e).time = s.time := rfl
@[simp] theorem State.dropAnswers_sched (s : State) (c e : Nat) : (s.dropAnswers c e).sched = s.sched := rfl
@[simp] theorem State.dropAnswers_actor (s : State) (c e : Nat) : (s.dropAnswers c e).actor = s.actor := rfl
@[simp] theorem State.dropAnswers_draws (s : State) (c e : Nat) : (s.dropAnswers c e).draws = s.draws := rfl
@[simp] theorem State.dropAnswers_waiters (s : State) (c e : Nat) : (s.dropAnswers c e).waiters = s.waiters := rfl
@[simp] theorem State.dropAnswers_older (s : State) (c e : Nat) : (s.dropAnswers c e).older = s.older := rfl

/-! ### setRecBytes -/

@[simp] theorem State.setRecBytes_clusters (s : State) (p a o : Nat) (bs : List Byte) : (s.setRecBytes p a o bs).clusters = s.clusters := rfl
@[simp] theorem State.setRecBytes_parts (s : State) (p a o : Nat) (bs : List Byte) : (s.setRecBytes p a o bs).parts = s.parts := rfl
@[simp] theorem State.setRecBytes_mgmt (s : State) (p a o : Nat) (bs : List Byte) : (s.setRecBytes p a o bs).mgmt = s.mgmt := rfl
@[simp] theorem State.setRecBytes_outer (s : State) (p a o : Nat) (bs : List Byte) : (s.setRecBytes p a o bs).outer = s.outer := rfl
@[simp] theorem State.setRecBytes_stopped (s : State) (p a o : Nat) (bs : List Byte) : (s.setRecBytes p a o bs).stopped = s.stopped := rfl
@[simp] theorem State.setRecBytes_time (s : State) (p a o : Nat) (bs : List Byte) : (s.setRecBytes p a o bs).time = s.time := rfl
@[simp] theorem State.setRecBytes_sched (s : State) (p a o : Nat) (bs : List Byte) : (s.setRecBytes p a o bs).sched = s.sched := rfl
@[simp] theorem State.setRecBytes_actor (s : State) (p a o : Nat) (bs : List Byte) : (s.setRecBytes p a o bs).actor = s.actor := rfl
@[simp] theorem State.setRecBytes_draws (s : State) (p a o : Nat) (bs : List Byte) : (s.setRecBytes p a o bs).draws = s.draws := rfl
@[simp] theorem State.setRecBytes_waiters (s : State) (p a o : Nat) (bs : List Byte) : (s.setRecBytes p a o bs).waiters = s.waiters := rfl
@[simp] theorem State.setRecBytes_older (s : State) (p a o : Nat) (bs : List Byte) : (s.setRecBytes p a o bs).older = s.older := rfl

/-! ### setCtl -/

@[simp] theorem State.setCtl_clusters (s : State) (p a c : Nat) : (s.setCtl p a c).clusters = s.clusters := rfl
@[simp] theorem State.setCtl_parts (s : State) (p a c : Nat) : (s.setCtl p a c).parts = s.parts := rfl
@[simp] theorem State.setCtl_mgmt (s : State) (p a c : Nat) : (s.setCtl p a c).mgmt = s.mgmt := rfl
@[simp] theorem State.setCtl_outer (s : State) (p a c : Nat) : (s.setCtl p a c).outer = s.outer := rfl
@[simp] theorem State.setCtl_stopped (s : State) (p a c : Nat) : (s.setCtl p a c).stopped = s.stopped := rfl
@[simp] theorem State.setCtl_time (s : State) (p a c : Nat) : (s.setCtl p a c).time = s.time := rfl
@[simp] theorem State.setCtl_sched (s : State) (p a c : Nat) : (s.setCtl p a c).sched = s.sched := rfl
@[simp] theorem State.setCtl_actor (s : State) (p a c : Nat) : (s.setCtl p a c).actor = s.actor := rfl
@[simp] theorem State.setCtl_draws (s : State) (p a c : Nat) : (s.setCtl p a c).draws = s.draws := rfl
@[simp] theorem State.setCtl_waiters (s : State) (p a c : Nat) : (s.setCtl p a c).waiters = s.waiters := rfl
@[simp] theorem State.setCtl_older (s : State) (p a c : Nat) : (s.setCtl p a c).older = s.older := rfl

/-! ### setRecState -/

@[simp] theorem State.setRecState_clusters (s : State) (p a st : Nat) : (s.setRecState p a st).clusters = s.clusters := rfl
@[simp] theorem State.setRecState_parts (s : State) (p a st : Nat) : (s.setRecState p a st).parts = s.parts := rfl
@[simp] theorem State.setRecState_mgmt (s : State) (p a st : Nat) : (s.setRecState p a st).mgmt = s.mgmt := rfl
@[simp] theorem State.setRecState_outer (s : State) (p a st : Nat) : (s.setRecState p a st).outer = s.outer := rfl
@[simp] theorem State.setRecState_stopped (s : State) (p a st : Nat) : (s.setRecState p a st).stopped = s.stopped := rfl
@[simp] theorem State.setRecState_time (s : State) (p a st : Nat) : (s.setRecState p a st).time = s.time := rfl
@[simp] theorem State.setRecState_sched (s : State) (p a st : Nat) : (s.setRecState p a st).sched = s.sched := rfl
@[simp] theorem State.setRecState_actor (s : State) (p a st : Nat) : (s.setRecState p a st).actor = s.actor := rfl
@[simp] theorem State.setRecState_draws (s : State) (p a st : Nat) : (s.setRecState p a st).draws = s.draws := rfl
@[simp] theorem State.setRecState_waiters (s : State) (p a st : Nat) : (s.setRecState p a st).waiters = s.waiters := rfl
@[simp] theorem State.setRecState_older (s : State) (p a st : Nat) : (s.setRecState p a st).older = s.older := rfl

/-! ### enterPool -/

@[simp] theorem State.enterPool_mem (s : State) (p a : Nat) : (s.enterPool p a).mem = s.mem := rfl
@[simp] theorem State.enterPool_cores (s : State) (p a : Nat) : (s.enterPool p a).cores = s.cores := rfl
@[simp] theorem State.enterPool_clusters (s : State) (p a : Nat) : (s.enterPool p a).clusters = s.clusters := rfl
@[simp] theorem State.enterPool_mgmt (s : State) (p a : Nat) : (s.enterPool p a).mgmt = s.mgmt := rfl
@[simp] theorem State.enterPool_outer (s : State) (p a : Nat) : (s.enterPool p a).outer = s.outer := rfl
@[simp] theorem State.enterPool_stopped (s : State) (p a : Nat) : (s.enterPool p a).stopped = s.stopped := rfl
@[simp] theorem State.enterPool_time (s : State) (p a : Nat) : (s.enterPool p a).time = s.time := rfl
@[simp] theorem State.enterPool_sched (s : State) (p a : Nat) : (s.enterPool p a).sched = s.sched := rfl
@[simp] theorem State.enterPool_actor (s : State) (p a : Nat) : (s.enterPool p a).actor = s.actor := rfl
@[simp] theorem State.enterPool_draws (s : State) (p a : Nat) : (s.enterPool p a).draws = s.draws := rfl
@[simp] theorem State.enterPool_waiters (s : State) (p a : Nat) : (s.enterPool p a).waiters = s.waiters := rfl
@[simp] theorem State.enterPool_older (s : State) (p a : Nat) : (s.enterPool p a).older = s.older := rfl

/-! ### holdTrap -/

@[simp] theorem State.holdTrap_mem (s : State) (n e : Nat) (t : Trap) (i : Word64) (l : Option Nat) (w : Nat) : (s.holdTrap n e t i l w).mem = s.mem := rfl
@[simp] theorem State.holdTrap_clusters (s : State) (n e : Nat) (t : Trap) (i : Word64) (l : Option Nat) (w : Nat) : (s.holdTrap n e t i l w).clusters = s.clusters := rfl
@[simp] theorem State.holdTrap_parts (s : State) (n e : Nat) (t : Trap) (i : Word64) (l : Option Nat) (w : Nat) : (s.holdTrap n e t i l w).parts = s.parts := rfl
@[simp] theorem State.holdTrap_mgmt (s : State) (n e : Nat) (t : Trap) (i : Word64) (l : Option Nat) (w : Nat) : (s.holdTrap n e t i l w).mgmt = s.mgmt := rfl
@[simp] theorem State.holdTrap_stopped (s : State) (n e : Nat) (t : Trap) (i : Word64) (l : Option Nat) (w : Nat) : (s.holdTrap n e t i l w).stopped = s.stopped := rfl
@[simp] theorem State.holdTrap_time (s : State) (n e : Nat) (t : Trap) (i : Word64) (l : Option Nat) (w : Nat) : (s.holdTrap n e t i l w).time = s.time := rfl
@[simp] theorem State.holdTrap_sched (s : State) (n e : Nat) (t : Trap) (i : Word64) (l : Option Nat) (w : Nat) : (s.holdTrap n e t i l w).sched = s.sched := rfl
@[simp] theorem State.holdTrap_actor (s : State) (n e : Nat) (t : Trap) (i : Word64) (l : Option Nat) (w : Nat) : (s.holdTrap n e t i l w).actor = s.actor := rfl
@[simp] theorem State.holdTrap_draws (s : State) (n e : Nat) (t : Trap) (i : Word64) (l : Option Nat) (w : Nat) : (s.holdTrap n e t i l w).draws = s.draws := rfl
@[simp] theorem State.holdTrap_older (s : State) (n e : Nat) (t : Trap) (i : Word64) (l : Option Nat) (w : Nat) : (s.holdTrap n e t i l w).older = s.older := rfl

/-! ### advance -/

@[simp] theorem State.advance_mem (s : State) : (s.advance).mem = s.mem := rfl
@[simp] theorem State.advance_clusters (s : State) : (s.advance).clusters = s.clusters := rfl
@[simp] theorem State.advance_parts (s : State) : (s.advance).parts = s.parts := rfl
@[simp] theorem State.advance_mgmt (s : State) : (s.advance).mgmt = s.mgmt := rfl
@[simp] theorem State.advance_outer (s : State) : (s.advance).outer = s.outer := rfl
@[simp] theorem State.advance_stopped (s : State) : (s.advance).stopped = s.stopped := rfl
@[simp] theorem State.advance_time (s : State) : (s.advance).time = s.time := rfl
@[simp] theorem State.advance_sched (s : State) : (s.advance).sched = s.sched := rfl
@[simp] theorem State.advance_actor (s : State) : (s.advance).actor = s.actor := rfl
@[simp] theorem State.advance_draws (s : State) : (s.advance).draws = s.draws := rfl
@[simp] theorem State.advance_waiters (s : State) : (s.advance).waiters = s.waiters := rfl
@[simp] theorem State.advance_older (s : State) : (s.advance).older = s.older := rfl

/-! ### perform -/

@[simp] theorem State.perform_mem (s : State) (n : Nat) (u : Nat → Bool) : (s.perform n u).mem = s.mem := rfl
@[simp] theorem State.perform_cores (s : State) (n : Nat) (u : Nat → Bool) : (s.perform n u).cores = s.cores := rfl
@[simp] theorem State.perform_clusters (s : State) (n : Nat) (u : Nat → Bool) : (s.perform n u).clusters = s.clusters := rfl
@[simp] theorem State.perform_parts (s : State) (n : Nat) (u : Nat → Bool) : (s.perform n u).parts = s.parts := rfl
@[simp] theorem State.perform_mgmt (s : State) (n : Nat) (u : Nat → Bool) : (s.perform n u).mgmt = s.mgmt := rfl
@[simp] theorem State.perform_outer (s : State) (n : Nat) (u : Nat → Bool) : (s.perform n u).outer = s.outer := rfl
@[simp] theorem State.perform_stopped (s : State) (n : Nat) (u : Nat → Bool) : (s.perform n u).stopped = s.stopped := rfl
@[simp] theorem State.perform_time (s : State) (n : Nat) (u : Nat → Bool) : (s.perform n u).time = s.time := rfl
@[simp] theorem State.perform_sched (s : State) (n : Nat) (u : Nat → Bool) : (s.perform n u).sched = s.sched := rfl
@[simp] theorem State.perform_actor (s : State) (n : Nat) (u : Nat → Bool) : (s.perform n u).actor = s.actor := rfl
@[simp] theorem State.perform_draws (s : State) (n : Nat) (u : Nat → Bool) : (s.perform n u).draws = s.draws := rfl
@[simp] theorem State.perform_waiters (s : State) (n : Nat) (u : Nat → Bool) : (s.perform n u).waiters = s.waiters := rfl

/-! ### orderOwn -/

@[simp] theorem State.orderOwn_mem (s : State) (n : Nat) : (s.orderOwn n).mem = s.mem := rfl
@[simp] theorem State.orderOwn_cores (s : State) (n : Nat) : (s.orderOwn n).cores = s.cores := rfl
@[simp] theorem State.orderOwn_clusters (s : State) (n : Nat) : (s.orderOwn n).clusters = s.clusters := rfl
@[simp] theorem State.orderOwn_parts (s : State) (n : Nat) : (s.orderOwn n).parts = s.parts := rfl
@[simp] theorem State.orderOwn_mgmt (s : State) (n : Nat) : (s.orderOwn n).mgmt = s.mgmt := rfl
@[simp] theorem State.orderOwn_outer (s : State) (n : Nat) : (s.orderOwn n).outer = s.outer := rfl
@[simp] theorem State.orderOwn_stopped (s : State) (n : Nat) : (s.orderOwn n).stopped = s.stopped := rfl
@[simp] theorem State.orderOwn_time (s : State) (n : Nat) : (s.orderOwn n).time = s.time := rfl
@[simp] theorem State.orderOwn_sched (s : State) (n : Nat) : (s.orderOwn n).sched = s.sched := rfl
@[simp] theorem State.orderOwn_actor (s : State) (n : Nat) : (s.orderOwn n).actor = s.actor := rfl
@[simp] theorem State.orderOwn_draws (s : State) (n : Nat) : (s.orderOwn n).draws = s.draws := rfl
@[simp] theorem State.orderOwn_waiters (s : State) (n : Nat) : (s.orderOwn n).waiters = s.waiters := rfl

/-! ### releaseOlder -/

@[simp] theorem State.releaseOlder_mem (s : State) (n : Nat) : (s.releaseOlder n).mem = s.mem := rfl
@[simp] theorem State.releaseOlder_cores (s : State) (n : Nat) : (s.releaseOlder n).cores = s.cores := rfl
@[simp] theorem State.releaseOlder_clusters (s : State) (n : Nat) : (s.releaseOlder n).clusters = s.clusters := rfl
@[simp] theorem State.releaseOlder_parts (s : State) (n : Nat) : (s.releaseOlder n).parts = s.parts := rfl
@[simp] theorem State.releaseOlder_mgmt (s : State) (n : Nat) : (s.releaseOlder n).mgmt = s.mgmt := rfl
@[simp] theorem State.releaseOlder_outer (s : State) (n : Nat) : (s.releaseOlder n).outer = s.outer := rfl
@[simp] theorem State.releaseOlder_stopped (s : State) (n : Nat) : (s.releaseOlder n).stopped = s.stopped := rfl
@[simp] theorem State.releaseOlder_time (s : State) (n : Nat) : (s.releaseOlder n).time = s.time := rfl
@[simp] theorem State.releaseOlder_sched (s : State) (n : Nat) : (s.releaseOlder n).sched = s.sched := rfl
@[simp] theorem State.releaseOlder_actor (s : State) (n : Nat) : (s.releaseOlder n).actor = s.actor := rfl
@[simp] theorem State.releaseOlder_draws (s : State) (n : Nat) : (s.releaseOlder n).draws = s.draws := rfl
@[simp] theorem State.releaseOlder_waiters (s : State) (n : Nat) : (s.releaseOlder n).waiters = s.waiters := rfl

/-! ### setRecWorld -/

@[simp] theorem State.setRecWorld_mem (s : State) (p a w : Nat) : (s.setRecWorld p a w).mem = s.mem := rfl
@[simp] theorem State.setRecWorld_cores (s : State) (p a w : Nat) : (s.setRecWorld p a w).cores = s.cores := rfl
@[simp] theorem State.setRecWorld_clusters (s : State) (p a w : Nat) : (s.setRecWorld p a w).clusters = s.clusters := rfl
@[simp] theorem State.setRecWorld_mgmt (s : State) (p a w : Nat) : (s.setRecWorld p a w).mgmt = s.mgmt := rfl
@[simp] theorem State.setRecWorld_outer (s : State) (p a w : Nat) : (s.setRecWorld p a w).outer = s.outer := rfl
@[simp] theorem State.setRecWorld_stopped (s : State) (p a w : Nat) : (s.setRecWorld p a w).stopped = s.stopped := rfl
@[simp] theorem State.setRecWorld_time (s : State) (p a w : Nat) : (s.setRecWorld p a w).time = s.time := rfl
@[simp] theorem State.setRecWorld_sched (s : State) (p a w : Nat) : (s.setRecWorld p a w).sched = s.sched := rfl
@[simp] theorem State.setRecWorld_actor (s : State) (p a w : Nat) : (s.setRecWorld p a w).actor = s.actor := rfl
@[simp] theorem State.setRecWorld_draws (s : State) (p a w : Nat) : (s.setRecWorld p a w).draws = s.draws := rfl
@[simp] theorem State.setRecWorld_waiters (s : State) (p a w : Nat) : (s.setRecWorld p a w).waiters = s.waiters := rfl
@[simp] theorem State.setRecWorld_older (s : State) (p a w : Nat) : (s.setRecWorld p a w).older = s.older := rfl

/-! ### writeG -/

@[simp] theorem State.writeG_mem (s : State) (d : BitVec 5) (v : Word64) : (s.writeG d v).mem = s.mem := rfl
@[simp] theorem State.writeG_clusters (s : State) (d : BitVec 5) (v : Word64) : (s.writeG d v).clusters = s.clusters := rfl
@[simp] theorem State.writeG_parts (s : State) (d : BitVec 5) (v : Word64) : (s.writeG d v).parts = s.parts := rfl
@[simp] theorem State.writeG_mgmt (s : State) (d : BitVec 5) (v : Word64) : (s.writeG d v).mgmt = s.mgmt := rfl
@[simp] theorem State.writeG_outer (s : State) (d : BitVec 5) (v : Word64) : (s.writeG d v).outer = s.outer := rfl
@[simp] theorem State.writeG_stopped (s : State) (d : BitVec 5) (v : Word64) : (s.writeG d v).stopped = s.stopped := rfl
@[simp] theorem State.writeG_time (s : State) (d : BitVec 5) (v : Word64) : (s.writeG d v).time = s.time := rfl
@[simp] theorem State.writeG_sched (s : State) (d : BitVec 5) (v : Word64) : (s.writeG d v).sched = s.sched := rfl
@[simp] theorem State.writeG_actor (s : State) (d : BitVec 5) (v : Word64) : (s.writeG d v).actor = s.actor := rfl
@[simp] theorem State.writeG_draws (s : State) (d : BitVec 5) (v : Word64) : (s.writeG d v).draws = s.draws := rfl
@[simp] theorem State.writeG_waiters (s : State) (d : BitVec 5) (v : Word64) : (s.writeG d v).waiters = s.waiters := rfl
@[simp] theorem State.writeG_older (s : State) (d : BitVec 5) (v : Word64) : (s.writeG d v).older = s.older := rfl

/-! ### writeC -/

@[simp] theorem State.writeC_mem (s : State) (d : BitVec 4) (v : Cap) : (s.writeC d v).mem = s.mem := rfl
@[simp] theorem State.writeC_clusters (s : State) (d : BitVec 4) (v : Cap) : (s.writeC d v).clusters = s.clusters := rfl
@[simp] theorem State.writeC_parts (s : State) (d : BitVec 4) (v : Cap) : (s.writeC d v).parts = s.parts := rfl
@[simp] theorem State.writeC_mgmt (s : State) (d : BitVec 4) (v : Cap) : (s.writeC d v).mgmt = s.mgmt := rfl
@[simp] theorem State.writeC_outer (s : State) (d : BitVec 4) (v : Cap) : (s.writeC d v).outer = s.outer := rfl
@[simp] theorem State.writeC_stopped (s : State) (d : BitVec 4) (v : Cap) : (s.writeC d v).stopped = s.stopped := rfl
@[simp] theorem State.writeC_time (s : State) (d : BitVec 4) (v : Cap) : (s.writeC d v).time = s.time := rfl
@[simp] theorem State.writeC_sched (s : State) (d : BitVec 4) (v : Cap) : (s.writeC d v).sched = s.sched := rfl
@[simp] theorem State.writeC_actor (s : State) (d : BitVec 4) (v : Cap) : (s.writeC d v).actor = s.actor := rfl
@[simp] theorem State.writeC_draws (s : State) (d : BitVec 4) (v : Cap) : (s.writeC d v).draws = s.draws := rfl
@[simp] theorem State.writeC_waiters (s : State) (d : BitVec 4) (v : Cap) : (s.writeC d v).waiters = s.waiters := rfl
@[simp] theorem State.writeC_older (s : State) (d : BitVec 4) (v : Cap) : (s.writeC d v).older = s.older := rfl

/-! ### keepOlder, putLast -/

@[simp] theorem State.keepOlder_mem (s : State) (n u l k b : Nat) : (s.keepOlder n u l k b).mem = s.mem := by
  unfold State.keepOlder; split <;> rfl
@[simp] theorem State.keepOlder_cores (s : State) (n u l k b : Nat) : (s.keepOlder n u l k b).cores = s.cores := by
  unfold State.keepOlder; split <;> rfl
@[simp] theorem State.keepOlder_clusters (s : State) (n u l k b : Nat) : (s.keepOlder n u l k b).clusters = s.clusters := by
  unfold State.keepOlder; split <;> rfl
@[simp] theorem State.keepOlder_parts (s : State) (n u l k b : Nat) : (s.keepOlder n u l k b).parts = s.parts := by
  unfold State.keepOlder; split <;> rfl
@[simp] theorem State.keepOlder_mgmt (s : State) (n u l k b : Nat) : (s.keepOlder n u l k b).mgmt = s.mgmt := by
  unfold State.keepOlder; split <;> rfl
@[simp] theorem State.keepOlder_outer (s : State) (n u l k b : Nat) : (s.keepOlder n u l k b).outer = s.outer := by
  unfold State.keepOlder; split <;> rfl
@[simp] theorem State.keepOlder_stopped (s : State) (n u l k b : Nat) : (s.keepOlder n u l k b).stopped = s.stopped := by
  unfold State.keepOlder; split <;> rfl
@[simp] theorem State.keepOlder_time (s : State) (n u l k b : Nat) : (s.keepOlder n u l k b).time = s.time := by
  unfold State.keepOlder; split <;> rfl
@[simp] theorem State.keepOlder_sched (s : State) (n u l k b : Nat) : (s.keepOlder n u l k b).sched = s.sched := by
  unfold State.keepOlder; split <;> rfl
@[simp] theorem State.keepOlder_actor (s : State) (n u l k b : Nat) : (s.keepOlder n u l k b).actor = s.actor := by
  unfold State.keepOlder; split <;> rfl
@[simp] theorem State.keepOlder_draws (s : State) (n u l k b : Nat) : (s.keepOlder n u l k b).draws = s.draws := by
  unfold State.keepOlder; split <;> rfl
@[simp] theorem State.keepOlder_waiters (s : State) (n u l k b : Nat) : (s.keepOlder n u l k b).waiters = s.waiters := by
  unfold State.keepOlder; split <;> rfl
@[simp] theorem State.putLast_clusters (s : State) (n : Nat) (x : Bool) (l k : Nat) (bs : List Byte) :
    (s.putLast n x l k bs).clusters = s.clusters := by simp [State.putLast]
@[simp] theorem State.putLast_parts (s : State) (n : Nat) (x : Bool) (l k : Nat) (bs : List Byte) :
    (s.putLast n x l k bs).parts = s.parts := by simp [State.putLast]
@[simp] theorem State.putLast_mgmt (s : State) (n : Nat) (x : Bool) (l k : Nat) (bs : List Byte) :
    (s.putLast n x l k bs).mgmt = s.mgmt := by simp [State.putLast]
@[simp] theorem State.putLast_outer (s : State) (n : Nat) (x : Bool) (l k : Nat) (bs : List Byte) :
    (s.putLast n x l k bs).outer = s.outer := by simp [State.putLast]
@[simp] theorem State.putLast_stopped (s : State) (n : Nat) (x : Bool) (l k : Nat) (bs : List Byte) :
    (s.putLast n x l k bs).stopped = s.stopped := by simp [State.putLast]
@[simp] theorem State.putLast_time (s : State) (n : Nat) (x : Bool) (l k : Nat) (bs : List Byte) :
    (s.putLast n x l k bs).time = s.time := by simp [State.putLast]
@[simp] theorem State.putLast_sched (s : State) (n : Nat) (x : Bool) (l k : Nat) (bs : List Byte) :
    (s.putLast n x l k bs).sched = s.sched := by simp [State.putLast]
@[simp] theorem State.putLast_actor (s : State) (n : Nat) (x : Bool) (l k : Nat) (bs : List Byte) :
    (s.putLast n x l k bs).actor = s.actor := by simp [State.putLast]
@[simp] theorem State.putLast_draws (s : State) (n : Nat) (x : Bool) (l k : Nat) (bs : List Byte) :
    (s.putLast n x l k bs).draws = s.draws := by simp [State.putLast]
@[simp] theorem State.putLast_waiters (s : State) (n : Nat) (x : Bool) (l k : Nat) (bs : List Byte) :
    (s.putLast n x l k bs).waiters = s.waiters := by simp [State.putLast]

/-! ### Accessors -/

theorem State.core_setCore (s : State) (n m : Nat) (c : Core) :
    (s.setCore n c).core m = if m = n then c else s.core m := Sparse.get_set n m c Core.init s.cores

@[simp] theorem State.core_setCore_same (s : State) (n : Nat) (c : Core) : (s.setCore n c).core n = c := by
  simp [State.core_setCore]

@[simp] theorem State.me_setMe (s : State) (c : Core) : (s.setMe c).me = c :=
  Sparse.get_set_same s.actor.core c Core.init s.cores

theorem State.core_setMe (s : State) (n : Nat) (c : Core) (h : n ≠ s.actor.core) : (s.setMe c).core n = s.core n :=
  Sparse.get_set_other c Core.init s.cores h

theorem State.cluster_setCluster (s : State) (k m : Nat) (c : Cluster) :
    (s.setCluster k c).cluster m = if m = k then c else s.cluster m := Sparse.get_set k m c Cluster.init s.clusters

@[simp] theorem State.myCluster_setMyCluster (s : State) (c : Cluster) : (s.setMyCluster c).myCluster = c :=
  Sparse.get_set_same s.home c Cluster.init s.clusters

theorem State.part_setPart (s : State) (p q : Nat) (x : Partition) :
    (s.setPart p x).part q = if q = p then x else s.part q := Sparse.get_set p q x Partition.init s.parts

theorem State.part_modPart (s : State) (p q : Nat) (f : Partition → Partition) :
    (s.modPart p f).part q = if q = p then f (s.part p) else s.part q := State.part_setPart s p q _

theorem State.vf_setVf (s : State) (v w : Nat) (x : Vf) : (s.setVf v x).vf w = if w = v then x else s.vf w :=
  Sparse.get_set v w x Vf.init s.outer.vfs

theorem Vf.queue_setQueue (f : Vf) (q r : Nat) (x : Queue) : (f.setQueue q x).queue r = if r = q then x else f.queue r :=
  Sparse.get_set q r x Queue.init f.queues

theorem hartNo_inj {g h : HartId} (e : hartNo g = hartNo h) : g = h := by
  obtain ⟨c, n⟩ := g
  obtain ⟨d, m⟩ := h
  simp only [hartNo] at e
  have hc : c = d := by apply Fin.ext; omega
  have hn : n = m := by apply Fin.ext; omega
  rw [hc, hn]

theorem State.hartOf_setHart (s : State) (h g : HartId) (x : Hart) :
    (s.setHart h x).hartOf g = if g = h then x else s.hartOf g := by
  have e := Sparse.get_set (hartNo h) (hartNo g) x Hart.init s.mgmt.harts
  by_cases hg : g = h
  · subst hg; simp [State.hartOf, State.setHart]
  · rw [if_neg hg]
    rw [if_neg (fun q => hg (hartNo_inj q))] at e
    exact e

theorem Core.getG_setG (c : Core) (n m : Nat) (v : Word64) :
    (c.setG n v).getG m = if m = n ∧ m ≠ 0 then v else c.getG m := by
  unfold Core.setG Core.getG
  by_cases hn : n = 0
  · by_cases hm : m = 0
    · simp [hn, hm]
    · have hmn : ¬ m = n := by omega
      simp [hn, hm]
  · by_cases hm : m = 0
    · simp [hm]
    · simp [hn, hm, Sparse.get_set]

theorem Core.getC_setC (c : Core) (n m : Nat) (v : Cap) : (c.setC n v).getC m = if m = n then v else c.getC m :=
  Sparse.get_set n m v Cap.null c.c

@[simp] theorem Core.getG_zero (c : Core) : c.getG 0 = 0 := rfl

@[simp] theorem State.g_zero (s : State) : s.g 0 = 0 := rfl

end Sys2Proof.Machine
end

