-- ==== Sys2Proof/Laws/Ops.lean ====
section
/-! SUPPORT. For each shared operation, what it does, said once: register writes, going on, stores, trap entry, held
traps, and the outcomes of a sequencer instruction and of an engine word. -/

namespace Sys2Proof.Machine

open Sys2Proof

/-! ### Sameness -/

theorem SameBytes.refl (s : State) (keep : Nat → Prop) : SameBytes s s keep :=
  fun l _ => ⟨(Mem.byteUnder_keyAt s.mem l _ rfl).symm, .inl rfl⟩

theorem SameMemory.of_mem {s t : State} (h : t.mem = s.mem) : SameMemory s t := by
  refine ⟨fun l _ => ?_, ?_, ?_, ?_, ?_⟩ <;> rw [h]
  exact ⟨(Mem.byteUnder_keyAt s.mem l _ rfl).symm, .inl rfl⟩

/-- A byte and its key as they were read as they did. -/
theorem SameBytes.of_same {s t : State} {keep : Nat → Prop}
    (h : ∀ l, keep l → t.mem.byte l = s.mem.byte l ∧ t.mem.keyAt l = s.mem.keyAt l) : SameBytes s t keep := by
  intro l hl
  obtain ⟨h1, h2⟩ := h l hl
  exact ⟨by rw [h1, Mem.byteUnder_keyAt s.mem l _ h2.symm], .inl h2⟩

/-- A change of the acting core alone. -/
theorem onlyCore_setMe (s : State) (c : Core) : OnlyCore s (s.setMe c) c :=
  ⟨SameMemory.of_mem rfl, ⟨rfl, rfl, rfl, rfl, rfl, rfl, rfl, rfl, rfl⟩, rfl,
    fun n hn => State.core_setMe s n c hn, fun _ _ => Iff.rfl, State.me_setMe s c⟩

/-- An engine of the core, or its sequencer, that has waited waits no more; nothing else changes. -/
theorem onlyCore_noWaiter {s t : State} {c : Core} (e : Nat) (h : OnlyCore s t c) :
    OnlyCore s (t.noWait (waiterOf s.actor.core e)) c := by
  obtain ⟨hm, hs, hp, hc, hw, hme⟩ := h
  refine ⟨hm, hs, hp, hc, fun w hne => ?_, hme⟩
  rw [← hw w hne]
  simp [State.noWait, List.mem_filter, hne e]

theorem onlyCore_noWait {s t : State} {c : Core} (h : OnlyCore s t c) : OnlyCore s (t.noWait s.actor.core) c :=
  onlyCore_noWaiter 0 h

/-- Reads given up at other modules change nothing that the frame of the acting core speaks of, beside the requests. -/
theorem onlyCore_dropLoads {s t : State} {c : Core} (n e : Nat) (h : OnlyCore s t c) :
    OnlyCore (s.dropLoads n e) (t.dropLoads n e) c := by
  obtain ⟨hm, ⟨h1, h2, h3, h4, h5, h6, h7, h8, h9⟩, hp, hc, hw, hme⟩ := h
  refine ⟨hm, ⟨h1, h2, ?_, h4, h5, h6, h7, h8, h9⟩, hp, hc, hw, hme⟩
  unfold State.dropLoads
  simp only
  rw [h3]

/-! ### Register writes -/

theorem State.g_setMe_setG (s : State) (d r : BitVec 5) (v pc : Word64) :
    (s.setMe { s.me.setG d.toNat v with pc := pc }).g r = if r = d ∧ r ≠ 0 then v else s.g r := by
  have h : (s.setMe { s.me.setG d.toNat v with pc := pc }).g r = (s.me.setG d.toNat v).getG r.toNat := by
    unfold State.g
    rw [State.me_setMe]
    rfl
  rw [h, Core.getG_setG]
  have hr : r.toNat ≠ 0 ↔ r ≠ 0 := by
    rw [Ne, Ne, ← BitVec.toNat_inj]
    rfl
  simp only [BitVec.toNat_inj, hr]
  rfl

/-- g_d is written and the core goes on. -/
theorem wroteG_writeG (s : State) (d : BitVec 5) (v : Word64) : WroteG s (s.writeG d v) d v := by
  refine ⟨fun r => State.g_setMe_setG s d r v _, ?_⟩
  have h : { s.me with g := (s.writeG d v).me.g, pc := s.me.pc + 1 } = { s.me.setG d.toNat v with pc := s.me.pc + 1 } := by
    have e : (s.writeG d v).me = { s.me.setG d.toNat v with pc := s.me.pc + 1 } := State.me_setMe s _
    rw [e]
    unfold Core.setG
    split <;> rfl
  rw [h]
  exact onlyCore_setMe s _

/-- c_d is written and the core goes on. -/
theorem wroteC_writeC (s : State) (d : BitVec 4) (v : Cap) : WroteC s (s.writeC d v) d v := by
  have e : (s.writeC d v).me = { s.me.setC d.toNat v with pc := s.me.pc + 1 } := State.me_setMe s _
  refine ⟨fun r => ?_, ?_⟩
  · unfold State.c
    rw [e]
    have h := Core.getC_setC s.me d.toNat r.toNat v
    simp only [BitVec.toNat_inj] at h
    exact h
  · have h : { s.me with c := (s.writeC d v).me.c, pc := s.me.pc + 1 } = { s.me.setC d.toNat v with pc := s.me.pc + 1 } := by
      rw [e]; rfl
    rw [h]
    exact onlyCore_setMe s _

/-- The core goes on and nothing else changes. -/
theorem wentTo_advance (s : State) : WentTo s s.advance (s.me.pc + 1) := onlyCore_setMe s _

theorem WroteG.noWait {s t : State} {d : BitVec 5} {v : Word64} (h : WroteG s t d v) :
    WroteG s (t.noWait s.actor.core) d v := ⟨h.1, onlyCore_noWait h.2⟩

theorem WroteC.noWait {s t : State} {d : BitVec 4} {v : Cap} (h : WroteC s t d v) :
    WroteC s (t.noWait s.actor.core) d v := ⟨h.1, onlyCore_noWait h.2⟩

/-! ### Traps (R173, R175) -/

/-- Where a handler can run, trap entry on the acting core enters it, and nothing else changes. -/
theorem enteredHandler_trapEntry (s : State) (t : Trap) (info : Word64) (lane : Option Nat) (h : CanTrap s) :
    EnteredHandler s (s.trapEntry s.actor.core t info lane 0 s.me.pc.toNat s.me.holdsTrap s.me.pc) t.code info lane
      (if t = .swtrap then s.me.pc + 1 else s.me.pc) := by
  have hc : ¬ ((s.core s.actor.core).sys.inh || decide ((s.core s.actor.core).sys.trapvec = 0)) = true := by
    obtain ⟨h1, h2⟩ := h
    simp only [State.me] at h1 h2
    rw [h1, Bool.false_or, decide_eq_true_eq]
    exact h2
  unfold State.trapEntry
  simp only
  rw [if_neg hc]
  exact onlyCore_dropLoads _ 0 (onlyCore_noWait (onlyCore_setMe s _))

/-- Without one the continuation ends faulted. -/
theorem trapEntry_endFaulted (s : State) (n : Nat) (t : Trap) (info : Word64) (lane : Option Nat) (e w : Nat) (more : Bool)
    (pc : Word64) (h : (s.core n).sys.inh = true ∨ (s.core n).sys.trapvec = 0) :
    s.trapEntry n t info lane e w more pc = s.endFaulted n t.code info lane e w more pc.toNat := by
  unfold State.trapEntry
  simp only
  rw [if_pos (by rcases h with h | h <;> simp [h])]

/-! ### Outcomes -/

@[simp] theorem State.runSeq_ok (s t : State) : s.runSeq (.ok t) = .next (t.noWait s.actor.core) := rfl

@[simp] theorem State.runSeq_trap (s : State) (t : Trap) (i : Word64) (l : Option Nat) :
    s.runSeq (.error (.trap t i l)) = .next (s.trapEntry s.actor.core t i l 0 s.me.pc.toNat s.me.holdsTrap s.me.pc) := rfl

@[simp] theorem State.runWord_ok (s t : State) (n e w : Nat) :
    s.runWord n e w (.ok t) = .next (t.noWait (waiterOf n e)) := rfl

@[simp] theorem State.runWord_trap (s : State) (n e w : Nat) (t : Trap) (i : Word64) (l : Option Nat) :
    s.runWord n e w (.error (.trap t i l)) = .next (s.holdTrap n e t i l w) := rfl

/-- Every sequencer instruction answers a next state. -/
theorem State.goes_runSeq (s : State) (r : Chk State) : Goes (s.runSeq r) := by
  cases r with
  | ok t => exact ⟨_, rfl⟩
  | error e => cases e <;> exact ⟨_, rfl⟩

/-- Every engine word answers a next state. -/
theorem State.goes_runWord (s : State) (n e w : Nat) (r : Chk State) : Goes (s.runWord n e w r) := by
  cases r with
  | ok t => exact ⟨_, rfl⟩
  | error x => cases x <;> exact ⟨_, rfl⟩

/-! ### Stores -/

theorem State.wf_storeAt {s : State} (w : Option Nat) (f : Bool) (l k : Nat) (bs : List Byte) (h : s.mem.wf = true) :
    (s.storeAt w f l k bs).mem.wf = true := by
  have hw := Mem.wf_write k l bs h
  unfold State.storeAt State.wake
  simp only
  split
  · exact hw
  · exact hw

theorem State.wf_poke {s : State} (l : Nat) (bs : List Byte) (h : s.mem.wf = true) : (s.poke l bs).mem.wf = true :=
  Mem.wf_poke l bs h

/-- A store leaves every byte outside its own as it was. -/
theorem State.sameBytes_storeAt (s : State) (w : Option Nat) (f : Bool) (l k : Nat) (bs : List Byte) :
    SameBytes s (s.storeAt w f l k bs) (fun x => x < l ∨ l + bs.length ≤ x) := by
  intro x hx
  have hw : (s.mem.write k l bs).byte x = s.mem.byteUnder ((s.mem.write k l bs).keyAt x) x
      ∧ ((s.mem.write k l bs).keyAt x = s.mem.keyAt x ∨ ∃ y, ¬ (y < l ∨ l + bs.length ≤ y) ∧ y / 16 = x / 16) := by
    have h := Mem.readsOn_write s.mem k l x bs hx
    refine ⟨h.1, h.2.imp id ?_⟩
    rintro ⟨h0, h1 | h1⟩
    · exact ⟨l, by omega, h1.symm⟩
    · exact ⟨l + bs.length - 1, by omega, h1.symm⟩
  unfold State.storeAt State.wake
  simp only
  split
  · exact hw
  · exact hw

/-- Bytes just stored under a key stand there under it. -/
theorem State.readUnder_storeAt (s : State) (w : Option Nat) (f : Bool) (l k : Nat) (bs : List Byte) :
    (s.storeAt w f l k bs).mem.readUnder k l bs.length = bs := by
  have hw := Mem.readUnder_write s.mem k l bs
  unfold State.storeAt State.wake
  simp only
  split
  · exact hw
  · exact hw

/-- A device write stands, and leaves every other byte as it was. -/
theorem poked_poke (s : State) (l : Nat) (bs : List Byte) : Poked s (s.poke l bs) l bs :=
  ⟨Mem.raw_poke s.mem l bs, SameBytes.of_same (fun x hx => Mem.same_poke s.mem l x bs hx)⟩

/-- Where a unit's write is ordered after every write of its core's other units, it is a plain store, and what it replaces
is kept. -/
theorem State.putHere_ordered (s : State) (n u : Nat) (f : Bool) (l k : Nat) (bs : List Byte)
    (h : (granules l bs.length).any (fun g => s.unordered n u (16 * g)) = false) :
    s.putHere n u f l k bs =
      (s.keepOlder n u l k bs.length).storeAt (if u = 0 then some n else none) f l k bs := by
  unfold State.putHere
  rw [h, Bool.and_false]
  rfl

theorem State.wf_putHere {s : State} (n u : Nat) (f : Bool) (l k : Nat) (bs : List Byte) (h : s.mem.wf = true) :
    (s.putHere n u f l k bs).mem.wf = true := by
  have keep : ∀ {t : State} (w : Option Nat) (a n' : Nat) (c : List Byte), t.mem.wf = true →
      ((t.keepOlder n u a k n').storeAt w f a k c).mem.wf = true := fun w a n' c ht =>
    State.wf_storeAt w f a k c (by rw [State.keepOlder_mem]; exact ht)
  unfold State.putHere
  simp only
  split
  · generalize Config.writesBefore s.draws = wb
    clear * - h keep
    generalize cuts l bs.length = cs
    induction cs generalizing s with
    | nil => exact h
    | cons c cs ih =>
      rw [List.foldl_cons]
      apply ih
      split
      · exact h
      · exact keep _ _ _ _ h
  · exact keep _ _ _ _ h

theorem State.wf_putPiece {s : State} (n e w u : Nat) (f : Bool) (p : Piece) (bs : List Byte) (h : s.mem.wf = true) :
    (s.putPiece n e f p bs w u).mem.wf = true := by
  unfold State.putPiece
  split
  · exact State.wf_putHere _ _ _ _ _ _ h
  · split <;> exact h

theorem State.wf_putRuns {s : State} (n e w u : Nat) (f : Bool) (ps : List Piece) (bs : List Byte)
    (h : s.mem.wf = true) : (s.putRuns n e f w u ps bs).mem.wf = true := by
  induction ps generalizing s bs with
  | nil => exact h
  | cons p ps ih => exact ih _ (State.wf_putPiece n e w u f p _ h)

theorem State.wf_putPieces {s : State} (n e w u : Nat) (f : Bool) (ps : List Piece) (bs : List Byte)
    (h : s.mem.wf = true) : (s.putPieces n e f ps bs w u).mem.wf = true := State.wf_putRuns n e w u f _ bs h

@[simp] theorem State.post_mem (s : State) (fs : List Forward) : (s.post fs).mem = s.mem := by
  induction fs generalizing s with
  | nil => rfl
  | cons f fs ih =>
    unfold State.post
    split
    · exact ih s
    · exact ih _

/-! ### Management -/

/-- A change of one hart changes nothing else. -/
theorem hartBecomes_setHart (s : State) (h : HartId) (x : Hart) : HartBecomes s (s.setHart h x) h x := by
  refine ⟨?_, fun g hg => ?_, rfl⟩
  · rw [State.hartOf_setHart, if_pos rfl]
  · rw [State.hartOf_setHart, if_neg hg]

/-- A change of one virtual function leaves the others. -/
theorem vfBecomes_setVf (s : State) (v : Nat) (x : Vf) : VfBecomes s (s.setVf v x) v x := by
  refine ⟨?_, fun w hw => ?_⟩
  · rw [State.vf_setVf, if_pos rfl]
  · rw [State.vf_setVf, if_neg hw]

end Sys2Proof.Machine
end

