-- ==== Sys2Proof/Laws/Canonical.lean ====
section
/-! SUPPORT. The places that write cells beside the operations of the memory keep its canonical form too. -/

namespace Sys2Proof.Machine

theorem State.wf_setRecBytesBy {s : State} (w : Option Nat) (p a o : Nat) (bs : List Byte) (h : s.mem.wf = true) :
    (s.setRecBytesBy w p a o bs).mem.wf = true := Mem.canonical_putCells _ bs h

theorem State.wf_setCtl {s : State} (p a c : Nat) (h : s.mem.wf = true) : (s.setCtl p a c).mem.wf = true :=
  State.wf_setRecBytesBy none p a 28 _ h

theorem State.wf_setRecState {s : State} (p a st : Nat) (h : s.mem.wf = true) : (s.setRecState p a st).mem.wf = true :=
  State.wf_setCtl p a _ h

theorem State.wf_makeRunnable {s : State} (p a : Nat) (h : s.mem.wf = true) : (s.makeRunnable p a).mem.wf = true := by
  unfold State.makeRunnable
  split
  · exact h
  · exact State.wf_setRecState p a 1 h

theorem State.wf_clearL1 {s : State} (n : Nat) (h : s.mem.wf = true) : (s.clearL1 n).mem.wf = true := Mem.wf_wipe _ _ h

theorem State.wf_restoreL1 {s : State} (n : Nat) (y : Party) (x : Saved) (h : s.mem.wf = true) :
    (s.restoreL1 n y x).mem.wf = true :=
  Mem.canonical_foldl (fun q : Nat × Byte => l1Loc n 0 + q.1) (fun q => q.2) _ (State.wf_clearL1 n h)

theorem Mem.wf_scrubFrame {m : Mem} (k l : Nat) (h : m.wf = true) : (Mem.scrubFrame k m l).wf = true :=
  Mem.wf_putBytes _ _ _ (Mem.wf_wipe _ _ h)

theorem Mem.wf_rekey {m : Mem} (k l : Nat) (bs : List Byte) (h : m.wf = true) : (m.rekey k l bs).wf = true :=
  Mem.wf_putBytes k l bs h

theorem State.wf_keepRing {s : State} (h : s.mem.wf = true) : s.keepRing.wf = true := Mem.wf_wipe _ _ (Mem.wf_wipe _ _ h)

theorem State.wf_afterReset (s : State) {m : Mem} (g : Mgmt) (x : Outer) (h : m.wf = true) :
    (s.afterReset m g x).mem.wf = true := Mem.wf_wipe sramLo sramLen h

theorem State.wf_reset : State.reset.mem.wf = true := rfl

end Sys2Proof.Machine
end

