-- ==== Sys2Proof/Laws/Cumulus.lean ====
section
/-! SUPPORT. What Cumulus fetches for its tasks depends on no field of its cluster but the modes of the banks (R265). -/

namespace Sys2Proof.Machine

/-- A change of the acting cluster that keeps its banks changes no bank of the machine. -/
theorem bank_setMyCluster (s : State) (c : Cluster) (h : c.banks = s.myCluster.banks) (k b : Nat) :
    ((s.setMyCluster c).cluster k).bank b = (s.cluster k).bank b := by
  have e : (s.setMyCluster c).cluster k = if k = s.home then c else s.cluster k := Sparse.get_set s.home k c Cluster.init _
  rw [e]
  split
  · rename_i hk; subst hk; exact congrArg (fun l => Sparse.get l Bank.init b) h
  · rfl

/-- No walk of the second stage reads a cluster. -/
theorem walk2_setMyCluster (s : State) (c : Cluster) (p gpa L table : Nat) :
    (s.setMyCluster c).walk2 p gpa L table = s.walk2 p gpa L table := by
  induction L generalizing table with
  | zero => rw [State.walk2, State.walk2]; rfl
  | succ L ih => rw [State.walk2, State.walk2]; simp only [ih]; rfl

/-- The second stage reads no cluster. -/
theorem translate2_setMyCluster (s : State) (c : Cluster) (y : Party) (g : Nat) (w z : Bool) :
    (s.setMyCluster c).translate2 y g w z = s.translate2 y g w z := by
  simp only [State.translate2, walk2_setMyCluster]
  rfl

/-- No read of a table entry reads a cluster. -/
theorem read2_setMyCluster (s : State) (c : Cluster) (y : Party) (g L v : Nat) (w : Bool) :
    (s.setMyCluster c).read2 y g L v w = s.read2 y g L v w := by
  simp only [State.read2, translate2_setMyCluster]
  rfl

/-- No walk of the first stage reads a cluster. -/
theorem walk1_setMyCluster (s : State) (c : Cluster) (y : Party) (va : Nat) (w : Bool) (L table : Nat) :
    (s.setMyCluster c).walk1 y va w L table = s.walk1 y va w L table := by
  induction L generalizing table with
  | zero => rw [State.walk1, State.walk1]; simp only [read2_setMyCluster]
  | succ L ih => rw [State.walk1, State.walk1]; simp only [read2_setMyCluster, ih]

/-- What a walk depends on reads no cluster. -/
theorem walkReads_setMyCluster (s : State) (c : Cluster) (y : Party) (va L table : Nat) :
    (s.setMyCluster c).walkReads y va L table = s.walkReads y va L table := by
  induction L generalizing table with
  | zero => rw [State.walkReads, State.walkReads]; simp only [read2_setMyCluster]
  | succ L ih => rw [State.walkReads, State.walkReads]; simp only [read2_setMyCluster, ih]

/-- The first stage reads no cluster. -/
theorem guestOf_setMyCluster (s : State) (c : Cluster) (y : Party) (va : Nat) (w : Bool) :
    (s.setMyCluster c).guestOf y va w = s.guestOf y va w := by
  simp only [State.guestOf, read2_setMyCluster, walk1_setMyCluster]
  rfl

/-- Nor does what a translation depends on. -/
theorem guestReads_setMyCluster (s : State) (c : Cluster) (y : Party) (va : Nat) :
    (s.setMyCluster c).guestReads y va = s.guestReads y va := by
  simp only [State.guestReads, read2_setMyCluster, walkReads_setMyCluster]
  rfl

/-- Translation reads no cluster. -/
theorem translate_setMyCluster (s : State) (c : Cluster) (y : Party) (va : Nat) (w z : Bool) :
    (s.setMyCluster c).translate y va w z = s.translate y va w z := by
  simp only [State.translate, guestOf_setMyCluster, translate2_setMyCluster]

/-- A page that is being moved is so whatever the clusters hold. -/
theorem pageCopying_setMyCluster (s : State) (c : Cluster) (y : Party) (va : Nat) :
    (s.setMyCluster c).pageCopying y va = s.pageCopying y va := by
  simp only [State.pageCopying, guestOf_setMyCluster, walk2_setMyCluster]
  rfl

/-- A request names no cluster. -/
theorem request_setMyCluster (s : State) (c : Cluster) (core e w m l : Nat) (v : Word64) (k : FwdKind) (g : Nat)
    (a : Asker) : (s.setMyCluster c).request core e w m l v k g a = s.request core e w m l v k g a := by
  simp only [State.request, guestReads_setMyCluster]
  rfl

/-- A walk that waits for a table entry asks for it whatever the clusters hold. -/
theorem farWalk_setMyCluster {α : Type} (s : State) (c : Cluster) (core e : Nat) (r : Chk α) :
    (s.setMyCluster c).farWalk core e r = s.farWalk core e r := by
  simp only [State.farWalk, State.tableRequest, request_setMyCluster]

/-- Generations are looked up whatever the clusters hold. -/
theorem awaitGen_setMyCluster (s : State) (c : Cluster) (y : Party) (x : Nat) :
    (s.setMyCluster c).awaitGen y x = s.awaitGen y x := by
  simp only [State.awaitGen, translate_setMyCluster]

/-- A read of a core reads no cluster. -/
theorem readPieces_setMyCluster (s : State) (c : Cluster) (core e : Nat) (ps : List Piece) (unit : Nat) :
    (s.setMyCluster c).readPieces core e ps unit = s.readPieces core e ps unit := by
  have req := request_setMyCluster s c core e
  have piece : ∀ p, (s.setMyCluster c).readPiece core e p unit = s.readPiece core e p unit := by
    intro p
    simp only [State.readPiece, req]
    rfl
  simp only [State.readPieces, piece]

/-- A member's fetch is the same after such a change. -/
theorem activations_setMyCluster (s : State) (c : Cluster) (h : c.banks = s.myCluster.banks) (t : CumTask) (n : Nat) :
    (s.setMyCluster c).activations t n = s.activations t n := by
  have bank := bank_setMyCluster s c h
  have held : ∀ w v, (s.setMyCluster c).bankHeld w v = s.bankHeld w v := by
    intro w v
    simp only [State.bankHeld, State.bankBusy, bank]
    rfl
  have ok : ∀ y r v, (s.setMyCluster c).kindOk y r v = s.kindOk y r v := by
    intro y r v
    simp only [State.kindOk, State.bankOk, bank]
    rfl
  have key : ∀ p w, (s.setMyCluster c).keyOf p w = s.keyOf p w := fun _ _ => rfl
  have tr := translate_setMyCluster s c
  have place : ∀ core y v w z, (s.setMyCluster c).placeOf core y v w z = s.placeOf core y v w z := by
    intro core y v w z
    simp only [State.placeOf, bank, key, tr, pageCopying_setMyCluster]
  have pieces : ∀ u x, (s.setMyCluster c).passPieces t u x n false = s.passPieces t u x n false := by
    intro u x
    simp only [State.passPieces, State.checkKind, State.piecesOf, held, ok, place]
  have cap : ∀ y x, (s.setMyCluster c).freshCap y x = s.freshCap y x := by
    intro y x
    simp only [State.freshCap, State.genAt, State.farStale, tr]
    rfl
  simp only [State.activations, pieces, cap, readPieces_setMyCluster, farWalk_setMyCluster, awaitGen_setMyCluster]

end Sys2Proof.Machine
end

