-- ==== Sys2Proof/Laws/SaveArea.lean ====
section
/-! SUPPORT. Bytes cut from lists, numbers in bytes, and the law of save areas: an area as the device wrote it passes the
checks of a restore (R377, R378, R380). -/

namespace Sys2Proof.Machine

@[simp] theorem length_leBytes (x n : Nat) : (leBytes x n).length = n := by
  induction n generalizing x with
  | zero => rfl
  | succ n ih => simp [leBytes, ih]

/-- The number in n bytes is the one that was put there, modulo 256^n. -/
theorem leNat_leBytes (x n : Nat) : leNat (leBytes x n) = x % 256 ^ n := by
  induction n generalizing x with
  | zero => simp [leBytes, leNat, Nat.mod_one]
  | succ n ih =>
    rw [leBytes, leNat, ih, Nat.pow_succ, Nat.mul_comm _ 256, Nat.mod_mul, BitVec.toNat_ofNat]

@[simp] theorem length_sliceB (o n : Nat) (l : List Byte) : (sliceB o n l).length = n := by
  simp only [sliceB, List.length_append, List.length_replicate, List.length_take]; omega

/-- A slice that is there whole is what stands between what comes before it and what comes after. -/
theorem sliceB_middle (a b c : List Byte) : sliceB a.length b.length (a ++ b ++ c) = b := by
  simp [sliceB, List.append_assoc]

/-- The first n bytes of a list whose beginning is there whole. -/
theorem sliceB_front (a b : List Byte) (n : Nat) : sliceB 0 (a.length + n) (a ++ b) = a ++ sliceB 0 n b := by
  have h : a.length + n - (a.length + min n b.length) = n - min n b.length := by omega
  simp [sliceB, List.take_append, List.append_assoc, h]

/-- The header of a save up to its digest. -/
def saveFront (x : Saved) : List Byte :=
  leBytes 0x53415645 4 ++ leBytes 1 2 ++ leBytes (sectionsOf x).length 2 ++ leBytes x.record 8 ++ leBytes x.epoch.toNat 8
    ++ [BitVec.ofNat 8 x.world, BitVec.ofNat 8 x.context, BitVec.ofNat 8 x.kind, BitVec.ofNat 8 (dieOf x.cluster),
        BitVec.ofNat 8 (clusterInDie x.cluster), BitVec.ofNat 8 (x.origin % 8), 0, 0]

theorem length_saveFront (x : Saved) : (saveFront x).length = 32 := by simp [saveFront]

/-- A header is its first 32 bytes, the digest's 64 and the directory. -/
theorem saveHeader_eq (x : Saved) (d : List Byte) :
    saveHeader x d = saveFront x ++ sliceB 0 64 d ++ directory (sectionsOf x) 4096 := rfl

/-- An area as the device wrote it passes the checks of a restore under the key that sealed it, with the save's own epoch,
record and world. -/
theorem area_good (x : Saved) (key base : Nat) (hr : x.record < 2 ^ 64) (hw : x.world < 256) :
    areaGood key (x.area key base) x.epoch.toNat x.record x.world = true := by
  have front : ∀ d, sliceB 0 4096 (saveHeader x d)
      = saveFront x ++ sliceB 0 64 d ++ sliceB 0 4000 (directory (sectionsOf x) 4096) := by
    intro d
    have := sliceB_front (saveFront x ++ sliceB 0 64 d) (directory (sectionsOf x) 4096) 4000
    rwa [List.length_append, length_saveFront, length_sliceB, ← saveHeader_eq] at this
  generalize hd : areaDigest key (sliceB 0 4096 (saveHeader x []) ++ x.cipher key base) = d
  have dl : d.length = 64 := by rw [← hd]; exact length_leBytes _ _
  have ds : sliceB 0 64 d = d := by simpa [dl] using sliceB_middle [] d []
  have hz : sliceB 0 64 [] = List.replicate 64 (0 : Byte) := rfl
  have area : x.area key base
      = saveFront x ++ d ++ (sliceB 0 4000 (directory (sectionsOf x) 4096) ++ x.cipher key base) := by
    rw [Saved.area, hd, front, ds, List.append_assoc]
  have l32 := length_saveFront x
  have digest : areaDigest key (x.area key base) = d := by
    rw [← hd, area, areaDigest, areaDigest, front, hz]
    simp [List.drop_append, l32, dl]
  have fields : ∀ (o n : Nat) (pre mid post : List Byte), saveFront x = pre ++ mid ++ post → pre.length = o → mid.length = n →
      sliceB o n (x.area key base) = mid := by
    intro o n pre mid post h ho hn
    subst ho hn
    rw [area, h, List.append_assoc, List.append_assoc (pre ++ mid)]
    exact sliceB_middle _ _ _
  have at32 : sliceB 32 64 (x.area key base) = d := by
    rw [area]; have := sliceB_middle (saveFront x) d (sliceB 0 4000 (directory (sectionsOf x) 4096) ++ x.cipher key base)
    rwa [l32, dl] at this
  have epoch : numAt 16 8 (x.area key base) = x.epoch.toNat := by
    rw [numAt, fields 16 8 (leBytes 0x53415645 4 ++ leBytes 1 2 ++ leBytes (sectionsOf x).length 2 ++ leBytes x.record 8) _ _
      rfl (by simp) (by simp), leNat_leBytes]
    exact Nat.mod_eq_of_lt x.epoch.isLt
  have record : numAt 8 8 (x.area key base) = x.record := by
    rw [numAt, fields 8 8 (leBytes 0x53415645 4 ++ leBytes 1 2 ++ leBytes (sectionsOf x).length 2) (leBytes x.record 8) _
      (List.append_assoc _ _ _) (by simp) (by simp), leNat_leBytes]
    exact Nat.mod_eq_of_lt hr
  have world : numAt 24 1 (x.area key base) = x.world := by
    rw [numAt, fields 24 1 _ [BitVec.ofNat 8 x.world] _ (List.append_assoc _ [BitVec.ofNat 8 x.world] _).symm
      (by simp) rfl]
    simp [leNat, Nat.mod_eq_of_lt hw]
  simp [areaGood, at32, digest, epoch, record, world]

/-! ### Lengths of what is enciphered -/

@[simp] theorem length_xorBytes (a b : List Nat) : (xorBytes a b).length = min a.length b.length := by simp [xorBytes]

@[simp] theorem length_shiftRows (k : Nat) (b : List Nat) : (shiftRows k b).length = 16 := by simp [shiftRows]

/-- Key expansion adds n words to the words it has. -/
theorem length_expandKey (n i rc : Nat) (w : List Nat) (hw : w.length = 4 * i) (hi : 8 ≤ i) :
    (expandKey n i rc w).length = 4 * (i + n) := by
  induction n generalizing i rc w with
  | zero => exact hw
  | succ n ih =>
    have e : 4 * (i + (n + 1)) = 4 * (i + 1 + n) := by omega
    rw [e, expandKey]
    split
    · refine ih _ _ _ ?_ (by omega); simp; omega
    · split <;> (refine ih _ _ _ ?_ (by omega); simp; omega)

theorem length_aesBlock (k b : List Nat) (hk : k.length = 32) : (aesBlock (aesKeys k) b).length = 16 := by
  have h : (aesKeys k).length = 240 := length_expandKey 52 8 1 k (by omega) (by omega)
  simp [aesBlock, roundKey, h]

theorem length_aesUnrounds (w : List Nat) (n : Nat) (b : List Nat) (hb : b.length = 16) : (aesUnrounds w n b).length = 16 := by
  induction n generalizing b with
  | zero => exact hb
  | succ n ih => exact ih _ (by simp)

theorem length_aesUnblock (k b : List Nat) (hk : k.length = 32) : (aesUnblock (aesKeys k) b).length = 16 := by
  have h : (aesKeys k).length = 240 := length_expandKey 52 8 1 k (by omega) (by omega)
  simp [aesUnblock, roundKey, h, length_aesUnrounds]

theorem length_xtsBlock (d : Bool) (key unit j : Nat) (b : List Byte) : (xtsBlock d key unit j b).length = 16 := by
  have h : ((numBytes key 64).take 32).length = 32 := by simp [numBytes]
  have t : ∀ x, (numBytes x 16).length = 16 := fun x => by simp [numBytes]
  cases d
  · simp only [xtsBlock, Bool.false_eq_true, if_false, List.length_map, length_xorBytes, length_aesBlock _ _ h, t, Nat.min_self]
  · simp only [xtsBlock, if_true, List.length_map, length_xorBytes, length_aesUnblock _ _ h, t, Nat.min_self]

theorem length_sealBytes (key n a : Nat) (l : List Byte) : (sealBytes key n l a).length = 16 * n := by
  induction n generalizing a l with
  | zero => rfl
  | succ n ih => rw [sealBytes, List.length_append, length_xtsBlock, ih]; omega

/-- The sections of a save are as long as the directory says. -/
theorem length_plain (x : Saved) :
    ((x.sections.map (fun t => sliceB 0 t.2.1 t.2.2)).flatten).length = ((sectionsOf x).map Prod.snd).sum := by
  simp [sectionsOf, List.length_flatten, Function.comp_def]

/-- The lengths of the sections, in directory order. -/
theorem section_lengths (x : Saved) : (sectionsOf x).map Prod.snd
    = [4096, 16384, 20480, 270336] ++ (if x.keepsBlock then [65536] else []) ++ (if x.slots ≠ [] then [1052672] else [])
      ++ List.replicate x.tiles.length 528384 ++ (if x.strat.isSome then [917504] else []) := by
  unfold sectionsOf Saved.sections
  generalize coreSection x.core = a, vregSection x.core = b, queueSection x.core = c, l1Section x = d,
    engineSection x.core = e, stageSection x = f
  cases x.keepsBlock <;> by_cases h : x.slots ≠ [] <;> cases x.strat <;>
    simp only [h, ne_eq, not_false_eq_true, List.map_replicate, if_true, if_false, Bool.false_eq_true, List.map_append, List.map_map, List.map_cons, List.map_nil,
      Function.comp_def, List.map_const', Option.isSome_some, Option.isSome_none]

/-- Every section's length is a multiple of sixteen. -/
theorem sections_aligned (x : Saved) : ((sectionsOf x).map Prod.snd).sum % 16 = 0 := by
  rw [section_lengths]
  generalize x.tiles.length = n
  simp only [List.sum_append, List.sum_replicate, List.sum_cons, List.sum_nil, smul_eq_mul]
  split <;> split <;> split <;> simp only [List.sum_cons, List.sum_nil] <;> omega

/-- An area is as long as the device reads back. -/
theorem length_area (x : Saved) (key base : Nat) : (x.area key base).length = x.length := by
  have h := sections_aligned x
  simp only [Saved.area, List.length_append, length_sliceB, Saved.cipher, length_sealBytes, length_plain, Saved.length]
  omega

end Sys2Proof.Machine
end

