-- ==== Sys2Proof/Tests/Slice0.lean ====
section
/-! SUPPORT. The model's own tests: ill-formed terms refused, words written out from the encodings of the spec, small
steps with results worked out from the spec, and for each statement with hypotheses a state and operands that meet
them. -/

namespace Sys2Proof.Tests

open Sys2Proof Sys2Proof.Machine

set_option Elab.async false

/-- The state after reset with core 0 as given. -/
def withCore (c : Core) : State := { State.reset with cores := [(0, c)] }

/-- Core 0 with some g registers. -/
def withG (l : List (Nat × Word64)) : State := withCore { Core.init with g := l }

/-- Core 0 with some c registers. -/
def withC (l : List (Nat × Cap)) : State := withCore { Core.init with c := l }

/-- Core 0 with its system registers as given. -/
def withSys (y : CoreSys) : State := withCore { Core.init with sys := y }

/-- System registers with a handler at word 0x40. -/
def handled : CoreSys := { CoreSys.init with trapvec := 0x40 }

/-- A capability over [lo, hi) with its cursor at lo, for bounds less than 2^15 apart (exponent 0). -/
def small (lo hi perm : Nat) : Cap :=
  ⟨BitVec.ofNat 64 lo, 0, 0, BitVec.ofNat 12 perm, 0, BitVec.ofNat 15 lo, BitVec.ofNat 15 hi, true⟩

/-- The base of the core's own L1 window (R181). -/
def l1Base : Nat := 0x7F0000000000

/-- Something of the state an outcome goes on to. -/
def after {α : Type} (o : Host.Outcome State Fault Refusal) (f : State → α) : Option α :=
  match o with
  | .next t => some (f t)
  | _ => none

/-- A check has passed, with a result of which f holds. -/
def passed {ε α : Type} (r : Except ε α) (f : α → Bool) : Bool :=
  match r with
  | .ok a => f a
  | .error _ => false

/-! ### Ill-formed terms are refused -/

theorem test_wf_selector : (Instr.vrun 1 0).wf = false ∧ (Instr.mend 7).wf = false ∧ (Instr.vrun 8 0).wf = true := by
  decide
theorem test_wf_destination : (Instr.vadd 56 0 0 0 0 0 0).wf = false ∧ (Instr.viota 59 0).wf = false
    ∧ (Instr.viota 60 0).wf = true := by decide
theorem test_wf_source : (Instr.vabs 0 60 0 0 0).wf = false ∧ (Instr.vadd 0 0 63 0 0 0 0).wf = false
    ∧ (Instr.vabs 0 59 0 0 0).wf = true := by decide
theorem test_wf_same_load_port : (Instr.vadd 0 56 56 0 0 0 0).wf = false ∧ (Instr.vadd 0 56 57 0 0 0 0).wf = true := by
  decide
theorem test_wf_destination_read : (Instr.vfma 60 0 0 0 0 0 0).wf = false ∧ (Instr.vsel 60 0 0 0 0 0).wf = false
    ∧ (Instr.vshadd 61 0 0 0 0 0).wf = false := by decide
theorem test_wf_permits : (Instr.pmtinit 9 0).wf = false ∧ (Instr.pmtinit 8 0).wf = true := by decide
theorem test_wf_drain_count : (Instr.stwin 0 9 0).wf = false ∧ (Instr.stwin 0 8 0).wf = true := by decide
theorem test_wf_scope : (Instr.fence 6).wf = false ∧ (Instr.amoadd 1 2 3 0 6).wf = false ∧ (Instr.fence 5).wf = true := by
  decide
theorem test_wf_load_size : (Instr.lds 0 0 7 0 0).wf = false ∧ (Instr.lds 0 0 6 2 0).wf = true := by decide
theorem test_wf_qualifier : (Instr.lds 0 0 0 3 0).wf = false ∧ (Instr.sts 0 0 0 3 0).wf = false
    ∧ (Instr.ldc 0 0 3 0).wf = false ∧ (Instr.stc 0 0 3 0).wf = false ∧ (Instr.ldq 0 0 0 3).wf = false
    ∧ (Instr.stq 0 0 0 3).wf = false := by decide
theorem test_wf_vmul_variant : (Instr.vmul 0 1 2 0 0 0 3).wf = false ∧ (Instr.vmul 0 1 2 0 0 0 2).wf = true := by decide
theorem test_wf_vquant_bits : (Instr.vquant 0 1 1 0 0).wf = false ∧ (Instr.vquant 0 1 9 0 0).wf = false
    ∧ (Instr.vquant 0 1 8 0 0).wf = true := by decide
theorem test_wf_hadamard_size : (Instr.had 0 0 3).wf = false ∧ (Instr.had 0 0 2).wf = true := by decide
theorem test_wf_level : (Instr.xloop 6).wf = false ∧ (Instr.xbound 6 0).wf = false ∧ (Instr.xsstr 7 0).wf = false
    ∧ (Instr.xdstr 6 0).wf = false ∧ (Instr.xloop 5).wf = true := by decide
theorem test_wf_stratus_register : (Instr.qload 7 0).wf = false ∧ (Instr.btld 7 0).wf = false
    ∧ (Instr.btgatherK 7 0).wf = false ∧ (Instr.btgatherV 7 0).wf = false ∧ (Instr.merge 7 0).wf = false
    ∧ (Instr.ostore 7 0).wf = false ∧ (Instr.ostore 6 0).wf = true := by decide
theorem test_wf_mask : (Instr.mask 3).wf = false ∧ (Instr.mask 2).wf = true := by decide
theorem test_wf_readiness_bit : (Instr.functionReady 1024).wf = false ∧ (Instr.readinessLimitMissed 1024).wf = false
    ∧ (Instr.functionFailedInService 1024).wf = false ∧ (Instr.functionReady 1023).wf = true := by decide
theorem test_wf_pod_port : (Instr.podPortReturnsToService 36).wf = false
    ∧ (Instr.podPortReturnsToService 35).wf = true := by decide
theorem test_wf_register_port : (Instr.registerWrite (.queuePage 256 0) 0 0).wf = false
    ∧ (Instr.registerWrite (.queuePage 0 64) 0 0).wf = false ∧ (Instr.registerWrite (.transPage 256) 0 0).wf = false
    ∧ (Instr.registerWrite (.errPage 256) 0 0).wf = false ∧ (Instr.registerWrite (.queuePage 255 63) 0 0).wf = true := by
  decide
theorem test_wf_die : (Instr.monitorUpdate [⟨7, 0, 0, 0⟩]).wf = false ∧ (Instr.voltageFaultTimeout 7).wf = false
    ∧ (Instr.voltageFaultTimeout 6).wf = true := by decide
theorem test_wf_host_access : (Instr.hostAccessRefused ⟨256, 0, 4, false, 0⟩).wf = false
    ∧ (Instr.hostAccessRefused ⟨0, 0, 9, false, 0⟩).wf = false
    ∧ (Instr.hostWriteWeightRegion ⟨256, 0, 8, true, 0⟩).wf = false
    ∧ (Instr.hostWriteWeightRegion ⟨255, 0, 8, true, 0⟩).wf = true := by decide
theorem test_wf_channel : (Instr.channelWordChange 16).wf = false ∧ (Instr.channelWordChange 15).wf = true := by decide
theorem test_wf_fabric : (Instr.forwardedAccess ⟨36, 0, 0, 0, Cap.null, 0, 0, .load 8, 0⟩).wf = false
    ∧ (Instr.forwardedAccess ⟨0, 16, 0, 0, Cap.null, 0, 0, .load 8, 0⟩).wf = false
    ∧ (Instr.fabricPacketRefused ⟨36, 0, 0, 0, 0⟩).wf = false ∧ (Instr.fabricPacketRefused ⟨35, 15, 0, 0, 0⟩).wf = true := by
  decide
theorem test_wf_layout : (Instr.weightRegionRegistration 0 4096 []).wf = false
    ∧ (Instr.weightRegionRegistration 0 4096 (List.replicate 16 0)).wf = true := by decide

/-! ### Words written out from the encodings (R61 to R71) -/

theorem test_decode_arithmetic : decodeFor .sequencer 0x04221800 = some (.add 1 2 3)
    ∧ decodeFor .sequencer 0x10853002 = some (.cmpCc 4 5 6 2) := by decide
theorem test_decode_immediate : decodeFor .sequencer 0x2021FFFF = some (.addi 1 1 0xFFFF)
    ∧ decodeFor .sequencer 0x40E0CDEF = some (.movhi 7 0 0xCDEF) := by decide
theorem test_decode_control : decodeFor .sequencer 0x60203FFD = some (.bCc 1 0 1 0x1FFD)
    ∧ decodeFor .sequencer 0x67FFFFFF = some (.j 0x3FFFFFF) ∧ decodeFor .sequencer 0x701F0000 = some (.jr 31)
    ∧ decodeFor .sequencer 0xB4000001 = some .eret ∧ decodeFor .sequencer 0xA8000005 = some (.trap 5) := by decide
theorem test_decode_vector_arithmetic : decodeFor .vector 0x10618700 = some (.vadd 6 6 7 0 0 0 0)
    ∧ decodeFor .vector 0x30308203 = some (.vcvt 3 2 2 0 0 3) ∧ decodeFor .vector 0x34C2C400 = some (.vquant 12 11 4 0 0)
    ∧ decodeFor .vector 0x4C404202 = some (.vcmp 4 1 2 0 0 0 2) := by decide
theorem test_decode_vector_shape : decodeFor .vector 0x08024000 = some (.vshape 9 0 0) := by decide
theorem test_decode_vector_push : decodeFor .vector 0x8C020000 = some (.vpushix 8 0 0 0)
    ∧ decodeFor .vector 0x90014000 = some (.vpushc 5 0 0) := by decide
theorem test_decode_matrix : decodeFor .matrix 0x680DA000 = some (.mmulFp16 0 3 1 2 1) := by decide
theorem test_decode_transfer : decodeFor .transfer 0x14000000 = some (.xloop 2)
    ∧ decodeFor .transfer 0x90000000 = some .xend := by decide
theorem test_decode_stratus : decodeFor .stratus 0x10000500 = some (.score 5)
    ∧ decodeFor .stratus 0x2C054000 = some (.loop 5 1) := by decide
theorem test_decode_zero_is_no_instruction : decodeFor .sequencer 0 = none ∧ decodeFor .vector 0 = none
    ∧ decodeFor .matrix 0 = none ∧ decodeFor .transfer 0 = none ∧ decodeFor .stratus 0 = none := by decide
theorem test_decode_reserved_bit : decodeFor .sequencer 0x04221801 = some (.sub 1 2 3)
    ∧ decodeFor .sequencer 0x042218FF = none := by decide

/-- Tables of partition 0: virtual 0 to 2^30 is memory, the next GiB is on module 7, the third begins with a shadowed pair
of 2 MiB pages at 0x04000000 (R413 to R416). -/
def tables : Mem :=
  { Mem.init with cells :=
      [(0x1000, 0x03), (0x1001, 0x20), (0x2000, 0x05), (0x2008, 0x0D), (0x200D, 0x70), (0x2010, 0x03), (0x2011, 0x60),
       (0x3000, 0x01), (0x3001, 0x40), (0x4000, 0x03), (0x4001, 0x50), (0x5000, 0x05), (0x5008, 0x05), (0x500B, 0x40),
       (0x5010, 0x05), (0x5013, 0x80), (0x6000, 0x05), (0x6003, 0x04), (0x6007, 0x40)] }

/-- A partition with cluster 0, one channel of memory, one save area and a plain world 0 of function 0. -/
def onePart : Partition :=
  { Partition.init with
    present := true, clust := [0], hbm := [0], saveBase := 0x100000, saveCnt := 1
    worlds := [(0, { World.init with present := true, s2root := 0x1000 })] }

/-- Partition 0 with its tables, core 0 as given. -/
def mapped (c : Core) : State :=
  { withCore c with
    mem := tables, parts := [(0, onePart)], mgmt := { State.reset.mgmt with ready := [0] }
    outer := { Outer.init with vfs := [(0, { Vf.init with configured := true, state := 2, ctxtab := 0x3001 })] } }

/-- The cells of the tables that the first GiB needs. -/
def plainCells : List Host.Cell :=
  [(0x1000, 0x03), (0x1001, 0x20), (0x2000, 0x05), (0x3000, 0x01), (0x3001, 0x40), (0x4000, 0x03), (0x4001, 0x50),
   (0x5000, 0x05)]

/-- Cells of bytes from a location on. -/
def cellsOf (l : Nat) (bs : List Byte) : List Host.Cell := ((upFrom l bs.length).zip bs).filter (fun c => c.2 != 0)

/-! ### Witnesses: the hypotheses of each statement can be met -/

theorem witness_bit_counts : (0 : Word64) = 0 ∧ (5 : Word64) ≠ 0 := by decide

theorem witness_compare_and_branch : CondOf 3 ((withG [(1, 7)]).g 1) ((withG [(1, 7)]).g 2)
    ∧ ¬ CondOf 2 ((withG [(1, 7)]).g 1) ((withG [(1, 7)]).g 1)
    ∧ CondOf 7 ((withG [(1, 2)]).g 1) ((withG [(1, 2)]).g 0) := by unfold CondOf; decide

theorem witness_sel_of_g0 : (0 : BitVec 5) = 0 := by decide

theorem witness_loop_window :
    ((withG [(1, 0x0FFFFFFFFFFFFFFF)]).g 1).extractLsb' 60 4 = 0
    ∧ (let s := withCore { Core.init with g := [(1, 0x1000000000000000)], sys := handled }
       (s.g 1).extractLsb' 60 4 ≠ 0 ∧ CanTrap s)
    ∧ (withSys { CoreSys.init with loopCount := 1 }).me.sys.loopCount ≠ 0
    ∧ (let y := (withSys { CoreSys.init with loopDrain := 1 }).me.sys; y.loopCount = 0 ∧ 0 < y.loopDrain)
    ∧ (State.reset.me.sys.loopCount = 0 ∧ State.reset.me.sys.loopDrain = 0) := by unfold CanTrap; decide

theorem witness_can_trap : CanTrap (withSys handled) := by unfold CanTrap; decide

/-- A continuation whose partition has a save area at address 0. -/
def savable : State :=
  { withCore { Core.init with run := some placedRun } with
    parts := [(0, { Partition.init with present := true, saveCnt := 1 })] }

theorem witness_end_faulted : savable.me.run = some placedRun
    ∧ (savable.me.sys.inh = true ∨ savable.me.sys.trapvec = 0) ∧ savable.canSave savable.actor.core = true := by decide

theorem witness_sregr : State.reset.watchesAway = false ∧ 0x100 ≤ (0x100 : BitVec 12).toNat ∧ (1 : BitVec 12) ≠ 6 := by decide

theorem witness_sregw : ((withG [(1, 0x40)]).g 1).getLsbD 6 = true ∧ ((withG [(1, 2)]).g 1).getLsbD 6 = false
    ∧ (0x78 ≤ (0x78 : BitVec 12).toNat) ∧ (0x50 ≤ (0x67 : BitVec 12).toNat ∧ (0x67 : BitVec 12).toNat ≤ 0x67)
    ∧ (0x04B : BitVec 12).toNat ∈ [0x04A, 0x04B] := by decide

theorem witness_events_and_queues : (withSys { CoreSys.init with event := true }).me.sys.event = true
    ∧ State.reset.quiet State.reset.actor.core = true ∧ (withCore { Core.init with cq := [3, 4] }).me.cq = 3 :: [4]
    ∧ clusterOf 7 = State.reset.home ∧ clusterOf 8 ≠ State.reset.home := by decide

theorem witness_cap_check :
    (let c := small 0x1000 0x2000 permLoad
     c.tag = true ∧ c.otype = 0 ∧ c.grants permLoad = true ∧ c.base ≤ 0x1FF8 ∧ 0x1FF8 + 8 ≤ c.top)
    ∧ Cap.null.tag = false
    ∧ (let c := { small 0 16 1 with otype := 9 }; c.tag = true ∧ c.otype ≠ 0)
    ∧ (let c := small 0 16 permLoad; c.tag = true ∧ c.otype = 0 ∧ c.grants permStore = false)
    ∧ (let c := small 0x1000 0x2000 permLoad
       c.tag = true ∧ c.otype = 0 ∧ c.grants permLoad = true ∧ 0xFFF < c.base ∧ c.top < 0x1FF9 + 8) := by decide

theorem witness_derivation :
    (let x := (withC [(1, small 0 64 0x3FF)]).c 1; x.tag = true ∧ x.otype = 0)
    ∧ (let s := withSys handled; (s.c 1).tag = false ∧ CanTrap s)
    ∧ (let s := withCore { Core.init with c := [(1, { small 0 64 0x3FF with otype := 9 })], sys := handled }
       (s.c 1).tag = true ∧ (s.c 1).otype ≠ 0 ∧ CanTrap s) := by unfold CanTrap; decide

theorem witness_derived_bounds :
    deriveCap (small 0x1000 0x2000 3) 0x1000 = .ok (small 0x1000 0x2000 3)
    ∧ (small 0x1000 0x2000 3).cursor.toNat + 0x1000 ≤ 2 ^ 64 := by decide +kernel

theorem witness_seal :
    (let s := withC [(1, small 0 64 3), (2, { small 0x10 0x20 0 with cursor := 0x1F })]
     (s.c 1).tag = true ∧ (s.c 1).otype = 0 ∧ (s.c 2).isTypeAuthority = true)
    ∧ (let s := withC [(1, { small 0 64 3 with otype := 0x1F }), (2, { small 0x10 0x20 0 with cursor := 0x1F })]
       (s.c 1).tag = true ∧ (s.c 1).otype ≠ 0 ∧ (s.c 2).isTypeAuthority = true
       ∧ (s.c 2).cursor = (s.c 1).otype.setWidth 64) := by decide

/-- Core 0 with a capability over the first 64 bytes of its L1 and one over its last 64. -/
def l1Core : Core :=
  { Core.init with
    c := [(1, small l1Base (l1Base + 64) 0x3FF), (2, { small (l1Base + 0x3FFC0) (l1Base + 0x40000) 0x3FF with
      cursor := BitVec.ofNat 64 (l1Base + 0x3FFF8) })]
    g := [(3, 5)] }

theorem witness_own_l1_load :
    (let s := withCore l1Core; let c := s.c 2; let n := (loadSize 3).1
     c.tag = true ∧ c.otype = 0 ∧ c.grants permLoad = true
     ∧ (c.cursor.toNat : Int) + (0 : BitVec 11).toInt * n = 0x7F0000000000 + (0x3FFF8 : Nat) ∧ 0x3FFF8 + n ≤ 2 ^ 18
     ∧ 0x3FFF8 % n = 0 ∧ c.base ≤ 0x7F0000000000 + 0x3FFF8 ∧ 0x7F0000000000 + 0x3FFF8 + n ≤ c.top
     ∧ s.me.sys.pendtrap = false ∧ (s.part s.party.part).syncs = []
     ∧ s.mem.poisonIn (l1Loc s.actor.core 0x3FFF8) n = none) := by decide +kernel

theorem witness_loads :
    (let s := withCore l1Core
     let p : Piece := ⟨l1Base + 8, 8, .here (l1Loc 0 8) 0, s.party, some (s.c 1)⟩
     let q : Piece := ⟨l1Base + 16, 16, .here (l1Loc 0 16) 0, s.party, some (s.c 1)⟩
     s.readChecks (s.c 1) (scaledAddr (s.c 1) 1 8) 8 8 0 (Reach.ofQualifier 0) permLoad false = .ok [p]
     ∧ s.readPieces s.actor.core 0 [p] = .ok (List.replicate 8 0)
     ∧ s.readChecks (s.c 1) (scaledAddr (s.c 1) 1 16) 16 16 0 (Reach.ofQualifier 0) permLoad false = .ok [q]
     ∧ s.readPieces s.actor.core 0 [q] = .ok (List.replicate 16 0)
     ∧ s.awaitGen s.party (capOfBytes (List.replicate 16 0) true).base = .ok ()) := by
  decide +kernel

theorem witness_stores :
    (let s := withCore l1Core; let x := scaledAddr (s.c 1) 1 8
     let ps : List Piece := [⟨l1Base + 8, 8, .here (l1Loc 0 8) 0, s.party, some (s.c 1)⟩]
     capCheck (s.c 1) x 8 permStore = .ok () ∧ s.storeChecks (s.c 1) x 8 8 0 = .ok ps ∧ NothingUnordered s 0 ps)
    ∧ (let s := withCore l1Core; let x := scaledAddr (s.c 1) 1 16
       storeCapCheck (s.c 1) (s.c 2) x = .ok ()
       ∧ s.storeChecks (s.c 1) x 16 16 0 = .ok [⟨l1Base + 16, 16, .here (l1Loc 0 16) 0, s.party, some (s.c 1)⟩]) := by
  unfold NothingUnordered; decide +kernel

/-- A capability over the first 64 bytes of the GiB on module 7, one over memory, one over the shadowed pair. -/
def pageCore : Core :=
  { Core.init with
    c := [(1, small 0x40000000 0x40000040 0x3FF), (2, small 0x10000 0x11000 0x3FF), (3, small 0x20000 0x20040 0x3FF),
          (4, ⟨0x80000000, 0, 0, 0x3FF, 3, 0x0000, 0x2000, true⟩)] }

theorem witness_remote_store :
    (let s := mapped { pageCore with sys := handled }; let x := scaledAddr (s.c 1) 0 8
     let p : Piece := ⟨0x40000000, 8, .away 7 0 0x40000000, s.party, some (s.c 1)⟩
     let req := s.request s.actor.core 0 0 7 0 0x40000000 (.store (leBytes (s.g 0).toNat 8) []) 0x40000000 p.asker
     capCheck (s.c 1) x 8 permStore = .ok () ∧ s.storeChecks (s.c 1) x 8 8 0 = .ok [p]
     ∧ s.outer.forwards.find? req.same = none
     ∧ (∀ r ∈ [none, some none, some (some ([], []))], let q : Forward := { req with reply := r }; [q].find? req.same = some q)
     ∧ s.me.sys.inh = false ∧ s.me.sys.trapvec ≠ 0) := by decide +kernel

/-- Bank 3 of cluster 0 in FIFO mode with one entry. -/
def fifoState (c : Core) : State :=
  { mapped c with clusters := [(0, { Cluster.init with banks := [(3, { Bank.init with mode := 2, fifo := [7] })] })] }

/-- Core 0 with a capability over that bank, one over its L1, and one entry in each of its queues. -/
def queueCore : Core :=
  { Core.init with
    c := [(1, small 0x7E0000300000 0x7E0000300100 3), (2, small l1Base (l1Base + 0x400) 3)]
    sq := [(0, [9])], iq := [(0, [(upFrom 0 256).map Int.ofNat])] }

theorem witness_vector_queues :
    (let s := fifoState queueCore; let x := indexedAddr (s.c 2) (s.g 0)
     s.fifoAt x.toNat = none ∧ s.me.loadQLoad 0 < 8
     ∧ passed (s.readChecks (s.c 2) x 256 16 0 (Reach.ofQualifier 0) permLoad false) (fun ps =>
        s.readPieces 0 0 ps = .ok (List.replicate 256 0))
     ∧ capCheck (s.c 2) x 256 permStore = .ok ()
     ∧ passed (s.storeChecks (s.c 2) x 256 16 0) (fun ps => ps.length = 16) ∧ s.older = []
     ∧ s.me.storeQ 0 = 9 :: [])
    ∧ (let s := fifoState queueCore; let x := indexedAddr (s.c 1) (s.g 0)
       s.fifoAt x.toNat = some (0, 3, 0) ∧ capCheck (s.c 1) x 256 permLoad = .ok () ∧ x.toNat % 16 = 0
       ∧ s.checkFifo 0 x.toNat 0 3 0 = .ok () ∧ s.me.loadQLoad 0 < 8 ∧ s.firstFor (.fifo 0 3 false) s.actor.core = true
       ∧ s.firstFor (.fifo 0 3 true) s.actor.core = true
       ∧ ((s.cluster 0).bank 3).fifo = 7 :: [] ∧ capCheck (s.c 1) x 256 permStore = .ok ()
       ∧ ((s.cluster 0).bank 3).fifo.length < fifoRoom 0) := by decide +kernel

theorem witness_gather_scatter :
    (let s := fifoState queueCore; let ix := (upFrom 0 256).map Int.ofNat
     s.me.indexQ 0 = ix :: [] ∧ gatherCap (s.c 2) 1 permLoad = .ok () ∧ s.me.loadQLoad 0 < 8
     ∧ passed (s.gatherPieces (s.c 2) 1 ix false) (fun pss => pss.length = 256
        && checkAll (fun ps => s.checkEarly ps ((ps.head?.map Piece.va).getD 0)) pss = .ok ()
        && passed (mapChk (fun ps => s.readPieces s.actor.core 0 ps) pss) (fun bss => bss.length = 256))
     ∧ gatherCap (s.c 2) 1 permStore = .ok () ∧ s.me.storeQ 0 = 9 :: []
     ∧ passed (s.gatherPieces (s.c 2) 1 ix true) (fun pss => pss.length = 256) ∧ s.older = [])
    ∧ (let s := fifoState { queueCore with iq := [(0, [[3, 0x400]])], sys := handled }; let c := s.c 2
       CanTrap s ∧ s.me.storeQ 0 ≠ []
       ∧ s.gatherPieces c 1 [3, 0x400] true = .error (.trap .capbounds (BitVec.ofNat 64 (l1Base + 0x400)) (some 1))
       ∧ c.top < c.cursor.toNat + 0x401 ∧ c.base ≤ c.cursor.toNat + 3 ∧ c.cursor.toNat + 4 ≤ c.top) := by
  unfold CanTrap; decide +kernel

/-- Sixteen lanes of indexes, the last one the first again. -/
def sixteen : List Int := (upFrom 0 15).map Int.ofNat ++ [0]

theorem witness_own_l1_queues :
    (let s := fifoState { queueCore with g := [(3, 0x300)], iq := [(1, [sixteen])] }; let c := s.c 2; let n := plainSize 3
     c.tag = true ∧ c.otype = 0 ∧ c.cursor.toNat + (s.g 3).toNat = 0x7F0000000000 + 0x300 ∧ c.base ≤ 0x7F0000000000 + 0x300
     ∧ 0x7F0000000000 + 0x300 + 256 ≤ c.top ∧ (s.part s.party.part).syncs = [] ∧ c.grants permLoad = true
     ∧ c.grants permStore = true ∧ s.me.sys.pendtrap = false ∧ s.mem.poison = [] ∧ s.me.loadQLoad 0 < 8
     ∧ s.me.storeQ 0 = [9] ∧ s.me.indexQ 1 = [sixteen] ∧ sixteen.length ≤ 256 / n ∧ c.cursor.toNat = 0x7F0000000000 + 0
     ∧ (∀ i ∈ sixteen, (0 : Int) ≤ i * n ∧ (c.base : Int) ≤ 0x7F0000000000 + i * n
        ∧ (0x7F0000000000 + i * n + n : Int) ≤ c.top)
     ∧ sixteen[15]? = some 0)
    ∧ (∀ k, 15 < k → sixteen[k]? ≠ some 0) := by
  refine ⟨by decide +kernel, fun k hk => ?_⟩
  rw [List.getElem?_eq_none (by change 16 ≤ k; omega)]
  exact nofun

theorem witness_atomics :
    (let s := withCore l1Core
     let p : Piece := ⟨l1Base, 8, .here (l1Loc 0 0) 0, s.party, some (s.c 1)⟩
     s.readChecks (s.c 1) l1Base 8 8 0 Reach.amo (permLoad + permStore) true = .ok [p]
     ∧ s.mem.poisonIn (l1Loc 0 0) 8 = none) := by decide +kernel

theorem witness_untagged : (let s := withSys handled; (s.c 0).tag = false ∧ CanTrap s) := by unfold CanTrap; decide

/-- The record that the running continuation of the sync witnesses stands in. -/
def syncRun : Running := { placedRun with record := 0x30000 }

/-- Partition 0 with the object at 0x20000 as given, and its continuation at 0x30000 running. -/
def syncState (o : SyncObj) : State :=
  { mapped { pageCore with run := some syncRun } with parts := [(0, { onePart with syncs := [(0x20000, o)] })] }

theorem witness_acquire :
    (let s := mapped pageCore; objectCap (s.c 3) = .ok () ∧ s.objectLoc (s.c 3) = .ok 0x20000
      ∧ Sparse.find? 0x20000 (s.part s.party.part).syncs = none)
    ∧ (let o : SyncObj := ⟨.free, [], []⟩; let s := syncState o
       objectCap (s.c 3) = .ok () ∧ s.objectLoc (s.c 3) = .ok 0x20000
       ∧ Sparse.find? 0x20000 (s.part s.party.part).syncs = some o ∧ o.heldBy s.me.record = false
       ∧ ((s.part s.party.part).heldSyncs s.me.record).length < 8 ∧ o.mode = .free)
    ∧ (let o : SyncObj := ⟨.shared [0x40000], [], []⟩; let s := syncState o
       objectCap (s.c 3) = .ok () ∧ s.objectLoc (s.c 3) = .ok 0x20000
       ∧ Sparse.find? 0x20000 (s.part s.party.part).syncs = some o ∧ o.heldBy s.me.record = false
       ∧ ((s.part s.party.part).heldSyncs s.me.record).length < 8 ∧ o.waiting = [])
    ∧ (let o : SyncObj := ⟨.exclusive 0x40000, [], []⟩; let s := syncState o
       objectCap (s.c 3) = .ok () ∧ s.objectLoc (s.c 3) = .ok 0x20000
       ∧ Sparse.find? 0x20000 (s.part s.party.part).syncs = some o ∧ o.heldBy s.me.record = false
       ∧ ((s.part s.party.part).heldSyncs s.me.record).length < 8 ∧ s.me.run = some syncRun
       ∧ s.canSuspend = .ok ()) := by decide +kernel

theorem witness_release :
    (let o : SyncObj := ⟨.exclusive 0x30000, [], []⟩; let s := syncState o
     s.performed s.actor.core = true ∧ objectCap (s.c 3) = .ok () ∧ s.objectLoc (s.c 3) = .ok 0x20000
     ∧ Sparse.find? 0x20000 (s.part s.party.part).syncs = some o
     ∧ (o.mode = .exclusive s.me.record ∨ o.mode = .shared [s.me.record]) ∧ o.waiting = []) := by decide +kernel

theorem witness_bind_publish :
    (let o : SyncObj := ⟨.exclusive 0x30000, [], []⟩; let s := syncState o
     s.bindChecks (s.c 2) (s.c 3) = .ok (0x20000, o) ∧ o.regions.length < 8
     ∧ (s.part s.party.part).bindsOver ⟨(s.c 2).base, (s.c 2).top, s.party.world, s.party.context⟩ = false)
    ∧ (let o : SyncObj := ⟨.exclusive 0x30000, [⟨0x10000, 0x11000, 0, 0⟩], []⟩; let s := syncState o
       s.bindChecks (s.c 2) (s.c 3) = .ok (0x20000, o) ∧ (⟨(s.c 2).base, (s.c 2).top, s.party.world, s.party.context⟩ : Region) ∈ o.regions)
    ∧ (let o : SyncObj := ⟨.exclusive 0x30000, [⟨0x80000000, 0x80200000, 0, 0⟩], []⟩; let s := syncState o
       objectCap (s.c 3) = .ok () ∧ regionCap (s.c 4) permPublish = .ok () ∧ s.objectLoc (s.c 3) = .ok 0x20000
       ∧ Sparse.find? 0x20000 (s.part s.party.part).syncs = some o ∧ o.mode = .exclusive s.me.record ∧ o.waiting = []
       ∧ (∃ q ∈ o.regions, q.world = s.party.world ∧ q.context = s.party.context ∧ q.lo ≤ (s.c 4).base ∧ (s.c 4).top ≤ q.hi)
       ∧ s.pairsOf (s.c 4) = some [(0x04000000, 0x200000)]
       ∧ s.arraysQuiet s.actor.core = true ∧ s.copiesInto s.actor.core (s.c 4).base (s.c 4).top = false
       ∧ s.performed s.actor.core = true ∧ checkAll (s.awaitGen s.party) (pagesOf (s.c 4).base (s.c 4).top) = .ok ()) := by decide +kernel

/-- Partition 0 with its tables, core 0 having stored to 0x10000 without a fence. -/
def unorderedState : State := { mapped pageCore with older := [⟨0, 0, 0x1000, 0, List.replicate 16 7, false, true⟩] }

theorem witness_unordered :
    (let s := mapped pageCore; let x := scaledAddr (s.c 2) 0 8
     let p : Piece := ⟨0x10000, 8, .here 0x10000 0, s.party, some (s.c 2)⟩
     capCheck (s.c 2) x 8 permStore = .ok () ∧ s.storeChecks (s.c 2) x 8 8 0 = .ok [p] ∧ NothingUnordered s 0 [p]
     ∧ 0x10000 < hbmEnd ∧ 0x10000 % 16 + p.len ≤ 16 ∧ s.mem.poisonIn 0x10000 p.len = none)
    ∧ (let s := unorderedState; s.unordered 0 3 0x10000 = true ∧ s.unordered 0 0 0x10000 = false
       ∧ [(1 : Byte)] ≠ [] ∧ 0x10000 % 16 + [(1 : Byte)].length ≤ 16
       ∧ (∃ e ∈ s.older, 0x10000 < hbmEnd ∧ e.granule = 0x10000 / 16 ∧ e.core = 0 ∧ e.unit ≠ 3 ∧ e.own = true)) := by
  unfold NothingUnordered; decide +kernel

theorem witness_scopes :
    (let s := mapped pageCore; s.ownerOf (clusterOf 0) = some 0 ∧ s.observerPart (.core 0) = some 0
      ∧ s.inScope 0 0 (.core 0) = true ∧ s.inScope 0 1 (.units 0) = true ∧ s.inScope 0 4 (.away 0) = true) := by
  decide +kernel

theorem witness_revoke :
    (let s := mapped pageCore; let c := s.c 2
     capCheck c c.base c.span (permStore + permStoreCap) = .ok () ∧ c.base % 4096 = 0 ∧ c.top % 4096 = 0 ∧ c.base < c.top
     ∧ touchesWindow c.base c.top = false ∧ passed (s.granulesOf c.base c.top) (fun gs => gs.length = 1)
     ∧ (s.part s.party.part).sweeps = []) := by decide +kernel

theorem witness_eret :
    (let s := withSys { handled with inh := true }; s.me.sys.inh = true ∧ s.me.eng.trapFrom = none)
    ∧ (let s := withCore { Core.init with sys := { handled with inh := true }, eng := { CoreEng.init with trapFrom := some 1 } }
       s.me.sys.inh = true ∧ s.me.eng.trapFrom = some 1 ∧ 1 ≠ 3 ∧ s.me.sys.abandon = false)
    ∧ (let s := withSys handled; s.me.sys.inh = false ∧ s.me.sys.trapvec ≠ 0) := by decide

theorem witness_held_trap :
    (let h : HeldTrap := ⟨1, Trap.illegal.code, 0, none, 5, 0⟩
     let s := withCore { Core.init with sys := handled, run := some placedRun, eng := { CoreEng.init with heldTraps := [h] } }
     CanTrap s ∧ s.me.run = some placedRun ∧ s.me.eng.heldTraps = h :: [] ∧ s.trapReady s.actor.core = true ∧ h.code = Trap.illegal.code
     ∧ Trap.illegal ≠ .swtrap ∧ h.engine ≠ 0) := by unfold CanTrap; decide

/-- A continuation that runs an image of one word, zero, with a handler. -/
def zeroWord (e : EngineId) : State :=
  { withCore { Core.init with sys := handled, run := some placedRun, eng := placedEng e } with
    parts := [(0, { onePart with images := [(1, ⟨0x100000, 13, 0⟩)] })] }

theorem witness_illegal_words :
    (let s := zeroWord .sequencer
     s.nextWord .sequencer = some 0 ∧ s.codeBad .sequencer = false ∧ decodeFor .sequencer 0 = none ∧ CanTrap s)
    ∧ (let s := (zeroWord .sequencer).poke (hbmLoc 0 0x100000) (imageBytes (oneWordImage .sequencer 0x04221800))
       let s := { s with mem := { s.mem with poison := [hbmLoc 0 0x100030] } }
       s.nextWord .sequencer = some 0x04221800 ∧ s.codeBad .sequencer = true ∧ CanTrap s)
    ∧ (let s := zeroWord .transfer; s.nextWord .transfer = some 0 ∧ s.codeBad .transfer = false
       ∧ decodeFor .transfer 0 = none ∧ s.me.eng.xferQ.length = 1) := by unfold CanTrap; decide +kernel

/-- Ring 2 of cluster 0 with four stages, stage 3 full; the core's continuation is at 0x30000. -/
def ringState (owners : Sparse Nat) : State :=
  { mapped { Core.init with run := some syncRun } with
    clusters := [(0, { Cluster.init with rings := [(2, ⟨4, if owners = [] then 8 else 0, owners, 0⟩)] })] }

theorem witness_rings :
    (let s := ringState []; let x := s.myCluster.ring 2
     3 < x.len ∧ Sparse.find? 3 x.owners = none ∧ x.full.getLsbD 3 = true
     ∧ s.firstFor (.stage s.home 2 3) s.actor.core = true)
    ∧ (let s := ringState [(3, 0x30000)]; let x := s.myCluster.ring 2
       3 < x.len ∧ Sparse.find? 3 x.owners = some s.me.record ∧ x.full.getLsbD ((3 + 1) % x.len) = false ∧ x.len ≤ 16
       ∧ s.waitRelease = .ok ()) := by decide +kernel

/-- Channel 1 of partition 0 as given: valid, from die 0 to die 0 with 2 buffers allowed. -/
def chanState (x : Channel) : State :=
  { mapped pageCore with parts := [(0, { onePart with channels := [(1, x)] })] }

/-- The channel of the witnesses, open with one permit. -/
def openChannel : Channel := { Channel.init with word := 0x100, isOpen := true, conf := 1, avail := 1 }

theorem witness_channels :
    ((chanState openChannel).chan 1).exists_ = true ∧ ((chanState openChannel).chan 1).queue = []
    ∧ ((chanState openChannel).chan 1).held = 0 ∧ ((chanState Channel.init).chan 1).exists_ = false
    ∧ (let s := chanState openChannel; let x := s.chan 1
       capCheck (s.c 2) (s.c 2).base (s.c 2).span (permLoad + permGlobal) = .ok ()
       ∧ touchesL1 (s.c 2).base (s.c 2).top = false ∧ x.ready = true ∧ s.myDie = x.sdie ∧ 0 < x.avail
       ∧ s.firstFor (.channel s.party.part 1) s.actor.core = true ∧ s.waitRelease = .ok ())
    ∧ (let s := chanState { openChannel with avail := 0, queue := [Cap.null] }; let x := s.chan 1
       x.ready = true ∧ s.myDie = x.rdie ∧ x.queue = Cap.null :: [])
    ∧ (let s := chanState { openChannel with avail := 0, held := 1 }; let x := s.chan 1
       x.ready = true ∧ s.myDie = x.rdie ∧ 0 < x.held ∧ x.pending = none ∧ s.waitRelease = .ok ())
    ∧ (let s := chanState openChannel
       (s.part s.party.part).channelOpen 0 = true ∧ s.channelBusy s.actor.core 0 = false ∧ s.outer.forwards = [])
    ∧ (let s := chanState { openChannel with pending := some 0 }; let x := (s.part s.actor.part).channel 1
       x.pending = some 0 ∧ x.queue = [] ∧ x.held = 0) := by decide +kernel

/-- A running image whose transfer section is one XEND. -/
def xferState : State :=
  let s := mapped { pageCore with run := some placedRun }
  (s.poke 0x100000 (imageBytes (oneWordImage .transfer 0x90000000))).setPart 0
    { onePart with images := [(1, ⟨0x100000, 13, 0⟩)] }

theorem witness_queueing :
    (let y := (withSys { CoreSys.init with lease := true, stagewin := 0x80 }).me
     8 ≤ (15 : BitVec 4).toNat ∧ y.sys.stagewin.getLsbD ((15 : BitVec 4).toNat - 8) = true
     ∧ y.sys.stagewin.getLsbD ((8 : BitVec 4).toNat - 8) = false
     ∧ y.sys.region = .closed ∧ y.eng.vecQ.length < 16 ∧ y.sys.lease = true ∧ y.eng.matQ.length < 8
     ∧ y.sys.pendtrap = false)
    ∧ (let s := xferState
       passed (firstPass s.me.c (s.xferWords 0) 0 Nest.fresh 0)
         (fun ps => passed (s.secondPass s.actor.core s.me.eng.nextIdent ps []) (fun hs => hs.isEmpty)) = true
       ∧ s.me.eng.xferQ.length < 4 ∧ s.me.sys.pendtrap = false)
    ∧ isNimbus 64 = true ∧ isNimbus State.reset.home = false
    ∧ (let s := withSys handled; CanTrap s ∧ s.me.sys.lease = false ∧ isNimbus s.home = false) := by
  unfold CanTrap; decide +kernel

theorem witness_lease :
    (State.reset.me.sys.lease = false ∧ State.reset.actor.core ∉ State.reset.myCluster.claims)
    ∧ (let s := withSys { CoreSys.init with lease := true }
       s.me.sys.lease = true ∧ (Resource.other, s.actor.core) ∉ s.waiters)
    ∧ (State.reset.me.eng.matQ = [] ∧ State.reset.myCluster.flights = []) := by decide

/-- The execution of region 5 with inputs v0 to v3. -/
def region5 : RegionRun := RegionRun.start 5 0 4 .off

theorem witness_region_sequence :
    (40 : BitVec 6).toNat + (15 : BitVec 4).toNat ≤ 55
    ∧ (let s := withCore { Core.init with run := some placedRun }
       s.me.sys.region = .closed ∧ s.me.run = some placedRun)
    ∧ ((withSys { CoreSys.init with region := .issued region5 }).me.sys.region = .issued region5
       ∧ region5.id = (5 : BitVec 6).toNat)
    ∧ (let s := withCore { Core.init with run := some placedRun, sys := { CoreSys.init with region := .opened region5 } }
       s.me.sys.region = .opened region5 ∧ region5.sampled ≠ .serve ∧ selOn 0 s.me.sys.stagewin = true
       ∧ s.me.eng.vecQ.length < 16 ∧ s.me.run = some placedRun)
    ∧ (let x := { region5 with firstOut := 40, nOut := 2 }
       let s := withCore { Core.init with
         sys := { CoreSys.init with region := .issued x }
         eng := { CoreEng.init with vecQ := [⟨0, 0, 0, [], 1, some x, false⟩] } }
       s.me.sys.region = .issued x ∧ s.me.eng.vecQ.any Block.isOpen = true ∧ 40 ≤ 41 ∧ 41 < 40 + 2
       ∧ s.me.eng.vecFlight.any (fun f => f.writes [41]) = false)
    ∧ (let s := withSys { handled with region := .opened region5 }; s.me.sys.region ≠ .closed ∧ CanTrap s)
    ∧ (let s := withSys handled; s.me.sys.region = .closed ∧ CanTrap s) := by unfold CanTrap; decide

/-- Partition 0 with one fitted region, number 5 of the running image. -/
def fitted (f : FitEntry) : State :=
  { mapped { Core.init with run := some syncRun } with parts := [(0, { onePart with fits := [(2, f)] })] }

theorem witness_region_control :
    (let f := FitEntry.fresh 0 0 5; let s := fitted f; s.me.run = some syncRun ∧ s.fitOf syncRun 5 = some (2, f))
    ∧ (let s := fitted (FitEntry.fresh 0 0 5); s.me.run = some syncRun ∧ s.fitOf syncRun 4 = none) := by decide +kernel

/-- Partition 0 with a record at 0x20000 in a state, its frame tagged, and a continuation at 0x30000 running. -/
def spawnState (st : Nat) : State :=
  let s := mapped { pageCore with run := some syncRun, sys := handled }
  let t := s.setCtl 0 0x20000 st
  { t with mem := t.mem.setTag (hbmLoc 0 0x20000) true }

theorem witness_spawn :
    (let s := spawnState 0; let c := s.ctl s.party.part 0x20000
     s.spawnTarget (s.c 3) = .ok 0x20000 ∧ s.performed s.actor.core = true ∧ ctlState c = 0 ∧ s.mem.tagAt (hbmLoc 0 0x20000) = true)
    ∧ (let s := spawnState 2; s.spawnTarget (s.c 3) = .ok 0x20000 ∧ ctlState (s.ctl s.party.part 0x20000) = 2)
    ∧ (let s := spawnState 4; s.spawnTarget (s.c 3) = .ok 0x20000 ∧ ctlState (s.ctl s.party.part 0x20000) = 4)
    ∧ (let s := spawnState 5; s.spawnTarget (s.c 3) = .ok 0x20000 ∧ 5 ≤ ctlState (s.ctl s.party.part 0x20000)
       ∧ CanTrap s) := by unfold CanTrap; decide +kernel

/-- A continuation at 0x30000 runs on core 0, its record's control word as given. -/
def running (ctl : Nat) : State := (mapped { pageCore with run := some syncRun }).setCtl 0 0x30000 ctl

theorem witness_leaving :
    (let s := running 2; s.me.run = some syncRun ∧ s.canSuspend = .ok () ∧ ctlWake (s.ctl 0 0x30000) = false
     ∧ s.allPerformed s.actor.core = true ∧ (s.part 0).heldSyncs 0x30000 = [] ∧ syncRun.groups.all (fun g => g = 0xFF))
    ∧ (let s := running 0x802; s.me.run = some syncRun ∧ s.canSuspend = .ok () ∧ ctlWake (s.ctl 0 0x30000) = true) := by
  decide +kernel

/-- Counter 63 of world 0 and context 0 has DONE 4 and a report due at 4. -/
def counting : State :=
  let s := mapped { Core.init with run := some syncRun, g := [(1, 63), (2, 4), (3, 5)] }
  s.modPart 0 (fun p => p.setSeq (seqIndex 0 0 63) { SeqCounter.init with done := 4, report := 0x40001 })

theorem witness_submit_waitseq :
    (let s := running 2; s.me.run = some syncRun ∧ passed (s.submitPlace (s.c 3)) (fun pl => pl = .here 0x20000 0)
     ∧ s.canSuspend = .ok ())
    ∧ (let s := counting; let q := (s.part 0).seq (seqIndex 0 0 (s.g 1).toNat)
       (s.g 1).toNat ≤ 63 ∧ q.done.toNat < (s.g 3).toNat ∧ s.canSuspend = .ok ()
       ∧ (s.g 2).toNat ≤ q.done.toNat ∧ (q.report.toNat % 256 ≠ 0 ∧ q.report.toNat / 2 ^ 16 ≤ (s.g 2).toNat)) := by
  decide +kernel

/-- A group of the running record and another, which has arrived or not. -/
def grouped (arrived : Marks) : State :=
  let s := mapped { Core.init with run := some { syncRun with groups := [7, 0xFF, 0xFF, 0xFF] } }
  s.modPart 0 (fun p => p.setGroup 7 { Group.init with members := [0x30000, 0x40000], arrived := arrived })

theorem witness_groups :
    (let s := grouped [0x40000]; let r : Running := { syncRun with groups := [7, 0xFF, 0xFF, 0xFF] }
     s.me.run = some r ∧ passed (s.groupInSlot r 0) (fun q => q.1 = 7 && q.2.completes r.record) = true
     ∧ s.waitRelease = .ok ())
    ∧ (let s := grouped []; let r : Running := { syncRun with groups := [7, 0xFF, 0xFF, 0xFF] }
       s.me.run = some r ∧ passed (s.groupInSlot r 0) (fun q => q.1 = 7 && q.2.completes r.record = false) = true
       ∧ s.canSuspend = .ok ()) := by decide +kernel

/-- The head block of the vector engine, with the stage sample 1. -/
def headBlock : Block := ⟨0, 3, 1, [], 1, none, false⟩

/-- Core 0 with that block, lane format code f, some registers, one entry in load queue 0. -/
def vecState (f : Nat) (v : Sparse Vec) : State :=
  withCore { Core.init with
    v := v, lq := [(0, [5])], sys := { CoreSys.init with vshape := f }, eng := { CoreEng.init with vecQ := [headBlock] } }

theorem witness_vec_ready :
    VecReady (vecState 7 []) headBlock [] 8 [56, 55] (.port 60)
    ∧ VecReady (vecState 13 []) headBlock [] 0 [1, 2, 55] (.port 55) ∧ (55 : BitVec 6).toNat ≤ 55
    ∧ VecReady (vecState 10 []) headBlock [] 8 [56] (.port 0) ∧ VecReady (vecState 7 []) headBlock [] 0 [] (.port 63)
    ∧ fmtOf (vecState 10 []).me.sys.vshape = .flt .fp32 ∧ (vecState 7 []).me.sys.vshape ≤ 7 := by
  unfold VecReady; decide +kernel

theorem witness_vec_conversions :
    VecReady (vecState 8 []) headBlock [] 0 [56] (.port 1) ∧ 8 ≤ (vecState 8 []).me.sys.vshape
    ∧ (vecState 8 []).me.sys.vshape ≤ 11 ∧ fmtOf (vecState 8 []).me.sys.vshape = .flt .fp16
    ∧ VecReady (vecState 13 []) headBlock [] 0 [1, 2, 55] (.port 55) ∧ (vecState 13 []).me.sys.vshape ≤ 13
    ∧ VecReady (vecState 13 []) headBlock [] 0 [54, 55, 53, 54, 55] (.port 55) ∧ (2 : BitVec 4).toNat = 2
    ∧ (8 : BitVec 4).toNat = 8 := by
  unfold VecReady; decide +kernel

/-- A block of zeros, and one whose largest lane is lane 0. -/
theorem witness_quantisation : (∀ i, i < 32 → quantInput .fp32 (laneAt 32 0 (32 * 1 + i)) = 0)
    ∧ quantInput .fp32 (laneAt 32 0x3F800000 (32 * 0 + 0)) ≠ 0
    ∧ (∀ i, i < 32 → |quantInput .fp32 (laneAt 32 0x3F800000 (32 * 0 + i))|
        ≤ |quantInput .fp32 (laneAt 32 0x3F800000 (32 * 0 + 0))|) := by
  have h0 : FloatKind.fp32.dec 0 = .fin false 0 (-149) := by decide
  have h1 : FloatKind.fp32.dec 0x3F800000 = .fin false 8388608 (-23) := by decide
  have z0 : quantInput .fp32 0 = 0 := by simp [quantInput, h0, finiteRat]
  have lz : ∀ i, i < 32 → laneAt 32 0 (32 * 1 + i) = 0 := by decide +kernel
  have l0 : laneAt 32 0x3F800000 (32 * 0 + 0) = 0x3F800000 := by decide +kernel
  have li : ∀ i, i < 32 → i ≠ 0 → laneAt 32 0x3F800000 (32 * 0 + i) = 0 := by decide +kernel
  refine ⟨fun i hi => by rw [lz i hi, z0], ?_, fun i hi => ?_⟩
  · rw [l0]; simp [quantInput, h1, finiteRat]
  · by_cases h : i = 0
    · subst h; exact le_refl _
    · rw [li i hi h, z0, abs_zero]; exact abs_nonneg _

theorem witness_vec_queues :
    VecReady (vecState 10 []) headBlock [] 0 [56] (.port 1) ∧ (vecState 10 []).me.countRoom = true
    ∧ 16 ≤ (fmtOf (vecState 10 []).me.sys.vshape).bits
    ∧ VecReady (vecState 3 []) headBlock [] 0 [2] (.index 1) ∧ (vecState 3 []).me.sys.vshape ≤ 3
    ∧ VecReady (vecState 3 []) headBlock [] 0 [2] .count
    ∧ (let s := vecState 3 [(2, 15)]
       s.me.eng.vecQ = headBlock :: [] ∧ headBlock.region = none ∧ selOn 8 headBlock.sample = true
       ∧ s.me.isEmpty 2 = false ∧ (s.me.srcVal 2).toNat % 2 ^ 64 < 16) := by
  unfold VecReady; decide +kernel

/-- Core 0 with vector words in flight. -/
def flying (fs : List VecFlight) : State := withCore { Core.init with eng := { CoreEng.init with vecFlight := fs } }

theorem witness_vec_results :
    (let f : VecFlight := ⟨.reg 3, 9, none⟩; (flying [f]).me.eng.vecFlight = [] ++ f :: [] ∧ f.dest = .reg 3 ∧ f.post = none)
    ∧ (let f : VecFlight := ⟨.store 3, 9, none⟩; let g : VecFlight := ⟨.store 2, 9, none⟩
       (flying [g, f]).me.eng.vecFlight = [g] ++ f :: [] ∧ f.dest = .store 3 ∧ f.post = none ∧ g.dest ≠ .store 3
       ∧ (flying [f, f]).me.eng.vecFlight = [f] ++ f :: [])
    ∧ (let f : VecFlight := ⟨.index 1 [4], 0, none⟩; let g : VecFlight := ⟨.reg 2, 9, none⟩
       (flying [g, f]).me.eng.vecFlight = [g] ++ f :: [] ∧ f.dest = .index 1 [4] ∧ f.post = none
       ∧ (flying [f, f]).me.eng.vecFlight = [f] ++ f :: [])
    ∧ (let f : VecFlight := ⟨.count, 0, some 9⟩; let g : VecFlight := ⟨.reg 2, 9, none⟩
       (flying [g, f]).me.eng.vecFlight = [g] ++ f :: [] ∧ f.dest = .count ∧ f.post = some 9 ∧ g.post = none
       ∧ (flying [f, f]).me.eng.vecFlight = [f] ++ f :: [])
    ∧ (let l : LoadFlight := ⟨3, 9⟩
       let s := withCore { Core.init with eng := { CoreEng.init with loads := [l] } }
       s.me.eng.loads = l :: []) := by decide +kernel

theorem witness_vec_trap_or_wait :
    (let s := vecState 13 []; let t := s.setMe (s.me.markEmpty 55)
     (vopOf (.vadd 60 56 55 8 1 1 0)).any (fun q => q.1 = 8
       && q.2.group = none && q.2.accepts t.me.sys.vshape && q.2.srcs = [(56, true)] ++ (55, true) :: [])
     ∧ t.me.eng.vecQ = headBlock :: [] ∧ headBlock.region = none ∧ selOn 8 headBlock.sample = true
     ∧ t.me.srcReady 56 = true ∧ t.me.srcReady 55 = false ∧ t.me.srcReady 57 = false)
    ∧ (vopOf (.vneg 3 2 8 1 0)).any (fun q => !q.2.accepts (vecState 14 []).me.sys.vshape) ∧ selOn 9 headBlock.sample = false
    ∧ (vopOf (.vsacc 0 55 0 8 0 0)).any (fun q => q.2.group = some 55)
    ∧ (let s := vecState 3 []; let t := s.setMe { s.me with sq := [(0, List.replicate 16 0)] }
       (vopOf (.vneg 60 56 8 1 0)).any (fun q => q.2.srcs.all (fun r => t.me.srcReady r.1)
         && !t.me.targetReady q.2.target)) := by decide +kernel
/-- World 0 of partition 0, context 0. -/
def world0 : Party := ⟨0, 0, 0⟩

/-- The head matrix block: stage sample 1, c1 over memory at 0x10000. -/
def matBlock : Block := ⟨0, 2, 1, [(1, small 0x10000 0x10400 0x3FF)], 1, none, false⟩

/-- Core 0 with that block and the array, slots and tiles as given. -/
def matState (slots : Sparse Slot) (tiles : Sparse Tile) (fs : List MatFlight) : State :=
  { mapped { Core.init with eng := { CoreEng.init with matQ := [matBlock] } } with
    clusters := [(0, { Cluster.init with
      slots := slots, tiles := tiles, flights := fs, granted := some (.core 0), claims := [0], steps := 255 })] }

theorem witness_mat_ready :
    MatReady (matState [] [] []) matBlock [] 9 false ∧ MatReady (matState [] [] []) matBlock [] 8 true
    ∧ ({ matBlock with marked := true } : Block).marked = true ∧ matBlock.marked = false
    ∧ (2 : BitVec 2) ≠ 3 ∧ (matState [] [] []).ownTile 15 = .ok ()
    ∧ ∀ f ∈ (matState [] [] []).myCluster.flights, f.core ≠ 0 := by unfold MatReady; decide +kernel

/-- Two slots of 2 and 3 rows and c columns of four bytes. -/
def matSlots (c : Nat) : Sparse Slot :=
  [(0, { Slot.init with rows := 2, cols := c }), (1, { Slot.init with rows := 3, cols := c })]

/-- The format divides a row of c columns into at most 256 elements (R242). -/
def matFits (c : Nat) (f : MatFmt) : Bool :=
  32 * c / f.bits ≤ 256 && 32 * c % f.bits = 0 && (match f with | .lb m => c % m = 0 | _ => true)

theorem witness_products :
    (let s := matState (matSlots 16) [] []
     MatReady s matBlock [] 0 true ∧ (s.myCluster.slot 1).cols = (s.myCluster.slot 0).cols
     ∧ (s.myCluster.slot 1).rows ≤ 256 ∧ s.ownTile 15 = .ok () ∧ s.slotReady 0 = .ok () ∧ s.slotReady 1 = .ok ()
     ∧ (s.myCluster.slot 0).mark = 0)
    ∧ matFits 16 (.lb 2) ∧ matFits 24 (.lb 3) ∧ matFits 32 (.lb 4) ∧ matFits 40 (.lb 5) ∧ matFits 48 (.lb 6)
    ∧ matFits 56 (.lb 7) ∧ matFits 64 (.lb 8) ∧ matFits 64 .i8 ∧ matFits 64 (.flt .e4m3) ∧ matFits 64 (.flt .e5m2)
    ∧ matFits 128 (.flt .fp16) ∧ matFits 128 (.flt .bf16) ∧ matFits 256 (.flt .fp32) ∧ matFits 256 (.flt .fp64) := by
  unfold MatReady; decide +kernel

/-- A tile of one row and four FP32 lanes, and a slot of sixteen bytes. -/
def matSmall : State :=
  matState [(0, { Slot.init with rows := 1, cols := 4 })] [(0, { Tile.init with rows := 1, cols := 4 })] []

theorem witness_matrix_memory :
    (let s := matSmall; let p : List Piece := [⟨0x10000, 16, .here 0x10000 0, s.party, some (matBlock.cap 1)⟩]
     MatReady s matBlock [] 0 true
     ∧ s.engineChecks 0 2 Reach.arrayRead (matBlock.cap 1) (matBlock.addr 1 0) (1 * (4 * 4)) 16 false = .ok p
     ∧ s.readPieces 0 2 p = .ok (List.replicate 16 0)
     ∧ s.engineChecks 0 2 Reach.engineWrite (matBlock.cap 1) (matBlock.addr 1 0) (1 * 4 * TileKind.fp32.bytes) 16 true = .ok p
     ∧ s.engineChecks 0 2 Reach.arrayRead (matBlock.cap 1) (matBlock.addr 1 0) (1 * 4 * TileKind.fp32.bytes) 16 false = .ok p
     ∧ s.awaitEngine 0 2 matBlock.next (matBlock.addr 1 0).toNat p (s.myCluster.tile 0).image = .ok ()
     ∧ s.ownTile 0 = .ok () ∧ s.fifoRuns (matBlock.addr 1 0).toNat (1 * 4 * TileKind.fp32.bytes) = []) := by
  unfold MatReady; decide +kernel

theorem witness_matrix_traffic :
    (let f : MatFlight := ⟨0, 2, .fetch 0 [(0, 7)], [], (0, 0)⟩; (matState [] [] [f]).myCluster.flights = f :: [])
    ∧ (let bs := List.replicate 16 (5 : Byte); let ps : List Piece := [⟨0x10000, 16, .here 0x10000 0, world0, none⟩]
       let f : MatFlight := ⟨0, 2, .store 0 ps bs none, [], (0, 0)⟩; let s := matState [] [] [f]
       s.myCluster.flights = f :: [] ∧ bs.length = (ps.map Piece.len).sum) := by decide +kernel

/-- A transfer block whose nest copies 32 bytes from 0x10000 to 0x20000, with the pages held. -/
def copyNest : Nest :=
  { Nest.fresh with src := small 0x10000 0x10400 0x3FF, dst := small 0x20000 0x20400 0x3FF, top := 5 }

/-- The XEMIT of that nest on channel 2. -/
def copyEmit : Emit := ⟨4, 0, 2, 32, copyNest, 0, false, false, false⟩

/-- The core that has queued that block, with its copy outstanding. -/
def copyState : State :=
  mapped { Core.init with eng := { CoreEng.init with
    xferQ := [⟨0, 1, 4, [], 1, copyNest, false⟩]
    emits := [copyEmit]
    holds := [⟨4, 1, false, .here 0x10000 0, some 0, [], false⟩, ⟨4, 2, true, .here 0x20000 0, some 0, [], false⟩] } }

theorem witness_transfer :
    (let s := copyState
     s.me.eng.xferQ = ⟨0, 1, 4, [], 1, copyNest, false⟩ :: [] ∧ (5 : BitVec 3).toNat ≤ copyNest.top)
    ∧ (let s := copyState; let m := copyEmit; let x := (m.nest.source m.next).toNat; let y := (m.nest.target m.next).toNat
       s.me.eng.emits = m :: [] ∧ m.ch = (2 : BitVec 4).toNat ∧ m.failed = false ∧ m.reprobe = false
       ∧ copyCaps m.nest m.bytes m.next = .ok () ∧ s.checkStale 0 m x false = .ok () ∧ s.checkStale 0 m y true = .ok ()
       ∧ s.copyKinds 0 (waiterOf 0 3) x y m.bytes = .ok ()
       ∧ (let p := fun (a : Nat) (c : Cap) => (⟨a, 16, .here a 0, s.party, some c⟩ : Piece)
          let ps := [p 0x10000 m.nest.src, p 0x10010 m.nest.src]; let qs := [p 0x20000 m.nest.dst, p 0x20010 m.nest.dst]
          s.copyPieces 0 m.block m.nest.src x m.bytes false = .ok ps
          ∧ s.copyPieces 0 m.block m.nest.dst y m.bytes true = .ok qs
          ∧ s.checkWeights 0 qs = .ok () ∧ passed (s.readPieces 0 3 ps (copyUnit m.ch)) (fun bs => bs.length = m.bytes
            && s.awaitEngine 0 3 m.word y qs bs = .ok ())
          ∧ s.fifoRuns y m.bytes = [] ∧ s.older = [])) := by decide +kernel

/-- A Stratus block of core 0: one query row of 16 BF16 elements, blocks of 16 rows, slot k7 present, one table entry. -/
def stratRun0 : StratRun :=
  { freshStrat 0 0 [(8, small 0x10000 0x10400 0x3FF)] 1 0 0x3F800000 with
    checked := true, slots := [(7, ⟨[], 0, 0⟩)], table := [0], lc := [0, 0, 0, 1] }

def stratState (g : Option Holder) (u : StratRun) : State :=
  { mapped Core.init with
    mem := { Mem.init with cells := plainCells }
    clusters := [(0, { Cluster.init with strat := some u, granted := g, steps := 255 })] }

theorem witness_stratus_words :
    (let s := stratState none stratRun0; let u := stratRun0
     StratReady s u ∧ u.waitFor StratTraffic.isMerge = .ok () ∧ u.waitFor StratTraffic.isQuery = .ok ()
     ∧ u.slotOf 7 = .ok ⟨[], 0, 0⟩ ∧ 0 < u.lc.getD 3 0 ∧ u.lc.getD 0 0 = 0 ∧ u.bc = 0 ∧ u.quiet = .ok ()
     ∧ s.myCluster.granted ≠ some (.strat u.core))
    ∧ ({ stratRun0 with bc := 1 } : StratRun).bc ≠ 0
    ∧ (let s := stratState (some (.strat 0)) stratRun0
       s.myCluster.granted = some (.strat stratRun0.core) ∧ s.myCluster.steps < 256)
    ∧ (let s := stratState (some (.core 0)) stratRun0; s.myCluster.granted = some (.core stratRun0.core)) := by
  unfold StratReady; decide +kernel

theorem witness_stratus_memory :
    (let s := stratState none stratRun0; let u := stratRun0; let cap := u.cap 0
     let at' := fun (o unit : Nat) => (cap.cursor.toNat + o * unit : Int)
     let reads := fun (x : Int) (m n : Nat) => passed (s.stratPieces u ⟨8, x, m, n⟩ false) (fun ps =>
       passed (s.readPieces 0 4 ps) (fun bs => bs.length = n))
     let q := 16 * ((u.qr * u.dim * u.elem + 15) / 16) + 4 * u.qr; let r := u.qr * u.rstr; let block := u.bs * u.dim * u.elem
     StratReady s u ∧ u.held = none ∧ reads (at' 1 256) q q = true
     ∧ min 64 (((cap.top : Int) - at' 0 4).toNat / 4) = 64 ∧ reads (at' 0 4) 4 256 = true
     ∧ u.waitFor StratTraffic.isTable = .ok () ∧ u.tc < u.table.length ∧ (u.table.getD u.tc 0).toNat = 0
     ∧ reads (at' 0 block) block block = true ∧ reads (at' 3 256) r r = true
     ∧ passed (s.stratPieces u ⟨8, at' 3 256, r, r⟩ true)
         (fun ps => ps.length = 16 && ps.all (fun p => p.place matches .here _ _))
     ∧ u.waitFor StratTraffic.isMerge = .ok ()) := by unfold StratReady; decide +kernel

/-- Core 512 of a Nimbus cluster offers a block. -/
def offerState : State :=
  { State.reset with
    actor := { Actor.first with core := 512 }
    cores := [(512, { Core.init with eng := { CoreEng.init with stratQ := [⟨0, [], 1, 0, 0x3F800000⟩] } })] }

theorem witness_stratus_traffic :
    (let s := offerState
     isNimbus s.home = true ∧ s.myCluster.strat = none ∧ s.myCluster.resumed = [] ∧ s.nextOffer s.home = some 512
     ∧ (s.core 512).eng.stratQ = ⟨0, [], 1, 0, 0x3F800000⟩ :: [] ∧ (s.core 512).sys.pendtrap = false
     ∧ badStart 0 0x3F800000 = none)
    ∧ (∀ w ∈ [StratTraffic.query [[1]] [2], .table [1] 0, .block 7 ⟨[], 0, 0⟩, .merge [[1]]],
       let f : StratFlight := ⟨0, ⟨8, 0, 4, 4⟩, [], w, [], false⟩; let u := { stratRun0 with traffic := [f] }
       (stratState none u).myCluster.strat = some u ∧ u.core = 0 ∧ u.traffic = f :: [] ∧ f.again = false ∧ f.what = w)
    ∧ (let bs := List.replicate 16 (5 : Byte)
       let f : StratFlight := ⟨0, ⟨8, 0x10000, 16, 16⟩, [⟨0x10000, 16, .here 0x10000 0, world0, none⟩], .store bs, [], false⟩
       let u := { stratRun0 with traffic := [f] }
       (stratState none u).myCluster.strat = some u ∧ u.traffic = f :: [] ∧ f.what = .store bs ∧ f.again = false
       ∧ bs.length = (f.pieces.map Piece.len).sum ∧ (stratState none u).older = []) := by decide +kernel
/-- Cluster 0 with claims of cores and the last array grant as given. -/
def grid (c : Cluster) : State := { mapped Core.init with clusters := [(0, c)] }

theorem witness_array_grant :
    (let s := grid { Cluster.init with claims := [0], position := 7, lastWorld := some (1, 0) }; let c := s.myCluster
     c.granted = none ∧ c.positions = 8 ∧ 0 = (c.position + 1) % c.positions ∧ c.claimAt 0 0 = true ∧ c.fetching = false
     ∧ Marks.has 0 c.claims = true ∧ c.lastWorld ≠ none ∧ c.lastWorld ≠ some (s.gridOf 0))
    ∧ (let s := grid { Cluster.init with claims := [2], position := 0, lastWorld := some (0, 0) }; let c := s.myCluster
       c.granted = none ∧ 2 ≤ c.positions ∧ 2 = (c.position + 2) % c.positions ∧ c.claimAt 0 2 = true
       ∧ (∀ j, j < 2 → 0 < j → c.claimAt 0 ((c.position + j) % c.positions) = false) ∧ c.fetching = false
       ∧ c.lastWorld = some (s.gridOf 2))
    ∧ (let s := grid { Cluster.init with strat := some { stratRun0 with core := 1, wants := true } }; let c := s.myCluster
       1 = (c.position + 1) % c.positions ∧ c.claimAt 0 1 = true ∧ Marks.has 1 c.claims = false)
    ∧ (let s := grid { Cluster.init with cumulus := { Cumulus.init with weight := 1, passes := [⟨[], 0, [], 0⟩] } }
       let c := s.myCluster
       8 = (c.position + 8) % c.positions ∧ 8 ≤ c.positions ∧ c.claimAt 0 8 = true
       ∧ (∀ j, j < 8 → 0 < j → c.claimAt 0 ((c.position + j) % c.positions) = false))
    ∧ (256 ≤ (grid { Cluster.init with steps := 256 }).myCluster.steps)
    ∧ (let s := { grid Cluster.init with time := 8192 }; s.myCluster.grantedAt + 8192 ≤ s.time) := by decide +kernel

/-- A record at 0x30000 that runs image 1, in the ready pool of partition 0. -/
def pooled : State :=
  let s := mapped Core.init
  let t := s.setRecBytes 0 0x30000 0 (List.replicate 16 0 ++ leBytes 1 4 ++ leBytes 0 4 ++ leBytes 0xFFFFFFFF 4 ++ leBytes 1 4)
  t.setPart 0 { onePart with images := [(1, ⟨0x8000, 13, 0⟩)], pool := [⟨0x30000, 0, 0, 0⟩], owner := [(0x30000, 0)] }

/-- The record waited for counter 63 of world 0 and context 0 to reach 4. -/
def waitingPool : State :=
  pooled.modPart 0 (fun p => p.setSeq (seqIndex 0 0 63) { SeqCounter.init with done := 4, report := 0x40001, waiting := [(0x30000, 4)] })

/-- What a save of that record holds. -/
def saved0 : Saved :=
  { record := 0x30000, world := 0, context := 0, key := 0, kind := 3, cluster := 0, origin := 0, core := { Core.init with pc := 9 },
    l1 := [], l1poison := [], l1tags := [], l1full := [], l1pend := [], slots := [], tiles := [], strat := none, epoch := 1, faulted := false }

/-- The record's 64 bytes, runnable with full state, its area at 0x100000. -/
def savedRecord : List Host.Cell :=
  (upFrom 0x30000 64).zip (List.replicate 16 0 ++ leBytes 1 4 ++ leBytes 0 4 ++ leBytes 0xFFFFFFFF 4 ++ leBytes 0x1001 4
    ++ leBytes 0x100000 8 ++ List.replicate 24 0)

/-- The bytes of its area. -/
def savedArea : List Byte := saved0.area (State.reset.saveKey 0 0 0) 0x100000

/-- That record beside the area of its save. -/
def suspended : State :=
  let s := pooled.modPart 0 (fun p => { p with areas := [(0, ⟨1, some saved0⟩)] })
  { s with mem := { Mem.init with cells := savedRecord ++ (upFrom 0x100000 savedArea.length).zip savedArea } }

theorem find_append (x : Nat) (v : Byte) (cs rest : List Host.Cell) (h : ∀ c ∈ cs, c.1 ≠ x) :
    Sparse.find? x (cs ++ (x, v) :: rest) = some v := by
  induction cs with
  | nil => simp [Sparse.find?]
  | cons c cs ih =>
    have hc := h c List.mem_cons_self
    simp only [List.cons_append, Sparse.find?, if_neg hc]
    exact ih (fun d hd => h d (List.mem_cons_of_mem _ hd))

theorem raw_appended (m : Mem) (cs : List Host.Cell) (l : Nat) (bs : List Byte) (h : ∀ c ∈ cs, c.1 < l)
    (hm : m.cells = cs ++ (upFrom l bs.length).zip bs) : m.raw l bs.length = bs := by
  induction bs generalizing cs l with
  | nil => rfl
  | cons b bs ih =>
    have hb : m.byte l = b := by
      unfold Mem.byte Sparse.get
      rw [hm, List.length_cons, upFrom, List.zip_cons_cons, find_append _ _ _ _ (fun c hc => by have := h c hc; omega)]
      rfl
    rw [Mem.raw, List.length_cons, upFrom, List.map_cons, hb]
    refine congrArg _ (ih (cs ++ [(l, b)]) (l + 1) (fun c hc => ?_) ?_)
    · rcases List.mem_append.1 hc with hc | hc
      · have := h c hc; omega
      · simp only [List.mem_singleton] at hc; subst hc; exact Nat.lt_succ_self l
    · rw [hm, List.length_cons, upFrom, List.zip_cons_cons, List.append_assoc]; rfl

theorem witness_pickup :
    (let s := pooled; let r := s.runningOf 0 0x30000
     s.me.run = none ∧ s.ownerOf s.home = some 0 ∧ (s.part 0).held = false ∧ s.bestEntry 0 0 = some ⟨0x30000, 0, 0, 0⟩
     ∧ ((s.part 0).world r.world).wiped = false ∧ (Sparse.find? r.image (s.part 0).images).isSome = true
     ∧ ctlDef (s.ctl 0 0x30000) = 0 ∧ hbmLoc 0 0x30000 + 64 ≤ hbmEnd ∧ ctlFull (s.ctl 0 0x30000) = false
     ∧ s.mem.poisonIn (hbmLoc 0 0x30000) 64 = none ∧ s.outer.vfs.all (fun f => f.2.state ≠ 3) ∧ (s.part 0).seqs = [])
    ∧ (let s := waitingPool; let n := seqIndex 0 0 63
       let waits := fun (q : Nat × SeqCounter) => q.2.waiting.any (fun w => w.1 = 0x30000)
       s.bestEntry 0 0 = some ⟨0x30000, 0, 0, 0⟩ ∧ ctlFull (s.ctl 0 0x30000) = false
       ∧ (List.find? waits (s.part 0).seqs).map Prod.fst = some n
       ∧ (((s.part 0).seq n).waiting.find? (fun w => w.1 = 0x30000)) = some (0x30000, 4))
    ∧ (let s := suspended; let r := s.runningOf 0 0x30000
       s.me.run = none ∧ s.ownerOf s.home = some 0 ∧ (s.part 0).held = false ∧ s.bestEntry 0 0 = some ⟨0x30000, 0, 0, 0⟩
       ∧ ((s.part 0).world r.world).wiped = false ∧ (Sparse.find? r.image (s.part 0).images).isSome = true
       ∧ ctlDef (s.ctl 0 0x30000) = 0 ∧ ctlFull (s.ctl 0 0x30000) = true
       ∧ s.areaFor 0 0x30000 = some (0, saved0)) := by decide +kernel

theorem witness_restorable : suspended.restorable (suspended.runningOf 0 0x30000) 0 saved0 = true := by
  have hr : (suspended.runningOf 0 0x30000).record = saved0.record := rfl
  have hw : (suspended.runningOf 0 0x30000).world = saved0.world := by decide +kernel
  have hc : (suspended.runningOf 0 0x30000).context = 0 := by decide +kernel
  have he : (Sparse.get (suspended.part 0).areas Area.init 0).epoch = saved0.epoch := rfl
  have hh : hbmLoc 0 ((suspended.part 0).handle 0) = 0x100000 := by decide +kernel
  have hl : savedArea.length = saved0.length := length_area _ _ _
  have hm : suspended.mem.raw 0x100000 saved0.length = savedArea := by
    rw [← hl]; exact raw_appended _ savedRecord 0x100000 _ (by decide +kernel) rfl
  have hp : (suspended.runningOf 0 0x30000).part = 0 := rfl
  have hw0 : saved0.world = 0 := rfl
  have hk : suspended.saveKey 0 0 0 = State.reset.saveKey 0 0 0 := rfl
  have good := area_good saved0 (State.reset.saveKey 0 0 0) 0x100000 (by decide) (by decide)
  have hq : suspended.mem.poisonIn 0x100000 saved0.length = none := rfl
  simp only [State.restorable, hp, hh, State.raw, hm, hr, hw, hc, he, hw0, hk, hq, decide_true, Bool.true_and, Option.isNone_none]
  exact good

theorem witness_owing :
    (let s := pooled; let st := ctlState (s.ctl s.actor.part 0x30000); 1 ≤ st ∧ st ≤ 4)
    ∧ windowOf 0x10088 = .translated ∧ windowOf 0x7F0000000018 ≠ .translated := by decide +kernel

theorem witness_forced_suspend :
    (let s := pooled.setCore 0 { Core.init with run := some { syncRun with image := 1 } }
     s.me.run = some { syncRun with image := 1 } ∧ (s.part 0).freeArea = some 0 ∧ s.mustGoOn s.actor.core = false
     ∧ (let f := s.request 0 0 0 7 0 0 (.amo 0 0 1 0 4) 0 ⟨s.party, none⟩
        { s with outer := { s.outer with forwards := [f] } }.mustGoOn s.actor.core = true))
    ∧ (let f : List FrameEntry := [⟨0x05 :: List.replicate 7 0xFE, 14, false⟩, ⟨List.replicate 8 0xFE, 14, true⟩]
       let s : State := { grid { Cluster.init with frames := f } with time := 2 ^ 14 }
       let c := s.myCluster
       c.frameStart + 2 ^ (c.frameEntry c.frame).lexp ≤ s.time ∧ c.edgeCores s.home = [0]
       ∧ s.canSaveAll (s.partOfCore (8 * s.home)) (c.edgeCores s.home) = true) := by decide +kernel

/-- A task of class 0 with one row at 0x10000 and its results at 0x20000. -/
def task0 : CumTask :=
  { core := 0, part := 0, world := 0, context := 0, act := small 0x10000 0x10010 1, res := small 0x20000 0x20040 2,
    hash := 7, weight := 9, cls := 0, rows := 1, patience := 5, admitMode := 0, flush := false, rfmt := 10, ctr := 0, seq := 1,
    born := 0, launch := 0 }

/-- The descriptor of that task, at 0x28000. -/
def taskBytes : List Byte :=
  capBytes task0.act ++ capBytes task0.res ++ leBytes 7 16 ++ leBytes 9 8 ++ [0, 1] ++ leBytes 5 2 ++ leBytes 0xA0 4

/-- The words of an epilogue that returns its entry: VMOV sq0, lq0; VEND. -/
def epilogue : List Nat :=
  [0x4D49414C, 14, 12, 0, 12, 2, 14, 0, 14, 0, 14, 0, 0x9FCE0008, 0x04000000]

/-- Partition 0 with a weight of class 0 in I8, that image and that descriptor. -/
def cumState (u : Cumulus) : State :=
  let s := grid { Cluster.init with cumulus := u, granted := some .cumulus }
  let s := s.poke 0x8000 (imageBytes epilogue)
  let s := s.poke 0x28000 taskBytes
  let s := { s with mem := (s.mem.setTag 0x28000 true).setTag 0x28010 true }
  let w : Weight := { ident := 9, part := 0, base := 0x40000000, len := 256, layout := [7, 0] ++ List.replicate 14 0 }
  { s.setPart 0 { onePart with images := [(1, ⟨0x8000, 14, 7⟩)] } with outer := { s.outer with weights := [(0, w)] } }

theorem witness_admission :
    (let x : Submit := ⟨0, 0x30000, 0, 0, 0, false, 0x28000, .here 0x28000 0, 0⟩
     let s := cumState { Cumulus.init with weight := 1, submits := [x] }
     s.myCluster.cumulus.submits[0]? = some x ∧ ¬ (s.myCluster.cumulus.last.1 = s.time ∧ x.core < s.myCluster.cumulus.last.2)
     ∧ s.awaitCaps x (s.mem.readUnder 0 0x28000 64) = .ok () ∧ s.mem.poisonIn 0x28000 64 = none ∧ ctlState (s.ctl 0 0x30000) < 5
     ∧ s.refusal 0 (s.descriptor x (s.mem.readUnder 0 0x28000 64) (s.mem.tagAt 0x28000) (s.mem.tagAt 0x28010)) = 0)
    ∧ (let x : Submit := ⟨0, 0x30000, 0, 0, 0, false, 0x28000, .here 0x28000 0, 0⟩
       let s := cumState { Cumulus.init with weight := 1, submits := [x] }
       s.refusal 0 (s.descriptor x (s.mem.readUnder 0 0x28000 64) false (s.mem.tagAt 0x28010)) ≠ 0)
    ∧ (let l : HoldList := ⟨7, 9, 0, none, [task0]⟩
       let s := { cumState { Cumulus.init with weight := 1, lists := [l] } with time := 5 }
       s.myCluster.cumulus.lists[0]? = some l ∧ (∀ m ∈ l.members, m.born ≤ s.time) ∧ l.deadline ≤ s.time)
    ∧ (let l : HoldList := ⟨7, 9, 0, none, [{ task0 with rows := 8 }]⟩
       let s := cumState { Cumulus.init with weight := 1, lists := [l] }
       s.myCluster.cumulus.lists[0]? = some l ∧ (∀ m ∈ l.members, m.born ≤ s.time) ∧ rowsOf l.members = l.capacity)
    ∧ (let x : Submit := ⟨0, 0x30000, 0, 0, 0, false, 0x28000, .here 0x28000 0, 0⟩
       let s := cumState { Cumulus.init with weight := 1, submits := [x], last := (0, 2) }
       s.myCluster.cumulus.submits[0]? = some x ∧ s.myCluster.cumulus.last.1 = s.time
       ∧ x.core < s.myCluster.cumulus.last.2) := by decide +kernel

/-- A pass of that task about to run its next word, under a grant with some step words behind it. -/
def passState (steps : Nat) (t : CumTask) : State :=
  let s := cumState { Cumulus.init with weight := 1, passes := [passOf [t]] }
  s.setMyCluster { s.myCluster with steps := steps }

theorem witness_run_pass :
    (let s := passState 253 task0; let u := s.myCluster.cumulus; let p := passOf [task0]
     s.myCluster.granted = some .cumulus ∧ s.atLimit s.home = false ∧ u.passes.findIdx? (fun p => !p.ran) = some 0
     ∧ u.passes[0]? = some p ∧ p.members ≠ [] ∧ p.next = 0 ∧ s.myCluster.steps + p.members.length + 2 ≤ 256
     ∧ (s.weightOf 0 9).map (fun q => (q.1, q.2.base, q.2.len, q.2.format)) = some (0, 0x40000000, 256, 7)
     ∧ (∀ m ∈ p.members, (m.task.part, m.task.weight) = (0, 9) ∧ shapeClass m.task.cls = some ⟨16, 16, 4, 8⟩ ∧ m.finished = false)
     ∧ s.waiters = [] ∧ s.outer.forwards = [] ∧ ((s.weightOf 0 9).any (fun q => (q.2.tile ⟨16, 16, 4, 8⟩).all
         (fun r => s.mem.poisonIn (hbmLoc 0 0x40000000 + r.1) r.2 = none)))
     ∧ passed (s.activations task0 (task0.rows * rowBytes (matFmtOf 7) 16)) (fun r => r.2.length = 16) = true)
    ∧ (let s := passState 255 task0; (passOf [task0]).members[0]? = some (PassMember.fresh task0) ∧ s.myCluster.steps = 255
       ∧ s.atLimit s.home = false ∧ passed (s.activations task0 16) (fun r => r.2.length = 16) = true)
    ∧ (let s := passState 255 { task0 with act := small 0x90000000 0x90000010 1 }
       (match s.activations { task0 with act := small 0x90000000 0x90000010 1 } 16 with
         | .error (.xlate x) => x.remote.isNone | _ => false) = true)
    ∧ (let t := { task0 with act := Cap.null }; let s := passState 255 t
       s.activations t 16 = trapN .captag 0 ∧ bitsAt ((s.part 0).seq (seqIndex 0 0 0)).report.toNat 0 8 = 0) := by
  decide +kernel

/-- What Cumulus has done so far changes nothing about what it fetches. -/
theorem witness_pass_reads (s : State) (t : CumTask) (n : Nat) (v : Cumulus) (k : Nat) :
    (s.setMyCluster { s.myCluster with cumulus := v, steps := k }).activations t n = s.activations t n :=
  activations_setMyCluster s { s.myCluster with cumulus := v, steps := k } rfl t n

/-- A member of a pass that has run, with some rows of zeros. -/
def ranMember (rows : Nat) (hash : BitVec 128) : PassMember :=
  { PassMember.fresh { task0 with rows := rows, hash := hash } with acc := List.replicate rows (List.replicate 16 0) }

/-- The lane format of class 0. -/
def epiLane : Fmt := (⟨16, 16, 4, 8⟩ : ShapeClass).lane 7

theorem witness_epilogue :
    (let m := ranMember 5 7; let p : Pass := ⟨[m], 3, [], 0⟩
     let s := cumState { Cumulus.init with weight := 1, passes := [p] }
     let u := s.myCluster.cumulus; let es := memberEntries epiLane m.acc
     u.passes.findIdx? (fun p => p.ran) = some 0 ∧ u.passes[0]? = some p ∧ p.members.findIdx? (fun m => !m.finished) = some 0
     ∧ s.recordFirst 0 0 0 = false ∧ s.passFormat m.task = 7 ∧ s.mayEpilogue 0 m.task = true ∧ m.written = false ∧ es.length = 2
     ∧ es[0]? = some (es.headD 0) ∧ m.results.length + 1 < es.length
     ∧ passed (runEpi (s.epiWords 0 7) (epiCore epiLane (es.headD 0))) (fun q => q.2 = es.headD 0) = true)
    ∧ (let m := ranMember 1 8; let s := cumState { Cumulus.init with weight := 1, passes := [⟨[m], 3, [], 0⟩] }
       (match runEpi (s.epiWords 0 8) (epiCore epiLane 0) with | .error e => decide (e.2 = (1, 0)) | .ok _ => false) = true
       ∧ bitsAt ((s.part 0).seq (seqIndex 0 0 0)).report.toNat 0 8 = 0)
    ∧ (let m := ranMember 1 7; let s := cumState { Cumulus.init with weight := 1, passes := [⟨[m], 3, [], 0⟩] }
       let es := memberEntries epiLane m.acc
       let d := (runEpi (s.epiWords 0 7) (epiCore epiLane (es.headD 0))).toOption.map Prod.fst
       m.results.length + 1 = es.length ∧ d.isSome = true
       ∧ passed ((s.leaveEpi 0 (d.getD Core.init)).scatterPieces m.task (memberBytes epiLane 10 16 [es.headD 0]).length) (fun ps =>
           (ps.map Piece.len).sum = 64 && ps.all (fun x => match x.place with | .here _ _ => true | _ => false))
       ∧ s.scatterPending m.task = false ∧ ((s.part 0).seq (seqIndex 0 0 0)).waiting = []
       ∧ ((s.part 0).seq (seqIndex 0 0 0)).finished = []
       ∧ m.task.seq.toNat = ((s.part 0).seq (seqIndex 0 0 0)).done.toNat + 1) := by decide +kernel

/-- A region execution with inputs v0 and outputs v1 that has run its block, or is skipped. -/
def ranRegion (skip : Bool) : RegionRun :=
  { RegionRun.start 5 0 1 (if skip then .serve else .observe) with
    firstOut := 1, nOut := 1, inputs := some ([0], 10), ended := true, skipped := skip }

def regionState (skip : Bool) (f : FitEntry) : State :=
  (fitted f).setCore 0 { Core.init with
    run := some syncRun, eng := { CoreEng.init with vecQ := [⟨0, 1, 0, [], 1, some (ranRegion skip), false⟩] } }

/-- Region 5 in training: one input, one output, no hidden layer, its first batch with an input value. -/
def training (x : Nat) (batches : Nat) : State :=
  let f : FitEntry := { FitEntry.fresh 0 0 5 with
    state := .train, binding := some ⟨0, 1, 1, 1, 0, 10, 2, [1, 1]⟩
    batches := List.replicate batches ⟨[BitVec.ofNat 2048 x], [0]⟩ }
  { fitted f with clusters := [(0, { Cluster.init with training := [2] })] }

theorem witness_mirage_executions :
    (let s := regionState false (FitEntry.fresh 0 0 5)
     s.me.run = some syncRun ∧ s.me.eng.vecQ = ⟨0, 1, 0, [], 1, some (ranRegion false), false⟩ :: []
     ∧ (ranRegion false).inputs = some ([0], 10) ∧ (ranRegion false).ended = true ∧ (ranRegion false).skipped = false
     ∧ s.me.eng.vecFlight = [] ∧ ¬ ((FitEntry.fresh 0 0 5).last.1 = s.time ∧ s.actor.core < (FitEntry.fresh 0 0 5).last.2))
    ∧ (let f := { FitEntry.fresh 0 0 5 with last := (0, 2) }; let s := regionState false f
       s.fitOf syncRun 5 = some (2, f) ∧ f.last.1 = s.time ∧ s.actor.core < f.last.2)
    ∧ (let f : FitEntry := { FitEntry.fresh 0 0 5 with state := .serve, binding := some ⟨0, 1, 1, 1, 0, 10, 2, [1, 1]⟩ }
       let s := regionState true f
       (ranRegion true).skipped = true ∧ s.fitOf syncRun 5 = some (2, f)
       ∧ s.me.eng.vecFlight.any (fun g => g.writes (regRange 1 1)) = false ∧ (f.answerNet (ranRegion true) 10).isSome = true)
    ∧ (let p := (fitted (FitEntry.fresh 0 0 5)).setPart 0 { onePart with images := [(1, ⟨0x8000, 13, 3⟩)] }
       Sparse.find? 1 (p.part p.actor.part).images = some ⟨0x8000, 13, 3⟩ ∧ p.executing 0 3 = false) := by decide +kernel

theorem witness_training :
    (let s := training 0x7F800000 1
     s.ownerOf s.home = some 0 ∧ s.myCluster.training = 2 :: [] ∧ (s.part 0).held = false
     ∧ (match Sparse.find? 2 (s.part 0).fits with
        | some f => f.state = .train && (match f.binding, f.batches[f.trainNext]? with
            | some b, some x => (f.sgd b x).isNone | _, _ => false)
        | none => false) = true)
    ∧ ((match Sparse.find? 2 ((training 0 2).part 0).fits with
        | some f => decide (f.trainNext + 1 < f.batches.length) && (match f.binding, f.batches[f.trainNext]? with
            | some b, some x => (f.sgd b x).isSome | _, _ => false)
        | none => false) = true)
    ∧ ((match Sparse.find? 2 ((training 0 1).part 0).fits with
        | some f => decide (f.batches.length ≤ f.trainNext + 1) && (match f.binding, f.batches[f.trainNext]? with
            | some b, some x => (f.sgd b x).isSome | _, _ => false)
        | none => false) = true) := by decide +kernel

/-- Partition 0 whose world 0 may switch banks, with bank 15 as given. -/
def bankState (b : Bank) : State :=
  { grid { Cluster.init with banks := [(15, b)] } with
    parts := [(0, { onePart with worlds := [(0, { World.init with present := true, l2auth := true, s2root := 0x1000 })] })] }

theorem witness_banks :
    (let s := bankState Bank.init; let x := s.myCluster.bank 15
     (2 : BitVec 2) ≠ 3 ∧ (2 : BitVec 2).toNat ≠ x.mode ∧ x.switching = none ∧ (s.worldOf s.party).l2auth = true)
    ∧ (let s := grid Cluster.init; (s.worldOf s.party).l2auth = false)
    ∧ (let s := bankState { Bank.init with switching := some (1, 0) }
       (s.myCluster.bank 15).switching = some (1, 0) ∧ s.switchWaits s.home 15 = false)
    ∧ poisonSound (.granule hbmEnd) = true ∧ poisonSound (.line (hbmEnd - 1)) = true ∧ poisonSound (.block 0) = true
    ∧ poisonSound (.tag 0) = true := by
  decide +kernel

theorem witness_weights :
    (let s := grid Cluster.init
     layoutOk ([7, 0] ++ List.replicate 14 0) = true ∧ s.frameOk 0 0x50000 256 = true ∧ (s.part 0).present = true
     ∧ s.freeWeight = some 0)
    ∧ (let s := cumState Cumulus.init
       (s.weightOf s.actor.part 9).map (fun q => (q.1, q.2.base)) = some (0, 0x40000000)
       ∧ s.weightBusy s.actor.part 9 = false) := by decide +kernel

/-- Partition 0 with pod port 3 and a request outstanding. -/
def podState (f : Forward) : State :=
  let s := mapped { Core.init with run := some syncRun }
  { s with parts := [(0, { onePart with ports := [3] })], outer := { s.outer with forwards := [f] } }

/-- A request of core 0 to module 7. -/
def fwd (core engine : Nat) (k : FwdKind) (port : Option Nat) : Forward :=
  { (podState ⟨0, 0, 0, none, 0, 0, 0, .load 0, ⟨world0, none⟩, 0, 0, [], none, none⟩).request core engine 1 7 0 0x40000000 k 0
      ⟨world0, none⟩ with port := port }

/-- A MIGRATE of the first page of world 0 that copies to another module. -/
def moving : XlCommand :=
  { zenith := true, vf := 0, ticket := 3, op := 3, part := 0, world := 0, context := 0, pages := 0, addr := 0, leaf := 0,
    copying := true }

theorem witness_pod :
    (let s := podState (fwd 0 2 (.load 64) (some 3)); let c := small 0x70000 0x70040 3
     let q : FwdRequest := ⟨3, 0, 0, 0, c, 0x70000, 0x18000, .load 64, 5⟩
     let l := hbmLoc 0 (s.served 0 0 q.pa).1
     (s.part q.part).present = true ∧ (s.part q.part).ports.contains q.port = true ∧ s.frameMoving q.part q.pa = false
     ∧ (∀ k ∈ [FwdKind.load 64, .store (List.replicate 8 1) [], .amo 0 1 1 0 4],
         s.refusesRequest { q with kind := k } l (fwdBytes k) = false)
     ∧ s.refusesRequest { q with cap := Cap.null } l 64 = true
     ∧ { s with outer := { s.outer with commands := [moving] } }.frameMoving q.part q.pa = true)
    ∧ ((podState (fwd 0 2 (.load 64) none)).part 1).present = false
    ∧ ((podState (fwd 0 2 (.load 64) none)).part 0).ports.contains 4 = false := by decide +kernel

theorem witness_pod_answers :
    (fwd 0 2 (.load 64) (some 3)).reply = none ∧ (fwd 0 2 (.load 64) none).port = none
    ∧ (fwd 0 2 (.load 64) (some 3)).awaited = true ∧ (fwd 0 0 (.store [1] []) (some 3)).awaited = true
    ∧ (fwd 0 cumulusEngine (.store [1] []) (some 3)).awaited = false
    ∧ (let f := fwd 0 0 (.amo 0 0 1 0 4) (some 3); f.engine = 0 ∧ f.port ≠ none ∧ f.reply = none)
    ∧ (let m : PassMember := { PassMember.fresh task0 with written := true }
       let f := { fwd 0 cumulusEngine (.store [1] []) (some 3) with word := task0.number }
       let mine := fun (m : PassMember) => m.task.core = f.core && m.task.number = f.word && m.written && !m.finished
       let s := cumState { Cumulus.init with weight := 1, passes := [⟨[m], 3, [], 0⟩] }
       let ps := (s.cluster (clusterOf f.core)).cumulus.passes
       f.awaited = false ∧ f.core < deviceCore ∧ f.engine = cumulusEngine
       ∧ ps.findIdx? (fun p => p.members.any mine) = some 0 ∧ ps[0]? = some ⟨[m], 3, [], 0⟩ ∧ [m].findIdx? mine = some 0
       ∧ bitsAt ((s.part 0).seq (seqIndex 0 0 0)).report.toNat 0 8 = 0) := by decide +kernel

/-- A report of a continuation at 0x30000. -/
def fault0 : FaultRec :=
  { token := 7, record := 0x30000, info := 0, addr := 0, pc := 0, kind := 1, cause := 1, level := 0, write := false, seq := 0,
    ctr := 0, context := 0, world := 0, gpa := 0, part := 0, engine := 0, blocked := false }

/-- Function 0 with a fault ring of 64 entries at guest 0x18000 and reports waiting. -/
def ringFaults (z : Bool) : State :=
  let s := mapped Core.init
  { s with
    actor := { Actor.first with zenith := z }
    outer := { s.outer with
      vfs := [(0, { Vf.init with configured := true, state := 2, ctxtab := 0x3001, frbase := 0x18000, frsize := 6, waiting := [fault0] })]
      s2waiting := [fault0] } }

theorem witness_fault_entries :
    (let s := ringFaults true
     s.actor.zenith = true ∧ s.outer.s2waiting = fault0 :: [] ∧ s.outer.s2head + 1 ≠ s.outer.s2tail ∧ s.mgmt.handoff = none)
    ∧ (let s := ringFaults false; let x := s.vf 0
       s.actor.zenith = false ∧ x.waiting = fault0 :: [] ∧ x.frsize ≠ 0 ∧ fault0.blocked = false
       ∧ (x.frhead.toNat + 1) % 2 ^ x.frsize ≠ x.frtail.toNat % 2 ^ x.frsize
       ∧ s.translate2 ⟨0, 0, 0⟩ (x.frbase.toNat + 64 * (x.frhead.toNat % 2 ^ x.frsize)) true false = .ok (.here 0x18000 0)
       ∧ s.refusesHost 0 = false
       ∧ bitAt (Sparse.get x.vectors 1 3) 0 = true ∧ bitAt (Sparse.get (Sparse.set 3 0 x.vectors) 1 3) 0 = false) := by
  decide +kernel

/-- A continuation at 0x30000 that waits for token 7. -/
def waitingFault (second : Bool) : State :=
  let s := (ringFaults false).setRecBytes 0 0x30000 24 (leBytes 0xFFFFFFFF 4 ++ leBytes 4 4)
  { s with outer := { s.outer with nextToken := 8, suspended := [⟨7, 0, 0, 0x30000, second, fault0⟩] } }

theorem witness_fault_resume :
    (let s := waitingFault false
     s.refusesHost s.actor.vf = false ∧ s.waiter 7 = some ⟨7, 0, 0, 0x30000, false, fault0⟩
     ∧ s.worldOfVf s.actor.vf = some (0, 0) ∧ ctlState (s.ctl 0 0x30000) = 4)
    ∧ (let s := waitingFault true
       s.zenithActs = true ∧ s.waiter 7 = some ⟨7, 0, 0, 0x30000, true, fault0⟩ ∧ fault0.kind ≠ 5
       ∧ ctlState (s.ctl 0 0x30000) = 4 ∧ (s.vf ((s.part 0).world 0).vf).frsize ≠ 0 ∧ s.outer.nextToken ≠ 7
       ∧ ∀ g ∈ recGroups (s.record 0 0x30000), g = 0xFF)
    ∧ (31 : BitVec 5) ≠ 0 ∧ State.reset.zenithActs = true
    ∧ (let s : State := { State.reset with actor := { Actor.first with hart := ⟨1, 0⟩ } }; s.isZenith s.hid = false
       ∧ s.stalled s.hid = false) := by
  decide +kernel

/-- The state after reset with management fields as given, acting hart h. -/
def mgmtState (m : Mgmt) (h : HartId) : State := { State.reset with mgmt := m, actor := { Actor.first with hart := h } }

theorem witness_harts :
    (let h : Hart := { Hart.init with falSig := 0x20000000, mextLen := 4096 }
     (∀ k, k < 1280 → hartPlace ⟨0, 0⟩ (h.falSig.toNat + k) = .mem (hartLoc ⟨0, 0⟩ (h.falSig.toNat + k)))
     ∧ 1 ≤ h.mextLen.toNat ∧ h.mextLen.toNat ≤ 4096)
    ∧ State.reset.stalled State.reset.hid = false
    ∧ (let s := mgmtState { Mgmt.init with handoff := some ⟨0, 0⟩ } ⟨0, 0⟩; s.stalled s.hid = true)
    ∧ 4096 < (4097 : BitVec 13).toNat ∧ State.reset.actsAs 0 = true
    ∧ (mgmtState Mgmt.init ⟨0, 1⟩).actsAs 0 = false ∧ (31 : BitVec 5) ≠ 0
    ∧ (let m : Mgmt := { Mgmt.init with readychg := true, harts := [(0, { Hart.init with meie := true, mieBit := true })] }
       let s := mgmtState m ⟨0, 0⟩; let x := s.hartOf ⟨s.mgmt.zenith, 0⟩
       s.mgmt.readychg = true ∧ s.mgmt.handoff = none ∧ x.meie = true ∧ x.mieBit = true) := by decide +kernel

theorem witness_register_writes :
    (let s := mapped Core.init; (s.vf 0).configured = true ∧ (s.vf 0).state ≠ 3)
    ∧ (State.reset.vf 255).configured = false
    ∧ (let s := State.reset.setVf 1 { Vf.init with configured := true, state := 3 }; (s.vf 1).state = 3)
    ∧ (∀ c k, State.reset.stalled ⟨c, k⟩ = false) ∧ (0x40000 : Nat) ≤ 0x411000 ∧ (63 : Nat) < 64
    ∧ (let f := { Vf.init with configured := true, state := 2, pending := [63] }
       f.configured = true ∧ f.state ≠ 3 ∧ 63 ∈ f.pending ∧ (0x100000000 : BitVec 64).getLsbD 32 = true
       ∧ (1 : BitVec 64).getLsbD 32 = false)
    ∧ (mgmtState { Mgmt.init with handoff := some ⟨1, 2⟩ } ⟨0, 0⟩).stalled ⟨1, 2⟩ = true := by decide +kernel

theorem witness_mailboxes :
    (let s := mgmtState Mgmt.init ⟨0, 0⟩
     s.mgmt.handoff = none ∧ s.hid.hart ≠ 1 ∧ s.mgmt.mbx.pending = none ∧ s.mgmt.mbx.waiting = [] ∧ s.actsAs 0 = true
     ∧ s.actsAs 1 = false ∧ 1 ≤ ([0] : List Byte).length ∧ ([0] : List Byte).length ≤ 4096)
    ∧ (let s := mgmtState Mgmt.init ⟨0, 1⟩
       s.hid.hart = 1 ∧ s.mgmt.ifm.pending = none ∧ s.mgmt.ifm.waiting = [] ∧ s.actsAs 1 = true ∧ s.actsAs 0 = false
       ∧ 8 ≤ (List.replicate 64 (0 : Byte)).length ∧ (List.replicate 64 (0 : Byte)).length ≤ 64)
    ∧ (let s := mgmtState Mgmt.init ⟨1, 2⟩; s.actsAs 0 = false ∧ s.actsAs 1 = false ∧ s.stalled s.hid = false)
    ∧ (let s := mgmtState { Mgmt.init with mbx := { Mailbox.init with pending := some [1] } } ⟨0, 0⟩
       s.actsAs 0 = true ∧ s.mgmt.mbx.pending = some [1])
    ∧ (let s := mgmtState { Mgmt.init with ifm := { Mailbox.init with pending := some [1] } } ⟨0, 1⟩
       s.actsAs 1 = true ∧ s.mgmt.ifm.pending = some [1]) := by decide +kernel

theorem witness_stage0 : (State.reset.hartOf ⟨0, 0⟩).running = false ∧ Marks.has 0 State.reset.mgmt.staged = false
    ∧ Marks.has 1 (mgmtState { Mgmt.init with staged := [1] } ⟨1, 0⟩).mgmt.staged = true
    ∧ (mgmtState Mgmt.init ⟨1, 0⟩).hid.cplx ≠ (mgmtState Mgmt.init ⟨1, 0⟩).mgmt.zenith
    ∧ identityOk (State.reset.identityRecord 0) = false := by decide +kernel

/-- With key material under which the certificate verifies, stage 0 accepts a record whose fields keep R36. -/
theorem witness_identity (r : List Byte) (h0 : numAt 0 4 r = 0x49444E54) (h1 : numAt 4 4 r = 3960)
    (h2 : sliceB 12 64 r = sliceB 0 64 Config.romRootDigest) (h3 : numAt 0 4 (certOf r) = 0x44435254)
    (h4 : numAt 4 2 (certOf r) = 1) (h5 : sliceB 8 1793 (certOf r) = devicePublic)
    (h6 : Config.falconVerify Config.romRootKey (shake256 (sliceB 0 2612 (certOf r)) 64) (sliceB 2612 1280 (certOf r)) = true) :
    identityOk r = true := by simp [identityOk, h0, h1, h2, h3, h4, h5, h6]

/-- A record value of 1,000 for a rail: 949 and 1,051 lie outside 5 % of it, 950 and 1,050 do not. -/
theorem witness_die : (6 : Nat) < 7
    ∧ (let m : Mgmt := { Mgmt.init with mon := { Monitor.init with rail := [(6, 1000)], vcore := [(6, 949)] } }
       let s := mgmtState m ⟨0, 0⟩; let out := fun (v : BitVec 16) => 20 * v.toNat < 19 * 1000 ∨ 21 * 1000 < 20 * v.toNat
       Sparse.find? 6 s.mgmt.mon.rail = some 1000 ∧ out (Sparse.get s.mgmt.mon.vcore 0 6) ∧ out 1051 ∧ ¬ out 950 ∧ ¬ out 1050)
    ∧ (let m : Mgmt := { Mgmt.init with mon := { Monitor.init with ttrip := 100, warn := 64, throt := 64 } }
       (100 : BitVec 16).slt m.mon.ttrip = false ∧ m.mon.warn.getLsbD 6 = true ∧ m.mon.throt.getLsbD 6 = true
       ∧ Sparse.find? 6 m.mon.rail = none)
    := by decide +kernel

/-- Functions b of Corona ready and failed as given. -/
def readyState (r f e : Marks) : State := mgmtState { Mgmt.init with ready := r, failed := f, farEnd := e } ⟨0, 0⟩

theorem witness_readiness :
    (let s := readyState [821] [] []
     isFunction 79 = true ∧ linkOf 79 = some 821 ∧ Marks.has 821 s.mgmt.ready = true ∧ Marks.has 79 s.mgmt.ready = false
     ∧ Marks.has 79 s.mgmt.failed = false)
    ∧ (isFunction 804 = true ∧ linkOf 804 = none ∧ 769 ≤ 804 ∧ 804 < 805)
    ∧ Marks.has 79 (readyState [79] [] []).mgmt.ready = true
    ∧ Marks.has (769 + 35) (readyState [] [804] [804]).mgmt.farEnd = true
    ∧ (let s := State.reset; s.skips (s.readRecord 0x5000) = true) := by decide +kernel

/-- A record of type 1 with target 0xFFFF is applied where the implementation knows its version and its limits. -/
theorem witness_record (s : State) (p : List Byte) (hv : Config.recordVersionKnown 1 1 = true)
    (hl : Config.recordInLimit 1 p = true) : s.skips ⟨1, 1, 0xFFFF, p, 3⟩ = false := by simp [State.skips, hv, hl]

/-- A state in which the responder has one request to answer. -/
def spdmState (st : Nat) (r : List Byte) : State :=
  mgmtState { Mgmt.init with spdm := st, bootst := 2, mbx := { Mailbox.init with pending := some r } } ⟨0, 0⟩

/-- A request that passes every check of R27, by its code. -/
def goodRequest (code : Nat) : List Byte :=
  if code = 0x84 then [0x10, 0x84, 0, 0]
  else if code = 0x82 then [0x13, 0x82, 0, 0, 0, 0, 0x78, 0x0F]
  else if code = 0xE0 then [0x13, 0xE0, 1, 0xFF] ++ List.replicate 41 0
  else [0x13, BitVec.ofNat 8 code, 0, 0] ++ List.replicate 40 0

theorem witness_spdm :
    ([(0x84, 0), (0xE1, 1), (0xE3, 2), (0x82, 3), (0x83, 3), (0xE0, 3)].all (fun (q : Nat × Nat) =>
      let s := spdmState q.2 (goodRequest q.1)
      s.mgmt.mbx.pending == some (goodRequest q.1) && s.mgmt.bootst == 2 && s.mgmt.handoff.isNone
        && reqCode (goodRequest q.1) == q.1 && (spdmError s.mgmt.spdm (goodRequest q.1)).isNone && spdmServes (goodRequest q.1)
        && (spdmRow q.1).isSome)) = true
    ∧ spdmError 0 (goodRequest 0xE1) = some 4 ∧ spdmError 0 [0x10, 0x84, 0] = some 1
    ∧ spdmError 1 ([0x10, 0xE1] ++ List.replicate 18 0) = some 0x41
    ∧ (let r : List Byte := [0x13, 0x82, 1, 0, 0, 0, 0x78, 0x0F]; spdmError 3 r = none ∧ spdmServes r = false)
    ∧ (spdmRow (reqCode [0x13, 0x85])).isNone = true := by decide +kernel

/-- Function 2 in a state, selected by the interface hart. -/
def ifState (st : Nat) (conf : Bool) (r : List Byte) : State :=
  let s := mgmtState { Mgmt.init with vfsel := 2, bootst := 2, ifm := { Mailbox.init with pending := some r } } ⟨0, 1⟩
  { s.setVf 2 { Vf.init with configured := conf, state := st } with actor := { Actor.first with hart := ⟨0, 1⟩, vf := 2 } }

/-- An interface message of a code for function 2. -/
def ifMsg (c n : Nat) : List Byte := [BitVec.ofNat 8 c, 2, 0, 0, 0, 0, 0, 0] ++ List.replicate n 0

theorem witness_interfaces :
    (let s := ifState 0 true []; s.actsAs 1 = true ∧ (s.vf 2).configured = true ∧ (s.vf 2).state = 0 ∧ s.canAbort 2 = true
      ∧ (0x24 : Nat) % 4 = 0)
    ∧ (let frozen := fun (off : Nat) => off = 0x04 ∨ off = 0x05 ∨ (0x10 ≤ off ∧ off < 0x28)
       frozen 0x05 ∧ frozen 0x10 ∧ frozen 0x27 ∧ ¬ frozen 0x28 ∧ ¬ frozen 0x06 ∧ ¬ frozen 0xFFF)
    ∧ (ifState 1 true []).vf 2 = { Vf.init with configured := true, state := 1 } ∧ (ifState 1 true []).canAbort 2 = true
    ∧ ((ifState 3 true []).vf 2).state = 3
    ∧ (let s := ifState 0 false []; (s.vf 2).configured = false ∧ s.canAbort 2 = true)
    ∧ (let r := ifMsg 0x81 0; let s := ifState 0 true r
       s.mgmt.ifm.pending = some r ∧ s.mgmt.bootst = 2 ∧ s.mgmt.handoff = none ∧ numAt 0 1 r = 0x81 ∧ numAt 1 1 r = 2
       ∧ (s.vf 2).configured = true ∧ (s.vf 2).state = 0)
    ∧ (let r := ifMsg 0x83 32; let s := ifState 1 true r
       numAt 0 1 r = 0x83 ∧ s.raw (s.nonceLoc 2) 32 = sliceB 8 32 r ∧ (s.vf 2).configured = true ∧ (s.vf 2).state = 1)
    ∧ (let r := ifMsg 0x83 0 ++ List.replicate 32 1; let s := ifState 1 true r; s.raw (s.nonceLoc 2) 32 ≠ sliceB 8 32 r)
    ∧ (let r := ifMsg 0x84 0; let s := ifState 1 true r; numAt 0 1 r = 0x84 ∧ s.canAbort 2 = true)
    ∧ numAt 0 1 (ifMsg 0x85 0) = 0x85 ∧ (ifMsg 0x82 31).length < 40 ∧ 40 ≤ (ifMsg 0x82 32).length
    ∧ numAt 0 1 (ifMsg 0x80 0) < 0x81 ∧ 0x85 < numAt 0 1 (ifMsg 0x86 0) := by decide +kernel

/-- The update state u, acting hart h. -/
def updState (u : Nat) (h : HartId) : State := mgmtState { Mgmt.init with updst := u } h

theorem witness_update :
    (updState 5 ⟨0, 0⟩).isZenith (updState 5 ⟨0, 0⟩).hid = true ∧ (updState 5 ⟨0, 0⟩).mgmt.updst = 5
    ∧ (updState 2 ⟨0, 0⟩).mgmt.updst = 2 ∧ (updState 3 ⟨0, 0⟩).mgmt.updst = 3 ∧ (updState 1 ⟨0, 0⟩).mgmt.updst = 1
    ∧ (updState 5 ⟨0, 0⟩).zenithActs = true ∧ (updState 2 ⟨1, 0⟩).zenithActs = false
    ∧ (mgmtState { Mgmt.init with updst := 3, handoff := some ⟨0, 0⟩ } ⟨0, 0⟩).zenithActs = false
    ∧ (∀ n : Fin 4, ((updState 1 ⟨0, 0⟩).hartOf ⟨1, n⟩).running = false)
    ∧ importTable (updState 3 ⟨0, 0⟩).stateTable = none := by decide +kernel

/-- Either answer of the verification is covered, whichever the key material gives. -/
theorem witness_standby (b : Bool) : b = true ∨ b = false := by cases b <;> decide

/-- A table of the importer's major version with no entry is taken. -/
theorem witness_import (bs : List Byte) (h0 : numAt 0 4 bs = 0x53544154) (h1 : numAt 4 2 bs = Config.stateMajor)
    (h2 : numAt 8 8 bs = bs.length) (h3 : bs.length = 64) (h4 : ∀ x ∈ sliceB 24 40 bs, x = 0#8) :
    importTable bs = some [] := by
  have hd : bs.drop 64 = [] := List.drop_eq_nil_of_le (by omega)
  simpa [importTable, h0, h1, h2, h3, hd, tableEntries] using h4

/-- A request for tier 2, its key's digest registered or not. -/
def dbgState (d : Debug) : State := mgmtState { Mgmt.init with dbg := { d with tier := 2 } } ⟨0, 0⟩

theorem witness_debug :
    State.reset.debugActs = true ∧ (mgmtState Mgmt.init ⟨1, 0⟩).debugActs = false
    ∧ (dbgState Debug.init).openFailure = 4
    ∧ (dbgState { Debug.init with digests := [(digestNo 2 0, [])] }).openFailure = 2
    ∧ (let s := dbgState Debug.init; s.canWipe s.mgmt.dbg.tier.toNat (s.mgmt.dbg.target.toNat / 2 ^ 24) = true) := by
  decide +kernel

/-- An OPEN succeeds where the registered digest is the key's, the nonce is valid and the signature verifies. -/
theorem witness_open (s : State) (hw : s.mgmt.dbg.wanted = some (shake256 s.requestKey 64)) (hn : s.mgmt.dbg.valid = true)
    (hf : Config.falconVerify s.requestKey s.challenge s.requestSig = true) : s.openFailure = 0 := by
  simp [State.openFailure, hw, hn, hf]

theorem witness_commit :
    (mgmtState Mgmt.init ⟨1, 0⟩).zenithActs = false
    ∧ (let s := State.reset; s.zenithActs = true ∧ s.commitReason 0 (s.readDesc 0) = 2)
    ∧ (let s := State.reset.poke (mgmtLoc 0 107) [16]; let d := s.readDesc s.mgmt.pcAddr.toNat
       s.zenithActs = true ∧ s.commitReason 0 d = 0 ∧ s.canSaveAll 0 (s.commitCores d) = true
       ∧ s.closesBusy 0 d = false)
    ∧ (let s := (mapped { Core.init with eng := { CoreEng.init with emits := [⟨0, 0, 0, 256, Nest.fresh, 0, false, false, false⟩] } })
       let s := (s.setPart 0 { Partition.init with xch := 1, clust := [0] }).poke (mgmtLoc 0 107) [16]
       let d := s.readDesc s.mgmt.pcAddr.toNat
       s.zenithActs = true ∧ s.commitReason 0 d = 0 ∧ s.canSaveAll 0 (s.commitCores d) = true ∧ s.closesBusy 0 d = true) := by
  decide +kernel

/-- A function with one queue, the first command of its ring as given. -/
def hostQueue (st : Nat) (q : Queue) (c : List Byte) : State :=
  let s := { mapped Core.init with mem := { Mem.init with cells := plainCells ++ cellsOf (hostLoc 0 0) c } }
  s.setVf 0 { s.vf 0 with state := st, queues := [(0, q)] }

/-- A running queue of 16 commands with one to take. -/
def oneHead : Queue := { Queue.init with state := 1, rsize := 4, tail := 1 }

/-- A command: op, flags, tag 5, operands A and B, completion at 0x800 with value 9, operand bytes 40 to 63. -/
def cmdBytes (op fl a b : Nat) (rest : List Byte) : List Byte :=
  [BitVec.ofNat 8 op, BitVec.ofNat 8 fl, 0, 0] ++ leBytes 5 4 ++ leBytes a 8 ++ leBytes b 8 ++ leBytes 0x800 8 ++ leBytes 9 8
    ++ sliceB 0 24 rest

theorem witness_partition_operations :
    (State.reset.zenithActs = true ∧ (State.reset.part 0).present = false)
    ∧ (let s := running 2; let x := s.part s.actor.part
       s.zenithActs = true ∧ x.present = true ∧ s.canSaveAll 0 x.cores = true
       ∧ (∀ n ∈ x.cores, (s.core n).run.all (fun r => r.part = 0) = true) ∧ s.actor.part < 16)
    ∧ (let s := hostQueue 2 oneHead []
       let s := { s with parts := [(0, { onePart with held := true })], outer := { s.outer with latch := [(latchNo 0 0, 7)] } }
       s.zenithActs = true ∧ (s.part 0).present = true ∧ s.outer.latch = [(latchNo 0 0, 7)] ∧ s.mgmt.handoff = none
       ∧ ((s.vf 0).queue 0).gated = false ∧ ((s.vf 0).queue 0).state ≠ 0 ∧ (∀ y ∈ s.parts, y.1 = 0 ∨ y.2.held = false))
    ∧ (let s := pooled.setCtl 0 0x30000 6
       let s := { s with mgmt := { s.mgmt with pcAddr := 0x30000 } }
       s.zenithActs = true ∧ s.isFaulted 0 (bitsAt s.mgmt.pcAddr.toNat 6 42 * 2 ^ 6) = true
       ∧ s.outer.vfs.all (fun f => f.2.state ≠ 3) = true)
    ∧ pooled.isFaulted 0 0x30000 = false := by decide +kernel

theorem witness_images :
    (let s := (mapped Core.init).poke 0x8000 (imageBytes epilogue); let word := s.imageWord 0 0x8000
     (admissionOf word (((s.part 0).memSize - 0x8000) / 4)).status = 0 ∧ s.stillWritten 0 0x8000 (4 * word 1) = false)
    ∧ (let s := mapped { Core.init with run := some syncRun }
       let w : StratFlight := ⟨0, ⟨8, 0, 16, 16⟩, [⟨0x8000, 16, .here 0x8000 0, world0, none⟩], .store (List.replicate 16 1), [], false⟩
       let s := s.setMyCluster { s.myCluster with strat := some { stratRun0 with traffic := [w] } }
       s.stillWritten 0 0x8000 56 = true)
    ∧ (let s := mapped Core.init; let word := s.imageWord 0 0x8000
       (admissionOf word (((s.part 0).memSize - 0x8000) / 4)).status ≠ 0)
    ∧ (let s := mapped Core.init; let base := (s.part 0).memSize; (s.part 0).memSize < base + 16 + 4 * s.imageWord 0 (base + 16) 1)
    := by decide +kernel

theorem witness_queues :
    State.reset.refusesHost 0 = true
    ∧ (let s := hostQueue 2 { oneHead with gated := true } []; s.refusesHost 0 = false ∧ s.gated 0 0 = true)
    ∧ (∀ n ∈ [4, 16], let s := hostQueue 2 { Queue.init with rsize := n } []
       s.refusesHost 0 = false ∧ s.gated 0 0 = false ∧ (theQueue s).state = 0 ∧ (theQueue s).rsize = n)
    ∧ (let s := hostQueue 2 { Queue.init with state := 2 } []; s.refusesHost 0 = false ∧ (theQueue s).state = 2)
    ∧ (∀ n ∈ [0, 1], let s := hostQueue 2 { oneHead with units := n } []
       s.refusesHost 0 = false ∧ s.gated 0 0 = false ∧ (theQueue s).state = 1 ∧ s.queueIdle 0 0 = (n == 0)
       ∧ s.canAbort 0 = true) := by decide +kernel

theorem witness_queue_moves :
    (let s := hostQueue 2 oneHead []; s.zenithActs = true ∧ s.queueIdle s.pcVf s.pcQueue = true)
    ∧ (let s := hostQueue 2 { oneHead with units := 1 } []; s.zenithActs = true ∧ s.queueIdle s.pcVf s.pcQueue = false)
    ∧ (let s := hostQueue 2 Queue.init []
       let s := s.poke (s.zenithLoc s.mgmt.pcAddr.toNat) (leBytes 0x51455850 4 ++ leBytes 1 2)
       let c := s.raw (s.zenithLoc s.mgmt.pcAddr.toNat) 128
       ((s.vf s.pcVf).queue s.pcQueue).state = 0 ∧ numAt 0 4 c = 0x51455850 ∧ numAt 4 2 c = 1
       ∧ bitAt (numAt 7 1 c) 0 = false)
    ∧ (let s := hostQueue 2 Queue.init []
       let s := s.poke (s.zenithLoc s.mgmt.pcAddr.toNat) (leBytes 0x51455850 4 ++ leBytes 1 2 ++ [1, 1])
       let c := s.raw (s.zenithLoc s.mgmt.pcAddr.toNat) 128
       numAt 0 4 c = 0x51455850 ∧ numAt 4 2 c = 1 ∧ bitAt (numAt 7 1 c) 0 = true ∧ s.mgmt.handoff = none
       ∧ s.worldOfVf s.pcVf = some (0, 0) ∧ (s.part 0).held = false ∧ numAt 6 1 c % 4 = 1)
    ∧ (let s := hostQueue 2 Queue.init []
       let s := s.poke (s.zenithLoc s.mgmt.pcAddr.toNat) (leBytes 0x51455850 4 ++ leBytes 1 2 ++ [0, 1])
       let c := s.raw (s.zenithLoc s.mgmt.pcAddr.toNat) 128; let m := { s.mgmt with handoff := some ⟨0, 1⟩ }
       numAt 0 4 c = 0x51455850 ∧ numAt 4 2 c = 1 ∧ bitAt (numAt 7 1 c) 0 = true
       ∧ ({ s with mgmt := m } : State).zenithActs = true ∧ ({ s with mgmt := m } : State).mgmt.handoff ≠ none
       ∧ s.worldOfVf s.pcVf = some (0, 0) ∧ ((s.setPart 0 { onePart with held := true }).part 0).held = true)
    ∧ (let s := hostQueue 2 Queue.init []; numAt 0 4 (s.raw (s.zenithLoc s.mgmt.pcAddr.toNat) 128) ≠ 0x51455850) := by
  decide +kernel

/-- Does the queue take the command at its head, of an op, for world 0? -/
def headIs (s : State) (op : Nat) : Bool :=
  let c := s.command s.actor.vf s.actor.queue (theQueue s).head
  (theQueue s).takes && (s.vf s.actor.vf).state == 2 && !cmdMalformed c && headOp c == op
    && s.worldOfVf s.actor.vf == some (0, 0)

/-- What headIs says is what a command at the head of the queue means. -/
theorem head_command (s : State) (op : Nat) (h : headIs s op = true) :
    HeadCommand s op (s.command s.actor.vf s.actor.queue (theQueue s).head) ⟨0, 0, 0⟩ := by
  simp only [headIs, Bool.and_eq_true, beq_iff_eq, Bool.not_eq_true'] at h
  exact ⟨h.1.1.1.1, h.1.1.1.2, rfl, h.1.1.2, h.1.2, h.2, rfl⟩

theorem witness_commands :
    (∀ st ∈ [0, 3], let s := hostQueue st oneHead (cmdBytes 2 2 0 0 []); (theQueue s).takes = true ∧ (s.vf 0).state = st)
    ∧ (let s := hostQueue 2 oneHead []
       (theQueue s).takes = true ∧ (s.vf 0).state = 2 ∧ cmdMalformed (s.command 0 0 (theQueue s).head) = true)
    ∧ (theQueue (hostQueue 2 { oneHead with tail := 0 } [])).takes = false
    ∧ (let s := hostQueue 2 oneHead (cmdBytes 2 0 0 0 []); headIs s 2 = true ∧ s.inFlight 0 0 = false)
    ∧ (let s := hostQueue 2 oneHead (cmdBytes 2 0 0 0 [])
       let s := { s with outer := { s.outer with chains := [(0, ⟨0, 0, [], 0, false, 0, 0⟩)] } }
       headIs s 2 = true ∧ s.inFlight 0 0 = true)
    ∧ (let s := hostQueue 2 oneHead (cmdBytes 3 2 0x400 0 []); let c := s.command 0 0 0
       headIs s 3 = true ∧ (cmdB c).toNat ≤ leNat (s.raw (hostLoc 0 (cmdA c).toNat) 8) ∧ s.inFlight 0 0 = false)
    ∧ (let s := hostQueue 2 oneHead (cmdBytes 3 2 0x400 1 []); let c := s.command 0 0 0
       headIs s 3 = true ∧ leNat (s.raw (hostLoc 0 (cmdA c).toNat) 8) < (cmdB c).toNat) := by decide +kernel

/-- A RECLAIM of the record at 0x30000, the record's state as given. -/
def reclaimState (st : Nat) : State :=
  let s := hostQueue 2 oneHead (cmdBytes 7 0 0x30000 0 [])
  (s.setPart 0 (pooled.part 0)).setCtl 0 0x30000 st

theorem witness_reclaim :
    (let s := reclaimState 6; headIs s 7 = true ∧ s.guestRecord world0 (cmdA (s.command 0 0 0)).toNat = some 0x30000
      ∧ s.isFaulted 0 0x30000 = true ∧ s.recWorld 0 0x30000 = world0.world ∧ s.outer.vfs.all (fun f => f.2.state ≠ 3) = true)
    ∧ (let s := reclaimState 1; headIs s 7 = true ∧ s.guestRecord world0 (cmdA (s.command 0 0 0)).toNat = some 0x30000
      ∧ s.isFaulted 0 0x30000 = false)
    ∧ (let s := hostQueue 2 oneHead (cmdBytes 7 0 (2 ^ 48) 0 [])
       headIs s 7 = true ∧ s.guestRecord world0 (cmdA (s.command 0 0 0)).toNat = none) := by decide +kernel

/-- A COLLECTIVE of rank 0 of n, 256 bytes from 0x20000 to 0x20100. -/
def joinState (n : Nat) : State :=
  hostQueue 2 oneHead (cmdBytes 4 0 77 0x20000 (leBytes 0 2 ++ leBytes n 2 ++ leBytes 0 4 ++ leBytes 0x20100 8 ++ leBytes 256 4))

/-- Rank 0 of two has joined. -/
def oneRank : Rank := ⟨77, 0, 0, 0, 2, 0x20000, 0x20100, 256, 5, false, 0x800, 9⟩

/-- The other member has sent 64 lanes of zeros. -/
def otherRank : RemoteInput := ⟨1, false, List.replicate 64 0⟩

/-- A decidable form of "pieces do not overlap". -/
def apart (p q : Piece) : Bool :=
  match p.place, q.place with
  | .here a _, .here b _ => decide (a + p.len ≤ b ∨ b + q.len ≤ a)
  | _, _ => true

theorem pieces_apart (ps : List Piece) (h : ps.Pairwise (fun p q => apart p q = true)) : PiecesApart ps := by
  refine h.imp ?_
  intro p q hpq a j b k hp hq
  simpa [apart, hp, hq] using hpq

/-- Some pieces that do not overlap. -/
def someApart (o : Option (List Piece)) : Bool :=
  match o with
  | some ps => decide (ps.Pairwise (fun p q => apart p q = true))
  | none => false

theorem witness_collective :
    (let s := joinState 1; headIs s 4 = true ∧ colLegal (s.command 0 0 0) = false)
    ∧ (let s := joinState 2; let c := s.command 0 0 0
       headIs s 4 = true ∧ colLegal c = true ∧ (s.guestPieces world0 (cmdB c).toNat (colLen c) false).isSome = true
       ∧ (s.guestPieces world0 (colOut c).toNat (colLen c) true).isSome = true ∧ Sparse.find? (cmdA c).toNat s.outer.withdrawn = none)
    ∧ (let s := joinState 2; let s := { s with outer := { s.outer with withdrawn := [(77, 1)] } }
       headIs s 4 = true ∧ Sparse.find? (cmdA (s.command 0 0 0)).toNat s.outer.withdrawn = some 1)
    ∧ (let g : RemoteInput := ⟨1, true, []⟩; [g].filter (fun x => x.withdrawn) = [g])
    ∧ (let s := joinState 2; let s := { s with outer := { s.outer with ranks := [oneRank] } }
       s.outer.ranks.filter (fun x => x.ident = oneRank.ident) = [oneRank] ∧ otherRank.withdrawn = false
       ∧ s.rankParty oneRank = some world0 ∧ someApart (s.guestPieces world0 oneRank.output.toNat oneRank.length true) = true
       ∧ passed (s.rankInput oneRank) (fun own => match gather 2 [(0, own)] [otherRank] with
         | some ins => decide (4 * (sumLanes ins).length = oneRank.length)
         | none => false) = true) := by decide +kernel

/-- A BBCOPY between host 0x1000 and 0x20000: direction, length, number. -/
def bounceState (dir len n : Nat) : State :=
  hostQueue 2 { oneHead with rearm := false, dev := 4 }
    (cmdBytes 5 0 0x1000 0x20000 ([BitVec.ofNat 8 dir, 0, 0, 0] ++ leBytes len 4 ++ leBytes n 8))

/-- It is in sequence and legal for a plain world, and nothing of it has moved. -/
def bounceOk (s : State) : Bool :=
  let c := s.command 0 0 0
  let x := theQueue s
  headIs s 5 && x.units == 0 && x.bounce == [] && (s.vf s.actor.vf).queues.all (fun z => z.2.den == false) && bbDir c ≤ 1 && 256 ≤ bbLen c && bbLen c ≤ 2 ^ 24
    && (s.guestPieces world0 (cmdB c).toNat (bbLen c) (bbDir c = 0)).isSome && !(s.worldOf world0).isSealed && !cmdSig c

theorem witness_bounce :
    (headIs (bounceState 2 256 5) 5 = true ∧ ¬ bbDir ((bounceState 2 256 5).command 0 0 0) ≤ 1)
    ∧ (bounceOk (bounceState 0 256 6) = true ∧ bbSeq ((bounceState 0 256 6).command 0 0 0) ≠ (theQueue (bounceState 0 256 6)).dev + 1)
    ∧ (∀ d ∈ [0, 1], let s := bounceState d 256 5; let c := s.command 0 0 0
       bounceOk s = true ∧ bbSeq c = (theQueue s).dev + 1 ∧ (theQueue s).rearm = false ∧ bbDir c = d ∧ bbLen c = 256
       ∧ someApart (s.guestPieces world0 (cmdB c).toNat 256 (d = 0)) = true
       ∧ (match s.guestPieces world0 (cmdB c).toNat 256 (d = 0) with
         | some ps => passed (s.readPieces deviceCore (bounceEngine 0) ps) (fun bs => bs.length == 256)
         | none => false) = true)
    ∧ (let s := hostQueue 2 { oneHead with rearm := false, dev := 4 }
         (cmdBytes 5 0 0x1000 (2 ^ 47) ([0, 0, 0, 0] ++ leBytes 256 4 ++ leBytes 5 8))
       headIs s 5 = true ∧ (theQueue s).units = 0 ∧ s.guestPieces world0 (2 ^ 47) 256 true = none
       ∧ cmdB (s.command 0 0 0) = 0x800000000000 ∧ bbSeq (s.command 0 0 0) = (theQueue s).dev + 1)
    ∧ (let s := bounceState 0 257 5; bounceOk s = true ∧ bbSeq (s.command 0 0 0) = (theQueue s).dev + 1
       ∧ 256 < bbLen (s.command 0 0 0))
    ∧ (let s := hostQueue 2 oneHead (cmdBytes 6 0 4 0 []); headIs s 6 = true ∧ (theQueue s).epoch ≠ BitVec.allOnes 32)
    ∧ (let s := hostQueue 2 { oneHead with epoch := 4294967295 } (cmdBytes 6 0 4 0 [])
       headIs s 6 = true ∧ (theQueue s).epoch = BitVec.allOnes 32) := by decide +kernel

/-- A launch of one unit of the image at 0x4000, its record at 0x6000; nx units wide; the block at 0x20000. -/
def launchState (nx : Nat) : State :=
  let s := hostQueue 2 oneHead []
  let s := s.modPart 0 (fun x => { x with images := [(1, ⟨0x4000, 13, 0⟩)] })
  let block := capBytes (small 0x4000 0x4034 0xFFF) ++ capBytes (small 0x6000 0x6040 0xFFF)
    ++ List.replicate 16 0 ++ leBytes nx 4 ++ leBytes 1 4 ++ leBytes 1 4
  let m : Mem := { Mem.init with
    cells := plainCells ++ cellsOf 0x20000 block ++ cellsOf (0x20000 + 128 + 24) (leBytes 0xFFFFFFFF 4)
      ++ cellsOf (hostLoc 0 0) (cmdBytes 1 2 0x20000 0 []) }
  { s with mem := (m.setTag 0x20000 true).setTag 0x20010 true }

/-- What the checks of the chain at the head answer. -/
def reserved (s : State) : Option (Except (Nat × Nat) (State × List LaunchPlan)) :=
  match s.chainAt 0 0 4 0 with
  | none => none
  | some cs =>
    match s.readChain world0 cs with
    | .ok bs => some (s.reserveAll world0 s.outer.nextChain 0 bs)
    | .error _ => none

theorem witness_launch :
    (let s := hostQueue 2 oneHead (cmdBytes 1 1 0x20000 0 []); headIs s 1 = true ∧ s.chainAt 0 0 4 (theQueue s).head = none)
    ∧ (let s := launchState 0; headIs s 1 = true
       ∧ (match reserved s with | some (.error e) => decide (e = (2, 0)) | _ => false) = true)
    ∧ (let s := launchState 1; headIs s 1 = true
       ∧ (match reserved s with | some (.ok r) => r.2.map (fun p => p.places) == [[(0x6000, 0)]] | _ => false) = true) := by
  decide +kernel

/-- A chain of one launch whose records are as given. -/
def chained (rs : List Nat) : State :=
  let s := hostQueue 2 oneHead []
  let s := s.modPart 0 (fun x => { x with launches := [(3, ⟨rs, none, [], [], 0, .retired⟩)] })
  { s with outer := { s.outer with chains := [(0, ⟨0, 0, [(0, 3)], 0, true, 0, 0⟩)] } }

theorem witness_launch_completion :
    (let s := chained []; (Sparse.find? 0 s.outer.chains).isSome = true
      ∧ (∀ c ∈ s.outer.chains, (∀ l ∈ s.launchesOf c.2, l.records = []) ∧ ∀ l ∈ c.2.launches, s.storesDone l.1 = true ∧ s.tasksDone l.1 l.2 = true))
    ∧ (let s := chained []; let s := { s with clusters := [(0, { Cluster.init with
         cumulus := { Cumulus.init with lists := [⟨7, 9, 0, none, [{ task0 with launch := 3 }]⟩] } })] }
       ∀ c ∈ s.outer.chains, ∃ l ∈ c.2.launches, s.tasksDone l.1 l.2 = false)
    ∧ (let s := chained [0x30000]; ∀ c ∈ s.outer.chains, ∃ l ∈ s.launchesOf c.2, l.records ≠ []) := by decide +kernel

/-- The Zenith's port holds a descriptor. -/
def portState (d : List Byte) : State :=
  let s := mapped Core.init
  { s with actor := { Actor.first with zenith := true }
           outer := { s.outer with xl := { s.outer.xl with desc := ((upFrom 0 32).zip d).filter (fun x => x.2 != 0) } } }

/-- A descriptor of an op: pages, address, leaf. -/
def xlBytes (op n a leaf : Nat) : List Byte := [BitVec.ofNat 8 op, 0, 0, 0] ++ leBytes n 4 ++ leBytes a 8 ++ leBytes leaf 8

/-- The command of a MIGRATE of the page at 2^31, or of another op on world 0, under way at the Zenith's port. -/
def xlUnder (op : Nat) (fs : List Forward) : State :=
  let s := { mapped { Core.init with run := some syncRun } with actor := { Actor.first with zenith := true } }
  { s with outer := { s.outer with commands := [⟨true, 0, 1, op, 0, 0, 0, 0, 0x80000000, 0x06000005, false⟩], forwards := fs } }

theorem witness_translation_commands :
    (∀ d ∈ [(1, xlBytes 1 1 0 0), (2, xlBytes 2 0 0 0), (3, xlBytes 3 0 0x80000000 0x06000005), (4, xlBytes 4 (2 ^ 24) 0 0),
        (5, xlBytes 5 0 0 0)], let s := portState d.2
      numAt 0 1 s.port.bytes = d.1 ∧ s.reachesPort = true ∧ s.xlReason s.actor.zenith s.port.bytes = 0)
    ∧ (let s := portState (xlBytes 1 0 0 0); s.reachesPort = true ∧ s.xlReason s.actor.zenith s.port.bytes = 2)
    ∧ (let s := xlUnder 2 []; ∀ c ∈ s.outer.commands, s.outer.commands.find? (fun c => c.ofPort s.actor) = some c ∧ c.op ≠ 3
      ∧ s.stillUsed c = false)
    ∧ (let s := xlUnder 2 [State.reset.request 0 0 0 7 0 0 (.load 64) 0 ⟨⟨0, 0, 0⟩, none⟩]; ∀ c ∈ s.outer.commands, s.stillUsed c = true)
    ∧ (let s := xlUnder 3 []
       s.worldLeaf 0 0 0x80000000 = some (1, 0x6000, 0x4000000004000005)
       ∧ s.leafFrames 0 0 0x80000000 0x4000000004000005 1 = some ⟨.here 0x4000000 0, true, false⟩
       ∧ s.leafFrames 0 0 0x80000000 0x06000005 1 = some ⟨.here 0x6000000 0, false, false⟩
       ∧ (⟨.here 0x4000000 0, true, false⟩ : LeafFrames).source ⟨.here 0x6000000 0, false, false⟩ (pageBytes 1)
         = (.here 0x4000000 0, pageBytes 1)
       ∧ s.pageFree 0 (.here 0x4000000 0) (2 * pageBytes 1) = true ∧ (s.part 0).images = [] ∧ hbmLoc 0 0x6000 + 8 ≤ 0x6000000) := by decide +kernel

/-- Core 0 runs a one-word image of the sequencer at 0x8000, and the schedule gives it the next turn. -/
def stepState (w : Nat) : State :=
  let s := (mapped { Core.init with run := some placedRun }).poke (hbmLoc 0 0x8000) (imageBytes (oneWordImage .sequencer w))
  let s := s.modPart 0 (fun x => { x with images := [(1, ⟨0x8000, 13, 0⟩)] })
  { s with sched := [.word .sequencer Actor.first] }

/-- The state in which that turn acts. -/
def turnOf (s : State) : State :=
  { s with sched := [], actor := Actor.first, time := s.time + Config.stepCycles s.draws, draws := s.draws + 1 }

theorem witness_step :
    (let s := stepState 0x04221800; let b := turnOf s
     s.sched = .word .sequencer Actor.first :: [] ∧ s.stopped = false ∧ b.trapReady 0 = false ∧ b.codeBad .sequencer = false
     ∧ (b.nextWord .sequencer).map (decodeFor .sequencer) = some (some (.add 1 2 3)))
    ∧ (let b := turnOf (stepState 0); (b.nextWord .sequencer).map (decodeFor .sequencer) = some none)
    ∧ (let s := stepState 0; let b := turnOf { s with mem := { s.mem with poison := [hbmLoc 0 0x8000] } }
       (b.nextWord .sequencer).isSome = true ∧ b.codeBad .sequencer = true)
    ∧ (turnOf State.reset).nextWord .sequencer = none
    ∧ (let s := stepState 0; s.me.run = some placedRun ∧ Sparse.find? placedRun.image (s.part placedRun.part).images = some ⟨0x8000, 13, 0⟩)
    ∧ (let y : CoreEng := { CoreEng.init with heldTraps := [⟨2, 8, 0, none, 0, 0⟩] }
       let s := withCore { Core.init with eng := y, sys := handled }; (turnOf s).trapReady Actor.first.core = true)
    := by decide +kernel

theorem witness_event_turn :
    (let s := { State.reset with sched := [.event .signal Actor.first] }
     s.sched = .event .signal Actor.first :: [] ∧ s.stopped = false)
    ∧ (let s := { State.reset with sched := [.event .powerOnReset Actor.first], stopped := true }
       s.stopped = true ∧ s.sched = .event .powerOnReset Actor.first :: [])
    ∧ (Instr.signal ≠ .moduleReset ∧ Instr.signal ≠ .powerOnReset) := by decide

/-- Hart 0 of the Zenith about to run the word at the start of the staged images, or what stands at another pc. -/
def hartState (pc w : Nat) : State :=
  let h : Hart := { Hart.init with running := true, pc := BitVec.ofNat 64 pc, mtvec := 0x20000100 }
  let s := (mgmtState { Mgmt.init with harts := [(0, h)] } ⟨0, 0⟩).poke (mgmtLoc 0 0x20000000) (leBytes w 4)
  { s with sched := [.hart Actor.first] }

theorem witness_hart_turn :
    (let s := { State.reset with sched := [.hart Actor.first] }
     s.sched = .hart Actor.first :: [] ∧ s.stopped = false ∧ ((turnOf s).hartOf ⟨0, 0⟩).running = false)
    ∧ (let b := turnOf (hartState 0x20000000 0x00100093); let x := b.hartOf ⟨0, 0⟩
       x.running = true ∧ b.stalled ⟨0, 0⟩ = false ∧ b.meip ⟨0, 0⟩ = false ∧ b.fetchHart ⟨0, 0⟩ x.pc.toNat = .ok (0x00100093, 4)
       ∧ rvDecode 0x00100093 = some (.aluImm .add false 1 0 1)
       ∧ (match b.rvExec (.aluImm .add false 1 0 1) 4 0x00100093 with | .ok _ => true | _ => false) = true)
    ∧ (let b := turnOf (hartState 0x20000000 0x73)
       b.fetchHart ⟨0, 0⟩ 0x20000000 = .ok (0x73, 4) ∧ rvDecode 0x73 = some .ecall
       ∧ (match b.rvExec .ecall 4 0x73 with | .trap _ _ => true | _ => false) = true)
    ∧ (let b := turnOf (hartState 0x20000000 0); b.fetchHart ⟨0, 0⟩ 0x20000000 = .ok (0, 2) ∧ rvDecode 0 = none)
    ∧ (turnOf (hartState rotBase 0)).fetchHart ⟨0, 0⟩ rotBase = .error rotBase
    ∧ (let m : Mgmt := { Mgmt.init with readychg := true, harts := [(0, { Hart.init with running := true, meie := true, mieBit := true })] }
       let b := turnOf (mgmtState m ⟨0, 0⟩); let x := b.hartOf ⟨0, 0⟩
       b.meip ⟨0, 0⟩ = true ∧ x.meie = true ∧ x.mieBit = true ∧ x.running = true ∧ b.stalled ⟨0, 0⟩ = false)
    ∧ (let b := turnOf (mgmtState { Mgmt.init with handoff := some ⟨0, 0⟩ } ⟨0, 0⟩); b.stalled ⟨0, 0⟩ = true) := by
  decide +kernel

theorem witness_encoding : (Instr.add 1 2 3).wf = true ∧ (Instr.add 1 2 3).engine = some .sequencer
    ∧ encode (.add 1 2 3) = some 0x04221800 ∧ (0x04221800 : Nat) < 2 ^ 32
    ∧ decodeFor .sequencer 0x04221800 = some (.add 1 2 3) := by decide

theorem witness_memory_form : State.reset.mem.wf = true
    ∧ ∃ t, step { State.reset with sched := [.event .mret Actor.first] } = .next t := ⟨by decide, _, rfl⟩

/-! ### One step each, with results worked out from the spec -/

theorem test_add_wraps : after (exec (.add 1 2 3) (withG [(2, 0xFFFFFFFFFFFFFFFF), (3, 2)])) (fun t => (t.g 1, t.me.pc)) = some (1, 1) := by
  decide
theorem test_write_to_g0 : after (exec (.add 0 2 3) (withG [(2, 5), (3, 2)])) (fun t => t.g 0) = some 0 := by decide

/-- R87: division by zero gives all ones, the most negative number by −1 gives itself. -/
theorem test_div_corners : after (exec (.div 1 2 0) (withG [(2, 7)])) (fun t => t.g 1) = some 0xFFFFFFFFFFFFFFFF
    ∧ after (exec (.div 1 2 3) (withG [(2, 0x8000000000000000), (3, 0xFFFFFFFFFFFFFFFF)])) (fun t => t.g 1)
      = some 0x8000000000000000 := by decide

/-- R87: −7 divided by 2 is −3 and −1 remains. -/
theorem test_div_truncates : after (exec (.div 1 2 3) (withG [(2, 0xFFFFFFFFFFFFFFF9), (3, 2)])) (fun t => t.g 1)
      = some 0xFFFFFFFFFFFFFFFD
    ∧ after (exec (.rem 1 2 3) (withG [(2, 0xFFFFFFFFFFFFFFF9), (3, 2)])) (fun t => t.g 1) = some 0xFFFFFFFFFFFFFFFF := by
  decide
theorem test_mulh_signs : after (exec (.mulh 1 2 2) (withG [(2, 0xFFFFFFFFFFFFFFFF)])) (fun t => t.g 1) = some 0
    ∧ after (exec (.mulhu 1 2 2) (withG [(2, 0xFFFFFFFFFFFFFFFF)])) (fun t => t.g 1) = some 0xFFFFFFFFFFFFFFFE := by decide
theorem test_shift_takes_six_bits : after (exec (.shl 1 2 3) (withG [(2, 3), (3, 65)])) (fun t => t.g 1) = some 6
    ∧ after (exec (.sar 1 2 3) (withG [(2, 0x8000000000000000), (3, 63)])) (fun t => t.g 1) = some 0xFFFFFFFFFFFFFFFF := by
  decide

/-- The words of the worked example of the sequencer chapter: three stages, four iterations. -/
theorem test_decode_pipeline_example : decodeFor .sequencer 0x3CA00003 = some (.movi 5 3)
    ∧ decodeFor .sequencer 0x74050201 = some (.stwin 5 2 1) ∧ decodeFor .sequencer 0x80000000 = some (.vrun 0 0)
    ∧ decodeFor .sequencer 0x6FFFFFFF = some (.loopst 0x3FFFFFF) ∧ decodeFor .sequencer 0xB4000004 = some .qfence
    ∧ decodeFor .sequencer 0xB4000009 = some .retire ∧ decodeFor .vector 0x1030C0A0 = some (.vadd 3 3 0 10 0 0 0)
    ∧ decodeFor .vector 0x04000000 = some (.vend 0) := by decide

/-- Core 0 at the LOOPST of that example, with its window as the table gives it. -/
def loopState (count drain sp : Nat) : State :=
  withCore { Core.init with
    pc := 3, sys := { CoreSys.init with loopCount := BitVec.ofNat 60 count, loopDrain := drain, stagewin := BitVec.ofNat 8 sp } }

/-- The fourth and the last LOOPST of its table. -/
theorem test_loopst_table : after (exec (.loopst 0x3FFFFFF) (loopState 0 2 0x0F))
      (fun t => (t.me.sys.loopDrain, t.me.sys.stagewin, t.me.pc)) = some (1, 0x1E, 2)
    ∧ after (exec (.loopst 0x3FFFFFF) (loopState 0 0 0x3C)) (fun t => (t.me.sys.stagewin, t.me.pc)) = some (0x3C, 4) := by decide

/-- The encoding that R135 gives as an example. -/
theorem test_decode_amo_example : decodeFor .sequencer 0xF4A23040 = some (.amoadd 5 2 6 0 4) := by decide

/-- R224's examples: 0.6, 0.3 and 0.1. -/
theorem test_probability_bytes : topb8Lane .fp32 0x3F19999A = 0x05 ∧ topb8Lane .fp32 0x3E99999A = 0x09
    ∧ topb8Lane .fp32 0x3DCCCCCD = 0x12 := by decide +kernel

/-- The E4M3 codes that the formats chapter lists. -/
theorem test_e4m3_codes : FloatKind.e4m3.rne (.fin false 1 0) = 0x38 ∧ FloatKind.e4m3.rne (.fin false 1 (-1)) = 0x30
    ∧ FloatKind.e4m3.rne (.fin true 8 0) = 0xD0 ∧ FloatKind.e4m3.rne (.fin false 14 0) = 0x56
    ∧ FloatKind.e4m3.rne (.fin false 3 (-2)) = 0x34 ∧ FloatKind.e4m3.rne (.fin false 1 (-2)) = 0x28 := by decide

/-- Step 2 of the lane partition example (R221): lanes 2, 5 and 6 of 64 hold. -/
theorem test_partition_example : (partVec 32 false (packLanes 32 [0, 0, 1, 0, 0, 1, 1])).2 = 0x0003003D
    ∧ ((lanesOf 16 (partVec 32 false (packLanes 32 [0, 0, 1, 0, 0, 1, 1])).1).drop 60).take 5 = [63, 2, 5, 6, 0x8000] := by
  decide +kernel

/-- Row 3 of the attention example: the factor e^−1, P of the new maximum and the sum; row 0's byte for e^−1. -/
theorem test_attention_rows : factor 0x40400000 0x40800000 = 0x3EBC5AB2 ∧ probOf 0x40800000 0x40800000 = 0x00
    ∧ toF32 (FVal.sum [f32 0x3EBC5AB2, f32 0x3F800000]) = 0x3FAF16AC ∧ probOf 0xBF800000 0 = 0x0A
    ∧ quotF 0x40800000 0x40000000 = 0x40000000 := by decide +kernel

/-- The bytes that SHAKE256 gives for the empty message (FIPS 202). -/
theorem test_shake_of_nothing : shake256 [] 4 = [0x46, 0xB9, 0xDD, 0x2B] := by decide +kernel

/-- The example of FIPS 197 for AES with a 256-bit key: key bytes 0 to 31, the plaintext 00, 11, ..., FF. -/
theorem test_aes_example : aesBlock (aesKeys (upFrom 0 32)) ((upFrom 0 16).map (· * 17))
    = numBytes 0x8960494b9049fceabf456751cab7a28e 16 := by decide +kernel

/-- Words of the RISC-V unprivileged manual's listings: ADDI x1, x0, 1; MUL x5, x6, x7; LD x5, 8(x6); C.LI x10, 5. -/
theorem test_riscv_words : rvDecode 0x00100093 = some (.aluImm .add false 1 0 1)
    ∧ rvDecode 0x027302B3 = some (.alu .mul false 5 6 7) ∧ rvDecode 0x00833283 = some (.load 5 6 8 8 true)
    ∧ rvDecode 0x4515 = some (.aluImm .add false 10 0 5) := by decide +kernel

/-- A turn of the hart runs ADDI x1, x0, 1 and takes the trap of ECALL (R454, R455). -/
theorem test_hart_turn : after (step (hartState 0x20000000 0x00100093)) (fun t => ((t.hartOf ⟨0, 0⟩).getX 1, (t.hartOf ⟨0, 0⟩).pc))
      = some (1, 0x20000004)
    ∧ after (step (hartState 0x20000000 0x73)) (fun t => ((t.hartOf ⟨0, 0⟩).mcause, (t.hartOf ⟨0, 0⟩).mepc, (t.hartOf ⟨0, 0⟩).pc))
      = some (11, 0x20000000, 0x20000100) := by decide +kernel

/-- The machine fetches and runs a word that withFetchWord places. -/
theorem test_placed_word_is_next : decodeTableWord 32 0x04221800 = some (.add 1 2 3)
    ∧ (let s := State.reset.withFetchWord 32 0x04221800; s.begin.todo s.turn = some (.add 1 2 3)) := by decide +kernel

end Sys2Proof.Tests
end

/-! ## Words and instructions (O58, O59)

A word of an engine is a row of parts: its opcode, its fields and its fixed bits, which fill 32 bits between them
(`Instr.parts`). What a map reads from a word is the instruction whose parts the word shows, both ways round
(`rawFor_of_shows`, `readsRight_rawFor`), and the encoding is the number that the parts make
(`encode_eq_join`). -/

section
namespace Sys2Proof

/-! ### A word as the parts it is made of -/

/-- A run of bits of a word: its width and its value. -/
abbrev Part := (n : Nat) × BitVec n

/-- How many bits parts fill. -/
def widthOf : List Part → Nat
  | [] => 0
  | ⟨n, _⟩ :: ps => n + widthOf ps

/-- The number that parts make, the last part lowest. -/
def join : List Part → Nat
  | [] => 0
  | ⟨_, x⟩ :: ps => x.toNat * 2 ^ widthOf ps + join ps

/-- The lowest bits of a word show these parts. -/
def Shows (w : Nat) : List Part → Prop
  | [] => True
  | ⟨n, x⟩ :: ps => fld w (widthOf ps) n = x.toNat ∧ Shows w ps

theorem join_lt (ps : List Part) : join ps < 2 ^ widthOf ps := by
  induction ps with
  | nil => exact Nat.one_pos
  | cons p ps ih =>
    obtain ⟨n, x⟩ := p
    calc x.toNat * 2 ^ widthOf ps + join ps < (x.toNat + 1) * 2 ^ widthOf ps := by rw [Nat.succ_mul]; omega
      _ ≤ 2 ^ n * 2 ^ widthOf ps := Nat.mul_le_mul_right _ x.isLt
      _ = 2 ^ (n + widthOf ps) := (Nat.pow_add 2 n _).symm

/-- A word shows parts exactly if its lowest bits are the number that the parts make. -/
theorem shows_iff (w : Nat) (ps : List Part) : Shows w ps ↔ w % 2 ^ widthOf ps = join ps := by
  induction ps with
  | nil => simp [Shows, widthOf, join, Nat.mod_one]
  | cons p ps ih =>
    obtain ⟨n, x⟩ := p
    have hj := join_lt ps
    have hw := Nat.mod_lt w (Nat.two_pow_pos (widthOf ps))
    rw [Shows, ih, widthOf, join, Nat.pow_add, Nat.mul_comm (2 ^ n), Nat.mod_mul, ← fld, Nat.mul_comm x.toNat, Nat.add_comm]
    constructor
    · rintro ⟨hf, hr⟩
      rw [hf, hr]
    · intro h
      have hf : fld w (widthOf ps) n = x.toNat := by
        have := congrArg (· / 2 ^ widthOf ps) h
        simpa [Nat.mul_add_div (Nat.two_pow_pos _), Nat.div_eq_of_lt hw, Nat.div_eq_of_lt hj] using this
      rw [hf] at h
      exact ⟨hf, Nat.add_left_cancel h⟩

/-! ### The parts of every word -/

/-- The parts of the word of an instruction, the opcode first (R60, R61, R68 to R71). -/
def Instr.parts : Instr → List Part
  | .add d a b => [⟨6, 1#6⟩, ⟨5, d⟩, ⟨5, a⟩, ⟨5, b⟩, ⟨11, 0#11⟩]
  | .sub d a b => [⟨6, 1#6⟩, ⟨5, d⟩, ⟨5, a⟩, ⟨5, b⟩, ⟨11, 1#11⟩]
  | .mul d a b => [⟨6, 1#6⟩, ⟨5, d⟩, ⟨5, a⟩, ⟨5, b⟩, ⟨11, 2#11⟩]
  | .mulh d a b => [⟨6, 1#6⟩, ⟨5, d⟩, ⟨5, a⟩, ⟨5, b⟩, ⟨11, 3#11⟩]
  | .mulhu d a b => [⟨6, 1#6⟩, ⟨5, d⟩, ⟨5, a⟩, ⟨5, b⟩, ⟨11, 4#11⟩]
  | .div d a b => [⟨6, 1#6⟩, ⟨5, d⟩, ⟨5, a⟩, ⟨5, b⟩, ⟨11, 5#11⟩]
  | .divu d a b => [⟨6, 1#6⟩, ⟨5, d⟩, ⟨5, a⟩, ⟨5, b⟩, ⟨11, 6#11⟩]
  | .rem d a b => [⟨6, 1#6⟩, ⟨5, d⟩, ⟨5, a⟩, ⟨5, b⟩, ⟨11, 7#11⟩]
  | .remu d a b => [⟨6, 1#6⟩, ⟨5, d⟩, ⟨5, a⟩, ⟨5, b⟩, ⟨11, 8#11⟩]
  | .and d a b => [⟨6, 1#6⟩, ⟨5, d⟩, ⟨5, a⟩, ⟨5, b⟩, ⟨11, 9#11⟩]
  | .or d a b => [⟨6, 1#6⟩, ⟨5, d⟩, ⟨5, a⟩, ⟨5, b⟩, ⟨11, 10#11⟩]
  | .xor d a b => [⟨6, 1#6⟩, ⟨5, d⟩, ⟨5, a⟩, ⟨5, b⟩, ⟨11, 11#11⟩]
  | .shl d a b => [⟨6, 1#6⟩, ⟨5, d⟩, ⟨5, a⟩, ⟨5, b⟩, ⟨11, 12#11⟩]
  | .shr d a b => [⟨6, 1#6⟩, ⟨5, d⟩, ⟨5, a⟩, ⟨5, b⟩, ⟨11, 13#11⟩]
  | .sar d a b => [⟨6, 1#6⟩, ⟨5, d⟩, ⟨5, a⟩, ⟨5, b⟩, ⟨11, 14#11⟩]
  | .min d a b => [⟨6, 2#6⟩, ⟨5, d⟩, ⟨5, a⟩, ⟨5, b⟩, ⟨11, 0#11⟩]
  | .max d a b => [⟨6, 2#6⟩, ⟨5, d⟩, ⟨5, a⟩, ⟨5, b⟩, ⟨11, 1#11⟩]
  | .minu d a b => [⟨6, 2#6⟩, ⟨5, d⟩, ⟨5, a⟩, ⟨5, b⟩, ⟨11, 2#11⟩]
  | .maxu d a b => [⟨6, 2#6⟩, ⟨5, d⟩, ⟨5, a⟩, ⟨5, b⟩, ⟨11, 3#11⟩]
  | .sel d a b => [⟨6, 2#6⟩, ⟨5, d⟩, ⟨5, a⟩, ⟨5, b⟩, ⟨11, 4#11⟩]
  | .clz d a => [⟨6, 3#6⟩, ⟨5, d⟩, ⟨5, a⟩, ⟨16, 0#16⟩]
  | .popc d a => [⟨6, 3#6⟩, ⟨5, d⟩, ⟨5, a⟩, ⟨16, 1#16⟩]
  | .ffs d a => [⟨6, 3#6⟩, ⟨5, d⟩, ⟨5, a⟩, ⟨16, 2#16⟩]
  | .cmpCc d a b c => [⟨6, 4#6⟩, ⟨5, d⟩, ⟨5, a⟩, ⟨5, b⟩, ⟨8, 0#8⟩, ⟨3, c⟩]
  | .acqst r s => [⟨6, 5#6⟩, ⟨19, 0#19⟩, ⟨3, r⟩, ⟨4, s⟩]
  | .relst r s => [⟨6, 5#6⟩, ⟨19, 2#19⟩, ⟨3, r⟩, ⟨4, s⟩]
  | .drain c => [⟨6, 6#6⟩, ⟨22, 0#22⟩, ⟨4, c⟩]
  | .pmtgive c => [⟨6, 6#6⟩, ⟨22, 1#22⟩, ⟨4, c⟩]
  | .pmtinit p c => [⟨6, 7#6⟩, ⟨14, 0#14⟩, ⟨4, p⟩, ⟨4, 0#4⟩, ⟨4, c⟩]
  | .addi d a i => [⟨6, 8#6⟩, ⟨5, d⟩, ⟨5, a⟩, ⟨16, i⟩]
  | .andi d a i => [⟨6, 9#6⟩, ⟨5, d⟩, ⟨5, a⟩, ⟨16, i⟩]
  | .ori d a i => [⟨6, 10#6⟩, ⟨5, d⟩, ⟨5, a⟩, ⟨16, i⟩]
  | .xori d a i => [⟨6, 11#6⟩, ⟨5, d⟩, ⟨5, a⟩, ⟨16, i⟩]
  | .shli d a h => [⟨6, 12#6⟩, ⟨5, d⟩, ⟨5, a⟩, ⟨10, 0#10⟩, ⟨6, h⟩]
  | .shri d a h => [⟨6, 13#6⟩, ⟨5, d⟩, ⟨5, a⟩, ⟨10, 0#10⟩, ⟨6, h⟩]
  | .sari d a h => [⟨6, 14#6⟩, ⟨5, d⟩, ⟨5, a⟩, ⟨10, 0#10⟩, ⟨6, h⟩]
  | .movi d i => [⟨6, 15#6⟩, ⟨5, d⟩, ⟨5, 0#5⟩, ⟨16, i⟩]
  | .movhi d k i => [⟨6, 16#6⟩, ⟨5, d⟩, ⟨3, 0#3⟩, ⟨2, k⟩, ⟨16, i⟩]
  | .mbsend a c => [⟨6, 17#6⟩, ⟨6, 0#6⟩, ⟨4, a⟩, ⟨12, 0#12⟩, ⟨4, c⟩]
  | .mbrecv d c => [⟨6, 18#6⟩, ⟨1, 0#1⟩, ⟨4, d⟩, ⟨17, 0#17⟩, ⟨4, c⟩]
  | .bCc a b c o => [⟨6, 24#6⟩, ⟨5, a⟩, ⟨5, b⟩, ⟨3, c⟩, ⟨13, o⟩]
  | .j o => [⟨6, 25#6⟩, ⟨26, o⟩]
  | .jal o => [⟨6, 26#6⟩, ⟨26, o⟩]
  | .loopst o => [⟨6, 27#6⟩, ⟨26, o⟩]
  | .jr a => [⟨6, 28#6⟩, ⟨5, 0#5⟩, ⟨5, a⟩, ⟨16, 0#16⟩]
  | .stwin a n w => [⟨6, 29#6⟩, ⟨5, 0#5⟩, ⟨5, a⟩, ⟨4, 0#4⟩, ⟨4, n⟩, ⟨8, w⟩]
  | .vrun s o => [⟨6, 32#6⟩, ⟨2, 0#2⟩, ⟨4, s⟩, ⟨20, o⟩]
  | .mrun s o => [⟨6, 32#6⟩, ⟨2, 1#2⟩, ⟨4, s⟩, ⟨20, o⟩]
  | .xrun s o => [⟨6, 32#6⟩, ⟨2, 2#2⟩, ⟨4, s⟩, ⟨20, o⟩]
  | .attngo s o => [⟨6, 32#6⟩, ⟨2, 3#2⟩, ⟨4, s⟩, ⟨20, o⟩]
  | .cqpop d => [⟨6, 33#6⟩, ⟨5, d⟩, ⟨21, 0#21⟩]
  | .sweepq d => [⟨6, 33#6⟩, ⟨5, d⟩, ⟨21, 1#21⟩]
  | .spawn a => [⟨6, 34#6⟩, ⟨6, 0#6⟩, ⟨4, a⟩, ⟨16, 0#16⟩]
  | .submit a => [⟨6, 34#6⟩, ⟨6, 0#6⟩, ⟨4, a⟩, ⟨16, 1#16⟩]
  | .waitseq a b => [⟨6, 35#6⟩, ⟨5, 0#5⟩, ⟨5, a⟩, ⟨5, b⟩, ⟨11, 0#11⟩]
  | .gbar k => [⟨6, 36#6⟩, ⟨24, 0#24⟩, ⟨2, k⟩]
  | .grank d k => [⟨6, 37#6⟩, ⟨5, d⟩, ⟨19, 0#19⟩, ⟨2, k⟩]
  | .gsize d k => [⟨6, 37#6⟩, ⟨5, d⟩, ⟨19, 4#19⟩, ⟨2, k⟩]
  | .apxbegin n v i => [⟨6, 38#6⟩, ⟨10, 0#10⟩, ⟨4, n⟩, ⟨6, v⟩, ⟨6, i⟩]
  | .apxend n v i => [⟨6, 39#6⟩, ⟨10, 0#10⟩, ⟨4, n⟩, ⟨6, v⟩, ⟨6, i⟩]
  | .apxctlStart i => [⟨6, 40#6⟩, ⟨20, 0#20⟩, ⟨6, i⟩]
  | .apxctlStop i => [⟨6, 40#6⟩, ⟨20, 1#20⟩, ⟨6, i⟩]
  | .apxctlInval i => [⟨6, 40#6⟩, ⟨20, 2#20⟩, ⟨6, i⟩]
  | .apxctlRestart i => [⟨6, 40#6⟩, ⟨20, 3#20⟩, ⟨6, i⟩]
  | .apxq d i => [⟨6, 41#6⟩, ⟨5, d⟩, ⟨15, 0#15⟩, ⟨6, i⟩]
  | .trap i => [⟨6, 42#6⟩, ⟨10, 0#10⟩, ⟨16, i⟩]
  | .sregr d n => [⟨6, 43#6⟩, ⟨5, d⟩, ⟨9, 0#9⟩, ⟨12, n⟩]
  | .sregw a n => [⟨6, 44#6⟩, ⟨5, 0#5⟩, ⟨5, a⟩, ⟨4, 0#4⟩, ⟨12, n⟩]
  | .fence s => [⟨6, 46#6⟩, ⟨23, 0#23⟩, ⟨3, s⟩]
  | .cderive d a b => [⟨6, 48#6⟩, ⟨1, 0#1⟩, ⟨4, d⟩, ⟨1, 0#1⟩, ⟨4, a⟩, ⟨5, b⟩, ⟨11, 0#11⟩]
  | .candperm d a b => [⟨6, 48#6⟩, ⟨1, 0#1⟩, ⟨4, d⟩, ⟨1, 0#1⟩, ⟨4, a⟩, ⟨5, b⟩, ⟨11, 1#11⟩]
  | .cincr d a b => [⟨6, 48#6⟩, ⟨1, 0#1⟩, ⟨4, d⟩, ⟨1, 0#1⟩, ⟨4, a⟩, ⟨5, b⟩, ⟨11, 2#11⟩]
  | .csetcur d a b => [⟨6, 48#6⟩, ⟨1, 0#1⟩, ⟨4, d⟩, ⟨1, 0#1⟩, ⟨4, a⟩, ⟨5, b⟩, ⟨11, 3#11⟩]
  | .cseal d a b => [⟨6, 49#6⟩, ⟨1, 0#1⟩, ⟨4, d⟩, ⟨1, 0#1⟩, ⟨4, a⟩, ⟨1, 0#1⟩, ⟨4, b⟩, ⟨11, 0#11⟩]
  | .cunseal d a b => [⟨6, 49#6⟩, ⟨1, 0#1⟩, ⟨4, d⟩, ⟨1, 0#1⟩, ⟨4, a⟩, ⟨1, 0#1⟩, ⟨4, b⟩, ⟨11, 1#11⟩]
  | .cgetbase d a => [⟨6, 50#6⟩, ⟨5, d⟩, ⟨1, 0#1⟩, ⟨4, a⟩, ⟨16, 0#16⟩]
  | .cgetlen d a => [⟨6, 50#6⟩, ⟨5, d⟩, ⟨1, 0#1⟩, ⟨4, a⟩, ⟨16, 1#16⟩]
  | .cgetperm d a => [⟨6, 50#6⟩, ⟨5, d⟩, ⟨1, 0#1⟩, ⟨4, a⟩, ⟨16, 2#16⟩]
  | .cgettag d a => [⟨6, 50#6⟩, ⟨5, d⟩, ⟨1, 0#1⟩, ⟨4, a⟩, ⟨16, 3#16⟩]
  | .cmov d a => [⟨6, 51#6⟩, ⟨1, 0#1⟩, ⟨4, d⟩, ⟨1, 0#1⟩, ⟨4, a⟩, ⟨16, 0#16⟩]
  | .ctest d a b => [⟨6, 52#6⟩, ⟨5, d⟩, ⟨1, 0#1⟩, ⟨4, a⟩, ⟨1, 0#1⟩, ⟨4, b⟩, ⟨11, 0#11⟩]
  | .lds d a z f k => [⟨6, 53#6⟩, ⟨5, d⟩, ⟨1, 0#1⟩, ⟨4, a⟩, ⟨3, z⟩, ⟨2, f⟩, ⟨11, k⟩]
  | .sts g a z f k => [⟨6, 54#6⟩, ⟨5, g⟩, ⟨1, 0#1⟩, ⟨4, a⟩, ⟨1, 0#1⟩, ⟨2, z⟩, ⟨2, f⟩, ⟨11, k⟩]
  | .ldc d a f k => [⟨6, 55#6⟩, ⟨1, 0#1⟩, ⟨4, d⟩, ⟨1, 0#1⟩, ⟨4, a⟩, ⟨3, 0#3⟩, ⟨2, f⟩, ⟨11, k⟩]
  | .stc s a f k => [⟨6, 56#6⟩, ⟨1, 0#1⟩, ⟨4, s⟩, ⟨1, 0#1⟩, ⟨4, a⟩, ⟨3, 0#3⟩, ⟨2, f⟩, ⟨11, k⟩]
  | .ldq q a b f => [⟨6, 57#6⟩, ⟨3, 0#3⟩, ⟨2, q⟩, ⟨1, 0#1⟩, ⟨4, a⟩, ⟨5, b⟩, ⟨9, 0#9⟩, ⟨2, f⟩]
  | .stq q a b f => [⟨6, 58#6⟩, ⟨3, 0#3⟩, ⟨2, q⟩, ⟨1, 0#1⟩, ⟨4, a⟩, ⟨5, b⟩, ⟨9, 0#9⟩, ⟨2, f⟩]
  | .gather q a m z => [⟨6, 59#6⟩, ⟨3, 0#3⟩, ⟨2, q⟩, ⟨1, 0#1⟩, ⟨4, a⟩, ⟨4, 0#4⟩, ⟨1, m⟩, ⟨9, 0#9⟩, ⟨2, z⟩]
  | .scatter q a m z => [⟨6, 60#6⟩, ⟨3, 0#3⟩, ⟨2, q⟩, ⟨1, 0#1⟩, ⟨4, a⟩, ⟨4, 0#4⟩, ⟨1, m⟩, ⟨9, 0#9⟩, ⟨2, z⟩]
  | .amoadd d a b w s => [⟨6, 61#6⟩, ⟨5, d⟩, ⟨1, 0#1⟩, ⟨4, a⟩, ⟨5, b⟩, ⟨2, 0#2⟩, ⟨1, w⟩, ⟨1, 0#1⟩, ⟨3, s⟩, ⟨4, 0#4⟩]
  | .amoswap d a b w s => [⟨6, 61#6⟩, ⟨5, d⟩, ⟨1, 0#1⟩, ⟨4, a⟩, ⟨5, b⟩, ⟨2, 0#2⟩, ⟨1, w⟩, ⟨1, 0#1⟩, ⟨3, s⟩, ⟨4, 1#4⟩]
  | .amocas d a b w s => [⟨6, 61#6⟩, ⟨5, d⟩, ⟨1, 0#1⟩, ⟨4, a⟩, ⟨5, b⟩, ⟨2, 0#2⟩, ⟨1, w⟩, ⟨1, 0#1⟩, ⟨3, s⟩, ⟨4, 2#4⟩]
  | .amomin d a b w s => [⟨6, 61#6⟩, ⟨5, d⟩, ⟨1, 0#1⟩, ⟨4, a⟩, ⟨5, b⟩, ⟨2, 0#2⟩, ⟨1, w⟩, ⟨1, 0#1⟩, ⟨3, s⟩, ⟨4, 3#4⟩]
  | .amomax d a b w s => [⟨6, 61#6⟩, ⟨5, d⟩, ⟨1, 0#1⟩, ⟨4, a⟩, ⟨5, b⟩, ⟨2, 0#2⟩, ⟨1, w⟩, ⟨1, 0#1⟩, ⟨3, s⟩, ⟨4, 4#4⟩]
  | .amoand d a b w s => [⟨6, 61#6⟩, ⟨5, d⟩, ⟨1, 0#1⟩, ⟨4, a⟩, ⟨5, b⟩, ⟨2, 0#2⟩, ⟨1, w⟩, ⟨1, 0#1⟩, ⟨3, s⟩, ⟨4, 5#4⟩]
  | .amoor d a b w s => [⟨6, 61#6⟩, ⟨5, d⟩, ⟨1, 0#1⟩, ⟨4, a⟩, ⟨5, b⟩, ⟨2, 0#2⟩, ⟨1, w⟩, ⟨1, 0#1⟩, ⟨3, s⟩, ⟨4, 6#4⟩]
  | .bind a b => [⟨6, 62#6⟩, ⟨6, 0#6⟩, ⟨4, a⟩, ⟨1, 0#1⟩, ⟨4, b⟩, ⟨11, 0#11⟩]
  | .unbind a b => [⟨6, 62#6⟩, ⟨6, 0#6⟩, ⟨4, a⟩, ⟨1, 0#1⟩, ⟨4, b⟩, ⟨11, 1#11⟩]
  | .publish a b => [⟨6, 62#6⟩, ⟨6, 0#6⟩, ⟨4, a⟩, ⟨1, 0#1⟩, ⟨4, b⟩, ⟨11, 2#11⟩]
  | .syncinit a => [⟨6, 63#6⟩, ⟨6, 0#6⟩, ⟨4, a⟩, ⟨16, 0#16⟩]
  | .acqSh a => [⟨6, 63#6⟩, ⟨6, 0#6⟩, ⟨4, a⟩, ⟨16, 1#16⟩]
  | .acqEx a => [⟨6, 63#6⟩, ⟨6, 0#6⟩, ⟨4, a⟩, ⟨16, 2#16⟩]
  | .rel a => [⟨6, 63#6⟩, ⟨6, 0#6⟩, ⟨4, a⟩, ⟨16, 3#16⟩]
  | .revoke a => [⟨6, 63#6⟩, ⟨6, 0#6⟩, ⟨4, a⟩, ⟨16, 4#16⟩]
  | .vend s => [⟨6, 1#6⟩, ⟨18, 0#18⟩, ⟨4, s⟩, ⟨4, 0#4⟩]
  | .vshape a s x => [⟨6, 2#6⟩, ⟨6, 0#6⟩, ⟨6, a⟩, ⟨6, 0#6⟩, ⟨4, s⟩, ⟨1, x⟩, ⟨3, 0#3⟩]
  | .vadd d a b s x y v => [⟨6, 4#6⟩, ⟨6, d⟩, ⟨6, a⟩, ⟨6, b⟩, ⟨4, s⟩, ⟨1, x⟩, ⟨1, y⟩, ⟨1, 0#1⟩, ⟨1, v⟩]
  | .vsub d a b s x y v => [⟨6, 5#6⟩, ⟨6, d⟩, ⟨6, a⟩, ⟨6, b⟩, ⟨4, s⟩, ⟨1, x⟩, ⟨1, y⟩, ⟨1, 0#1⟩, ⟨1, v⟩]
  | .vmul d a b s x y v => [⟨6, 6#6⟩, ⟨6, d⟩, ⟨6, a⟩, ⟨6, b⟩, ⟨4, s⟩, ⟨1, x⟩, ⟨1, y⟩, ⟨2, v⟩]
  | .vfma d a b s x y v => [⟨6, 7#6⟩, ⟨6, d⟩, ⟨6, a⟩, ⟨6, b⟩, ⟨4, s⟩, ⟨1, x⟩, ⟨1, y⟩, ⟨1, 0#1⟩, ⟨1, v⟩]
  | .vmin d a b s x y v => [⟨6, 8#6⟩, ⟨6, d⟩, ⟨6, a⟩, ⟨6, b⟩, ⟨4, s⟩, ⟨1, x⟩, ⟨1, y⟩, ⟨1, 0#1⟩, ⟨1, v⟩]
  | .vmax d a b s x y v => [⟨6, 9#6⟩, ⟨6, d⟩, ⟨6, a⟩, ⟨6, b⟩, ⟨4, s⟩, ⟨1, x⟩, ⟨1, y⟩, ⟨1, 0#1⟩, ⟨1, v⟩]
  | .vabs d a s x v => [⟨6, 10#6⟩, ⟨6, d⟩, ⟨6, a⟩, ⟨6, 0#6⟩, ⟨4, s⟩, ⟨1, x⟩, ⟨2, 0#2⟩, ⟨1, v⟩]
  | .vneg d a s x v => [⟨6, 11#6⟩, ⟨6, d⟩, ⟨6, a⟩, ⟨6, 0#6⟩, ⟨4, s⟩, ⟨1, x⟩, ⟨2, 0#2⟩, ⟨1, v⟩]
  | .vcvt d a f s x v => [⟨6, 12#6⟩, ⟨6, d⟩, ⟨6, a⟩, ⟨2, 0#2⟩, ⟨4, f⟩, ⟨4, s⟩, ⟨1, x⟩, ⟨1, 0#1⟩, ⟨2, v⟩]
  | .vquant d a m s x => [⟨6, 13#6⟩, ⟨6, d⟩, ⟨6, a⟩, ⟨2, 0#2⟩, ⟨4, m⟩, ⟨4, s⟩, ⟨1, x⟩, ⟨3, 0#3⟩]
  | .vsacc d a b s x y => [⟨6, 14#6⟩, ⟨6, d⟩, ⟨6, a⟩, ⟨6, b⟩, ⟨4, s⟩, ⟨1, x⟩, ⟨1, y⟩, ⟨2, 0#2⟩]
  | .vexp d a s x v => [⟨6, 15#6⟩, ⟨6, d⟩, ⟨6, a⟩, ⟨6, 0#6⟩, ⟨4, s⟩, ⟨1, x⟩, ⟨2, 0#2⟩, ⟨1, v⟩]
  | .vrcp d a s x => [⟨6, 16#6⟩, ⟨6, d⟩, ⟨6, a⟩, ⟨6, 0#6⟩, ⟨4, s⟩, ⟨1, x⟩, ⟨3, 0#3⟩]
  | .vrsq d a s x => [⟨6, 17#6⟩, ⟨6, d⟩, ⟨6, a⟩, ⟨6, 0#6⟩, ⟨4, s⟩, ⟨1, x⟩, ⟨3, 0#3⟩]
  | .vred d a s x v => [⟨6, 18#6⟩, ⟨6, d⟩, ⟨6, a⟩, ⟨6, 0#6⟩, ⟨4, s⟩, ⟨1, x⟩, ⟨1, 0#1⟩, ⟨2, v⟩]
  | .vcmp d a b s x y v => [⟨6, 19#6⟩, ⟨6, d⟩, ⟨6, a⟩, ⟨6, b⟩, ⟨4, s⟩, ⟨1, x⟩, ⟨1, y⟩, ⟨2, v⟩]
  | .vsel d a b s x y => [⟨6, 20#6⟩, ⟨6, d⟩, ⟨6, a⟩, ⟨6, b⟩, ⟨4, s⟩, ⟨1, x⟩, ⟨1, y⟩, ⟨2, 0#2⟩]
  | .vpart d a s x v => [⟨6, 21#6⟩, ⟨6, d⟩, ⟨6, a⟩, ⟨6, 0#6⟩, ⟨4, s⟩, ⟨1, x⟩, ⟨2, 0#2⟩, ⟨1, v⟩]
  | .vperm d a b s x y => [⟨6, 22#6⟩, ⟨6, d⟩, ⟨6, a⟩, ⟨6, b⟩, ⟨4, s⟩, ⟨1, x⟩, ⟨1, y⟩, ⟨2, 0#2⟩]
  | .vshuf d a b s x y v => [⟨6, 23#6⟩, ⟨6, d⟩, ⟨6, a⟩, ⟨6, b⟩, ⟨4, s⟩, ⟨1, x⟩, ⟨1, y⟩, ⟨2, v⟩]
  | .vbcast d a b s x y => [⟨6, 24#6⟩, ⟨6, d⟩, ⟨6, a⟩, ⟨6, b⟩, ⟨4, s⟩, ⟨1, x⟩, ⟨1, y⟩, ⟨2, 0#2⟩]
  | .vsplat d a s x => [⟨6, 25#6⟩, ⟨6, d⟩, ⟨6, a⟩, ⟨6, 0#6⟩, ⟨4, s⟩, ⟨1, x⟩, ⟨3, 0#3⟩]
  | .viota d s => [⟨6, 26#6⟩, ⟨6, d⟩, ⟨12, 0#12⟩, ⟨4, s⟩, ⟨4, 0#4⟩]
  | .vand d a b s x y => [⟨6, 27#6⟩, ⟨6, d⟩, ⟨6, a⟩, ⟨6, b⟩, ⟨4, s⟩, ⟨1, x⟩, ⟨1, y⟩, ⟨2, 0#2⟩]
  | .vor d a b s x y => [⟨6, 28#6⟩, ⟨6, d⟩, ⟨6, a⟩, ⟨6, b⟩, ⟨4, s⟩, ⟨1, x⟩, ⟨1, y⟩, ⟨2, 0#2⟩]
  | .vxor d a b s x y => [⟨6, 29#6⟩, ⟨6, d⟩, ⟨6, a⟩, ⟨6, b⟩, ⟨4, s⟩, ⟨1, x⟩, ⟨1, y⟩, ⟨2, 0#2⟩]
  | .vnot d a s x => [⟨6, 30#6⟩, ⟨6, d⟩, ⟨6, a⟩, ⟨6, 0#6⟩, ⟨4, s⟩, ⟨1, x⟩, ⟨3, 0#3⟩]
  | .vshl d a b s x y => [⟨6, 31#6⟩, ⟨6, d⟩, ⟨6, a⟩, ⟨6, b⟩, ⟨4, s⟩, ⟨1, x⟩, ⟨1, y⟩, ⟨2, 0#2⟩]
  | .vshr d a b s x y => [⟨6, 32#6⟩, ⟨6, d⟩, ⟨6, a⟩, ⟨6, b⟩, ⟨4, s⟩, ⟨1, x⟩, ⟨1, y⟩, ⟨2, 0#2⟩]
  | .vsar d a b s x y => [⟨6, 33#6⟩, ⟨6, d⟩, ⟨6, a⟩, ⟨6, b⟩, ⟨4, s⟩, ⟨1, x⟩, ⟨1, y⟩, ⟨2, 0#2⟩]
  | .vpopc d a s x v => [⟨6, 34#6⟩, ⟨6, d⟩, ⟨6, a⟩, ⟨6, 0#6⟩, ⟨4, s⟩, ⟨1, x⟩, ⟨2, 0#2⟩, ⟨1, v⟩]
  | .vpushix a s x q => [⟨6, 35#6⟩, ⟨6, 0#6⟩, ⟨6, a⟩, ⟨6, 0#6⟩, ⟨4, s⟩, ⟨1, x⟩, ⟨2, 0#2⟩, ⟨1, q⟩]
  | .vpushc a s x => [⟨6, 36#6⟩, ⟨6, 0#6⟩, ⟨6, a⟩, ⟨6, 0#6⟩, ⟨4, s⟩, ⟨1, x⟩, ⟨3, 0#3⟩]
  | .vtopb8 d a s x => [⟨6, 37#6⟩, ⟨6, d⟩, ⟨6, a⟩, ⟨6, 0#6⟩, ⟨4, s⟩, ⟨1, x⟩, ⟨3, 0#3⟩]
  | .vshadd d a b s x y => [⟨6, 38#6⟩, ⟨6, d⟩, ⟨6, a⟩, ⟨6, b⟩, ⟨4, s⟩, ⟨1, x⟩, ⟨1, y⟩, ⟨2, 0#2⟩]
  | .vmov d a s x => [⟨6, 39#6⟩, ⟨6, d⟩, ⟨6, a⟩, ⟨6, 0#6⟩, ⟨4, s⟩, ⟨1, x⟩, ⟨3, 0#3⟩]
  | .mend s => [⟨6, 1#6⟩, ⟨4, s⟩, ⟨22, 0#22⟩]
  | .mshape s r c t => [⟨6, 2#6⟩, ⟨4, s⟩, ⟨8, r⟩, ⟨8, c⟩, ⟨2, t⟩, ⟨4, 0#4⟩]
  | .tfetch s c t o => [⟨6, 3#6⟩, ⟨4, s⟩, ⟨4, c⟩, ⟨2, t⟩, ⟨16, o⟩]
  | .trel s t => [⟨6, 4#6⟩, ⟨4, s⟩, ⟨4, 0#4⟩, ⟨2, t⟩, ⟨16, 0#16⟩]
  | .had s t z => [⟨6, 5#6⟩, ⟨4, s⟩, ⟨4, 0#4⟩, ⟨2, t⟩, ⟨2, z⟩, ⟨14, 0#14⟩]
  | .acczero s a => [⟨6, 6#6⟩, ⟨4, s⟩, ⟨4, a⟩, ⟨18, 0#18⟩]
  | .accrd s a c o => [⟨6, 7#6⟩, ⟨4, s⟩, ⟨4, a⟩, ⟨4, c⟩, ⟨14, o⟩]
  | .accwr s a c o => [⟨6, 8#6⟩, ⟨4, s⟩, ⟨4, a⟩, ⟨4, c⟩, ⟨14, o⟩]
  | .mwait s => [⟨6, 9#6⟩, ⟨4, s⟩, ⟨22, 0#22⟩]
  | .mmulLb2 s a x w c => [⟨6, 16#6⟩, ⟨4, s⟩, ⟨4, a⟩, ⟨2, x⟩, ⟨2, w⟩, ⟨1, c⟩, ⟨13, 0#13⟩]
  | .mmulLb3 s a x w c => [⟨6, 17#6⟩, ⟨4, s⟩, ⟨4, a⟩, ⟨2, x⟩, ⟨2, w⟩, ⟨1, c⟩, ⟨13, 0#13⟩]
  | .mmulLb4 s a x w c => [⟨6, 18#6⟩, ⟨4, s⟩, ⟨4, a⟩, ⟨2, x⟩, ⟨2, w⟩, ⟨1, c⟩, ⟨13, 0#13⟩]
  | .mmulLb5 s a x w c => [⟨6, 19#6⟩, ⟨4, s⟩, ⟨4, a⟩, ⟨2, x⟩, ⟨2, w⟩, ⟨1, c⟩, ⟨13, 0#13⟩]
  | .mmulLb6 s a x w c => [⟨6, 20#6⟩, ⟨4, s⟩, ⟨4, a⟩, ⟨2, x⟩, ⟨2, w⟩, ⟨1, c⟩, ⟨13, 0#13⟩]
  | .mmulLb7 s a x w c => [⟨6, 21#6⟩, ⟨4, s⟩, ⟨4, a⟩, ⟨2, x⟩, ⟨2, w⟩, ⟨1, c⟩, ⟨13, 0#13⟩]
  | .mmulLb8 s a x w c => [⟨6, 22#6⟩, ⟨4, s⟩, ⟨4, a⟩, ⟨2, x⟩, ⟨2, w⟩, ⟨1, c⟩, ⟨13, 0#13⟩]
  | .mmulI8 s a x w c => [⟨6, 23#6⟩, ⟨4, s⟩, ⟨4, a⟩, ⟨2, x⟩, ⟨2, w⟩, ⟨1, c⟩, ⟨13, 0#13⟩]
  | .mmulE4m3 s a x w c => [⟨6, 24#6⟩, ⟨4, s⟩, ⟨4, a⟩, ⟨2, x⟩, ⟨2, w⟩, ⟨1, c⟩, ⟨13, 0#13⟩]
  | .mmulE5m2 s a x w c => [⟨6, 25#6⟩, ⟨4, s⟩, ⟨4, a⟩, ⟨2, x⟩, ⟨2, w⟩, ⟨1, c⟩, ⟨13, 0#13⟩]
  | .mmulFp16 s a x w c => [⟨6, 26#6⟩, ⟨4, s⟩, ⟨4, a⟩, ⟨2, x⟩, ⟨2, w⟩, ⟨1, c⟩, ⟨13, 0#13⟩]
  | .mmulBf16 s a x w c => [⟨6, 27#6⟩, ⟨4, s⟩, ⟨4, a⟩, ⟨2, x⟩, ⟨2, w⟩, ⟨1, c⟩, ⟨13, 0#13⟩]
  | .mmulFp32 s a x w c => [⟨6, 28#6⟩, ⟨4, s⟩, ⟨4, a⟩, ⟨2, x⟩, ⟨2, w⟩, ⟨1, c⟩, ⟨13, 0#13⟩]
  | .mmulFp64 s a x w c => [⟨6, 29#6⟩, ⟨4, s⟩, ⟨4, a⟩, ⟨2, x⟩, ⟨2, w⟩, ⟨1, c⟩, ⟨13, 0#13⟩]
  | .xloop l => [⟨4, 1#4⟩, ⟨3, l⟩, ⟨25, 0#25⟩]
  | .xbound l n => [⟨4, 2#4⟩, ⟨3, l⟩, ⟨25, n⟩]
  | .xsstr l s => [⟨4, 3#4⟩, ⟨3, l⟩, ⟨25, s⟩]
  | .xdstr l s => [⟨4, 4#4⟩, ⟨3, l⟩, ⟨25, s⟩]
  | .xsrc c o => [⟨4, 5#4⟩, ⟨3, 0#3⟩, ⟨4, c⟩, ⟨21, o⟩]
  | .xdst c o => [⟨4, 6#4⟩, ⟨3, 0#3⟩, ⟨4, c⟩, ⟨21, o⟩]
  | .xemit c n => [⟨4, 7#4⟩, ⟨8, 0#8⟩, ⟨4, c⟩, ⟨16, n⟩]
  | .xprobe c => [⟨4, 8#4⟩, ⟨8, 0#8⟩, ⟨4, c⟩, ⟨16, 0#16⟩]
  | .qload c o => [⟨6, 1#6⟩, ⟨11, 1#11⟩, ⟨3, c⟩, ⟨12, o⟩]
  | .btld c o => [⟨6, 2#6⟩, ⟨11, 1#11⟩, ⟨3, c⟩, ⟨12, o⟩]
  | .btgatherK c t => [⟨6, 3#6⟩, ⟨11, 1#11⟩, ⟨3, c⟩, ⟨1, 0#1⟩, ⟨3, t⟩, ⟨8, 0#8⟩]
  | .btgatherV c t => [⟨6, 3#6⟩, ⟨11, 1#11⟩, ⟨3, c⟩, ⟨1, 1#1⟩, ⟨3, t⟩, ⟨8, 0#8⟩]
  | .score t => [⟨6, 4#6⟩, ⟨15, 0#15⟩, ⟨3, t⟩, ⟨8, 0#8⟩]
  | .pvacc t => [⟨6, 7#6⟩, ⟨15, 0#15⟩, ⟨3, t⟩, ⟨8, 0#8⟩]
  | .merge c o => [⟨6, 9#6⟩, ⟨11, 1#11⟩, ⟨3, c⟩, ⟨12, o⟩]
  | .mask m => [⟨6, 10#6⟩, ⟨24, 0#24⟩, ⟨2, m⟩]
  | .loop t l => [⟨6, 11#6⟩, ⟨10, t⟩, ⟨2, l⟩, ⟨14, 0#14⟩]
  | .brcnt t => [⟨6, 12#6⟩, ⟨10, t⟩, ⟨16, 0#16⟩]
  | .lcset l n => [⟨6, 15#6⟩, ⟨10, 0#10⟩, ⟨2, l⟩, ⟨14, n⟩]
  | .ostore c o => [⟨6, 16#6⟩, ⟨11, 1#11⟩, ⟨3, c⟩, ⟨12, o⟩]
  | .jmp t => [⟨6, 17#6⟩, ⟨10, t⟩, ⟨16, 0#16⟩]
  | .nop => [⟨6, 45#6⟩, ⟨26, 0#26⟩]
  | .eret => [⟨6, 45#6⟩, ⟨26, 1#26⟩]
  | .wfe => [⟨6, 45#6⟩, ⟨26, 2#26⟩]
  | .sev => [⟨6, 45#6⟩, ⟨26, 3#26⟩]
  | .qfence => [⟨6, 45#6⟩, ⟨26, 4#26⟩]
  | .mlease => [⟨6, 45#6⟩, ⟨26, 5#26⟩]
  | .mrelease => [⟨6, 45#6⟩, ⟨26, 6#26⟩]
  | .suspend => [⟨6, 45#6⟩, ⟨26, 7#26⟩]
  | .yield => [⟨6, 45#6⟩, ⟨26, 8#26⟩]
  | .retire => [⟨6, 45#6⟩, ⟨26, 9#26⟩]
  | .xend => [⟨4, 9#4⟩, ⟨28, 0#28⟩]
  | .maxupd => [⟨6, 5#6⟩, ⟨26, 0#26⟩]
  | .expq => [⟨6, 6#6⟩, ⟨26, 0#26⟩]
  | .rescale => [⟨6, 8#6⟩, ⟨26, 0#26⟩]
  | .wait => [⟨6, 13#6⟩, ⟨26, 0#26⟩]
  | .done => [⟨6, 14#6⟩, ⟨26, 0#26⟩]
  | _ => []

/-- The encoding of an instruction of an engine is the number that its parts make. -/
theorem encode_eq_join {i : Instr} {e : EngineId} (he : i.engine = some e) : encode i = some (join i.parts) := by
  cases i <;> cases he
  all_goals
    delta encode Instr.parts
    simp only [wordOf, join, widthOf, Nat.reduceAdd, BitVec.reduceToNat, Option.some.injEq]
    ring

theorem widthOf_parts {i : Instr} {e : EngineId} (he : i.engine = some e) : widthOf i.parts = 32 := by
  cases i <;> cases he <;> rfl

/-! ### A word that shows an instruction's parts reads as that instruction -/

/-- What the map of an engine reads from a word, before the values of its fields are checked. -/
def rawFor (e : EngineId) (w : Nat) : Option Instr :=
  match e with
  | .sequencer => rawSeq w
  | .vector => rawVec w
  | .matrix => rawMat w
  | .transfer => rawXfer w
  | .stratus => rawStrat w

theorem decodeFor_eq (e : EngineId) (w : Nat) : decodeFor e w = checked (rawFor e w) := by cases e <;> rfl

theorem rawFor_of_shows {i : Instr} {e : EngineId} {w : Nat} (he : i.engine = some e) (h : Shows w i.parts) :
    rawFor e w = some i := by
  cases i <;> cases he
  all_goals
    delta Instr.parts at h
    simp only [Shows, widthOf, Nat.reduceAdd, BitVec.reduceToNat] at h
    dsimp only [rawFor]
    delta rawSeq rawVec rawMat rawXfer rawStrat
    rw [h.1]
    first | change ite _ _ _ = _ | change some _ = _
    simp only [h, OfNat.ofNat_ne_zero, OfNat.ofNat_ne_one, one_ne_zero, Nat.reduceEqDiff, Nat.succ_ne_self, ↓reduceIte,
      and_self, and_true, and_false, BitVec.ofNat_toNat, BitVec.setWidth_eq]

/-! ### What a map reads is an instruction whose parts the word shows -/

theorem toNat_ofNat_fld (w lo n : Nat) : (BitVec.ofNat n (fld w lo n)).toNat = fld w lo n := by
  rw [BitVec.toNat_ofNat, fld, Nat.mod_mod]

/-- What a map reads from a word, if anything, is an instruction of an engine whose parts the word shows. -/
def ReadsRight (e : EngineId) (w : Nat) (r : Option Instr) : Prop :=
  ∀ i, r = some i → i.engine = some e ∧ Shows w i.parts

theorem readsRight_none (e : EngineId) (w : Nat) : ReadsRight e w none := nofun

theorem readsRight_some {e : EngineId} {w : Nat} {i : Instr} (he : i.engine = some e) (h : Shows w i.parts) :
    ReadsRight e w (some i) := by
  rintro _ ⟨⟩
  exact ⟨he, h⟩

theorem readsRight_ite {e : EngineId} {w : Nat} {c : Prop} [Decidable c] {a b : Option Instr}
    (ha : c → ReadsRight e w a) (hb : ReadsRight e w b) : ReadsRight e w (if c then a else b) := by
  split
  · next h => exact ha h
  · exact hb

theorem readsRight_rawFor (e : EngineId) (w : Nat) : ReadsRight e w (rawFor e w) := by
  cases e <;> dsimp only [rawFor] <;> delta rawSeq rawVec rawMat rawXfer rawStrat <;> split
  all_goals repeat' refine readsRight_ite (fun _ => ?_) ?_
  any_goals exact readsRight_none _ _
  all_goals
    refine readsRight_some rfl ?_
    delta Instr.parts
    simp_all only [Shows, widthOf, Nat.reduceAdd, BitVec.reduceToNat, toNat_ofNat_fld, and_self]

/-! ### Decoding -/

theorem checked_eq_some {r : Option Instr} {i : Instr} : checked r = some i ↔ r = some i ∧ i.wf = true := by
  cases r with
  | none => simp [checked]
  | some j =>
    simp only [checked]
    split
    · next h => exact ⟨fun hj => ⟨hj, Option.some.inj hj ▸ h⟩, And.left⟩
    · next h => exact ⟨nofun, fun ⟨hj, hi⟩ => absurd hi (Option.some.inj hj ▸ h)⟩

theorem decodeFor_of_shows {i : Instr} {e : EngineId} {w : Nat} (hi : i.wf = true) (he : i.engine = some e)
    (h : Shows w i.parts) : decodeFor e w = some i :=
  (decodeFor_eq e w).trans (checked_eq_some.2 ⟨rawFor_of_shows he h, hi⟩)

theorem shows_of_decodeFor {i : Instr} {e : EngineId} {w : Nat} (h : decodeFor e w = some i) :
    i.wf = true ∧ i.engine = some e ∧ Shows w i.parts :=
  have hr := checked_eq_some.1 ((decodeFor_eq e w).symm.trans h)
  ⟨hr.2, readsRight_rawFor e w i hr.1⟩

/-- A 32-bit word shows an instruction's parts exactly if it is the instruction's encoding. -/
theorem shows_iff_encode {i : Instr} {e : EngineId} {w : Nat} (he : i.engine = some e) (hw : w < 2 ^ 32) :
    Shows w i.parts ↔ encode i = some w := by
  rw [shows_iff, widthOf_parts he, Nat.mod_eq_of_lt hw, encode_eq_join he, Option.some.injEq, eq_comm]

theorem encode_lt {i : Instr} {e : EngineId} {w : Nat} (he : i.engine = some e) (hw : encode i = some w) : w < 2 ^ 32 := by
  obtain rfl := Option.some.inj ((encode_eq_join he).symm.trans hw)
  exact widthOf_parts he ▸ join_lt i.parts

/-- Settles O58: an instruction's encoding shows the instruction's parts, and the engine's map reads what a word shows. -/
theorem decodeReadsEveryEncoding : Obligations.DecodeReadsEveryEncoding := by
  unfold Obligations.DecodeReadsEveryEncoding
  intro i e w hi he hw
  have hlt := encode_lt he hw
  exact ⟨hlt, decodeFor_of_shows hi he ((shows_iff_encode he hlt).2 hw)⟩

/-- Settles O59: what an engine's map reads from a word is a well-formed instruction of the engine whose parts the word
shows, so that the word is its encoding. -/
theorem wordsAreEncodings : Obligations.WordsAreEncodings := by
  unfold Obligations.WordsAreEncodings
  refine ⟨fun i e he => ⟨_, encode_eq_join he⟩, fun e w i hw h => ?_⟩
  obtain ⟨hi, he, hs⟩ := shows_of_decodeFor h
  exact ⟨hi, he, (shows_iff_encode he hw).1 hs⟩

end Sys2Proof
end
/-! ## What a step runs (O56) -/
section
namespace Sys2Proof.Machine

/-- The state in which a turn acts, for the turn that stands at the head of the schedule. -/
theorem State.begin_of_sched {s : State} {t : Turn} {rest : List Turn} (h : s.sched = t :: rest) :
    s.begin = { s with sched := rest, actor := t.actor, time := s.time + Config.stepCycles s.draws,
                       draws := s.draws + 1 } := by
  simp [State.begin, State.turn, h]

theorem State.turn_of_sched {s : State} {t : Turn} {rest : List Turn} (h : s.sched = t :: rest) : s.turn = t := by
  simp [State.turn, h]

/-- A turn of an engine runs what the engine picks. -/
theorem step_word {s : State} {e : EngineId} {a : Actor} {rest : List Turn} {i : Instr}
    (h : s.sched = .word e a :: rest) (hs : s.stopped = false) (hp : s.begin.pick e = some i) :
    step s = exec i s.begin := by
  simp [step, hs, State.turn_of_sched h, State.todo, hp]

/-- A turn of an engine that picks nothing passes. -/
theorem step_word_idle {s : State} {e : EngineId} {a : Actor} {rest : List Turn}
    (h : s.sched = .word e a :: rest) (hs : s.stopped = false) (hp : s.begin.pick e = none) :
    step s = .next s.begin := by
  simp [step, hs, State.turn_of_sched h, State.todo, hp]

theorem step_event {s : State} {i : Instr} {a : Actor} {rest : List Turn} (h : s.sched = .event i a :: rest)
    (hi : s.stopped = false ∨ i = .moduleReset ∨ i = .powerOnReset) : step s = exec i s.begin := by
  have go : ¬ (s.stopped = true ∧ s.turn ≠ .event .moduleReset s.turn.actor
      ∧ s.turn ≠ .event .powerOnReset s.turn.actor) := by
    rintro ⟨hs, hm, hp⟩
    rw [State.turn_of_sched h] at hm hp
    obtain h0 | rfl | rfl := hi
    · simp [h0] at hs
    · exact hm rfl
    · exact hp rfl
  rw [step, if_neg go, State.turn_of_sched h]
  rfl

theorem step_hart {s : State} {a : Actor} {rest : List Turn} (h : s.sched = .hart a :: rest)
    (hs : s.stopped = false) : step s = .next s.begin.hartStep := by
  simp only [step, hs, State.turn_of_sched h]
  rfl

/-- A stopped module answers no turn but an event's of one of the two resets. -/
theorem step_stopped {s : State} {t : Turn} {rest : List Turn} (h : s.sched = t :: rest) (hs : s.stopped = true)
    (hm : t ≠ .event .moduleReset t.actor) (hp : t ≠ .event .powerOnReset t.actor) :
    step s = .fault .moduleStopped := by
  rw [step, State.turn_of_sched h, if_pos ⟨hs, hm, hp⟩]

/-! ### The engine's choice -/

theorem State.pick_of_held {s : State} {e : EngineId} (h : e = .sequencer ∧ s.trapReady s.actor.core = true) :
    s.pick e = some .engineTrapDelivery := if_pos h

theorem State.pick_of_idle {s : State} {e : EngineId} (h : ¬ (e = .sequencer ∧ s.trapReady s.actor.core = true))
    (hw : s.nextWord e = none) : s.pick e = none := by
  rw [State.pick, if_neg h, hw]

theorem State.pick_of_bad {s : State} {e : EngineId} {w : Nat}
    (h : ¬ (e = .sequencer ∧ s.trapReady s.actor.core = true)) (hw : s.nextWord e = some w)
    (hb : s.codeBad e = true) : s.pick e = some (.notAnInstruction e) := by
  rw [State.pick, if_neg h, hw]
  exact if_pos hb

theorem State.pick_of_word {s : State} {e : EngineId} {w : Nat}
    (h : ¬ (e = .sequencer ∧ s.trapReady s.actor.core = true)) (hw : s.nextWord e = some w)
    (hb : s.codeBad e = false) : s.pick e = some ((decodeFor e w).getD (.notAnInstruction e)) := by
  rw [State.pick, if_neg h, hw]
  simp only [hb]
  cases decodeFor e w <;> rfl

/-- The sequencer of a running core fetches at its pc in its code section, and reads zero outside it (R58). -/
theorem State.nextWord_sequencer {s : State} {r : Running} {im : Image} (hr : s.me.run = some r)
    (hi : Sparse.find? r.image (s.part r.part).images = some im) :
    s.nextWord .sequencer = some (if s.me.pc.toNat < s.imageWord r.part im.base 3 then
      s.imageWord r.part im.base (s.imageWord r.part im.base 2 + s.me.pc.toNat) else 0) := by
  simp only [State.nextWord, hr, State.fetch, hi]
  rfl

/-! ### The turn of a management hart -/

theorem State.hartStep_of_idle {s : State} (h : s.hart.running = false ∨ s.stalled s.hid = true) :
    s.hartStep = s := by
  have : (!s.hart.running || s.stalled s.hid) = true := by simpa using h
  rw [State.hartStep]
  exact if_pos this

section
variable {s : State} (running : s.hart.running = true) (free : s.stalled s.hid = false)
include running free

theorem State.hartStep_of_due (due : s.meip s.hid = true ∧ s.hart.meie = true ∧ s.hart.mieBit = true) :
    s.hartStep = s.modHid (fun y => y.trapTo meiCause 0) := by
  obtain ⟨h, e, b⟩ := due
  simp [State.hartStep, running, free, h, e, b]

variable (quiet : ¬ (s.meip s.hid = true ∧ s.hart.meie = true ∧ s.hart.mieBit = true))
include quiet

theorem State.hartStep_of_fetchError {v : Nat} (hf : s.fetchHart s.hid s.hart.pc.toNat = .error v) :
    s.hartStep = s.rvTrap .fetchAccess (reg v) := by
  have calm : (s.meip s.hid && s.hart.meie && s.hart.mieBit) = false := by simpa [and_assoc] using quiet
  simp [State.hartStep, running, free, calm, hf]

variable {w n : Nat} (fetched : s.fetchHart s.hid s.hart.pc.toNat = .ok (w, n))
include fetched

theorem State.hartStep_of_illegal (ho : rvDecode w = none) : s.hartStep = s.rvTrap .illegal (reg w) := by
  have calm : (s.meip s.hid && s.hart.meie && s.hart.mieBit) = false := by simpa [and_assoc] using quiet
  simp [State.hartStep, running, free, calm, fetched, ho]

/-- With no interrupt due, the hart runs the instruction at its pc. -/
theorem State.hartStep_of_exec {op : RvOp} (ho : rvDecode w = some op) :
    (∀ t, s.rvExec op n (reg w) = .ok t → s.hartStep = t)
    ∧ (∀ c v, s.rvExec op n (reg w) = .trap c v → s.hartStep = s.rvTrap c v) := by
  have calm : (s.meip s.hid && s.hart.meie && s.hart.mieBit) = false := by simpa [and_assoc] using quiet
  refine ⟨fun t hx => ?_, fun c v hx => ?_⟩ <;> simp [State.hartStep, running, free, calm, fetched, ho, hx]
end

/-- A trap of the acting hart changes that hart alone. -/
theorem State.hartBecomes_trapTo (s : State) (cause tval : Word64) :
    HartBecomes s (s.modHid (fun x => x.trapTo cause tval)) s.hid (s.hart.trapTo cause tval) :=
  hartBecomes_setHart s s.hid _

/-- Settles O56, from one equation for each kind of turn, one for each thing an engine can pick, and one for each thing a
hart's turn can meet. -/
theorem stepRunsDecodedInstruction : Obligations.StepRunsDecodedInstruction := by
  refine ⟨?word, ?fetch, ?event, ?hart, ?stopped⟩
  case word =>
    intro s e a rest h hs b held
    have hb : s.begin = b := State.begin_of_sched h
    have runs (i : Instr) (hp : b.pick e = some i) : step s = exec i b := by
      rw [step_word h hs (hb ▸ hp), hb]
    refine ⟨fun hh => runs _ (State.pick_of_held hh), fun hh hw => ?_,
      fun w hh hw bad => runs _ (State.pick_of_bad hh hw bad),
      fun w hh hw good => ⟨fun i hi => runs _ ?_, fun hi => runs _ ?_⟩⟩
    · rw [step_word_idle h hs (hb ▸ State.pick_of_idle hh hw), hb]
    · rw [State.pick_of_word hh hw good, hi, Option.getD_some]
    · rw [State.pick_of_word hh hw good, hi, Option.getD_none]
  case fetch =>
    exact fun s r im hr hi => State.nextWord_sequencer hr hi
  case event =>
    intro s i a rest h b
    refine ⟨fun hi => ?_, fun hs hm hp => step_stopped h hs ?_ ?_⟩
    · rw [step_event h hi, State.begin_of_sched h]
      rfl
    · exact fun he => hm (Turn.event.inj he).1
    · exact fun he => hp (Turn.event.inj he).1
  case hart =>
    intro s a rest h hs b hid x traps due
    have run : step s = .next b.hartStep := by rw [step_hart h hs, State.begin_of_sched h]; rfl
    have trapped (cause tval : Word64) (ht : b.hartStep = b.modHid (fun y => y.trapTo cause tval)) :
        traps cause tval := ⟨_, run.trans (congrArg _ ht), State.hartBecomes_trapTo b cause tval⟩
    refine ⟨fun idle => run.trans (congrArg _ (State.hartStep_of_idle idle)), fun on free => ⟨fun hd => ?_, ?_, ?_⟩⟩
    · exact trapped _ _ (State.hartStep_of_due on free hd)
    · intro w n hd hf
      refine ⟨fun ho => trapped _ _ (State.hartStep_of_illegal on free hd hf ho), fun op t ho hx => ?_,
        fun op c v ho hx => trapped _ _ ?_⟩
      · exact run.trans (congrArg _ ((State.hartStep_of_exec on free hd hf ho).1 t hx))
      · exact (State.hartStep_of_exec on free hd hf ho).2 c v hx
    · exact fun v hd hf => trapped _ _ (State.hartStep_of_fetchError on free hd hf)
  case stopped =>
    rintro s a rest hs (h | ⟨e, h⟩) <;> exact step_stopped h hs (by simp) (by simp)

end Sys2Proof.Machine
end
/-! ## The canonical form of the memory is kept (O60)

A state is canonical when the cells of its memory are (log 1). For every operation of the model there is one rule that
says that it keeps the form, named after the operation; a rule goes through the rules of what the operation calls, and
only the operations that write cells go down to those of the memory. The predicates below carry the form through what
an operation answers: a checked state, an outcome, the end of a hart's instruction. -/
section
namespace Sys2Proof.Machine

/-- The cells of the memory are in canonical form. -/
def State.Canon (s : State) : Prop := s.mem.wf = true

/-- What a check that passes gives has a property. -/
def Gives {ε α : Type} (P : α → Prop) : Except ε α → Prop
  | .ok a => P a
  | .error _ => True

/-- What an instruction of a hart that ends gives has a property. -/
def Ends {α : Type} (P : α → Prop) : HartEnd α → Prop
  | .ok a => P a
  | .trap _ _ => True
  | .stall => True

/-- The next state, where there is one, is canonical. -/
def Kept : Host.Outcome State Fault Refusal → Prop
  | .next t => t.Canon
  | .fault _ => True
  | .refused _ => True

/-! ### States -/

namespace State.Canon
variable {s t u : State}

/-- The cells alone decide. -/
theorem same (h : s.Canon) (e : t.mem.cells = s.mem.cells) : t.Canon := by
  unfold State.Canon at h ⊢
  rw [Mem.wf_eq] at h ⊢
  rw [e]
  exact h

theorem setTag {l : Nat} {b : Bool} (h : s.Canon) : State.Canon { s with mem := s.mem.setTag l b } := h.same rfl

theorem ite {c : Prop} [Decidable c] (ht : t.Canon) (hu : u.Canon) : State.Canon (if c then t else u) := by
  split
  · exact ht
  · exact hu

theorem foldl {α : Type} {f : State → α → State} {l : List α} (h : s.Canon)
    (hf : ∀ t a, t.Canon → (f t a).Canon) : (l.foldl f s).Canon := by
  induction l generalizing s with
  | nil => exact h
  | cons a l ih => exact ih (hf s a h)

theorem foldl_fst {α β : Type} {f : State × β → α → State × β} {l : List α} {p : State × β}
    (h : p.1.Canon) (hf : ∀ p a, p.1.Canon → (f p a).1.Canon) : (l.foldl f p).1.Canon := by
  induction l generalizing p with
  | nil => exact h
  | cons a l ih => exact ih (hf p a h)

end State.Canon

/-! ### Checks -/

namespace Gives
variable {ε α β : Type} {P : α → Prop} {Q : β → Prop}

theorem ok {a : α} (h : P a) : Gives (ε := ε) P (.ok a) := h

theorem error {e : ε} : Gives P (.error e : Except ε α) := trivial

theorem of_ok {r : Except ε α} {a : α} (h : Gives P r) (e : r = .ok a) : P a := by
  subst e
  exact h

theorem bind {x : Except ε β} {f : β → Except ε α} (hx : Gives Q x) (hf : ∀ b, Q b → Gives P (f b)) :
    Gives P (x >>= f) := by
  cases x with
  | ok b => exact hf b hx
  | error e => exact trivial

/-- A check that gives no state may give anything. -/
theorem step {x : Except ε β} {f : β → Except ε α} (hf : ∀ b, Gives P (f b)) : Gives P (x >>= f) := by
  cases x with
  | ok b => exact hf b
  | error e => exact trivial

theorem ite {c : Prop} [Decidable c] {x y : Except ε α} (hx : Gives P x) (hy : Gives P y) :
    Gives P (if c then x else y) := by
  split
  · exact hx
  · exact hy

end Gives

/-! ### Ends of a hart's instructions -/

namespace Ends
variable {α : Type} {P : α → Prop}

theorem ok {a : α} (h : P a) : Ends P (.ok a) := h

theorem trap {c : HartCause} {v : Word64} : Ends P (.trap c v) := trivial

theorem stall : Ends P .stall := trivial

theorem of_ok {r : HartEnd α} {a : α} (h : Ends P r) (e : r = .ok a) : P a := by
  subst e
  exact h

theorem ite {c : Prop} [Decidable c] {x y : HartEnd α} (hx : Ends P x) (hy : Ends P y) :
    Ends P (if c then x else y) := by
  split
  · exact hx
  · exact hy

end Ends

/-! ### Outcomes -/

namespace Kept

theorem next {s : State} (h : s.Canon) : Kept (.next s) := h

theorem fault {r : Fault} : Kept (.fault r) := trivial

theorem of_next {o : Host.Outcome State Fault Refusal} {t : State} (h : Kept o) (e : o = .next t) : t.Canon := by
  subst e
  exact h

theorem ite {c : Prop} [Decidable c] {x y : Host.Outcome State Fault Refusal} (hx : Kept x) (hy : Kept y) :
    Kept (if c then x else y) := by
  split
  · exact hx
  · exact hy

end Kept

/-! ### The memory -/

theorem Mem.wf_foldl {α : Type} {f : Mem → α → Mem} {l : List α} {m : Mem} (h : m.wf = true)
    (hf : ∀ m a, m.wf = true → (f m a).wf = true) : (l.foldl f m).wf = true := by
  induction l generalizing m with
  | nil => exact h
  | cons a l ih => exact ih (hf m a h)

section
variable {s : State}

/-! ### Units, clusters, partitions and harts -/

theorem State.Canon.setCore {n : Nat} {c : Core} (h : s.Canon) : (s.setCore n c).Canon := h.same rfl

theorem State.Canon.setMe {c : Core} (h : s.Canon) : (s.setMe c).Canon := h.setCore

theorem State.Canon.setCluster {k : Nat} {c : Cluster} (h : s.Canon) : (s.setCluster k c).Canon := h.same rfl

theorem State.Canon.setMyCluster {c : Cluster} (h : s.Canon) : (s.setMyCluster c).Canon := h.setCluster

theorem State.Canon.setPart {p : Nat} {x : Partition} (h : s.Canon) : (s.setPart p x).Canon := h.same rfl

theorem State.Canon.modPart {p : Nat} {f : Partition → Partition} (h : s.Canon) : (s.modPart p f).Canon := h.setPart

theorem State.Canon.setVf {v : Nat} {x : Vf} (h : s.Canon) : (s.setVf v x).Canon := h.same rfl

theorem State.Canon.setHart {h' : HartId} {x : Hart} (h : s.Canon) : (s.setHart h' x).Canon := h.same rfl

theorem State.Canon.say {o : Output} (h : s.Canon) : (s.say o).Canon := h.same rfl

theorem State.Canon.drew {n : Nat} (h : s.Canon) : (s.drew n).Canon := h.same rfl

/-! ### Writes of the device -/

theorem State.Canon.wake {writer : Option Nat} {gs : List Nat} (h : s.Canon) : (s.wake writer gs).Canon := h.same rfl

theorem State.Canon.poke {l : Nat} {bs : List Byte} (h : s.Canon) : (s.poke l bs).Canon := .wake (Mem.wf_poke _ _ h)

/-! ### Writes, records, groups, suspensions and traps -/

theorem State.Canon.noWait {who : Nat} (h : s.Canon) : (s.noWait who).Canon := h.same rfl

theorem State.Canon.noWaits {core : Nat} (h : s.Canon) : (s.noWaits core).Canon := h.same rfl

theorem State.Canon.queueUp {r : Resource} {who : Nat} (h : s.Canon) : (s.queueUp r who).Canon := .ite h (h.same rfl)

theorem State.Canon.keepOlder {core unit l key n : Nat} (h : s.Canon) : (s.keepOlder core unit l key n).Canon :=
  .ite (h.same rfl) h

theorem State.Canon.perform {core : Nat} {units : Nat → Bool} (h : s.Canon) : (s.perform core units).Canon :=
  h.same rfl

theorem State.Canon.orderOwn {core : Nat} (h : s.Canon) : (s.orderOwn core).Canon := h.same rfl

theorem State.Canon.releaseOlder {core : Nat} (h : s.Canon) : (s.releaseOlder core).Canon := h.perform.orderOwn

theorem State.Canon.storeAt {writer : Option Nat} {fill : Bool} {l key : Nat} {bs : List Byte} (h : s.Canon) :
    (s.storeAt writer fill l key bs).Canon :=
  State.wf_storeAt writer fill l key bs h

theorem State.Canon.sendForward {f : Forward} (h : s.Canon) : (s.sendForward f).Canon := .say (h.same rfl)

theorem State.Canon.sendStore {core engine module addr page : Nat} {va : Word64} {bs : List Byte} {tags : List Bool}
    {asker : Asker} {word : Nat} (h : s.Canon) :
    (s.sendStore core engine module addr page va bs tags asker word).Canon :=
  h.sendForward

theorem State.Canon.putLast {core : Nat} {fill : Bool} {l key : Nat} {bs : List Byte} (h : s.Canon) :
    (s.putLast core fill l key bs).Canon :=
  h.keepOlder.storeAt

theorem State.Canon.putRuns {core engine : Nat} {fill : Bool} {word unit : Nat} {ps : List Piece} {bs : List Byte}
    (h : s.Canon) : (s.putRuns core engine fill word unit ps bs).Canon :=
  State.wf_putRuns core engine word unit fill ps bs h

theorem State.Canon.putPieces {core engine : Nat} {fill : Bool} {ps : List Piece} {bs : List Byte} {word unit : Nat}
    (h : s.Canon) : (s.putPieces core engine fill ps bs word unit).Canon :=
  h.putRuns

theorem State.Canon.dropLoads {core engine : Nat} (h : s.Canon) : (s.dropLoads core engine).Canon := h.same rfl

theorem State.Canon.dropAnswers {core engine : Nat} (h : s.Canon) : (s.dropAnswers core engine).Canon := h.same rfl

theorem State.Canon.post {fs : List Forward} (h : s.Canon) : (s.post fs).Canon := h.same (by rw [State.post_mem])

theorem State.Canon.walkAway {core engine : Nat} {f : XFault} (h : s.Canon) : (s.walkAway core engine f).Canon := by
  unfold State.walkAway
  split
  · exact h.post
  · exact h

theorem State.Canon.setRecWorld {p a w : Nat} (h : s.Canon) : (s.setRecWorld p a w).Canon := h.modPart

theorem State.Canon.setRecBytesBy {writer : Option Nat} {p a o : Nat} {bs : List Byte} (h : s.Canon) :
    (s.setRecBytesBy writer p a o bs).Canon :=
  .wake (Mem.wf_poke _ _ h)

theorem State.Canon.setRecBytes {p a o : Nat} {bs : List Byte} (h : s.Canon) : (s.setRecBytes p a o bs).Canon :=
  h.setRecBytesBy

theorem State.Canon.setCtl {p a c : Nat} (h : s.Canon) : (s.setCtl p a c).Canon := h.setRecBytes

theorem State.Canon.setRecState {p a st : Nat} (h : s.Canon) : (s.setRecState p a st).Canon := h.setCtl

theorem State.Canon.enterPool {p a : Nat} (h : s.Canon) : (s.enterPool p a).Canon := h.modPart

theorem State.Canon.makeRunnable {p a : Nat} (h : s.Canon) : (s.makeRunnable p a).Canon :=
  .ite h h.setRecState.enterPool

theorem State.Canon.zenithFault {f : FaultRec} (h : s.Canon) : (s.zenithFault f).Canon := h.same rfl

theorem State.Canon.guestFault {f : FaultRec} (h : s.Canon) : (s.guestFault f).Canon := .ite h.zenithFault h.setVf

theorem State.Canon.closeGroup {p g : Nat} (h : s.Canon) : (s.closeGroup p g).Canon :=
  .ite ((h.foldl fun _ _ h1 => h1.makeRunnable).modPart) h

theorem State.Canon.leaveGroups {p a : Nat} {gs : List Nat} (h : s.Canon) : (s.leaveGroups p a gs).Canon :=
  h.foldl fun _ _ h1 => .ite h1 (.ite h1.modPart h1.modPart.closeGroup)

theorem State.Canon.endUnit {p a : Nat} {e : UnitEnd} (h : s.Canon) : (s.endUnit p a e).Canon := by
  unfold State.endUnit
  dsimp only
  split
  · exact h.modPart
  · split
    · exact h.modPart
    · refine .ite ?_ h.modPart.modPart
      split
      · exact h.modPart.modPart.setCluster
      · exact h.modPart.modPart

theorem State.Canon.markPending {core x top : Nat} (h : s.Canon) : (s.markPending core x top).Canon :=
  .ite (h.same rfl) h

theorem State.Canon.unmarkPending {core x top : Nat} (h : s.Canon) : (s.unmarkPending core x top).Canon :=
  .ite (h.same rfl) h

theorem State.Canon.clearMarks {core : Nat} {r : Option (Nat × Nat)} (h : s.Canon) : (s.clearMarks core r).Canon := by
  unfold State.clearMarks
  split
  · exact h.unmarkPending
  · exact h

theorem State.Canon.engineWrite {core engine word : Nat} {ps : List Piece} {bs : List Byte} {unit : Nat}
    (h : s.Canon) : (s.engineWrite core engine word ps bs unit).Canon :=
  h.putPieces.same rfl

theorem State.Canon.landMatrix {k : Nat} {f : MatFlight} (h : s.Canon) : (s.landMatrix k f).Canon := by
  unfold State.landMatrix
  split
  · exact h.setCluster
  · exact h.engineWrite.clearMarks

theorem State.Canon.settleMatrix {core : Nat} (h : s.Canon) : (s.settleMatrix core).Canon :=
  (h.foldl fun _ _ h1 => h1.landMatrix).setCluster

theorem State.Canon.landStrat {u : StratRun} {f : StratFlight} (h : s.Canon) : (s.landStrat u f).Canon := by
  refine .setCore ?_
  split
  · exact h.engineWrite
  · exact h

theorem State.Canon.settleFlight {u : StratRun} {f : StratFlight} (h : s.Canon) : (s.settleFlight u f).1.Canon := by
  unfold State.settleFlight
  split
  · exact h
  · exact h.landStrat

theorem State.Canon.settleStrat {core : Nat} (h : s.Canon) : (s.settleStrat core).Canon := by
  unfold State.settleStrat
  dsimp only
  split
  · exact h
  · exact .ite (.setCluster (.foldl_fst h fun _ _ h1 => h1.settleFlight)) h

theorem State.Canon.save {core kind : Nat} {faulted : Bool} (h : s.Canon) : (s.save core kind faulted).1.Canon := by
  unfold State.save
  split
  · exact h
  · dsimp only
    split
    · exact h
    · exact h.setPart.setCluster.poke

theorem State.Canon.dropReads {core : Nat} (h : s.Canon) : (s.dropReads core).Canon := h.same rfl

theorem State.Canon.oweMemerr {p a : Nat} {info : Word64} (h : s.Canon) : (s.oweMemerr p a info).Canon :=
  h.setCtl.modPart

theorem State.Canon.forceOut {core kind st : Nat} (h : s.Canon) : (s.forceOut core kind st).Canon := by
  unfold State.forceOut
  split
  · exact h
  · exact h.setCore.settleMatrix.settleStrat.dropReads.save.setCtl.setRecBytes.setCore.noWaits.perform

theorem State.Canon.forceSuspend {core kind : Nat} (h : s.Canon) : (s.forceSuspend core kind).Canon := by
  unfold State.forceSuspend
  split
  · exact h
  · exact .ite h h.forceOut.enterPool

theorem State.Canon.endFaulted {core code : Nat} {info : Word64} {lane : Option Nat} {engine word : Nat}
    {more : Bool} {pc : Nat} (h : s.Canon) : (s.endFaulted core code info lane engine word more pc).Canon := by
  unfold State.endFaulted
  split
  · exact h
  · exact .ite h h.forceOut.guestFault.leaveGroups.endUnit

/-- The report takes a token, which is no cell. -/
theorem State.Canon.faultOut {core engine word : Nat} {f : XFault} (h : s.Canon) :
    (s.faultOut core engine word f).Canon := by
  unfold State.faultOut
  split
  · exact h
  · exact .ite h (.ite (.zenithFault (h.forceOut.same rfl)) (.guestFault (h.forceOut.same rfl)))

theorem State.Canon.trapEntry {core : Nat} {t : Trap} {info : Word64} {lane : Option Nat} {engine word : Nat}
    {more : Bool} {pc : Word64} (h : s.Canon) : (s.trapEntry core t info lane engine word more pc).Canon :=
  .ite h.endFaulted h.setCore.noWait.dropLoads

theorem State.Canon.holdTrap {core engine : Nat} {t : Trap} {info : Word64} {lane : Option Nat} {word : Nat}
    (h : s.Canon) : (s.holdTrap core engine t info lane word).Canon :=
  h.setCore.noWait.dropLoads

theorem State.Canon.walkEnds {core engine word : Nat} {f : XFault} (h : s.Canon) :
    (s.walkEnds core engine word f).Canon := by
  unfold State.walkEnds
  split
  · exact h.post
  · exact h.faultOut

/-- The rule of the sequencer: an instruction keeps the form if what it gives where its checks pass does. -/
theorem State.Canon.runSeq {r : Chk State} (h : s.Canon) (hr : Gives State.Canon r) : Kept (s.runSeq r) := by
  unfold State.runSeq
  dsimp only
  split
  · exact .next hr.noWait
  · exact .next h.trapEntry
  · exact .next h.trapEntry
  · exact .next h.walkEnds
  · exact .next h.walkEnds
  · exact .next h.queueUp
  · exact .next h.post

theorem State.Canon.engineWait {r : Resource} {who : Nat} (h : s.Canon) : (s.engineWait r who).Canon :=
  .ite h.noWait h.queueUp

/-- The rule of the other engines. -/
theorem State.Canon.runWord {core engine word : Nat} {r : Chk State} (h : s.Canon) (hr : Gives State.Canon r) :
    Kept (s.runWord core engine word r) := by
  unfold State.runWord
  split
  · exact .next hr.noWait
  · exact .next h.holdTrap
  · exact .next h.holdTrap
  · exact .next h.walkEnds
  · exact .next h.walkEnds
  · exact .next h.engineWait
  · exact .next h.post

theorem State.Canon.advance (h : s.Canon) : s.advance.Canon := h.setMe

theorem State.Canon.writeG {d : BitVec 5} {v : Word64} (h : s.Canon) : (s.writeG d v).Canon := h.setMe

theorem State.Canon.writeC {d : BitVec 4} {v : Cap} (h : s.Canon) : (s.writeC d v).Canon := h.setMe

/-! ### Leaving a core -/

theorem State.Canon.endClaim {core : Nat} (h : s.Canon) : (s.endClaim core).Canon := .ite h h.setCluster

theorem State.Canon.releaseLease {core : Nat} (h : s.Canon) : (s.releaseLease core).Canon := h.setCore.endClaim

theorem State.Canon.idleCore {core : Nat} (h : s.Canon) : (s.idleCore core).Canon := h.setCore.noWaits

theorem State.Canon.leaveCore {core : Nat} {r : Running} {st : Nat} {resume : Word64} (h : s.Canon) :
    (s.leaveCore core r st resume).Canon :=
  .perform (.idleCore (.setTag h.releaseLease.setRecBytes))

theorem State.Canon.suspendAs {st : Nat} {resume : Word64} (h : s.Canon) :
    Gives State.Canon (s.suspendAs st resume) := by
  unfold State.suspendAs
  split
  · exact .ok h
  · split
    · exact .error
    · exact .ok h.leaveCore

theorem State.Canon.releaseSync {p loc a : Nat} (h : s.Canon) : (s.releaseSync p loc a).Canon := by
  unfold State.releaseSync
  split
  · exact h
  · exact h.modPart.foldl fun _ _ h1 => h1.makeRunnable

theorem State.Canon.releaseAllSyncs {p a : Nat} (h : s.Canon) : (s.releaseAllSyncs p a).Canon :=
  h.foldl fun _ _ h1 => h1.releaseSync

theorem State.Canon.wakeSeq {p n : Nat} (h : s.Canon) : (s.wakeSeq p n).Canon := h.foldl fun _ _ h1 => h1.makeRunnable

theorem State.Canon.completeTask {p n number : Nat} (h : s.Canon) : (s.completeTask p n number).Canon :=
  h.modPart.wakeSeq

theorem State.Canon.reportFault {p n number code : Nat} (h : s.Canon) : (s.reportFault p n number code).Canon :=
  h.modPart

/-! ### Regions -/

theorem State.Canon.putFit {p n : Nat} {f : FitEntry} (h : s.Canon) : (s.putFit p n f).Canon := h.modPart

theorem State.Canon.writeApx {x : ApxReg} {v : Word64} (h : s.Canon) : (s.writeApx x v).Canon := by
  unfold State.writeApx
  split
  · exact h
  · split
    · exact h
    · split
      · exact h.putFit
      · exact h.putFit
      · exact h.putFit
      · exact h.putFit

/-! ### System registers -/

theorem State.Canon.startSwitch {core b mode : Nat} (h : s.Canon) : (s.startSwitch core b mode).Canon :=
  .ite h h.setCluster

theorem State.Canon.clearPending {core : Nat} (h : s.Canon) : (s.clearPending core).Canon := h.same rfl

theorem State.Canon.setSys {f : CoreSys → CoreSys} (h : s.Canon) : (s.setSys f).Canon := h.setMe

theorem State.Canon.leavePending (h : s.Canon) : s.leavePending.Canon := h.clearPending.setMe.setMyCluster

theorem State.Canon.writeStatus {v : Word64} (h : s.Canon) : (s.writeStatus v).Canon :=
  .ite h.setSys h.setSys.leavePending

theorem State.Canon.writeSys {n : Nat} {v : Word64} (h : s.Canon) : (s.writeSys n v).Canon := by
  refine .ite h.startSwitch ?_
  split
  · exact h.writeStatus
  · exact h.setSys
  · exact h.setSys
  · exact h.setSys
  · exact h.writeApx
  · exact h.writeApx
  · exact h.writeApx
  · exact h.setSys
  · exact h.setSys
  · exact h.setSys
  · exact h.setSys
  · exact h.setSys
  · exact h.writeApx
  · exact h

/-! ### Issue of engine blocks -/

theorem State.Canon.setEng {f : CoreEng → CoreEng} (h : s.Canon) : (s.setEng f).Canon := h.setMe

theorem State.Canon.markAccrds {core : Nat} {b : Block} (h : s.Canon) : (s.markAccrds core b).Canon := by
  refine h.foldl fun t a h1 => ?_
  split
  · split
    · exact h1.markPending
    · exact h1
  · exact h1

theorem State.Canon.takeCount {r : Running} {x : RegionRun} (h : s.Canon) : (s.takeCount r x).1.Canon := by
  unfold State.takeCount
  split
  · split
    · exact h.putFit
    · exact h
  · exact h

theorem State.Canon.queueVec {o : BitVec 20} {region : Option RegionRun} (h : s.Canon) :
    (s.queueVec o region).Canon :=
  h.setEng.advance

theorem State.Canon.issueVec {sel : BitVec 4} {o : BitVec 20} (h : s.Canon) :
    Gives State.Canon (s.issueVec sel o) := by
  unfold State.issueVec
  dsimp only
  split
  · exact .error
  · exact .ite (.ok h.advance) (.ite .error (.ok h.queueVec))
  · refine .ite (.ok h.setSys.advance) (.ite .error ?_)
    split
    · exact .ok h
    · exact .ok h.takeCount.setSys.setMe.queueVec

theorem State.Canon.issueMat {sel : BitVec 4} {o : BitVec 20} (h : s.Canon) : Gives State.Canon (s.issueMat sel o) :=
  .ite (.ok h.advance) (.ite .error (.ite .error (.ok (.advance (.ite h.setEng.markAccrds h.setEng)))))

theorem kept_execAttngo {sel : BitVec 4} {o : BitVec 20} (h : s.Canon) : Kept (execAttngo sel o s) :=
  .ite (.next h.advance) (.ite (h.runSeq .error) (.next h.setEng.queueUp))

theorem kept_execMlease (h : s.Canon) : Kept (execMlease s) :=
  .ite (.next (.ite h h.advance)) (.ite (.next h.queueUp) (.next h.setSys.setMyCluster.queueUp))

theorem State.Canon.beginRegion {id v : BitVec 6} {n : BitVec 4} (h : s.Canon) :
    Gives State.Canon (s.beginRegion id v n) := by
  unfold State.beginRegion
  split
  · exact .error
  · split
    · exact .ok h.setSys.advance
    · exact .error

theorem State.Canon.endRegion {id v : BitVec 6} {n : BitVec 4} (h : s.Canon) :
    Gives State.Canon (s.endRegion id v n) := by
  unfold State.endRegion
  split
  · exact .error
  · split
    · exact .ite (.ok (.advance (.setSys (.ite h.setEng.setMe h.setEng)))) .error
    · exact .error

theorem State.Canon.moveFit {id : Nat} {f : FitEntry → FitEntry} (h : s.Canon) : (s.moveFit id f).Canon := by
  unfold State.moveFit
  split
  · exact h
  · split
    · exact h.putFit
    · exact h

theorem State.Canon.startFit {id : Nat} (h : s.Canon) : (s.startFit id).Canon := by
  unfold State.startFit
  split
  · exact h
  · split
    · exact h.putFit
    · exact h

/-! ### Accesses of engines -/

theorem State.Canon.pushFifo {k b : Nat} {es : List Vec} (h : s.Canon) : (s.pushFifo k b es).Canon := h.setCluster

theorem State.Canon.pushRuns {x : Nat} {bs : List Byte} (h : s.Canon) : (s.pushRuns x bs).Canon :=
  h.foldl fun _ _ h1 => h1.pushFifo

theorem State.Canon.engineStore {core engine word x : Nat} {ps : List Piece} {bs : List Byte} {unit : Nat}
    (h : s.Canon) : (s.engineStore core engine word x ps bs unit).Canon :=
  h.pushRuns.engineWrite

theorem State.Canon.grantTo {k p : Nat} (h : s.Canon) : (s.grantTo k p).Canon :=
  .ite h.setCluster (.ite h.setCluster (h.same rfl))

theorem kept_execArrayGrant (h : s.Canon) : Kept (execArrayGrant s) := by
  refine .next (.ite h ?_)
  split
  · exact h
  · exact .ite h h.grantTo

/-! ### The matrix engine -/

theorem State.Canon.nextMat (h : s.Canon) : s.nextMat.Canon := h.setMe.setMyCluster

theorem State.Canon.writeBack {core : Nat} {w : Sparse Slot × Sparse Tile} (h : s.Canon) :
    (s.writeBack core w).Canon :=
  .ite h h.setCluster.setCore

/-- A matrix word that its selector disables keeps the form if what it skips does. -/
theorem State.Canon.takeMat {sel : BitVec 4} {f : Block → Chk State} {skip : Block → State} (h : s.Canon)
    (hf : ∀ b, Gives State.Canon (f b)) (hskip : ∀ b, (skip b).Canon) : Kept (s.takeMat sel f skip) := by
  unfold State.takeMat
  split
  · exact .next h
  · refine .ite (.next h) ?_
    split
    · exact .next h.writeBack
    · refine .ite (h.runWord ?_) (.next ((hskip _).nextMat))
      split
      · exact .error
      · rename_i e2
        exact .ok ((hf _).of_ok e2).nextMat

theorem State.Canon.putSlot {n : Nat} {x : Slot} (h : s.Canon) : (s.putSlot n x).Canon := h.setMyCluster

theorem State.Canon.putTile {n : Nat} {x : Tile} (h : s.Canon) : (s.putTile n x).Canon := h.setMyCluster

theorem State.Canon.flyMat {word : Nat} {w : MatTraffic} {guests : List Nat} {span : Nat × Nat} (h : s.Canon) :
    (s.flyMat word w guests span).Canon :=
  h.setMyCluster

theorem State.Canon.fetchTile {b : Block} {c : BitVec 4} {n off : Nat} (h : s.Canon) :
    Gives State.Canon (s.fetchTile b c n off) :=
  .step fun _ => .step fun _ => .ok h.dropAnswers.putSlot.flyMat

theorem kept_execAcczero {sel a : BitVec 4} (h : s.Canon) : Kept (execAcczero sel a s) :=
  h.takeMat (fun _ => .step fun _ => .ok h.putTile) (fun _ => h)

theorem State.Canon.readTile {b : Block} {a c : BitVec 4} {off : Nat} (h : s.Canon) :
    Gives State.Canon (s.readTile b a c off) :=
  .step fun _ => .step fun _ => .step fun _ => .step fun _ => .ok h.dropAnswers.pushRuns.flyMat

theorem State.Canon.skipAccrd {b : Block} {c : BitVec 4} {o : BitVec 14} (h : s.Canon) : (s.skipAccrd b c o).Canon :=
  h.clearMarks

theorem kept_execAccrd {sel a c : BitVec 4} {o : BitVec 14} (h : s.Canon) : Kept (execAccrd sel a c o s) :=
  h.takeMat (fun _ => h.readTile) (fun _ => h.skipAccrd)

theorem State.Canon.writeTile {b : Block} {a c : BitVec 4} {off : Nat} (h : s.Canon) :
    Gives State.Canon (s.writeTile b a c off) :=
  .step fun _ => .step fun _ => .step fun _ => .ok h.dropAnswers.putTile

theorem kept_execMwait {sel : BitVec 4} (h : s.Canon) : Kept (execMwait sel s) :=
  h.takeMat (fun _ => .step fun _ => .ok h) (fun _ => h)

theorem kept_execMend {x : BitVec 4} (h : s.Canon) : Kept (execMend x s) := by
  unfold execMend
  dsimp only
  split
  · exact .next h
  · refine .ite (.next h) ?_
    split
    · exact .next h.writeBack
    · exact .next h.setMyCluster.setMe.endClaim

theorem State.Canon.multiply {f : MatFmt} {a x w : Nat} {add : Bool} (h : s.Canon) :
    Gives State.Canon (s.multiply f a x w add) :=
  .step fun _ => .step fun _ => .step fun _ => .step fun _ => .step fun _ => .step fun _ => .step fun _ => .step
    fun _ => .ok h.putTile

theorem State.Canon.runMul {f : MatFmt} {sel a : BitVec 4} {x w : BitVec 2} {c : BitVec 1} (h : s.Canon) :
    Kept (s.runMul f sel a x w c) :=
  h.takeMat (fun _ => h.multiply) (fun _ => h)

theorem State.Canon.retireMat {idx : Nat} {f : MatFlight} (h : s.Canon) : (s.retireMat idx f).Canon :=
  h.landMatrix.setCluster.endClaim

theorem kept_execTfetchLanded {idx : Nat} (h : s.Canon) : Kept (execTfetchLanded idx s) := by
  refine .next ?_
  split
  · split
    · exact .ite h h.retireMat
    · exact h
  · exact h

theorem kept_execAccrdWritesPerformed {idx : Nat} (h : s.Canon) : Kept (execAccrdWritesPerformed idx s) := by
  refine .next ?_
  split
  · split
    · exact h.retireMat
    · exact h
  · exact h

/-! ### Accesses of the sequencer -/

theorem State.Canon.clearSyncs {ps : List Piece} (h : s.Canon) : (s.clearSyncs ps).Canon := .ite h h.modPart

theorem State.Canon.afterRead {q : Nat} {ps : List Piece} (h : s.Canon) : (s.afterRead q ps).Canon :=
  .ite (h.clearSyncs.same rfl) h.clearSyncs.dropAnswers

theorem State.Canon.loadBytes {c : Cap} {x : ℤ} {n align q : Nat} (h : s.Canon) :
    Gives (fun p => p.2.2.Canon) (s.loadBytes c x n align q) :=
  .step fun _ => .step fun _ => .ok h.afterRead

theorem State.Canon.storeBytes {q : Nat} {ps : List Piece} {bs : List Byte} (h : s.Canon) :
    Gives State.Canon (s.storeBytes q ps bs) :=
  .step fun _ => .ok h.clearSyncs.dropAnswers.putPieces

/-! ### Control of the sequencer -/

theorem State.Canon.goto {pc : Word64} (h : s.Canon) : (s.goto pc).Canon := h.setMe

theorem State.Canon.armWindow {count : BitVec 60} {drain : Nat} {window : BitVec 8} (h : s.Canon) :
    (s.armWindow count drain window).Canon :=
  h.setSys.advance

theorem State.Canon.loopStep {target : Word64} (h : s.Canon) : (s.loopStep target).Canon :=
  .ite h.setSys.goto (.ite h.setSys.goto h.advance)

theorem State.Canon.catchEvent (h : s.Canon) : s.catchEvent.Canon := .ite h.setMe h

theorem kept_execQfence (h : s.Canon) : Kept (execQfence s) := by
  refine h.runSeq ?_
  split
  · exact .error
  · exact .ok h.orderOwn.advance

theorem kept_execCqpop {d : BitVec 5} (h : s.Canon) : Kept (execCqpop d s) := by
  refine h.runSeq ?_
  split
  · exact .error
  · exact .ok h.setMe.writeG

/-! ### The Stratus unit -/

theorem State.Canon.putStrat {u : StratRun} (h : s.Canon) : (s.putStrat u).Canon := h.setMyCluster

theorem State.Canon.releaseHeld {u : StratRun} {r : Chk State} (h : s.Canon) : (s.releaseHeld u r).Canon := by
  unfold State.releaseHeld
  split
  · exact .ite h.putStrat h
  · exact h

theorem State.Canon.takeStrat {f : StratRun → Chk State} (h : s.Canon) (hf : ∀ b, Gives State.Canon (f b)) :
    Kept (s.takeStrat f) := by
  unfold State.takeStrat
  split
  · exact .next h
  · refine .ite (h.releaseHeld.runWord ?_) (.next h)
    split
    · exact .error
    · exact hf _

theorem State.Canon.retireStrat {u : StratRun} {next : Nat} (h : s.Canon) : (s.retireStrat u next).Canon :=
  h.putStrat.setSys

theorem State.Canon.stepStrat {word u : StratRun} (h : s.Canon) : (s.stepStrat word u).Canon := h.retireStrat

theorem State.Canon.flyStrat {u : StratRun} {ask : StratAsk} {h' : List Piece × List Nat} {w : StratTraffic}
    (h : s.Canon) : (s.flyStrat u ask h' w).Canon :=
  h.putStrat

theorem State.Canon.fetchStrat {u v : StratRun} {q : StratAsk} {land : List Byte → StratTraffic} (h : s.Canon) :
    Gives State.Canon (s.fetchStrat u v q land) := by
  refine .step fun _ => ?_
  split
  · exact .ok h.dropAnswers.flyStrat
  · exact .ok h.putStrat.post
  · exact .error

theorem State.Canon.btgather {u : StratRun} {c : BitVec 3} {n : Nat} {value : Bool} (h : s.Canon) :
    Gives State.Canon (s.btgather u c n value) := by
  refine .step fun _ => .step fun _ => ?_
  dsimp only
  unfold withLane
  split
  · exact .error
  · exact h.fetchStrat

theorem State.Canon.storeStrat {u v : StratRun} {q : StratAsk} {h' : List Piece × List Nat} {bs : List Byte}
    (h : s.Canon) : Gives State.Canon (s.storeStrat u v q h' bs) := by
  unfold State.storeStrat
  split
  · exact .ok h.dropAnswers.flyStrat
  · exact .ok h.putStrat.post
  · exact .error

theorem kept_execOstore {c : BitVec 3} {o : BitVec 12} (h : s.Canon) : Kept (execOstore c o s) :=
  h.takeStrat fun _ => .step fun _ => .step fun _ => h.storeStrat

theorem kept_execScore {t : BitVec 3} (h : s.Canon) : Kept (execScore t s) :=
  h.takeStrat fun _ => .step fun _ => .step fun _ => .ite (.ok h.setMyCluster.stepStrat) (.ok h.putStrat)

theorem kept_execMaxupd (h : s.Canon) : Kept (execMaxupd s) := h.takeStrat fun _ => .step fun _ => .ok h.stepStrat

theorem kept_execRescale (h : s.Canon) : Kept (execRescale s) := h.takeStrat fun _ => .step fun _ => .ok h.stepStrat

theorem kept_execExpq (h : s.Canon) : Kept (execExpq s) := h.takeStrat fun _ => .step fun _ => .ok h.stepStrat

theorem kept_execPvacc {t : BitVec 3} (h : s.Canon) : Kept (execPvacc t s) :=
  h.takeStrat fun _ => .step fun _ => .step fun _ => .ok h.stepStrat

theorem kept_execLoop {t : BitVec 10} {l : BitVec 2} (h : s.Canon) : Kept (execLoop t l s) :=
  h.takeStrat fun _ => .ok (.ite h.retireStrat h.stepStrat)

theorem kept_execBrcnt {t : BitVec 10} (h : s.Canon) : Kept (execBrcnt t s) :=
  h.takeStrat fun _ => .ok (.ite h.retireStrat h.stepStrat)

theorem kept_execWait (h : s.Canon) : Kept (execWait s) := h.takeStrat fun _ => .step fun _ => .ok h.perform.stepStrat

theorem State.Canon.unmarkStrat {u : StratRun} (h : s.Canon) : (s.unmarkStrat u).Canon :=
  .ite (h.foldl fun _ _ h1 => h1.unmarkPending) h

theorem kept_execDone (h : s.Canon) : Kept (execDone s) :=
  h.takeStrat fun _ => .step fun _ => .ok h.perform.stepStrat.setMyCluster.unmarkStrat

theorem State.Canon.landWord {u : StratRun} {idx : Nat} {f : StratFlight} (h : s.Canon) :
    (s.landWord u idx f).Canon :=
  h.landStrat.setMyCluster

theorem State.Canon.refetch {u : StratRun} {idx : Nat} {f : StratFlight} (h : s.Canon) :
    Gives State.Canon (s.refetch u idx f) := by
  refine .step fun _ => ?_
  dsimp only
  split
  · exact .ok h.dropAnswers.putStrat
  · exact .ok h.putStrat.post
  · exact .error

theorem State.Canon.reissue {u : StratRun} {idx : Nat} {f : StratFlight} (h : s.Canon) :
    Kept (s.reissue u idx f) := by
  refine State.Canon.runWord ?_ h.refetch
  split
  · exact h.putStrat
  · exact h

theorem State.Canon.landIf {store : Bool} {idx : Nat} (h : s.Canon) : (s.landIf store idx).Canon := by
  unfold State.landIf
  split
  · exact h
  · split
    · exact h
    · exact .ite h h.landWord

theorem kept_execStratusFetchComplete {idx : Nat} (h : s.Canon) : Kept (execStratusFetchComplete idx s) := by
  unfold execStratusFetchComplete
  split
  · exact .next h
  · split
    · exact .next h
    · exact .ite (.ite (.next h) h.reissue) (.next h.landIf)

theorem State.Canon.loadStore {p image : Nat} (h : s.Canon) : (s.loadStore p image).Canon := by
  unfold State.loadStore
  split
  · exact .ite h h.setMyCluster
  · exact h.setMyCluster

theorem State.Canon.acceptResumed {u : StratRun} {rest : List StratRun} (h : s.Canon) :
    (s.acceptResumed u rest).Canon :=
  h.setMyCluster.loadStore

theorem State.Canon.acceptOffer {core : Nat} {b : StratBlock} (h : s.Canon) : (s.acceptOffer core b).Canon :=
  .ite (h.setCore.noWait.setMyCluster.loadStore.foldl fun _ _ h1 => h1.markPending)
    h.setCore.noWait.setMyCluster.loadStore

theorem State.Canon.checkAccepted {core : Nat} (h : s.Canon) : (s.checkAccepted core).Canon := by
  unfold State.checkAccepted
  split
  · exact h
  · split
    · exact h.holdTrap
    · exact h
    · exact h.setMyCluster

theorem kept_execStratusBlockAccept (h : s.Canon) : Kept (execStratusBlockAccept s) := by
  refine .next (.ite h ?_)
  split
  · exact h.acceptResumed
  · split
    · exact h
    · split
      · exact h
      · exact h.acceptOffer.checkAccepted

/-! ### The transfer engine -/

theorem State.Canon.markCopies {core : Nat} {p : Probe} {j n : Nat} (h : s.Canon) :
    (s.markCopies core p j n).Canon := by
  induction n generalizing s j with
  | zero => exact h
  | succ n ih => exact ih h.markPending

theorem State.Canon.issueXfer {sel : BitVec 4} {o : BitVec 20} (h : s.Canon) :
    Gives State.Canon (s.issueXfer sel o) :=
  .ite (.ok h.advance) (.step fun _ => .step fun _ => .step fun _ => .ok
    (.advance (.ite (h.setEng.foldl fun _ _ h1 => h1.markCopies) h.setEng)))

theorem State.Canon.takeXfer {f : XferBlock → CoreEng → CoreEng} (h : s.Canon) : Kept (s.takeXfer f) := by
  refine .next ?_
  split
  · exact h
  · exact h.setEng

theorem State.Canon.stepXfer {i : Instr} (h : s.Canon) : Kept (s.stepXfer i) := h.takeXfer

theorem State.Canon.stepLevel {i : Instr} (h : s.Canon) : Kept (s.stepLevel i) := by
  unfold State.stepLevel
  split
  · exact .next h
  · split
    · exact h.runWord .error
    · exact h.stepXfer

theorem State.Canon.copyOnce {core i : Nat} {m : Emit} (h : s.Canon) : Gives State.Canon (s.copyOnce core i m) :=
  .step fun _ => .step fun _ => .step fun _ => .step fun _ => .step fun _ => .step fun _ => .step fun _ => .step
    fun _ => .step fun _ => .step fun _ => .ok h.dropAnswers.engineStore.setCore

theorem State.Canon.reprobe {core i : Nat} {m : Emit} (h : s.Canon) : Gives State.Canon (s.reprobe core i m) :=
  .step fun _ => .ok h.setCore

theorem State.Canon.failEmit {core i : Nat} {m : Emit} {trapped : Bool} (h : s.Canon) :
    (s.failEmit core i m trapped).Canon :=
  h.setCore

theorem State.Canon.tryCopy {core : Nat} {m : Emit} (h : s.Canon) : Gives State.Canon (s.tryCopy core m) :=
  .ite h.reprobe h.copyOnce

/-- Copies that overtake others go one by one. -/
theorem State.Canon.raceFrom {t : State} {core block word later fuel ch : Nat} (h : s.Canon)
    (e : s.raceFrom core block word later fuel ch = some t) : t.Canon := by
  induction fuel generalizing s ch with
  | zero => nomatch e
  | succ fuel ih =>
    unfold State.raceFrom at e
    dsimp only at e
    split at e
    · cases e; exact h
    · split at e
      · cases e; exact h
      · split at e
        · nomatch e
        · rename_i hc
          exact ih (h.copyOnce.of_ok hc) e

theorem State.Canon.overtake {core : Nat} {es : List Emit} {ch : Nat} (h : s.Canon) :
    (s.overtake core es ch).Canon := by
  unfold State.overtake
  split
  · exact h
  · refine .ite h ?_
    cases e : s.raceFrom core _ _ _ _ ch with
    | none => exact h
    | some t => exact h.raceFrom e

theorem kept_execTransferCopy {ch : BitVec 4} (h : s.Canon) : Kept (execTransferCopy ch s) := by
  unfold execTransferCopy
  dsimp only
  split
  · exact .next h
  · refine .ite (.next h) (.ite (.next h.overtake) ?_)
    split
    · exact h.failEmit.runWord .error
    · exact h.failEmit.runWord .error
    · exact h.runWord h.tryCopy

/-! ### Binding of regions -/

theorem State.Canon.checkRegion {r : Running} {x : RegionRun} {fmt : Nat} (h : s.Canon) :
    (s.checkRegion r x fmt).1.Canon := by
  unfold State.checkRegion
  split
  · exact h
  · exact h.putFit

theorem State.Canon.startRegion {b : Block} {rest : List Block} {x : RegionRun} (h : s.Canon) :
    (s.startRegion b rest x).Canon := by
  unfold State.startRegion
  split
  · exact h
  · exact h.checkRegion.setMe

/-! ### The vector engine -/

theorem State.Canon.takeVec {sel : BitVec 4} {f : Block → List Block → Chk State} (h : s.Canon)
    (hf : ∀ b b1, Gives State.Canon (f b b1)) : Kept (s.takeVec sel f) := by
  unfold State.takeVec
  split
  · exact .next h
  · dsimp only
    split
    · exact .ite (h.runWord (hf _ _)) (.next h.setMe)
    · exact .ite (.next h) (.ite (.next (.ite h.startRegion h)) (.ite (h.runWord (hf _ _)) (.next h.setMe)))

theorem State.Canon.runVec {sel : BitVec 4} {op : VOp} (h : s.Canon) : Kept (s.runVec sel op) := by
  refine h.takeVec (fun b b1 => ?_)
  split
  · exact .error
  · exact .ok h.setMe

theorem kept_execVshape {a : BitVec 6} {sel : BitVec 4} {x : BitVec 1} (h : s.Canon) : Kept (execVshape a sel x s) :=
  h.takeVec (fun _ _ => .step fun _ => .step fun _ => .ok h.setMe)

theorem kept_execVectorWordCompletion {idx : Nat} (h : s.Canon) : Kept (execVectorWordCompletion idx s) := by
  refine .next ?_
  split
  · exact h
  · exact .ite h h.setMe

theorem kept_execLoadQueueFill (h : s.Canon) : Kept (execLoadQueueFill s) := by
  refine .next ?_
  split
  · exact h
  · exact h.setMe

/-! ### Words that are given up -/

theorem State.Canon.fillPieces {ps : List Piece} (h : s.Canon) : (s.fillPieces ps).Canon := h.same rfl

theorem State.Canon.abandonVec {core : Nat} (h : s.Canon) : (s.abandonVec core).Canon := h.setCore

theorem State.Canon.abandonAccrd {core : Nat} {b : Block} {a c : BitVec 4} {o : Nat} (h : s.Canon) :
    (s.abandonAccrd core b a c o).Canon := by
  unfold State.abandonAccrd
  dsimp only
  split
  · exact h.clearMarks.fillPieces
  · exact h.clearMarks

theorem State.Canon.abandonMatBlock {core : Nat} {b : Block} (h : s.Canon) : (s.abandonMatBlock core b).Canon := by
  refine h.foldl fun t a h1 => ?_
  split
  · exact .ite h1.abandonAccrd h1.clearMarks
  · exact h1

theorem State.Canon.abandonMat {core : Nat} (h : s.Canon) : (s.abandonMat core).Canon :=
  ((h.foldl fun _ _ h1 => h1.abandonMatBlock).setCore).endClaim

theorem State.Canon.abandonCopies {core block : Nat} {p : Probe} {marked : Bool} {j n : Nat} (h : s.Canon) :
    (s.abandonCopies core block p marked j n).Canon := by
  induction n generalizing s j with
  | zero => exact h
  | succ n ih =>
    refine ih (State.Canon.clearMarks ?_)
    split
    · exact h.fillPieces
    · exact h

theorem State.Canon.abandonEmit {core : Nat} {m : Emit} (h : s.Canon) : (s.abandonEmit core m).Canon :=
  h.abandonCopies

theorem State.Canon.abandonXferBlock {core : Nat} {b : XferBlock} (h : s.Canon) :
    (s.abandonXferBlock core b).Canon := by
  unfold State.abandonXferBlock
  split
  · exact h.foldl fun _ _ h1 => h1.abandonCopies
  · exact h

theorem State.Canon.abandonXfer {core : Nat} (h : s.Canon) : (s.abandonXfer core).Canon :=
  ((h.foldl fun _ _ h1 => h1.abandonEmit).foldl fun _ _ h1 => h1.abandonXferBlock).setCore

theorem State.Canon.abandonStrat {core : Nat} (h : s.Canon) : (s.abandonStrat core).Canon := by
  unfold State.abandonStrat
  dsimp only
  split
  · exact h
  · exact h.setCluster.unmarkStrat

theorem State.Canon.abandon {core e : Nat} (h : s.Canon) : (s.abandon core e).Canon := by
  unfold State.abandon
  split
  · exact h.abandonVec
  · exact h.abandonMat
  · exact h.abandonXfer
  · exact h.abandonStrat
  · exact h

theorem State.Canon.resumeEngine {core e : Nat} (h : s.Canon) : (s.resumeEngine core e).Canon := h.setCore

theorem State.Canon.engineReturn {core : Nat} (h : s.Canon) : (s.engineReturn core).Canon := by
  unfold State.engineReturn
  dsimp only
  split
  · exact h
  · exact .setCore (.resumeEngine (.ite h.abandon h))

theorem kept_execEret (h : s.Canon) : Kept (execEret s) := h.runSeq (.ite .error (.ok h.setSys.goto.engineReturn))

theorem State.Canon.deliver {core : Nat} (h : s.Canon) : (s.deliver core).Canon := by
  unfold State.deliver
  dsimp only
  split
  · exact h
  · exact .ite h (.ite h.setCore.trapEntry.setCore h.setCore.trapEntry)

theorem State.Canon.raiseAt {e : EngineId} {t : Trap} {info : Word64} (h : s.Canon) : Kept (s.raiseAt e t info) := by
  unfold State.raiseAt
  split
  · exact h.runSeq .error
  · exact h.takeVec (fun _ _ => .error)
  · exact h.takeMat (fun _ => .error) (fun _ => h)
  · split
    · exact h.runWord .error
    · exact .next h
  · exact h.takeStrat fun _ => .error

theorem kept_execNotAnInstruction {e : EngineId} (h : s.Canon) : Kept (execNotAnInstruction e s) := by
  unfold execNotAnInstruction
  split
  · exact .next h
  · exact .ite h.raiseAt (.ite (.next h) h.raiseAt)

/-! ### Admission of images -/

theorem State.Canon.extendMeas {c : Fin 2} {i : Nat} {bs : List Byte} (h : s.Canon) : (s.extendMeas c i bs).Canon :=
  h.same rfl

theorem kept_execImageAdmission {base slot : Nat} (h : s.Canon) : Kept (execImageAdmission base slot s) :=
  .next (.ite h (.ite h.modPart.extendMeas.poke h.poke))

/-! ### Banks and poison -/

theorem State.Canon.staleBank {k b : Nat} (h : s.Canon) : (s.staleBank k b).Canon := h.same rfl

theorem kept_execBankSwitchComplete {bank : BitVec 4} (h : s.Canon) : Kept (execBankSwitchComplete bank s) := by
  refine .next ?_
  split
  · exact h
  · exact .ite h (.staleBank (.setCluster (Mem.wf_wipe _ _ h)))

/-! ### Capabilities -/

theorem kept_execCderive {d a : BitVec 4} {b : BitVec 5} (h : s.Canon) : Kept (execCderive d a b s) :=
  h.runSeq (.step fun _ => .step fun _ => .ok h.writeC)

theorem kept_execCandperm {d a : BitVec 4} {b : BitVec 5} (h : s.Canon) : Kept (execCandperm d a b s) := by
  refine h.runSeq ?_
  split
  · exact .error
  · exact .ok h.writeC

theorem kept_execCincr {d a : BitVec 4} {b : BitVec 5} (h : s.Canon) : Kept (execCincr d a b s) := by
  refine h.runSeq ?_
  split
  · exact .error
  · exact .ok h.writeC

theorem kept_execCsetcur {d a : BitVec 4} {b : BitVec 5} (h : s.Canon) : Kept (execCsetcur d a b s) := by
  refine h.runSeq ?_
  split
  · exact .error
  · exact .ok h.writeC

theorem kept_execCseal {d a b : BitVec 4} (h : s.Canon) : Kept (execCseal d a b s) := by
  refine h.runSeq ?_
  split
  · exact .error
  · exact .ok h.writeC

theorem kept_execCunseal {d a b : BitVec 4} (h : s.Canon) : Kept (execCunseal d a b s) := by
  refine h.runSeq ?_
  split
  · exact .error
  · exact .ok h.writeC

/-! ### Loads and stores -/

theorem kept_execLds {d : BitVec 5} {a : BitVec 4} {z : BitVec 3} {f : BitVec 2} {k : BitVec 11} (h : s.Canon) :
    Kept (execLds d a z f k s) := by
  refine h.runSeq ?_
  split
  · exact .error
  · rename_i e
    exact .ok (h.loadBytes.of_ok e).writeG

theorem kept_execSts {g : BitVec 5} {a : BitVec 4} {z f : BitVec 2} {k : BitVec 11} (h : s.Canon) :
    Kept (execSts g a z f k s) :=
  h.runSeq (.step fun _ => .step fun _ => .bind h.storeBytes fun _ h1 => .ok h1.advance)

theorem kept_execLdc {d a : BitVec 4} {f : BitVec 2} {k : BitVec 11} (h : s.Canon) : Kept (execLdc d a f k s) :=
  h.runSeq (.bind h.loadBytes fun _ h1 => .step fun _ => .ok h1.writeC)

theorem State.Canon.putCap {q : Nat} {ps : List Piece} {v : Cap} (h : s.Canon) :
    Gives State.Canon (s.putCap q ps v) := by
  unfold State.putCap
  split
  · exact .step fun _ => .ok h.dropAnswers
  · exact .ok (h.clearSyncs.dropAnswers.putLast.same rfl)
  · exact .ok h

theorem kept_execStc {sel a : BitVec 4} {f : BitVec 2} {k : BitVec 11} (h : s.Canon) : Kept (execStc sel a f k s) :=
  h.runSeq (.step fun _ => .step fun _ => .bind h.putCap fun _ h1 => .ok h1.advance)

theorem State.Canon.startLoad {q : Nat} {v : Vec} (h : s.Canon) : (s.startLoad q v).Canon := h.setMe

theorem State.Canon.loadVec {q : Nat} {c : Cap} {x : ℤ} {f : Nat} (h : s.Canon) :
    Gives State.Canon (s.loadVec q c x f) := by
  refine .step fun _ => .step fun _ => ?_
  split
  · refine .step fun _ => .step fun _ => .step fun _ => ?_
    split
    · exact .error
    · exact .ok h.setCluster.startLoad
  · exact .step fun _ => .step fun _ => .step fun _ => .step fun _ => .step fun _ => .step fun _ => .step fun _ => .ok
      h.afterRead.startLoad

theorem kept_execLdq {q : BitVec 2} {a : BitVec 4} {b : BitVec 5} {f : BitVec 2} (h : s.Canon) :
    Kept (execLdq q a b f s) := by
  refine h.runSeq ?_
  split
  · exact .error
  · rename_i e
    exact .ok (h.loadVec.of_ok e).advance

theorem State.Canon.popStore {q : Nat} (h : s.Canon) : (s.popStore q).Canon := h.setMe

theorem State.Canon.storeVec {q : Nat} {c : Cap} {x : ℤ} {f : Nat} (h : s.Canon) :
    Gives State.Canon (s.storeVec q c x f) := by
  refine .step fun _ => .step fun _ => ?_
  split
  · exact .step fun _ => .step fun _ => .step fun _ => .ok h.setCluster.popStore
  · exact .step fun _ => .step fun _ => .step fun _ => .step fun _ => .step fun _ => .bind h.storeBytes fun _ h1 =>
      .ok h1.popStore

theorem kept_execStq {q : BitVec 2} {a : BitVec 4} {b : BitVec 5} {f : BitVec 2} (h : s.Canon) :
    Kept (execStq q a b f s) := by
  refine h.runSeq ?_
  split
  · exact .error
  · rename_i e
    exact .ok (h.storeVec.of_ok e).advance

theorem State.Canon.popIndex {m : Nat} (h : s.Canon) : (s.popIndex m).Canon := h.setMe

theorem State.Canon.gather {q : Nat} {c : Cap} {m size : Nat} (h : s.Canon) :
    Gives State.Canon (s.gather q c m size) :=
  .step fun _ => .step fun _ => .step fun _ => .step fun _ => .step fun _ => .step fun _ => .ok
    h.clearSyncs.dropAnswers.popIndex.startLoad

theorem kept_execGather {q : BitVec 2} {a : BitVec 4} {m : BitVec 1} {z : BitVec 2} (h : s.Canon) :
    Kept (execGather q a m z s) := by
  refine h.runSeq ?_
  split
  · exact .error
  · rename_i e
    exact .ok (h.gather.of_ok e).advance

theorem State.Canon.scatterLanes {size : Nat} {l : List (List Piece)} {bs : List Byte} (h : s.Canon) :
    (s.scatterLanes size l bs).Canon := by
  induction l generalizing s bs with
  | nil => exact h
  | cons ps l ih => exact ih h.putPieces

theorem State.Canon.scatter {q : Nat} {c : Cap} {m size : Nat} (h : s.Canon) :
    Gives State.Canon (s.scatter q c m size) :=
  .step fun _ => .step fun _ => .step fun _ => .step fun _ => .step fun _ => .ok
    h.clearSyncs.dropAnswers.popIndex.popStore.scatterLanes

theorem kept_execScatter {q : BitVec 2} {a : BitVec 4} {m : BitVec 1} {z : BitVec 2} (h : s.Canon) :
    Kept (execScatter q a m z s) := by
  refine h.runSeq ?_
  split
  · exact .error
  · rename_i e
    exact .ok (h.scatter.of_ok e).advance

theorem State.Canon.watch {x : Nat} (h : s.Canon) : (s.watch x).Canon := h.setMe

theorem State.Canon.demote {system : Bool} (h : s.Canon) : (s.demote system).Canon := .ite h.setMe h

theorem State.Canon.amo {f : AmoFn} {c : Cap} {n : Nat} {y cmp : Word64} {scope : Nat} (h : s.Canon) :
    Gives (fun p => p.2.Canon) (s.amo f c n y cmp scope) := by
  refine .step fun _ => ?_
  split
  · exact .step fun _ => .ok h.dropAnswers.watch.demote
  · exact .step fun _ => .ok h.clearSyncs.dropAnswers.putLast.watch.demote
  · exact .ok h

theorem State.Canon.runAmo {f : AmoFn} {d : BitVec 5} {a : BitVec 4} {b : BitVec 5} {w : BitVec 1}
    {scope : BitVec 3} (h : s.Canon) : Kept (s.runAmo f d a b w scope) := by
  refine h.runSeq ?_
  split
  · exact .error
  · rename_i e
    exact .ok (h.amo.of_ok e).writeG

/-! ### Sync objects, revocation, atomics -/

theorem State.Canon.putSync {loc : Nat} {o : SyncObj} (h : s.Canon) : (s.putSync loc o).Canon :=
  .drew (.wake (Mem.wf_poke _ _ h.modPart))

theorem State.Canon.syncInit {c : Cap} (h : s.Canon) : Gives State.Canon (s.syncInit c) := by
  refine .step fun _ => .step fun _ => ?_
  split
  · exact .ok h.putSync
  · exact .step fun _ => .ok h.putSync

theorem kept_execSyncinit {a : BitVec 4} (h : s.Canon) : Kept (execSyncinit a s) := by
  refine h.runSeq ?_
  split
  · exact .error
  · rename_i e
    exact .ok (h.syncInit.of_ok e).advance

theorem State.Canon.acquire {exclusive : Bool} {c : Cap} (h : s.Canon) : Gives State.Canon (s.acquire exclusive c) :=
  .step fun _ => .step fun _ => .step fun _ => .step fun _ => .step fun _ => .ite (.ok h.putSync.demote.advance)
    (.step fun _ => h.putSync.demote.suspendAs)

theorem State.Canon.doRelease {l : Nat} (h : s.Canon) : (s.doRelease l).Canon := by
  unfold State.doRelease
  dsimp only
  split
  · exact h.releaseSync.putSync.demote
  · exact h.releaseSync

theorem State.Canon.release {c : Cap} (h : s.Canon) : Gives State.Canon (s.release c) :=
  .step fun _ => .step fun _ => .step fun _ => .step fun _ => .step fun _ => .ok h.perform.doRelease

theorem kept_execRel {a : BitVec 4} (h : s.Canon) : Kept (execRel a s) := by
  refine h.runSeq ?_
  split
  · exact .error
  · rename_i e
    exact .ok (h.release.of_ok e).advance

theorem State.Canon.bindRegion {ca cb : Cap} (h : s.Canon) : Gives State.Canon (s.bindRegion ca cb) :=
  .step fun _ => .step fun _ => .step fun _ => .ok h.putSync

theorem kept_execBind {a b : BitVec 4} (h : s.Canon) : Kept (execBind a b s) := by
  refine h.runSeq ?_
  split
  · exact .error
  · rename_i e
    exact .ok (h.bindRegion.of_ok e).advance

theorem State.Canon.unbindRegion {ca cb : Cap} (h : s.Canon) : Gives State.Canon (s.unbindRegion ca cb) :=
  .step fun _ => .step fun _ => .ok h.putSync

theorem kept_execUnbind {a b : BitVec 4} (h : s.Canon) : Kept (execUnbind a b s) := by
  refine h.runSeq ?_
  split
  · exact .error
  · rename_i e
    exact .ok (h.unbindRegion.of_ok e).advance

theorem State.Canon.moveFlights {p : Nat} {f : Nat → Nat} (h : s.Canon) : (s.moveFlights p f).Canon := h.same rfl

theorem State.Canon.swapPairs {p : Nat} {ps : List (Nat × Nat)} (h : s.Canon) : (s.swapPairs p ps).Canon :=
  h.modPart.moveFlights

theorem State.Canon.publish {ca cb : Cap} (h : s.Canon) : Gives State.Canon (s.publish ca cb) := by
  refine .step fun _ => .step fun _ => .step fun _ => .step fun _ => .step fun _ => .step fun _ => ?_
  split
  · exact .error
  · exact .step fun _ => .ok h.perform.swapPairs.doRelease

theorem kept_execPublish {a b : BitVec 4} (h : s.Canon) : Kept (execPublish a b s) := by
  refine h.runSeq ?_
  split
  · exact .error
  · rename_i e
    exact .ok (h.publish.of_ok e).advance

theorem kept_execFence {sel : BitVec 3} (h : s.Canon) : Kept (execFence sel s) :=
  h.runSeq (.ite (.ok h.perform.demote.advance) .error)

theorem kept_execDrain {c : BitVec 4} (h : s.Canon) : Kept (execDrain c s) :=
  h.runSeq (.step fun _ => .step fun _ => .ok h.perform.advance)

theorem State.Canon.tellHolders {gs : List (Nat × Nat)} (h : s.Canon) : (s.tellHolders gs).Canon :=
  h.foldl fun _ _ h1 => h1.same rfl

theorem State.Canon.purge {p : Nat} (h : s.Canon) : (s.purge p).Canon := h.same rfl

theorem State.Canon.revoke {c : Cap} (h : s.Canon) : Gives State.Canon (s.revoke c) :=
  .step fun _ => .step fun _ => .step fun _ => .step fun _ => .step fun _ => .step fun _ => .ok
    h.modPart.tellHolders.purge

theorem kept_execRevoke {a : BitVec 4} (h : s.Canon) : Kept (execRevoke a s) := by
  refine h.runSeq ?_
  split
  · exact .error
  · rename_i e
    exact .ok (h.revoke.of_ok e).advance

theorem kept_execRevokeSweepComplete {idx : Nat} (h : s.Canon) : Kept (execRevokeSweepComplete idx s) := by
  refine .next ?_
  split
  · exact h
  · exact .modPart (h.same rfl)

/-! ### Channels -/

theorem State.Canon.acquireStage {r stage : Nat} (h : s.Canon) : Gives State.Canon (s.acquireStage r stage) :=
  .step fun _ => .step fun _ => .step fun _ => .ok h.setMyCluster

theorem kept_execAcqst {r : BitVec 3} {sel : BitVec 4} (h : s.Canon) : Kept (execAcqst r sel s) := by
  refine h.runSeq ?_
  split
  · exact .error
  · rename_i e
    exact .ok (h.acquireStage.of_ok e).advance

theorem State.Canon.releaseStage {r stage : Nat} (h : s.Canon) : Gives State.Canon (s.releaseStage r stage) :=
  .step fun _ => .step fun _ => .step fun _ => .step fun _ => .ok h.releaseOlder.setMyCluster

theorem kept_execRelst {r : BitVec 3} {sel : BitVec 4} (h : s.Canon) : Kept (execRelst r sel s) := by
  refine h.runSeq ?_
  split
  · exact .error
  · rename_i e
    exact .ok (h.releaseStage.of_ok e).advance

theorem State.Canon.setChan {n : Nat} {c : Channel} (h : s.Canon) : (s.setChan n c).Canon := h.modPart

theorem State.Canon.permitInit {ch p : Nat} (h : s.Canon) : Gives State.Canon (s.permitInit ch p) :=
  .ite (.step fun _ => .ok h.setChan) (.ok h)

theorem kept_execPmtinit {p c : BitVec 4} (h : s.Canon) : Kept (execPmtinit p c s) := by
  refine h.runSeq ?_
  split
  · exact .error
  · rename_i e
    exact .ok (h.permitInit.of_ok e).advance

theorem State.Canon.sendBuffer {ch : Nat} {c : Cap} (h : s.Canon) : Gives State.Canon (s.sendBuffer ch c) :=
  .step fun _ => .step fun _ => .step fun _ => .step fun _ => .step fun _ => .step fun _ => .ok h.releaseOlder.setChan

theorem kept_execMbsend {a c : BitVec 4} (h : s.Canon) : Kept (execMbsend a c s) := by
  refine h.runSeq ?_
  split
  · exact .error
  · rename_i e
    exact .ok (h.sendBuffer.of_ok e).advance

theorem State.Canon.receiveBuffer {ch : Nat} (h : s.Canon) : Gives (fun p => p.2.Canon) (s.receiveBuffer ch) := by
  refine .step fun _ => .step fun _ => ?_
  split
  · exact .error
  · exact .step fun _ => .ok h.setChan

theorem kept_execMbrecv {d c : BitVec 4} (h : s.Canon) : Kept (execMbrecv d c s) := by
  refine h.runSeq ?_
  split
  · exact .error
  · rename_i e
    exact .ok (h.receiveBuffer.of_ok e).writeC

theorem State.Canon.givePermit {ch : Nat} (h : s.Canon) : Gives State.Canon (s.givePermit ch) :=
  .step fun _ => .step fun _ => .step fun _ => .step fun _ => .ok h.releaseOlder.setChan

theorem kept_execPmtgive {c : BitVec 4} (h : s.Canon) : Kept (execPmtgive c s) := by
  refine h.runSeq ?_
  split
  · exact .error
  · rename_i e
    exact .ok (h.givePermit.of_ok e).advance

/-! ### Pickup and frames -/

theorem State.Canon.failRecord {p a : Nat} {t : Trap} {info : Word64} {word pc : Nat} (h : s.Canon) :
    (s.failRecord p a t info word pc).Canon := by
  unfold State.failRecord
  exact h.setRecState.guestFault.leaveGroups.endUnit

theorem State.Canon.wipeRecord {p a : Nat} (h : s.Canon) : (s.wipeRecord p a).Canon := by
  unfold State.wipeRecord
  exact h.setRecState.leaveGroups.endUnit

theorem State.Canon.clearL1 {core : Nat} (h : s.Canon) : (s.clearL1 core).Canon := State.wf_clearL1 core h

theorem State.Canon.restoreL1 {core : Nat} {y : Party} {x : Saved} (h : s.Canon) : (s.restoreL1 core y x).Canon :=
  State.wf_restoreL1 core y x h

theorem State.Canon.resumeStrat {core : Nat} {y : Party} {x : Saved} (h : s.Canon) :
    (s.resumeStrat core y x).Canon := by
  unfold State.resumeStrat
  split
  · exact h
  · exact h.setCluster

theorem State.Canon.restore {core : Nat} {r : Running} {i : Nat} {x : Saved} (h : s.Canon) :
    (s.restore core r i x).Canon :=
  .ite h.restoreL1.setCore.resumeStrat.modPart h.restoreL1.setCore.resumeStrat.modPart.setCluster

theorem State.Canon.raiseOwed {core : Nat} {r : Running} {code : Nat} (h : s.Canon) :
    (s.raiseOwed core r code).Canon := by
  refine .ite h ?_
  dsimp only
  split
  · exact .ite h.setCtl.modPart.endFaulted h.setCtl.modPart.trapEntry
  · exact h.setCtl.modPart

theorem State.Canon.markRunning {r : Running} (h : s.Canon) : (s.markRunning r).Canon := h.setCtl

theorem State.Canon.finishWaitSeq {core : Nat} {r : Running} (h : s.Canon) : (s.finishWaitSeq core r).Canon := by
  unfold State.finishWaitSeq
  split
  · exact h
  · exact h.modPart.setCore

theorem State.Canon.takeUp {core p a : Nat} (h : s.Canon) : (s.takeUp core p a).Canon := by
  refine .ite h.wipeRecord (.ite h.failRecord
    (.ite h.failRecord (.ite ?_ h.clearL1.setCore.markRunning.finishWaitSeq.raiseOwed)))
  dsimp only
  split
  · exact h.failRecord
  · exact .ite h.restore.markRunning.raiseOwed h.failRecord

theorem State.Canon.clearCore {core : Nat} (h : s.Canon) : (s.clearCore core).Canon := h.clearL1.setCore.noWaits

theorem State.Canon.edgeCore {core : Nat} (h : s.Canon) : (s.edgeCore core).Canon := h.forceSuspend.clearCore

theorem State.Canon.crossEdge {k : Nat} (h : s.Canon) : (s.crossEdge k).Canon :=
  h.setCluster.foldl fun _ _ h1 => h1.edgeCore

/-! ### Cumulus -/

theorem State.Canon.modCumulus {k : Nat} {f : Cumulus → Cumulus} (h : s.Canon) : (s.modCumulus k f).Canon :=
  h.setCluster

theorem State.Canon.resumeWith {p a g1 g2 : Nat} (h : s.Canon) : (s.resumeWith p a g1 g2).Canon :=
  .ite h h.setRecBytes.makeRunnable

theorem State.Canon.admitTask {k : Nat} {x : Submit} {t : CumTask} (h : s.Canon) : (s.admitTask k x t).Canon :=
  h.modPart.modCumulus.resumeWith

theorem State.Canon.admission {k : Nat} {x : Submit} {l key : Nat} (h : s.Canon) : (s.admission k x l key).Canon := by
  unfold State.admission
  split
  · exact h.oweMemerr.makeRunnable
  · exact .ite h.admitTask h.resumeWith

theorem State.Canon.dropSubmit {k idx : Nat} (h : s.Canon) : (s.dropSubmit k idx).Canon := h.modCumulus

theorem State.Canon.remoteAdmission {k idx : Nat} {x : Submit} (h : s.Canon) : (s.remoteAdmission k idx x).Canon := by
  unfold State.remoteAdmission
  dsimp only
  split
  · exact h.post
  · exact h.dropAnswers.dropSubmit.oweMemerr.makeRunnable
  · exact h
  · split
    · exact h.post
    · exact h
    · exact .ite h.dropAnswers.dropSubmit.admitTask h.dropAnswers.dropSubmit.resumeWith

theorem State.Canon.noteAct {k who : Nat} (h : s.Canon) : (s.noteAct k who).Canon := h.modCumulus

theorem kept_execTaskAdmission {idx : Nat} (h : s.Canon) : Kept (execTaskAdmission idx s) := by
  refine .next ?_
  split
  · exact h
  · refine .ite h ?_
    split
    · split
      · exact h.post
      · exact h
      · exact h.noteAct.admission.dropSubmit.dropAnswers
    · exact h.noteAct.remoteAdmission

theorem kept_execPatienceExpiry {idx : Nat} (h : s.Canon) : Kept (execPatienceExpiry idx s) := by
  refine .next ?_
  split
  · exact h
  · exact .ite h.noteAct.modCumulus h

theorem State.Canon.finishTask {t : CumTask} (h : s.Canon) : (s.finishTask t).Canon := h.completeTask

theorem State.Canon.park {k slot : Nat} {t : CumTask} {w : ParkWhy} (h : s.Canon) : (s.park k slot t w).Canon :=
  .finishTask (.modCumulus (.ite (.zenithFault (h.same rfl)) h.modCumulus.reportFault.guestFault))

theorem State.Canon.dropFetch {core : Nat} (h : s.Canon) : (s.dropFetch core).Canon := h.same rfl

theorem State.Canon.parkAll {k : Nat} {w : ParkWhy} {j : Nat} {ms : List PassMember} (h : s.Canon) :
    (s.parkAll k w j ms).1.Canon := by
  induction ms generalizing s j with
  | nil => exact h
  | cons m ms ih => exact ih (.ite h h.park)

theorem State.Canon.putPass {k i : Nat} {p : Pass} (h : s.Canon) : (s.putPass k i p).Canon := h.modCumulus

theorem State.Canon.fetchMember {k i : Nat} {p : Pass} {m : PassMember} {w : Weight} {c : ShapeClass} (h : s.Canon) :
    Gives State.Canon (s.fetchMember k i p m w c) := by
  unfold State.fetchMember
  dsimp only
  split
  · exact .ok h.dropAnswers.modCumulus.noWait.putPass
  · exact .error
  · exact .error
  · exact .ok h.dropFetch.modCumulus.park.putPass

theorem State.Canon.fetchWeight {k i : Nat} {p : Pass} {w : Weight} {c : ShapeClass} (h : s.Canon) :
    (s.fetchWeight k i p w c).Canon := by
  unfold State.fetchWeight
  dsimp only
  split
  · exact .putPass (.modCumulus (h.same rfl))
  · exact .putPass (.parkAll (h.same rfl))

theorem State.Canon.passProducts {k i : Nat} {p : Pass} {w : Weight} {c : ShapeClass} (h : s.Canon) :
    (s.passProducts k i p w c).Canon :=
  h.putPass

theorem State.Canon.passWord {k i : Nat} {p : Pass} (h : s.Canon) : Gives State.Canon (s.passWord k i p) := by
  unfold State.passWord
  dsimp only
  split
  · split
    · exact h.fetchMember
    · exact .ok (.ite h.fetchWeight h.passProducts)
  · exact .ok h.parkAll.putPass

theorem State.Canon.passWords {k i n : Nat} (h : s.Canon) : (s.passWords k i n).Canon := by
  induction n generalizing s with
  | zero => exact h
  | succ n ih =>
    unfold State.passWords
    dsimp only
    split
    · exact h
    · split
      · rename_i t e
        have ht := h.passWord.of_ok e
        exact .ite ht.setCluster.setCluster (ih ht.setCluster)
      · exact h.post
      · split
        · exact h.queueUp
        · exact h
      · exact h

theorem kept_execRunPass (h : s.Canon) : Kept (execRunPass s) := by
  refine .next (.ite h ?_)
  split
  · exact h
  · exact h.passWords

theorem State.Canon.writeMember {k slot : Nat} {m : PassMember} {bs : List Byte} (h : s.Canon) :
    (s.writeMember k slot m bs).1.Canon := by
  unfold State.writeMember
  split
  · exact h.queueUp
  · exact h.post
  · exact h.dropFetch.park
  · dsimp only
    split
    · exact h.dropAnswers.putPieces.noWait
    · exact h.dropAnswers.putPieces.noWait.finishTask

theorem State.Canon.leaveEpi {core : Nat} {c : Core} (h : s.Canon) : (s.leaveEpi core c).Canon := h.clearL1.setCore

theorem State.Canon.runMember {k slot : Nat} {c : ShapeClass} {fmt : Nat} {m : PassMember} (h : s.Canon) :
    (s.runMember k slot c fmt m).1.Canon := by
  unfold State.runMember
  dsimp only
  split
  · split
    · exact h
    · exact h.finishTask
  · split
    · split
      · exact h.leaveEpi.park
      · split
        · exact h.leaveEpi.writeMember
        · exact h.leaveEpi
    · exact h.writeMember

theorem kept_execEpilogueRun (h : s.Canon) : Kept (execEpilogueRun s) := by
  refine .next ?_
  split
  · exact h
  · split
    · exact h
    · split
      · exact h
      · split
        · exact h
        · split
          · exact h
          · exact .ite h.runMember.putPass h

/-! ### The error log -/

theorem State.Canon.guestWrite {y : Party} {gpa : Nat} {bs : List Byte} (h : s.Canon) :
    Gives State.Canon (s.guestWrite y gpa bs) := by
  unfold State.guestWrite
  split
  · exact .error
  · exact .ok h.storeAt
  · exact .ok h.sendStore

theorem State.Canon.signal {v n : Nat} (h : s.Canon) : (s.signal v n).Canon := .ite h.setVf h.say

theorem State.Canon.errorRing {v : Nat} {y : Party} {r : List Byte} (h : s.Canon) : (s.errorRing v y r).Canon := by
  refine .ite h (.ite h.setVf ?_)
  split
  · exact h.setVf
  · rename_i e
    exact (h.guestWrite.of_ok e).setVf.signal

theorem State.Canon.tenantCopy {e : LogEntry} (h : s.Canon) : (s.tenantCopy e).Canon := by
  unfold State.tenantCopy
  split
  · exact h
  · exact .ite h h.modPart.errorRing

theorem State.Canon.logError {e : LogEntry} (h : s.Canon) : (s.logError e).Canon := by
  refine .ite (h.same rfl) (State.Canon.tenantCopy ?_)
  exact h.poke.same rfl

theorem State.Canon.refuseAccess {a : HostAccess} (h : s.Canon) : (s.refuseAccess a).Canon := h.say

/-! ### The host link -/

theorem State.Canon.setDirty {v base i : Nat} (h : s.Canon) : (s.setDirty v base i).Canon := h.poke

theorem State.Canon.markDirty {v x n : Nat} {q : Nat × Queue} (h : s.Canon) : (State.markDirty v x n s q).Canon :=
  h.foldl fun _ _ h1 => h1.setDirty

theorem State.Canon.dmaWrite {v x : Nat} {bs : List Byte} (h : s.Canon) : (s.dmaWrite v x bs).Canon :=
  (h.foldl fun _ _ h1 => h1.markDirty).poke

theorem State.Canon.modQueue {v q : Nat} {f : Queue → Queue} (h : s.Canon) : (s.modQueue v q f).Canon := h.setVf

theorem State.Canon.complete {v q : Nat} {c : List Byte} {value : Word64} {status extra : Nat} (h : s.Canon) :
    (s.complete v q c value status extra).Canon :=
  .ite h.dmaWrite h

theorem State.Canon.finishHead {v q : Nat} {c : List Byte} {value : Word64} {status extra : Nat} (h : s.Canon) :
    (s.finishHead v q c value status extra).Canon :=
  h.complete.modQueue

theorem State.Canon.failHead {v q : Nat} {c : List Byte} {status : Nat} (h : s.Canon) :
    (s.failHead v q c status).Canon :=
  h.complete.modQueue

theorem State.Canon.take {op : Nat} {f : Nat → Nat → Party → List Byte → State} (h : s.Canon)
    (hf : ∀ b b1 b2 b3, (f b b1 b2 b3).Canon) : (s.take op f).Canon := by
  refine .ite h (.ite h.finishHead (.ite h.finishHead (.ite h.failHead (.ite h ?_))))
  split
  · exact h.finishHead
  · exact hf _ _ _ _

theorem State.Canon.unlist {p a : Nat} (h : s.Canon) : (s.unlist p a).Canon := h.same rfl

theorem State.Canon.abortRecord {p a : Nat} (h : s.Canon) : (s.abortRecord p a).Canon := by
  unfold State.abortRecord
  split
  · exact h.endFaulted
  · exact .ite h (.ite h.unlist.endUnit h.unlist.setRecState.guestFault.leaveGroups.endUnit)

theorem State.Canon.abortLaunches {v : Nat} (h : s.Canon) : (s.abortLaunches v).Canon :=
  h.foldl fun _ _ h1 => h1.foldl fun _ _ h2 => h2.foldl fun _ _ h3 => h3.abortRecord

theorem State.Canon.markAborted {v : Nat} (h : s.Canon) : (s.markAborted v).Canon :=
  h.foldl fun _ _ h1 => h1.foldl fun _ _ h2 => h2.modPart

theorem State.Canon.withdraw {v : Nat} (h : s.Canon) : (s.withdraw v).Canon :=
  h.foldl fun _ _ h1 => .say (h1.same rfl)

theorem State.Canon.modQueues {v : Nat} {g : Queue → Queue} (h : s.Canon) : (s.modQueues v g).Canon := h.setVf

theorem State.Canon.abortHeadCopy {v q : Nat} (h : s.Canon) : (s.abortHeadCopy v q).Canon :=
  .ite h h.modQueue.finishHead

theorem State.Canon.resetVf {v : Nat} (h : s.Canon) : (s.resetVf v).Canon :=
  .setVf (.modQueues (h.abortLaunches.withdraw.same rfl))

theorem State.Canon.abortCommands {v : Nat} (h : s.Canon) : (s.abortCommands v).Canon :=
  (h.abortLaunches.markAborted.withdraw.foldl fun _ _ h1 => .ite h1.dmaWrite h1).foldl fun _ _ h1 => h1.abortHeadCopy

theorem State.Canon.retryAborts (h : s.Canon) : s.retryAborts.Canon := h.foldl fun _ _ h1 => .ite h1.abortLaunches h1

theorem kept_execPickup (h : s.Canon) : Kept (execPickup s) := by
  refine .next (.ite h ?_)
  split
  · exact h
  · refine .ite h ?_
    split
    · exact h
    · exact h.modPart.takeUp.retryAborts

/-! ### Commands of queues -/

theorem State.Canon.ringBell {v q : Nat} {x : BitVec 32} (h : s.Canon) : (s.ringBell v q x).Canon :=
  .ite h.say.logError h.modQueue

theorem State.Canon.refuseWrite {v off : Nat} {x : Word64} (h : s.Canon) : (s.refuseWrite v off x).Canon :=
  h.refuseAccess.logError

theorem State.Canon.doorbell {v q : Nat} {x : BitVec 32} (h : s.Canon) : (s.doorbell v q x).Canon :=
  .ite (h.same rfl) h.ringBell

theorem State.Canon.openGates (h : s.Canon) : s.openGates.Canon :=
  h.foldl fun _ _ h1 => .ite h1 (.ringBell (h1.same rfl))

theorem State.Canon.qctl {op : Nat} {f : Queue → Queue} (h : s.Canon) : (s.qctl op f).Canon :=
  .ite h.refuseWrite h.modQueue

theorem State.Canon.gateQueue {v q : Nat} (h : s.Canon) : (s.gateQueue v q).Canon := h.modQueue

theorem State.Canon.closeQueue {v q : Nat} (h : s.Canon) : (s.closeQueue v q).Canon := .modQueue (h.same rfl)

theorem kept_execQctlUnmap (h : s.Canon) : Kept (execQctlUnmap s) :=
  .next (.ite h.refuseWrite (.ite h.gateQueue.closeQueue h.gateQueue))

theorem State.Canon.tryWait (h : s.Canon) : s.tryWait.Canon := h.take (fun _ _ _ _ => .ite h h.finishHead)

theorem State.Canon.reclaim {p a : Nat} (h : s.Canon) : (s.reclaim p a).Canon := .modPart (h.releaseAllSyncs.same rfl)

theorem kept_execReclaim (h : s.Canon) : Kept (execReclaim s) := by
  refine .next (h.take (fun b b1 b2 b3 => ?_))
  split
  · exact h.finishHead
  · exact .ite h.reclaim.retryAborts.finishHead h.finishHead

theorem kept_execCollective (h : s.Canon) : Kept (execCollective s) := by
  refine .next (h.take (fun b b1 b2 b3 => .ite h.failHead ?_))
  split
  · exact h.finishHead
  · exact .modQueue (.say (h.same rfl))

theorem State.Canon.finishRank {r : Rank} {status extra : Nat} (h : s.Canon) : (s.finishRank r status extra).Canon :=
  .ite (.dmaWrite (h.same rfl)) (h.same rfl)

theorem State.Canon.writeRank {r : Rank} {bs : List Byte} (h : s.Canon) : (s.writeRank r bs).Canon := by
  unfold State.writeRank
  split
  · exact h.finishRank
  · split
    · exact h.finishRank
    · exact h.putPieces.finishRank

theorem kept_execCollectiveResult {ident : BitVec 64} {remote : List RemoteInput} (h : s.Canon) :
    Kept (execCollectiveResult ident remote s) := by
  unfold execCollectiveResult
  refine .next ?_
  split
  · refine .foldl ?_ fun _ _ ht => ht.finishRank
    exact h.same rfl
  · split
    · exact h
    · split
      · exact h.post
      · exact h.foldl fun _ _ ht => ht.finishRank
      · exact h
      · split
        · exact h
        · exact State.Canon.foldl (h.foldl fun _ _ ht => ht.dropAnswers) fun _ _ ht => ht.writeRank

theorem State.Canon.unitOut {v q : Nat} {c bs : List Byte} (h : s.Canon) : (s.unitOut v q c bs).Canon :=
  .ite h.dmaWrite.modQueue.finishHead h.dmaWrite.modQueue

theorem State.Canon.landIn {y : Party} {v q : Nat} {c bs : List Byte} (h : s.Canon) :
    (s.landIn y v q c bs).Canon := by
  unfold State.landIn
  dsimp only
  split
  · exact h.putPieces.modQueue.finishHead
  · exact h.finishHead
  · exact h.failHead

theorem State.Canon.unitIn {y : Party} {v q : Nat} {c : List Byte} (h : s.Canon) : (s.unitIn y v q c).Canon :=
  .ite h.landIn h.modQueue

theorem State.Canon.copyUnit {v q : Nat} {y : Party} {c : List Byte} (h : s.Canon) : (s.copyUnit v q y c).Canon := by
  refine .ite h.unitIn (.ite h.unitOut ?_)
  split
  · exact h.dropAnswers.unitOut
  · exact h.post
  · exact h.dropAnswers.failHead
  · exact h

theorem kept_execBbcopy (h : s.Canon) : Kept (execBbcopy s) :=
  .next (h.take (fun _ _ _ _ => .ite h.copyUnit (.ite h.failHead (.ite h.finishHead (.ite h.failHead h.copyUnit)))))

theorem kept_execBbarm (h : s.Canon) : Kept (execBbarm s) :=
  .next (h.take (fun _ _ _ _ => .ite h.finishHead (.ite h.modQueue.finishHead h.modQueue.finishHead)))

/-! ### The windows -/

theorem State.Canon.modMgmt {f : Mgmt → Mgmt} (h : s.Canon) : (s.modMgmt f).Canon := h.same rfl

theorem State.Canon.modHart {h' : HartId} {f : Hart → Hart} (h : s.Canon) : (s.modHart h' f).Canon := h.setHart

theorem State.Canon.writeWindow {h' : HartId} {o : Nat} {v : Word64} (h : s.Canon) : (s.writeWindow h' o v).Canon :=
  .ite (h.same rfl) h.modHart.modMgmt

theorem State.Canon.writeBytes {h' : HartId} {q : Nat × Nat × List Byte} (h : s.Canon) :
    (State.writeBytes h' s q).Canon :=
  h.writeWindow

theorem State.Canon.putHartByte {h' : HartId} {q : Nat × Byte} (h : s.Canon) : (State.putHartByte h' s q).Canon := by
  unfold State.putHartByte
  split
  · exact h.poke
  · exact h.poke
  · exact h

theorem State.Canon.putHartWord {h' : HartId} {q : Nat × Nat × List Byte} (h : s.Canon) :
    (State.putHartWord h' s q).Canon := by
  unfold State.putHartWord
  split
  · exact h.writeBytes
  · exact h.foldl fun _ _ h1 => h1.putHartByte

theorem State.Canon.putHartBytes {h' : HartId} {a : Nat} {bs : List Byte} (h : s.Canon) :
    (s.putHartBytes h' a bs).Canon :=
  h.foldl fun _ _ h1 => h1.putHartWord

theorem State.Canon.hostWrite {v off : Nat} {x : Word64} {f : Vf → Vf} (h : s.Canon) :
    (s.hostWrite v off x f).Canon :=
  .ite h.refuseAccess.logError h.setVf

theorem State.Canon.releaseVectors {v : Nat} (h : s.Canon) : (s.releaseVectors v).Canon :=
  h.setVf.foldl fun _ _ h1 => h1.say

theorem State.Canon.writePort {port : RegPort} {off : Nat} {value : Word64} (h : s.Canon) :
    (s.writePort port off value).Canon := by
  unfold State.writePort
  split
  · exact .ite h (h.foldl fun _ _ h1 => h1.writeBytes)
  · exact h.hostWrite
  · exact h.hostWrite
  · exact h.hostWrite
  · exact h.modMgmt
  · exact h.hostWrite
  · exact h.hostWrite.releaseVectors

/-! ### Roots -/

theorem State.Canon.modMyHart {f : Hart → Hart} (h : s.Canon) : (s.modMyHart f).Canon := .ite h h.modHart

theorem State.Canon.startHart {h' : HartId} {a : Word64} (h : s.Canon) : (s.startHart h' a).Canon := h.modHart

theorem State.Canon.presentMbx (h : s.Canon) : s.presentMbx.Canon := h.modMgmt

theorem kept_execMbxrlenRead {rd : BitVec 5} (h : s.Canon) : Kept (execMbxrlenRead rd s) := by
  refine .next (.ite ?_ h.modMyHart)
  split
  · exact h
  · exact h.modMyHart

theorem State.Canon.sendMbx {n : Nat} (h : s.Canon) : (s.sendMbx n).Canon := h.say.modMgmt.presentMbx

/-! ### Faults -/

theorem State.Canon.modWaiters {f : List Waiter → List Waiter} (h : s.Canon) : (s.modWaiters f).Canon := h.same rfl

theorem State.Canon.newToken (h : s.Canon) : (s.newToken).2.Canon := h.same rfl

theorem State.Canon.writeZenith (h : s.Canon) : s.writeZenith.Canon := by
  unfold State.writeZenith
  split
  · exact h
  · exact .ite h (h.poke.same rfl)

theorem State.Canon.blockEntry {v : Nat} {y : Party} {f : FaultRec} {fs : List FaultRec} {gpa c : Nat} (h : s.Canon) :
    (s.blockEntry v y f fs gpa c).Canon :=
  h.newToken.setVf.modWaiters.zenithFault

theorem State.Canon.ringStore {v : Nat} {y : Party} {gpa : Nat} {bs : List Byte} (h : s.Canon) :
    Gives State.Canon (s.ringStore v y gpa bs) := by
  unfold State.ringStore
  split
  · exact .error
  · exact .ok h.storeAt
  · split
    · exact .error
    · exact .ok h.dropAnswers

theorem State.Canon.writeRing {v : Nat} (h : s.Canon) : (s.writeRing v).Canon := by
  unfold State.writeRing
  dsimp only
  split
  · exact h
  · refine .ite h.setVf.modWaiters.zenithFault (.ite h ?_)
    split
    · exact h.blockEntry
    · exact h.post
    · exact h.dropAnswers
    · exact h
    · rename_i e1
      exact (h.ringStore.of_ok e1).setVf.signal

theorem State.Canon.unblock {v : Nat} (h : s.Canon) : (s.unblock v).Canon := h.setVf.modWaiters

theorem kept_execFaultRingConfigWrite {reg : FrReg} {value : BitVec 64} (h : s.Canon) :
    Kept (execFaultRingConfigWrite reg value s) := by
  refine .next ?_
  split
  · exact .ite h.refuseWrite h.setVf.unblock
  · exact .ite h.refuseWrite h.setVf.unblock

theorem State.Canon.resumeRecord {p a : Nat} (h : s.Canon) : (s.resumeRecord p a).Canon := .ite h.makeRunnable h

theorem State.Canon.useToken {token : Nat} (h : s.Canon) : (s.useToken token).Canon := h.modWaiters

theorem kept_execFresume {token : BitVec 56} (h : s.Canon) : Kept (execFresume token s) := by
  refine .next (.ite h.refuseWrite ?_)
  split
  · exact h
  · exact .ite h h.useToken.resumeRecord

theorem State.Canon.retryRing {w : Waiter} (h : s.Canon) : (s.retryRing w).Canon := h.useToken.unblock

theorem State.Canon.endWaiter {w : Waiter} (h : s.Canon) : (s.endWaiter w).Canon :=
  .ite h.useToken h.useToken.setRecState.guestFault.leaveGroups.endUnit

theorem State.Canon.reflectWaiter {w : Waiter} (h : s.Canon) : (s.reflectWaiter w).Canon :=
  .ite h.endWaiter h.newToken.useToken.modWaiters.guestFault

theorem kept_execS2resumeRetry {token : BitVec 56} (h : s.Canon) : Kept (execS2resumeRetry token s) := by
  refine .next ?_
  split
  · exact h
  · exact .ite h.retryRing h.useToken.resumeRecord

theorem kept_execS2resumeReflect {token : BitVec 56} (h : s.Canon) : Kept (execS2resumeReflect token s) := by
  refine .next ?_
  split
  · exact h
  · exact .ite h.retryRing h.reflectWaiter

theorem kept_execS2resumeEnd {token : BitVec 56} (h : s.Canon) : Kept (execS2resumeEnd token s) := by
  refine .next ?_
  split
  · exact h
  · exact .ite h.retryRing h.endWaiter

/-! ### The fabric -/

theorem State.Canon.refusePacket {port : Nat} {owner : Nat × Nat} {addr cause : Nat} (h : s.Canon) :
    (s.refusePacket port owner addr cause).Canon :=
  h.say.logError

theorem State.Canon.serve {y : Party} {k : FwdKind} {l key : Nat} (h : s.Canon) : (s.serve y k l key).1.Canon := by
  unfold State.serve
  split
  · exact h
  · exact Mem.wf_foldl h.storeAt (fun _ _ h1 => h1)
  · exact h.storeAt

theorem kept_execForwardedAccess {req : FwdRequest} (h : s.Canon) : Kept (execForwardedAccess req s) :=
  .next (.ite h (.ite h.refusePacket.drew h.serve.say))

theorem State.Canon.setForward {i : Nat} {f : Option Forward} (h : s.Canon) : (s.setForward i f).Canon := h.same rfl

theorem State.Canon.armWatch {f : Forward} (h : s.Canon) : (s.armWatch f).Canon := by
  unfold State.armWatch
  split
  · exact .ite h.setCore h
  · exact h

theorem kept_execForwardedReply {idx : Nat} {data : List Byte} {tags : List Bool} (h : s.Canon) :
    Kept (execForwardedReply idx data tags s) := by
  refine .next ?_
  split
  · exact h
  · exact .ite h (.ite h.setForward.armWatch h.setForward.armWatch.wake)

theorem State.Canon.parkWriter {f : Forward} (h : s.Canon) : (s.parkWriter f).Canon := by
  unfold State.parkWriter
  dsimp only
  split
  · exact h
  · split
    · exact h
    · split
      · exact h
      · split
        · exact h
        · exact h.park.putPass

theorem State.Canon.requestFailed {idx : Nat} {f : Forward} (h : s.Canon) : (s.requestFailed idx f).Canon :=
  .ite h.setForward (.ite h.setForward.parkWriter h.setForward)

theorem kept_execForwardedAccessTimeout {idx : Nat} {nack : Bool} (h : s.Canon) :
    Kept (execForwardedAccessTimeout idx nack s) := by
  refine .next ?_
  split
  · exact h
  · exact .ite h h.requestFailed.logError

/-! ### Translation commands -/

theorem State.Canon.setPort {x : XlRegs} (h : s.Canon) : (s.setPort x).Canon := .ite (h.same rfl) h.setVf

theorem State.Canon.xlGo {op : Nat} (h : s.Canon) : (s.xlGo op).Canon :=
  .ite (.ite h h.refuseWrite) (.ite h (.ite h.setPort (h.setPort.same rfl)))

theorem State.Canon.endCommand {c : XlCommand} (h : s.Canon) : (s.endCommand c).Canon := .setPort (h.same rfl)

theorem State.Canon.forgetReads {c : XlCommand} (h : s.Canon) : (s.forgetReads c).Canon := h.same rfl

theorem kept_execInvalidationComplete (h : s.Canon) : Kept (execInvalidationComplete s) := by
  refine .next ?_
  split
  · exact h
  · exact .ite h h.forgetReads.endCommand

theorem State.Canon.writeGranule {p l k : Nat} {q : Nat × CopyUnit} (h : s.Canon) :
    (State.writeGranule p l k s q).Canon := by
  unfold State.writeGranule
  refine .ite h (State.Canon.same (s := s.storeAt none false (l + 16 * q.1) k q.2.bytes) h.storeAt ?_)
  dsimp only
  split <;> rfl

theorem State.Canon.poisonLines {m a : Nat} {us : List CopyUnit} (h : s.Canon) : (s.poisonLines m a us).Canon :=
  h.foldl fun _ _ h1 => .ite h1.say h1

theorem State.Canon.writePage {y : Party} {new : Place} {us : List CopyUnit} (h : s.Canon) :
    Gives State.Canon (s.writePage y new us) := by
  unfold State.writePage
  split
  · refine .ok (State.Canon.foldl ?_ fun _ _ ht => ht.writeGranule)
    exact h.same rfl
  · split
    · exact .ok h.poisonLines
    · exact .ok h.poisonLines
    · exact .error

theorem State.Canon.moveObjects {p lo n new : Nat} (h : s.Canon) : (s.moveObjects p lo n new).Canon := h.same rfl

theorem State.Canon.moveChoice {p : Nat} {old new : LeafFrames} (h : s.Canon) : (s.moveChoice p old new).Canon :=
  h.modPart

theorem State.Canon.markCopying {c : XlCommand} (h : s.Canon) : (s.markCopying c).Canon := h.same rfl

theorem State.Canon.forgetCounters {c : XlCommand} {L : Nat} (h : s.Canon) : (s.forgetCounters c L).Canon :=
  h.same rfl

theorem State.Canon.copyPage {c : XlCommand} {L entry : Nat} {old new : LeafFrames} (h : s.Canon) :
    (s.copyPage c L entry old new).Canon := by
  unfold State.copyPage
  dsimp only
  split
  · exact h.markCopying.post
  · split
    · exact h.markCopying.post
    · exact h
    · rename_i e1
      have h1 := h.writePage.of_ok e1
      refine .endCommand (.poke (.moveChoice ?_))
      split
      · refine .forgetCounters ?_
        split
        · exact h1.dropAnswers.moveObjects
        · exact h1.dropAnswers
      · split
        · exact h1.dropAnswers.moveObjects
        · exact h1.dropAnswers

theorem kept_execMigrateCopy (h : s.Canon) : Kept (execMigrateCopy s) := by
  refine .next ?_
  split
  · exact h
  · refine .ite h ?_
    split
    · exact h.endCommand
    · split
      · exact .ite h.copyPage h
      · exact h.endCommand

/-! ### Weight regions -/

theorem kept_execWeightRegionRegistration {base len : Nat} {layout : List Byte} (h : s.Canon) :
    Kept (execWeightRegionRegistration base len layout s) := by
  refine .next (.ite h ?_)
  split
  · exact h
  · exact Mem.wf_rekey _ _ _ h

theorem State.Canon.modCumuli {p : Nat} {f : Cumulus → Cumulus} (h : s.Canon) : (s.modCumuli p f).Canon :=
  h.foldl fun _ _ h1 => h1.modCumulus

theorem kept_execWeightRemoval {ident : BitVec 64} (h : s.Canon) : Kept (execWeightRemoval ident s) := by
  refine .next ?_
  split
  · exact h
  · exact .ite h.modCumuli (h.modCumuli.same rfl)

/-! ### Partitions -/

theorem State.Canon.scrub {p w : Nat} {frames : List Nat} (h : s.Canon) : (s.scrub p w frames).1.Canon :=
  .drew (Mem.wf_foldl h (fun _ _ h1 => Mem.wf_scrubFrame _ _ h1))

theorem State.Canon.modDbg {f : Debug → Debug} (h : s.Canon) : (s.modDbg f).Canon := h.modMgmt

theorem State.Canon.writeRoot {p w : Nat} (h : s.Canon) : (s.writeRoot p w).Canon := by
  unfold State.writeRoot
  dsimp only
  split
  · exact Mem.wf_foldl h.drew.storeAt (fun _ _ h1 => h1)
  · exact h.drew

theorem State.Canon.openWorld {p w : Nat} {d : PartDesc} (h : s.Canon) : (s.openWorld p w d).Canon :=
  h.drew.modPart.setVf.modDbg.writeRoot

theorem State.Canon.closeWorld {p w : Nat} (h : s.Canon) : (s.closeWorld p w).Canon :=
  ((((((h.resetVf.foldl fun _ _ h1 => h1.unlist).modCumuli).modPart).setVf).modDbg).scrub).say

theorem State.Canon.partResult {reason : Nat} {refused : Bool} (h : s.Canon) : (s.partResult reason refused).Canon :=
  h.modMgmt

theorem State.Canon.freshCluster {k : Nat} (h : s.Canon) : (s.freshCluster k).Canon := by
  have cores : ((coresOf k).foldl State.clearCore s).Canon := h.foldl fun _ _ ht => ht.clearCore
  refine .same (cores.foldl (l := upFrom 0 16) (f := fun t b =>
    { t with mem := t.mem.wipe (bankLoc k b 0) (bankSize k) }) fun t b ht => ?_) rfl
  exact Mem.wf_wipe _ _ ht

theorem State.Canon.configureCluster {d : PartDesc} {k : Nat} (h : s.Canon) : (State.configureCluster d s k).Canon :=
  h.setCluster.foldl fun _ _ h1 => h1.edgeCore

theorem State.Canon.commitWorld {p : Nat} {d : PartDesc} {w : Nat} (h : s.Canon) :
    (State.commitWorld p d s w).Canon :=
  .ite (.ite (.ite h.modPart h.modPart.setVf) h) (.ite h h.openWorld)

theorem State.Canon.applyDesc {p : Nat} {d : PartDesc} (h : s.Canon) : (s.applyDesc p d).Canon :=
  .foldl (.foldl (.modPart (.ite ((((h.foldl fun _ _ h1 => h1.closeWorld).foldl fun _ _ h1 => h1.freshCluster).foldl
    fun _ _ h1 => h1.freshCluster).foldl fun _ _ h1 => h1.resetVf.setVf)
    (((((h.foldl fun _ _ h1 => h1.closeWorld).foldl fun _ _ h1 => h1.freshCluster).foldl fun _ _ h1 =>
    h1.freshCluster).foldl fun _ _ h1 => h1.resetVf.setVf).modDbg))) fun _ _ h1 => h1.configureCluster) fun _ _ h1 =>
    h1.commitWorld

theorem kept_execCommit (h : s.Canon) : Kept (execCommit s) :=
  .next (.ite h (.ite h.partResult (.ite h h.applyDesc.partResult)))

theorem State.Canon.preempt {p : Nat} (h : s.Canon) : (s.preempt p).Canon := by
  unfold State.preempt
  exact (((h.foldl fun _ _ h1 => h1.crossEdge).foldl fun _ _ h1 => h1.forceSuspend).modCumuli).modPart

theorem kept_execPreempt (h : s.Canon) : Kept (execPreempt s) :=
  .next (.ite h (.ite h.partResult (.ite h h.preempt.partResult)))

theorem kept_execRelease (h : s.Canon) : Kept (execRelease s) :=
  .next (.ite h (.ite h.partResult h.modPart.openGates.partResult))

theorem State.Canon.forgetPart {p : Nat} (h : s.Canon) : (s.forgetPart p).Canon := .modDbg (h.same rfl)

theorem State.Canon.resetPart {p : Nat} (h : s.Canon) : (s.resetPart p).Canon :=
  (((((h.preempt.foldl fun _ _ h1 => h1.resetVf.setVf).forgetPart).foldl fun _ _ h1 =>
    h1.freshCluster).scrub).setPart).poke

theorem kept_execPartitionReset (h : s.Canon) : Kept (execPartitionReset s) :=
  .next (.ite h (.ite h.partResult (.ite h h.resetPart.partResult)))

theorem kept_execPcmdReclaim (h : s.Canon) : Kept (execPcmdReclaim s) :=
  .next (.ite h (.ite h.reclaim.retryAborts.partResult h.partResult))

theorem State.Canon.formFor {v : Nat} (h : s.Canon) : (s.formFor v).Canon := by
  unfold State.formFor
  split
  · exact h
  · exact h.modCumuli

theorem kept_execQexport (h : s.Canon) : Kept (execQexport s) :=
  .next (.ite h (.ite h.gateQueue.modQueue.formFor h.gateQueue.modQueue.formFor.closeQueue.poke.partResult))

theorem kept_execQimport (h : s.Canon) : Kept (execQimport s) :=
  .next (.ite h (.ite h.partResult (.partResult (.ite h.modQueue.doorbell h.modQueue))))

/-! ### Debug -/

theorem State.Canon.endWiped {p : Nat} {a : Nat} (h : s.Canon) : (State.endWiped p s a).Canon := by
  unfold State.endWiped
  refine .wipeRecord (.unlist ?_)
  split
  · exact h.forceSuspend
  · exact h

theorem State.Canon.wipeWorld {p w : Nat} (h : s.Canon) : (s.wipeWorld p w).Canon :=
  .ite ((h.drew.foldl fun _ _ h1 => h1.endWiped).modPart) h.drew.modPart

theorem State.Canon.wipePart {p : Nat} (h : s.Canon) : (s.wipePart p).Canon := h.foldl fun _ _ h1 => h1.wipeWorld

theorem State.Canon.wipeAll (h : s.Canon) : s.wipeAll.Canon := h.foldl fun _ _ h1 => h1.wipePart

theorem State.Canon.wipeTier {tier p : Nat} (h : s.Canon) : (s.wipeTier tier p).Canon := by
  unfold State.wipeTier
  split
  · exact h
  · exact h.wipePart
  · exact h.wipeAll
  · exact h.wipeAll.modMgmt

theorem State.Canon.openTier (h : s.Canon) : s.openTier.Canon := h.wipeTier.modDbg.extendMeas

theorem kept_execDbgctlOpen (h : s.Canon) : Kept (execDbgctlOpen s) :=
  .next (.ite h (.ite h.modDbg.logError (.ite h h.openTier)))

/-! ### Management harts -/

theorem State.Canon.writeCsr {t : State} {hid : HartId} {n : Nat} {v : Word64} (h : s.Canon)
    (e : s.writeCsr hid n v = some t) : t.Canon := by
  unfold State.writeCsr at e
  dsimp only at e
  split at e <;> cases e <;> exact h.same rfl

/-! ### SPDM -/

theorem State.Canon.putReply {bs : List Byte} (h : s.Canon) : (s.putReply bs).Canon := h.modMgmt

theorem State.Canon.spdmFail {code : Nat} (h : s.Canon) : (s.spdmFail code).Canon := h.putReply.sendMbx.modMgmt

theorem State.Canon.spdmAnswer {r : List Byte} {x : SpdmRow} (h : s.Canon) : (s.spdmAnswer r x).Canon :=
  h.setHart.putReply.modMgmt.sendMbx.drew

theorem State.Canon.respond {mine : Nat → Bool} (h : s.Canon) : (s.respond mine).Canon := by
  unfold State.respond
  split
  · exact h
  · refine .ite h ?_
    split
    · exact h.spdmFail
    · exact .ite h.spdmAnswer h.spdmFail
    · exact h

/-! ### Interface messages -/

theorem State.Canon.vfRefuse {v : Nat} (h : s.Canon) : (s.vfRefuse v).Canon := h.setVf

theorem State.Canon.vfLock {v : Nat} (h : s.Canon) : (s.vfLock v).Canon := .ite h.setVf h.vfRefuse

theorem State.Canon.vfStart {v : Nat} (h : s.Canon) : (s.vfStart v).Canon := .ite h.setVf h.vfRefuse

theorem State.Canon.vfStop {v : Nat} (h : s.Canon) : (s.vfStop v).Canon := .ite h.resetVf.setVf h.vfRefuse

theorem State.Canon.logFrozen {v off : Nat} {x : Word64} (h : s.Canon) : (s.logFrozen v off x).Canon := h.logError

theorem kept_execFrozenRegisterWrite {off : Nat} {value : BitVec 64} (h : s.Canon) :
    Kept (execFrozenRegisterWrite off value s) :=
  .next (.ite h.setVf (.ite h.setVf (.ite h.retryAborts.logFrozen h.abortCommands.logFrozen.setVf)))

theorem State.Canon.presentIf (h : s.Canon) : s.presentIf.Canon := h.modMgmt

theorem State.Canon.sendIf {n : Nat} (h : s.Canon) : (s.sendIf n).Canon := h.say.modMgmt.presentIf

theorem kept_execIfrlenRead {rd : BitVec 5} (h : s.Canon) : Kept (execIfrlenRead rd s) := by
  refine .next (.ite ?_ h.modMyHart)
  split
  · exact h
  · exact h.modMyHart

theorem State.Canon.answerIf {bs : List Byte} (h : s.Canon) : (s.answerIf bs).Canon := h.modMgmt.sendIf

theorem State.Canon.ifError {v e : Nat} (h : s.Canon) : (s.ifError v e).Canon := h.answerIf

theorem State.Canon.onIf {mine : Nat → Bool} {f : State → List Byte → Nat → State} (h : s.Canon)
    (hf : ∀ t b1 b2, t.Canon → (f t b1 b2).Canon) : (s.onIf mine f).Canon := by
  unfold State.onIf
  split
  · exact h
  · exact .ite h (hf _ _ _ h.modMgmt)

theorem kept_execLockInterface (h : s.Canon) : Kept (execLockInterface s) :=
  .next (h.onIf (fun _ _ _ h1 => .ite h1.vfLock.ifError h1.vfLock.poke.drew.answerIf))

theorem kept_execStartInterface (h : s.Canon) : Kept (execStartInterface s) :=
  .next (h.onIf (fun _ _ _ h1 => .ite h1.ifError (.ite h1.vfStart.ifError h1.vfStart.answerIf)))

theorem kept_execStopInterface (h : s.Canon) : Kept (execStopInterface s) :=
  .next (.ite h (h.onIf (fun _ _ _ h1 => h1.vfStop.answerIf)))

theorem kept_execGetInterfaceReport (h : s.Canon) : Kept (execGetInterfaceReport s) :=
  .next (h.onIf (fun _ _ _ h1 => .ite h1.ifError (.ite h1.ifError h1.setHart.answerIf.drew)))

/-! ### Launches -/

theorem State.Canon.reserve {y : Party} {b : LaunchBlock} {chain im : Nat} {ps : List (Nat × Nat)}
    {gs : List (List Nat)} (h : s.Canon) : (s.reserve y b chain im ps gs).1.Canon := by
  unfold State.reserve
  dsimp only
  split
  · exact h.setPart.setCluster
  · exact h.setPart

theorem State.Canon.reserveAll {y : Party} {chain i : Nat} {bs : List (Option LaunchBlock)} (h : s.Canon) :
    Gives (fun p => p.1.Canon) (s.reserveAll y chain i bs) := by
  induction bs generalizing s i with
  | nil => exact h
  | cons b bs ih =>
    cases b with
    | none => exact .error
    | some b =>
      unfold State.reserveAll
      split
      · exact .error
      · dsimp only
        split
        · exact .error
        · rename_i e
          have hr := (ih h.reserve).of_ok e
          exact .ok hr

theorem State.Canon.createUnit {p : LaunchPlan} {u : Nat × Nat × Nat} (h : s.Canon) :
    (State.createUnit p s u).Canon :=
  .enterPool (.modPart (.setRecWorld (.setTag h.storeAt)))

theorem State.Canon.createLaunch {p : LaunchPlan} (h : s.Canon) : (s.createLaunch p).Canon :=
  h.foldl fun _ _ h1 => h1.createUnit

theorem State.Canon.passChain {v q n : Nat} (h : s.Canon) : (s.passChain v q n).Canon := h.modQueue

theorem State.Canon.launchChain {v q : Nat} {y : Party} {cs : List (List Byte)} (h : s.Canon) :
    (s.launchChain v q y cs).Canon := by
  unfold State.launchChain
  split
  · exact h.post
  · exact h.walkAway
  · exact h
  · dsimp only
    split
    · exact h.complete.passChain.dropAnswers
    · rename_i e1
      exact .dropAnswers (.passChain (((h.reserveAll.of_ok e1).foldl fun _ _ h2 => h2.createLaunch).same rfl))

theorem kept_execLaunch (h : s.Canon) : Kept (execLaunch s) := by
  refine .next (h.take (fun b b1 b2 b3 => ?_))
  split
  · exact h.modQueue
  · exact h.launchChain

theorem kept_execLaunchCompletion {chain : Nat} (h : s.Canon) : Kept (execLaunchCompletion chain s) := by
  refine .next ?_
  split
  · exact h
  · exact .ite (.ite (.dmaWrite (h.same rfl)) (h.same rfl)) h

/-! ### Training and answers -/

theorem State.Canon.queueTraining {k n : Nat} (h : s.Canon) : (s.queueTraining k n).Canon := .setCluster (h.same rfl)

theorem kept_execTrainStep (h : s.Canon) : Kept (execTrainStep s) := by
  refine .next ?_
  split
  · refine .ite h ?_
    split
    · exact h.setMyCluster
    · exact .ite h.setMyCluster (.putFit (.ite h h.setMyCluster))
  · exact h

theorem kept_execRegionExecutionComplete (h : s.Canon) : Kept (execRegionExecutionComplete s) := by
  refine .next ?_
  split
  · split
    · split
      · refine .ite h (.setMe ?_)
        split
        · exact h
        · exact .ite h.putFit.queueTraining h.putFit
      · exact h
    · exact h
  · exact h

theorem kept_execSurrogateAnswer (h : s.Canon) : Kept (execSurrogateAnswer s) := by
  refine .next ?_
  split
  · split
    · split
      · exact .ite h h.setMe.drew
      · exact h
    · exact h
  · exact h

theorem kept_execImageRemoval {handle : Nat} (h : s.Canon) : Kept (execImageRemoval handle s) := by
  refine .next ?_
  split
  · exact h
  · exact .ite h (h.same rfl)

/-! ### Resets and readiness -/

theorem State.Canon.afterReset {mem : Mem} {m : Mgmt} {x : Outer} (h : mem.wf = true) :
    (s.afterReset mem m x).Canon :=
  State.wf_afterReset s m x h

theorem State.Canon.fillIdentity {c : Fin 2} {chain : List Byte} (h : s.Canon) : (s.fillIdentity c chain).Canon :=
  h.poke.poke.poke.poke

theorem kept_execStage0 (h : s.Canon) : Kept (execStage0 s) :=
  .next (.ite h (.ite (.ite h.modMgmt.fillIdentity.poke.startHart h.modMgmt.fillIdentity.poke) h.modMgmt.modMgmt.say))

theorem State.Canon.readDie {r : DieReading} (h : s.Canon) : (s.readDie r).Canon := by
  unfold State.readDie
  exact .ite h (.ite (.same (.logError (.ite (.ite (.ite h.modMgmt h.modMgmt.logError)
    (.logError (.ite h.modMgmt h.modMgmt.logError)))
    (.logError (.ite (.ite h.modMgmt h.modMgmt.logError) (.logError (.ite h.modMgmt h.modMgmt.logError)))))) rfl)
    (.ite (.ite (.ite h.modMgmt h.modMgmt.logError) (.logError (.ite h.modMgmt h.modMgmt.logError)))
    (.logError (.ite (.ite h.modMgmt h.modMgmt.logError) (.logError (.ite h.modMgmt h.modMgmt.logError))))))

/-! ### Continuations -/

theorem State.Canon.spawn {x a : Nat} (h : s.Canon) : Gives State.Canon (s.spawn x a) :=
  .ite (.ite .error (.ok h.setRecBytesBy.setRecWorld.enterPool)) (.ite (.ok h.setRecBytesBy) (.ite (.ok h) .error))

theorem kept_execSpawn {a : BitVec 4} (h : s.Canon) : Kept (execSpawn a s) :=
  h.runSeq (.step fun _ => .step fun _ => .bind h.perform.spawn fun _ h1 => .ok h1.advance)

theorem State.Canon.submitTask {c : Cap} (h : s.Canon) : Gives State.Canon (s.submitTask c) := by
  refine .step fun _ => ?_
  split
  · exact .ok h
  · exact .bind h.suspendAs fun _ h1 => .ok h1.setCluster

theorem State.Canon.waitSeq {i target : Nat} (h : s.Canon) : Gives State.Canon (s.waitSeq i target) := by
  refine .ite .error ?_
  split
  · exact .ok h
  · refine .ite ?_ (.ok h.modPart.writeG)
    split
    · exact .error
    · rename_i e1
      exact .ok (h.suspendAs.of_ok e1).modPart

theorem State.Canon.barrier {k : BitVec 2} (h : s.Canon) : Gives State.Canon (s.barrier k) := by
  unfold State.barrier
  split
  · exact .ok h
  · exact .step fun _ => .step fun _ => .step fun _ => .ite (.ok h.releaseOlder.modPart.closeGroup.advance)
      (.bind h.suspendAs fun _ h1 => .ok h1.modPart)

theorem kept_execGrank {d : BitVec 5} {k : BitVec 2} (h : s.Canon) : Kept (execGrank d k s) := by
  refine h.runSeq ?_
  split
  · exact .ok h
  · split
    · exact .error
    · exact .ok h.writeG

theorem kept_execGsize {d : BitVec 5} {k : BitVec 2} (h : s.Canon) : Kept (execGsize d k s) := by
  refine h.runSeq ?_
  split
  · exact .ok h
  · split
    · exact .error
    · exact .ok h.writeG

theorem State.Canon.suspendOrWake (h : s.Canon) : Gives State.Canon (s.suspendOrWake) := by
  unfold State.suspendOrWake
  split
  · exact .ok h
  · exact .ite (.step fun _ => .ok h.releaseOlder.setCtl.releaseLease.advance) h.suspendAs

theorem kept_execYield (h : s.Canon) : Kept (execYield s) := by
  refine h.runSeq ?_
  split
  · exact .ok h
  · split
    · exact .error
    · rename_i e1
      exact .ok (h.suspendAs.of_ok e1).enterPool

theorem State.Canon.closeContext {r : Running} (h : s.Canon) : (s.closeContext r).Canon := .ite h (h.same rfl)

theorem State.Canon.retire (h : s.Canon) : Gives State.Canon (s.retire) := by
  unfold State.retire
  split
  · exact .ok h
  · split
    · exact .error
    · rename_i e1
      exact .step fun _ => .ok (h.suspendAs.of_ok e1).releaseAllSyncs.leaveGroups.endUnit.closeContext

/-! ### Updates -/

theorem State.Canon.nadirToRom (h : s.Canon) : s.nadirToRom.Canon := h.modMgmt

theorem State.Canon.setUpdst {n : Nat} (h : s.Canon) : (s.setUpdst n).Canon := h.modMgmt

theorem kept_execUpdctlStage (h : s.Canon) : Kept (execUpdctlStage s) :=
  .next (.ite h (.ite h.setUpdst (.ite h.nadirToRom.setUpdst h)))

theorem State.Canon.admitStaged {c : Fin 2} {i : Nat} (h : s.Canon) : (State.admitStaged c s i).Canon := by
  unfold State.admitStaged
  exact .ite h.poke.extendMeas h.poke

theorem kept_execStandbyFirstStage (h : s.Canon) : Kept (execStandbyFirstStage s) :=
  .next (.ite h (.ite ((((h.extendMeas.extendMeas.foldl fun _ _ h1 => h1.admitStaged).foldl fun _ _ h1 =>
    h1.startHart).startHart).setUpdst) h.setUpdst))

theorem State.Canon.endHandoff {updst : Nat} (h : s.Canon) : (s.endHandoff updst).Canon := h.modMgmt.openGates

/-- The nonce slots of the table are written, and nothing else of it. -/
theorem State.Canon.swapRoles {es : List TableEntry} (h : s.Canon) : (s.swapRoles es).Canon := by
  refine .endHandoff (.modMgmt (.foldl h fun _ _ ht => ?_))
  exact .ite ht.poke ht

theorem kept_execStateTableImport (h : s.Canon) : Kept (execStateTableImport s) := by
  unfold execStateTableImport
  refine .next (.ite h ?_)
  split
  · exact h.swapRoles
  · exact h.endHandoff

/-! ### Every instruction -/

/-- Every instruction keeps the form. The arms stand in the order of `exec`; the short ones have no rule of their own. -/
theorem kept_exec {i : Instr} (h : s.Canon) : Kept (exec i s) := by
  unfold exec
  split
  · exact .next h.writeG
  · exact .next h.writeG
  · exact .next h.writeG
  · exact .next h.writeG
  · exact .next h.writeG
  · exact .next h.writeG
  · exact .next h.writeG
  · exact .next h.writeG
  · exact .next h.writeG
  · exact .next h.writeG
  · exact .next h.writeG
  · exact .next h.writeG
  · exact .next h.writeG
  · exact .next h.writeG
  · exact .next h.writeG
  · exact .next h.writeG
  · exact .next h.writeG
  · exact .next h.writeG
  · exact .next h.writeG
  · exact .next h.writeG
  · exact .next h.writeG
  · exact .next h.writeG
  · exact .next h.writeG
  · exact .next h.writeG
  · exact kept_execAcqst h
  · exact kept_execRelst h
  · exact kept_execDrain h
  · exact kept_execPmtgive h
  · exact kept_execPmtinit h
  · exact .next h.writeG
  · exact .next h.writeG
  · exact .next h.writeG
  · exact .next h.writeG
  · exact .next h.writeG
  · exact .next h.writeG
  · exact .next h.writeG
  · exact .next h.writeG
  · exact .next h.writeG
  · exact kept_execMbsend h
  · exact kept_execMbrecv h
  · exact .next (.ite h.goto h.advance)
  · exact .next h.goto
  · exact .next h.setMe
  · exact .next h.loopStep
  · exact .next h.goto
  · exact h.runSeq (.ite .error (.ok h.armWindow))
  · exact h.runSeq h.issueVec
  · exact h.runSeq h.issueMat
  · exact h.runSeq h.issueXfer
  · exact kept_execAttngo h
  · exact kept_execCqpop h
  · exact .next h.writeG
  · exact kept_execSpawn h
  · exact h.runSeq h.submitTask
  · exact h.runSeq h.waitSeq
  · exact h.runSeq h.barrier
  · exact kept_execGrank h
  · exact kept_execGsize h
  · exact h.runSeq h.beginRegion
  · exact h.runSeq h.endRegion
  · exact .next h.startFit.advance
  · exact .next h.moveFit.advance
  · exact .next h.moveFit.advance
  · exact .next h.moveFit.advance
  · exact .next h.writeG
  · exact h.runSeq .error
  · exact .next (.writeG (.ite h.catchEvent h))
  · exact .next h.writeSys.advance
  · exact kept_execFence h
  · exact kept_execCderive h
  · exact kept_execCandperm h
  · exact kept_execCincr h
  · exact kept_execCsetcur h
  · exact kept_execCseal h
  · exact kept_execCunseal h
  · exact .next h.writeG
  · exact .next h.writeG
  · exact .next h.writeG
  · exact .next h.writeG
  · exact .next h.writeC
  · exact .next h.writeG
  · exact kept_execLds h
  · exact kept_execSts h
  · exact kept_execLdc h
  · exact kept_execStc h
  · exact kept_execLdq h
  · exact kept_execStq h
  · exact kept_execGather h
  · exact kept_execScatter h
  · exact h.runAmo
  · exact h.runAmo
  · exact h.runAmo
  · exact h.runAmo
  · exact h.runAmo
  · exact h.runAmo
  · exact h.runAmo
  · exact kept_execBind h
  · exact kept_execUnbind h
  · exact kept_execPublish h
  · exact kept_execSyncinit h
  · exact h.runSeq h.acquire
  · exact h.runSeq h.acquire
  · exact kept_execRel h
  · exact kept_execRevoke h
  · exact h.takeVec (fun _ _ => .ok h.setMe)
  · exact kept_execVshape h
  · exact h.runVec
  · exact h.runVec
  · exact h.runVec
  · exact h.runVec
  · exact h.runVec
  · exact h.runVec
  · exact h.runVec
  · exact h.runVec
  · exact h.runVec
  · exact h.runVec
  · exact h.runVec
  · exact h.runVec
  · exact h.runVec
  · exact h.runVec
  · exact h.runVec
  · exact h.runVec
  · exact h.runVec
  · exact h.runVec
  · exact h.runVec
  · exact h.runVec
  · exact h.runVec
  · exact h.runVec
  · exact h.runVec
  · exact h.runVec
  · exact h.runVec
  · exact h.runVec
  · exact h.runVec
  · exact h.runVec
  · exact h.runVec
  · exact h.runVec
  · exact h.runVec
  · exact h.runVec
  · exact h.runVec
  · exact h.runVec
  · exact h.runVec
  · exact h.runVec
  · exact kept_execMend h
  · exact h.takeMat (fun _ => .ok h.putSlot) (fun _ => h)
  · exact h.takeMat (fun _ => h.fetchTile) (fun _ => h)
  · exact h.takeMat (fun _ => .ok h.putSlot) (fun _ => h)
  · exact h.takeMat (fun _ => .ok h.putSlot) (fun _ => h)
  · exact kept_execAcczero h
  · exact kept_execAccrd h
  · exact h.takeMat (fun _ => h.writeTile) (fun _ => h)
  · exact kept_execMwait h
  · exact h.runMul
  · exact h.runMul
  · exact h.runMul
  · exact h.runMul
  · exact h.runMul
  · exact h.runMul
  · exact h.runMul
  · exact h.runMul
  · exact h.runMul
  · exact h.runMul
  · exact h.runMul
  · exact h.runMul
  · exact h.runMul
  · exact h.runMul
  · exact h.stepXfer
  · exact h.stepLevel
  · exact h.stepLevel
  · exact h.stepLevel
  · exact h.stepXfer
  · exact h.stepXfer
  · exact h.takeXfer
  · exact h.stepXfer
  · exact h.takeStrat (fun _ => h.fetchStrat)
  · exact h.takeStrat (fun _ => h.fetchStrat)
  · exact h.takeStrat (fun _ => h.btgather)
  · exact h.takeStrat (fun _ => h.btgather)
  · exact kept_execScore h
  · exact kept_execPvacc h
  · exact h.takeStrat (fun _ => h.fetchStrat)
  · exact h.takeStrat (fun _ => .ok h.stepStrat)
  · exact kept_execLoop h
  · exact kept_execBrcnt h
  · exact h.takeStrat (fun _ => .ok h.stepStrat)
  · exact kept_execOstore h
  · exact h.takeStrat (fun _ => .ok h.retireStrat)
  · exact .next (.ite h.modMgmt h)
  · exact .next (.ite h.modMgmt.logError h)
  · exact .next (.ite h.modMgmt.logError h)
  · exact .next (.ite h.modMgmt h)
  · exact .next (.ite h.logError (.ite h h.modMgmt))
  · exact .next h.writePort
  · exact .next h.modMyHart
  · exact .next h.modMyHart.drew
  · exact .next h.modMyHart
  · exact .next (.ite h h.extendMeas.drew)
  · exact .next (.ite (h.foldl fun _ _ h1 => h1.startHart) h)
  · exact .next h.modMyHart.drew
  · exact kept_execMbxrlenRead h
  · exact .next (.ite h.modMgmt h.modMgmt)
  · exact .next (.ite h.sendMbx h)
  · exact .next (h.foldl fun _ _ h1 => h1.readDie)
  · exact .next (.ite h (h.logError.same rfl))
  · exact .next h.refuseAccess.logError
  · exact .next h.refuseAccess.logError
  · exact kept_execRevokeSweepComplete h
  · exact kept_execVectorWordCompletion h
  · exact kept_execTfetchLanded h
  · exact kept_execAccrdWritesPerformed h
  · exact kept_execTransferCopy h
  · exact .next (.ite h h.oweMemerr)
  · exact .next h.modPart
  · exact .next h.startSwitch
  · exact kept_execBankSwitchComplete h
  · exact kept_execTaskAdmission h
  · exact kept_execPatienceExpiry h
  · exact kept_execWeightRemoval h
  · exact kept_execImageRemoval h
  · exact kept_execIfrlenRead h
  · exact .next (.ite h.sendIf h)
  · exact kept_execFrozenRegisterWrite h
  · exact .next h.modPart
  · exact kept_execFresume h
  · exact kept_execS2resumeRetry h
  · exact kept_execS2resumeReflect h
  · exact kept_execS2resumeEnd h
  · exact .next (.ite (h.modMyHart.same rfl) h.modMyHart)
  · exact kept_execFaultRingConfigWrite h
  · exact kept_execForwardedAccess h
  · exact kept_execForwardedAccessTimeout h
  · exact .next (.ite h h.refusePacket)
  · exact .next (.ite h.refuseWrite h.doorbell)
  · exact kept_execLaunchCompletion h
  · exact kept_execCollectiveResult h
  · exact kept_execNotAnInstruction h
  · exact .next (.ite (h.same rfl) h)
  · exact .next (.ite h h.setHart)
  · exact kept_execStratusFetchComplete h
  · exact .next h.landIf
  · exact kept_execForwardedReply h
  · exact kept_execWeightRegionRegistration h
  · exact kept_execImageAdmission h
  · exact .next (State.Canon.afterReset (Mem.wf_wipe _ _ h))
  · exact .next (State.Canon.afterReset (State.wf_keepRing h))
  · exact kept_execStage0 h
  · exact .next (.ite h.modMgmt h)
  · exact .next h.modMyHart.drew
  · exact .next (.ite h h.putHartBytes.drew)
  · exact .next h.modMyHart
  · exact .next h.respond
  · exact .next h.respond
  · exact .next h.respond
  · exact .next h.respond
  · exact .next h.respond
  · exact .next h.respond
  · exact .next h.respond
  · exact kept_execUpdctlStage h
  · exact kept_execStandbyFirstStage h
  · exact .next (.ite h h.modMgmt)
  · exact kept_execStateTableImport h
  · exact .next (.ite h h.endHandoff)
  · exact .next (.ite h h.nadirToRom.setUpdst)
  · exact .next (.ite h.modDbg.drew h)
  · exact kept_execDbgctlOpen h
  · exact .next (.ite h.modDbg h)
  · exact .next h.modDbg
  · exact .next h.advance
  · exact kept_execEret h
  · exact h.runSeq (.ite (.ok h.setSys.advance) .error)
  · exact .next ((h.foldl fun _ _ h1 => h1.setCore).advance)
  · exact kept_execQfence h
  · exact kept_execMlease h
  · exact .next h.releaseLease.advance
  · exact h.runSeq h.suspendOrWake
  · exact kept_execYield h
  · exact h.runSeq h.retire
  · exact kept_execLoadQueueFill h
  · exact kept_execArrayGrant h
  · exact .next (.ite h.setCluster h)
  · exact h.takeXfer
  · exact kept_execMaxupd h
  · exact kept_execExpq h
  · exact kept_execRescale h
  · exact kept_execWait h
  · exact kept_execDone h
  · exact kept_execStratusBlockAccept h
  · exact kept_execPickup h
  · exact .next (.ite h h.crossEdge)
  · exact .next h.forceSuspend
  · exact .next (.ite h.deliver h)
  · exact kept_execRunPass h
  · exact kept_execEpilogueRun h
  · exact .next (.say (h.same rfl))
  · exact kept_execRegionExecutionComplete h
  · exact kept_execSurrogateAnswer h
  · exact kept_execTrainStep h
  · exact .next (.ite h.vfLock h)
  · exact .next (.ite h.vfStart h)
  · exact .next (.ite h.vfStop h)
  · exact kept_execLockInterface h
  · exact kept_execGetInterfaceReport h
  · exact kept_execStartInterface h
  · exact kept_execStopInterface h
  · exact .next (h.onIf (fun _ _ _ h1 => h1.answerIf))
  · exact .next (h.onIf (fun _ _ _ h1 => h1.ifError))
  · exact kept_execCommit h
  · exact kept_execPreempt h
  · exact kept_execRelease h
  · exact kept_execPartitionReset h
  · exact kept_execPcmdReclaim h
  · exact kept_execQexport h
  · exact kept_execQimport h
  · exact .next h.xlGo
  · exact .next h.xlGo
  · exact .next h.xlGo
  · exact .next h.xlGo
  · exact kept_execInvalidationComplete h
  · exact .next h.xlGo
  · exact kept_execMigrateCopy h
  · exact .next (.ite h.writeZenith h.writeRing)
  · exact .next h.qctl
  · exact .next h.qctl
  · exact kept_execQctlUnmap h
  · exact kept_execLaunch h
  · exact .next (h.take (fun _ _ _ _ => .ite h h.finishHead))
  · exact .next h.tryWait
  · exact .next h.tryWait
  · exact kept_execCollective h
  · exact kept_execBbcopy h
  · exact kept_execBbarm h
  · exact kept_execReclaim h
  · exact .next (.ite h.resetVf h)
  · exact .next (.ite h h.setHart)
  · exact .next (.ite h.setHart h)

/-! ### Instructions of the harts -/

theorem State.Canon.asPort {part : Nat} (h : s.Canon) : (s.asPort part).Canon := h.same rfl

theorem kept_nextOf {r : Host.Outcome State Fault Refusal} (h : s.Canon) (hr : Kept r) : (nextOf s r).Canon := by
  cases r with
  | next t => exact hr
  | fault => exact h
  | refused => exact h

theorem State.Canon.doPart {h' : HartId} {q : Nat × Nat × List Byte} (h : s.Canon) : (State.doPart h' s q).Canon := by
  unfold State.doPart
  split
  · exact h
  · exact (kept_nextOf h (kept_exec h.asPort)).same rfl

theorem State.Canon.clearAccval {a n : Nat} (h : s.Canon) : (s.clearAccval a n).Canon := .ite (h.same rfl) h

theorem State.Canon.hartLoad {a : Word64} {n : Nat} (h : s.Canon) : Ends (fun p => p.1.Canon) (s.hartLoad a n) :=
  .ite .trap (.ite .stall (.ok h.clearAccval.drew))

theorem State.Canon.loseResv {h' : HartId} {a n : Nat} (h : s.Canon) : (s.loseResv h' a n).Canon := h.modMgmt

theorem State.Canon.hartStore {a : Word64} {bs : List Byte} (h : s.Canon) : Ends State.Canon (s.hartStore a bs) :=
  .ite .trap (.ite .stall (.ok (h.loseResv.foldl fun _ _ h1 => h1.putHartWord.doPart)))

theorem State.Canon.modHid {f : Hart → Hart} (h : s.Canon) : (s.modHid f).Canon := h.modHart

theorem State.Canon.rvDone {len rd : Nat} {v : Word64} (h : s.Canon) : (s.rvDone len rd v).Canon := h.modHid

theorem State.Canon.rvCsr {f : RvCsr} {imm : Bool} {rd src num len : Nat} {raw : Word64} (h : s.Canon) :
    Ends State.Canon (s.rvCsr f imm rd src num len raw) := by
  unfold State.rvCsr
  dsimp only
  split
  · exact .trap
  · refine .ite (.ok h.rvDone) ?_
    split
    · exact .trap
    · rename_i e1
      have h1 := State.Canon.writeCsr h e1
      exact .ok (.ite h1.rvDone.modHid h1.rvDone)

theorem State.Canon.rvLr {rd : Nat} {a : Word64} {n len : Nat} (h : s.Canon) :
    Ends State.Canon (s.rvLr rd a n len) := by
  refine .ite .trap ?_
  split
  · rename_i e
    exact .ok (h.hartLoad.of_ok e).rvDone.modHid
  · exact .trap
  · exact .stall

theorem State.Canon.rvSc {rd src : Nat} {a : Word64} {n len : Nat} (h : s.Canon) :
    Ends State.Canon (s.rvSc rd src a n len) := by
  refine .ite .trap (.ite .trap (.ite ?_ (.ok h.rvDone.modHid)))
  split
  · rename_i e
    exact .ok (h.hartStore.of_ok e).rvDone.modHid
  · exact .trap
  · exact .stall

theorem State.Canon.rvAmo {f : RvAmo} {rd src : Nat} {a : Word64} {n len : Nat} (h : s.Canon) :
    Ends State.Canon (s.rvAmo f rd src a n len) := by
  refine .ite .trap (.ite .trap ?_)
  split
  · rename_i e
    have h1 := h.hartLoad.of_ok e
    dsimp only
    split
    · rename_i e1
      exact .ok (h1.hartStore.of_ok e1).rvDone
    · exact .trap
    · exact .stall
  · exact .trap
  · exact .stall

theorem State.Canon.rvExec {op : RvOp} {len : Nat} {raw : Word64} (h : s.Canon) :
    Ends State.Canon (s.rvExec op len raw) := by
  unfold State.rvExec
  dsimp only
  split
  · exact .ok h.rvDone
  · exact .ok h.rvDone
  · exact .ok h.modHid.modHid
  · exact .ok h.modHid.modHid
  · exact .ok h.modHid
  · split
    · rename_i e
      exact .ok (h.hartLoad.of_ok e).rvDone
    · exact .trap
    · exact .stall
  · split
    · rename_i e
      exact .ok (h.hartStore.of_ok e).rvDone
    · exact .trap
    · exact .stall
  · exact .ok h.rvDone
  · exact .ok h.rvDone
  · exact .ok h.rvDone
  · exact .trap
  · exact .trap
  · exact .ok h.modHid
  · exact h.rvCsr
  · exact h.rvLr
  · exact h.rvSc
  · exact h.rvAmo

theorem State.Canon.rvTrap {c : HartCause} {tval : Word64} (h : s.Canon) : (s.rvTrap c tval).Canon := h.modHid

theorem State.Canon.hartStep (h : s.Canon) : s.hartStep.Canon := by
  refine .ite h (.ite h.modHid ?_)
  split
  · exact h.rvTrap
  · split
    · exact h.rvTrap
    · split
      · rename_i e2
        exact h.rvExec.of_ok e2
      · exact h.rvTrap
      · exact h

/-! ### A step -/

theorem State.Canon.begin (h : s.Canon) : s.begin.Canon := h.same rfl

/-- A step keeps the canonical form, whether the turn is an engine's, an event's or a hart's. -/
theorem kept_step (h : s.Canon) : Kept (step s) := by
  unfold step
  refine .ite .fault ?_
  split
  · exact .next h.begin.hartStep
  · split
    · exact kept_exec h.begin
    · exact .next h.begin

end

/-- Settles O60: every operation that a turn can run keeps the canonical form of the memory. -/
theorem memoryStaysCanonical : Obligations.MemoryStaysCanonical := by
  unfold Obligations.MemoryStaysCanonical
  exact fun s t h e => (kept_step h).of_next e

end Sys2Proof.Machine
end
/-! ## Admission of an image (O49) -/
section
namespace Sys2Proof.Machine

@[simp] theorem length_shake256 (l : List Byte) (n : Nat) : (shake256 l n).length = n := length_leBytes _ n

/-- The slice that is the whole list. -/
theorem sliceB_whole (l : List Byte) : sliceB 0 l.length l = l := by simpa using sliceB_middle [] l []

/-- An extended measurement register holds the hash of what it held and the new bytes (R21). -/
theorem State.meas_extendMeas (s : State) (c : Fin 2) (i : Nat) (bs : List Byte) :
    (s.extendMeas c i bs).meas c i = shake256 (s.meas c i ++ bs) 64 := by
  have whole := sliceB_whole (shake256 (s.meas c i ++ bs) 64)
  rw [length_shake256] at whole
  rw [State.meas, State.extendMeas, Sparse.get_set_same, whole]

@[simp] theorem State.part_poke (s : State) (l : Nat) (bs : List Byte) (p : Nat) : (s.poke l bs).part p = s.part p := rfl

@[simp] theorem State.meas_poke (s : State) (l : Nat) (bs : List Byte) (c : Fin 2) (i : Nat) :
    (s.poke l bs).meas c i = s.meas c i := rfl

@[simp] theorem State.extendMeas_mem (s : State) (c : Fin 2) (i : Nat) (bs : List Byte) :
    (s.extendMeas c i bs).mem = s.mem := rfl

@[simp] theorem State.part_extendMeas (s : State) (c : Fin 2) (i : Nat) (bs : List Byte) (p : Nat) :
    (s.extendMeas c i bs).part p = s.part p := rfl

@[simp] theorem State.zenithLoc_modPart (s : State) (p : Nat) (f : Partition → Partition) (a : Nat) :
    (s.modPart p f).zenithLoc a = s.zenithLoc a := rfl

/-- A device write after changes that leave the memory. -/
theorem poked_poke_of_mem {s t : State} (h : t.mem = s.mem) (l : Nat) (bs : List Byte) : Poked s (t.poke l bs) l bs := by
  obtain ⟨stands, rest⟩ := poked_poke t l bs
  refine ⟨stands, fun x hx => ?_⟩
  rw [← h]
  exact rest x hx

/-- Memory that holds fewer words than a header has, or than the length word says, has no image that passes (log 84). -/
theorem admissionOf_short {word : Nat → Nat} {held : Nat} (h : held < max 12 (word 1)) :
    (admissionOf word held).status ≠ 0 := by
  unfold admissionOf
  split
  · decide
  · next header =>
    have short : held < word 1 := by omega
    dsimp only
    split
    · decide
    · next passed => exact fun h0 => passed ⟨h0, short⟩

/-- What the check of the image at a base of a partition's memory finds (R24, R26). -/
def State.imageCheck (s : State) (p base : Nat) : AdmResult :=
  admissionOf (s.imageWord p base) (((s.part p).memSize - base) / 4)

/-- The code hash of the image at a base (R24). -/
def State.codeHash (s : State) (p base : Nat) : List Byte := shake256 (s.raw (hbmLoc p base) (4 * s.imageWord p base 1)) 16

/-- The image at a base enters its partition's table under a free handle, with its code hash (R155). -/
def State.enterImage (s : State) (p base : Nat) : State :=
  s.modPart p (fun x => { x with
    images := Sparse.set x.freeHandle ⟨base, s.imageWord p base 1, BitVec.ofNat 128 (leNat (s.codeHash p base))⟩ x.images })

theorem State.images_enterImage (s : State) (p base : Nat) :
    ((s.enterImage p base).part p).images = Sparse.set (s.part p).freeHandle
      ⟨base, s.imageWord p base 1, BitVec.ofNat 128 (leNat (s.codeHash p base))⟩ (s.part p).images := by
  rw [State.enterImage, State.part_modPart, if_pos rfl]

@[simp] theorem State.enterImage_mem (s : State) (p base : Nat) : (s.enterImage p base).mem = s.mem := rfl

@[simp] theorem State.meas_enterImage (s : State) (p base : Nat) (c : Fin 2) (i : Nat) :
    (s.enterImage p base).meas c i = s.meas c i := rfl

section
variable {s : State} {base slot : Nat}

/-- The check waits while an engine's store into the image is under way (log 97). -/
theorem exec_imageAdmission_waits (hw : s.stillWritten s.actor.part base (4 * s.imageWord s.actor.part base 1) = true) :
    exec (.imageAdmission base slot) s = .next s := by
  change execImageAdmission base slot s = _
  simp only [execImageAdmission, hw, if_true]

variable (hw : s.stillWritten s.actor.part base (4 * s.imageWord s.actor.part base 1) = false)
include hw

/-- A failed image leaves its result alone (R26). -/
theorem exec_imageAdmission_fails (hr : (s.imageCheck s.actor.part base).status ≠ 0) :
    exec (.imageAdmission base slot) s
      = .next (s.poke (s.zenithLoc slot) ((s.imageCheck s.actor.part base).bytes [])) := by
  rw [State.imageCheck] at hr ⊢
  change execImageAdmission base slot s = _
  simp only [execImageAdmission, hw, if_neg hr, Bool.false_eq_true, if_false]

/-- An image that passes is entered, measured and reported (R26, R39). -/
theorem exec_imageAdmission_passes (hr : (s.imageCheck s.actor.part base).status = 0) :
    exec (.imageAdmission base slot) s =
      let hash := s.codeHash s.actor.part base
      .next (((s.enterImage s.actor.part base).extendMeas s.mgmt.zenith 8 hash).poke (s.zenithLoc slot)
        ((s.imageCheck s.actor.part base).bytes hash)) := by
  rw [State.imageCheck] at hr ⊢
  change execImageAdmission base slot s = _
  simp only [execImageAdmission, hw, if_pos hr, Bool.false_eq_true, if_false, State.modPart_mgmt,
    State.zenithLoc_modPart, State.enterImage, State.codeHash]
end

/-- Settles O49: one equation for each of the three things a check can do, and what the updates of the last leave. -/
theorem imagesAreAdmittedOrNot : Obligations.ImagesAreAdmittedOrNot := by
  intro s base slot p word r z hash
  refine ⟨fun hw => ⟨s, exec_imageAdmission_waits hw, rfl⟩, fun hw => ⟨fun hr => ?passes, fun hr => ?fails⟩, fun hs => ?short⟩
  case passes =>
    refine ⟨_, exec_imageAdmission_passes hw hr, ?entered, fun h hh => ?others, ?measured, ?slot⟩
    case entered =>
      rw [State.part_poke, State.part_extendMeas, State.images_enterImage]
      exact Sparse.find?_set_same _ _ _
    case others =>
      rw [State.part_poke, State.part_extendMeas, State.images_enterImage]
      exact Sparse.find?_set_other _ _ hh
    case measured => exact (State.meas_poke _ _ _ z 8).trans (State.meas_extendMeas (s.enterImage p base) z 8 hash)
    case slot =>
      have mem : ((s.enterImage p base).extendMeas z 8 hash).mem = s.mem := by simp
      exact poked_poke_of_mem mem _ _
  case fails =>
    exact ⟨_, exec_imageAdmission_fails hw hr, State.poke_parts _ _ _, State.poke_mgmt _ _ _, poked_poke s _ _⟩
  case short => exact admissionOf_short (by omega)

end Sys2Proof.Machine
end
/-! ## The mailboxes and the SPDM responder (O44) -/
section
namespace Sys2Proof.Machine

/-! ### A mailbox -/

/-- A mailbox whose request has been answered: the oldest held request is presented (R22). -/
def Mailbox.freed (b : Mailbox) : Mailbox := { b with pending := b.waiting.head?, waiting := b.waiting.tail }

theorem Mailbox.present_answered (b : Mailbox) : Mailbox.present { b with pending := none } false = b.freed := by
  obtain ⟨q, w, o⟩ := b
  cases w <;> rfl

theorem Mailbox.present_offer {b : Mailbox} {lo hi : Nat} {req : List Byte} (hp : b.pending = none) (hw : b.waiting = [])
    (hlo : lo ≤ req.length) (hhi : req.length ≤ hi) :
    (b.offer lo hi req).present false = { b with pending := some req, waiting := [] } := by
  have legal : ¬ (req.length < lo ∨ hi < req.length) := by omega
  simp [Mailbox.offer, legal, Mailbox.present, hp, hw]

theorem Mailbox.reply_eq (b : Mailbox) (n : Nat) : b.reply n = (List.range (min n 4096)).map (Sparse.get b.out 0) := by
  rw [Mailbox.reply, upFrom_zero_eq_range]

/-- Bytes put into an area from o on leave what lies below. -/
theorem get_areaPut_below {x o : Nat} (n : Nat) (bs : List Byte) (a : Sparse Byte) (h : x < o) :
    Sparse.get (areaPut a n o bs) 0 x = Sparse.get a 0 x := by
  induction bs generalizing o a with
  | nil => rfl
  | cons b bs ih =>
    change Sparse.get (areaPut (if o < n then Sparse.set o b a else a) n (o + 1) bs) 0 x = _
    rw [ih _ (by omega)]
    split
    · exact Sparse.get_set_other b 0 a (by omega)
    · rfl

/-- Bytes put into an area that has room for them stand there. -/
theorem map_get_areaPut {n o : Nat} (bs : List Byte) (a : Sparse Byte) (h : o + bs.length ≤ n) :
    (upFrom o bs.length).map (Sparse.get (areaPut a n o bs) 0) = bs := by
  induction bs generalizing o a with
  | nil => rfl
  | cons b bs ih =>
    rw [List.length_cons] at h
    have first : areaPut a n o (b :: bs) = areaPut (Sparse.set o b a) n (o + 1) bs := by
      change areaPut (if o < n then _ else _) n (o + 1) bs = _
      rw [if_pos (by omega)]
    rw [first, List.length_cons, upFrom, List.map_cons, ih _ (by omega), get_areaPut_below _ _ _ (by omega),
      Sparse.get_set_same]

/-- A reply of at most the buffer's 4,096 bytes is sent as it was put. -/
theorem Mailbox.reply_areaPut (b : Mailbox) (bs : List Byte) (h : bs.length ≤ 4096) :
    Mailbox.reply { b with out := areaPut b.out 0x1000 0 bs } bs.length = bs := by
  rw [Mailbox.reply, Nat.min_eq_left h]
  exact map_get_areaPut bs b.out (by omega)

/-! ### Sends and reads -/

theorem State.sendMbx_eq {s : State} (h : s.mgmt.handoff = none) (n : Nat) :
    s.sendMbx n = { s.say (.mailbox (s.mgmt.mbx.reply n)) with mgmt := { s.mgmt with mbx := s.mgmt.mbx.freed } } := by
  simp [State.sendMbx, State.presentMbx, State.modMgmt, h, Mailbox.present_answered]

theorem State.sendIf_eq {s : State} (h : s.mgmt.handoff = none) (n : Nat) :
    s.sendIf n = { s.say (.interface (s.mgmt.ifm.reply n)) with mgmt := { s.mgmt with ifm := s.mgmt.ifm.freed } } := by
  simp [State.sendIf, State.presentIf, State.modMgmt, h, Mailbox.present_answered]

/-- A hart that acts as one of the Zenith's stands in no HANDOFF write (R45). -/
theorem State.stalled_of_actsAs {s : State} {n : Nat} (h : s.actsAs n = true) : s.stalled s.hid = false := by
  simp only [State.actsAs, State.zenithActs, Bool.and_eq_true, Bool.not_eq_true'] at h
  exact h.1.2

/-- A register read of a hart that stands in no HANDOFF write gives the value, and changes that hart's registers alone. -/
theorem State.modMyHart_setX {s : State} {rd : BitVec 5} (v : Word64) (h : s.stalled s.hid = false) (hrd : rd ≠ 0) :
    let t := s.modMyHart (fun x => x.setX rd.toNat v)
    (t.hartOf s.hid).getX rd.toNat = v ∧ HartBecomes s t s.hid { s.hart with x := (t.hartOf s.hid).x } := by
  intro t
  have hn : rd.toNat ≠ 0 := fun h0 => hrd (BitVec.eq_of_toNat_eq h0)
  have ht : t = s.setHart s.hid { s.hart with x := Sparse.set rd.toNat v s.hart.x } := by
    simp [t, State.modMyHart, h, State.modHart, Hart.setX, hn, State.hart]
  have becomes := hartBecomes_setHart s s.hid { s.hart with x := Sparse.set rd.toNat v s.hart.x }
  rw [← ht] at becomes
  have hart := becomes.1
  exact ⟨by simp [hart, Hart.getX, hn], by rw [hart]; exact becomes⟩

section
variable {s : State} {rd : BitVec 5} {n : BitVec 13} {req r : List Byte}

/-- A legal request where none is pending or held is presented. -/
theorem exec_mailboxRequestPending_mbx (hh : s.mgmt.handoff = none) (hid : s.hid.hart ≠ 1)
    (hp : s.mgmt.mbx.pending = none) (hw : s.mgmt.mbx.waiting = []) (hlo : 1 ≤ req.length) (hhi : req.length ≤ 4096) :
    exec (.mailboxRequestPending req) s = .next (s.modMgmt (fun m =>
      { m with mbx := { m.mbx with pending := some req, waiting := [] } })) := by
  change execMailboxRequestPending req s = _
  simp [execMailboxRequestPending, hid, State.modMgmt, hh, Mailbox.present_offer hp hw hlo hhi]

theorem exec_mailboxRequestPending_ifm (hh : s.mgmt.handoff = none) (hid : s.hid.hart = 1)
    (hp : s.mgmt.ifm.pending = none) (hw : s.mgmt.ifm.waiting = []) (hlo : 8 ≤ req.length) (hhi : req.length ≤ 64) :
    exec (.mailboxRequestPending req) s = .next (s.modMgmt (fun m =>
      { m with ifm := { m.ifm with pending := some req, waiting := [] } })) := by
  change execMailboxRequestPending req s = _
  simp [execMailboxRequestPending, hid, State.modMgmt, hh, Mailbox.present_offer hp hw hlo hhi]

theorem exec_mbxslenSend (ha : s.actsAs 0 = true) : exec (.mbxslenSend n) s = .next (s.sendMbx n.toNat) := by
  change execMbxslenSend n s = _
  rw [execMbxslenSend, if_pos ha]

theorem exec_ifslenSend (ha : s.actsAs 1 = true) : exec (.ifslenSend n) s = .next (s.sendIf n.toNat) := by
  change execIfslenSend n s = _
  rw [execIfslenSend, if_pos ha]

/-- The hart that owns a mailbox reads the length of its pending request. -/
theorem exec_mbxrlenRead_owner (ha : s.actsAs 0 = true) (hp : s.mgmt.mbx.pending = some r) :
    exec (.mbxrlenRead rd) s = .next (s.modMyHart (fun h => h.setX rd.toNat (reg r.length))) := by
  change execMbxrlenRead rd s = _
  simp only [execMbxrlenRead, if_pos ha, hp]

theorem exec_ifrlenRead_owner (ha : s.actsAs 1 = true) (hp : s.mgmt.ifm.pending = some r) :
    exec (.ifrlenRead rd) s = .next (s.modMyHart (fun h => h.setX rd.toNat (reg r.length))) := by
  change execIfrlenRead rd s = _
  simp only [execIfrlenRead, if_pos ha, hp]

/-- It waits while there is none (R20). -/
theorem exec_mbxrlenRead_waits (ha : s.actsAs 0 = true) (hp : s.mgmt.mbx.pending = none) :
    exec (.mbxrlenRead rd) s = .next s := by
  change execMbxrlenRead rd s = _
  simp only [execMbxrlenRead, if_pos ha, hp]

/-- Any other hart reads zero (R19, R406). -/
theorem exec_mbxrlenRead_other (ha : s.actsAs 0 = false) :
    exec (.mbxrlenRead rd) s = .next (s.modMyHart (fun h => h.setX rd.toNat 0)) := by
  change execMbxrlenRead rd s = _
  rw [execMbxrlenRead, if_neg (Bool.eq_false_iff.1 ha)]

theorem exec_ifrlenRead_other (ha : s.actsAs 1 = false) :
    exec (.ifrlenRead rd) s = .next (s.modMyHart (fun h => h.setX rd.toNat 0)) := by
  change execIfrlenRead rd s = _
  rw [execIfrlenRead, if_neg (Bool.eq_false_iff.1 ha)]
end

/-- The mailboxes' part of O44: a legal request is presented, a send frees the mailbox, and a read changes the reading
hart alone. -/
theorem mailboxesPassRequests : Claim.MailboxesPassRequests := by
  intro s req rd n hrd m rest
  refine ⟨fun hh => ⟨fun hid hp hw hlo hhi => ?mbx, fun hid hp hw hlo hhi => ?ifm, fun ha => ?sendMbx, fun ha => ?sendIf⟩,
    fun r => ⟨fun ha hp => ?readMbx, fun ha hp => ?readIf⟩, fun ha hp => ?wait, fun ha hs => ?otherMbx, fun ha hs => ?otherIf⟩
  case mbx => exact ⟨_, exec_mailboxRequestPending_mbx hh hid hp hw hlo hhi, rfl⟩
  case ifm => exact ⟨_, exec_mailboxRequestPending_ifm hh hid hp hw hlo hhi, rfl⟩
  case sendMbx =>
    refine ⟨_, exec_mbxslenSend ha, ?_⟩
    rw [State.sendMbx_eq hh, Mailbox.reply_eq]
    exact ⟨rfl, rfl⟩
  case sendIf =>
    refine ⟨_, exec_ifslenSend ha, ?_⟩
    rw [State.sendIf_eq hh, Mailbox.reply_eq]
    exact ⟨rfl, rfl⟩
  case readMbx => exact ⟨_, exec_mbxrlenRead_owner ha hp, State.modMyHart_setX _ (State.stalled_of_actsAs ha) hrd⟩
  case readIf => exact ⟨_, exec_ifrlenRead_owner ha hp, State.modMyHart_setX _ (State.stalled_of_actsAs ha) hrd⟩
  case wait => exact ⟨s, exec_mbxrlenRead_waits ha hp, rfl⟩
  case otherMbx => exact ⟨_, exec_mbxrlenRead_other ha, (State.modMyHart_setX 0 hs hrd).1⟩
  case otherIf => exact ⟨_, exec_ifrlenRead_other ha, (State.modMyHart_setX 0 hs hrd).1⟩

/-! ### Which reply the responder gives -/

/-- The events that serve a request, with its code (R27). -/
def spdmEvents : List (Instr × Nat) :=
  [(.getVersion, 0x84), (.getCapabilities, 0xE1), (.negotiateAlgorithms, 0xE3), (.getCertificate, 0x82),
    (.challenge, 0x83), (.getMeasurements, 0xE0)]

/-- Each of them handles the requests of its code. -/
theorem exec_spdmEvent {i : Instr} {code : Nat} (h : (i, code) ∈ spdmEvents) (s : State) :
    exec i s = .next (s.respond (fun c => c = code)) := by
  simp only [spdmEvents, List.mem_cons, Prod.mk.injEq, List.not_mem_nil, or_false] at h
  obtain ⟨rfl, rfl⟩ | ⟨rfl, rfl⟩ | ⟨rfl, rfl⟩ | ⟨rfl, rfl⟩ | ⟨rfl, rfl⟩ | ⟨rfl, rfl⟩ := h <;> rfl

section
variable {s : State} {r : List Byte} {mine : Nat → Bool} (hp : s.mgmt.mbx.pending = some r) (hb : s.mgmt.bootst = 2)
  (hh : s.mgmt.handoff = none) (hm : mine (reqCode r) = true)
include hp hb hh hm

theorem State.respond_of_error {e : Nat} (he : spdmError s.mgmt.spdm r = some e) : s.respond mine = s.spdmFail e := by
  simp [State.respond, hp, State.serving, hb, hh, hm, he]

theorem State.respond_of_row {row : SpdmRow} (he : spdmError s.mgmt.spdm r = none) (hr : spdmRow (reqCode r) = some row) :
    s.respond mine = if spdmServes r then s.spdmAnswer r row else s.spdmFail 1 := by
  simp [State.respond, hp, State.serving, hb, hh, hm, he, hr]
end

/-- A code outside the dispatch table is error 7. -/
theorem spdmError_of_no_row {st : Nat} {r : List Byte} (h : spdmRow (reqCode r) = none) : spdmError st r = some 7 := by
  simp [spdmError, h]

/-- A request that passes the checks has a row. -/
theorem exists_row_of_no_error {st : Nat} {r : List Byte} (h : spdmError st r = none) :
    ∃ row, spdmRow (reqCode r) = some row := by
  cases hr : spdmRow (reqCode r) with
  | none => simp [spdmError_of_no_row hr] at h
  | some row => exact ⟨row, rfl⟩

/-! ### What a reply changes -/

/-- An ERROR reply of a code has been sent; InvalidRequest has closed the connection (R27). -/
def SpdmFailed (s t : State) (e : Nat) : Prop :=
  t.outer.outputs = s.outer.outputs
      ++ [.mailbox [if s.mgmt.spdm = 0 then 0x10 else 0x13, 0x7F, BitVec.ofNat 8 e, 0]]
    ∧ t.mgmt.spdm = (if e = 1 then 0 else s.mgmt.spdm) ∧ t.mgmt.mbx.pending = s.mgmt.mbx.waiting.head?
    ∧ t.mgmt.harts = s.mgmt.harts ∧ t.mem = s.mem

theorem State.spdmFailed_spdmFail {s : State} (h : s.mgmt.handoff = none) (e : Nat) : SpdmFailed s (s.spdmFail e) e := by
  have sent (v : Byte) : (s.putReply [v, 0x7F, BitVec.ofNat 8 e, 0]).mgmt.mbx.reply 4 = [v, 0x7F, BitVec.ofNat 8 e, 0] :=
    Mailbox.reply_areaPut s.mgmt.mbx [v, 0x7F, BitVec.ofNat 8 e, 0] (by simp)
  unfold State.spdmFail
  dsimp only
  rw [State.sendMbx_eq (show (s.putReply _).mgmt.handoff = none from h), sent]
  exact ⟨rfl, rfl, rfl, rfl, rfl⟩

@[simp] theorem length_raw (s : State) (l n : Nat) : (s.raw l n).length = n := by simp [State.raw, Mem.raw]

@[simp] theorem State.length_random (s : State) (n : Nat) : (s.random n).length = n := by simp [State.random]

@[simp] theorem State.length_identity (s : State) (a n : Nat) : (s.identity a n).length = n := length_raw s _ n

@[simp] theorem State.length_meas (s : State) (c : Fin 2) (i : Nat) : (s.meas c i).length = 64 := length_sliceB 0 64 _

/-- A snapshot is 16 blocks of 71 bytes (R19). -/
@[simp] theorem State.length_mrecOf (s : State) (c : Fin 2) : (s.mrecOf c).length = 1136 := by
  have block : List.length ∘ s.mrecBlock c = fun _ => 71 := by
    funext i
    simp [State.mrecBlock]
  rw [State.mrecOf, List.length_flatten, List.map_map, block]
  simp

@[simp] theorem State.length_signature (s : State) (msg : List Byte) : (s.signature msg).length = 1280 := by
  unfold State.signature
  split
  · exact length_sliceB 0 1280 _
  · exact List.length_replicate

/-- The part of a reply that follows its body (R29). -/
def State.spdmSignature (s : State) (r log : List Byte) : List Byte :=
  if spdmSigned r then s.signature (shake256 log 64) else []

/-- Every reply fits the response buffer. -/
theorem State.length_reply_le (s : State) (r log : List Byte) : (s.spdmBody r ++ s.spdmSignature r log).length ≤ 4096 := by
  have signed : (s.spdmSignature r log).length ≤ 1280 := by
    unfold State.spdmSignature
    split
    · exact (s.length_signature _).le
    · exact Nat.zero_le _
  by_cases hc : reqCode r = 0x82
  · simp [State.spdmBody, State.spdmSignature, spdmSigned, hc]
  · have body : (s.spdmBody r).length ≤ 1186 := by
      simp only [State.spdmBody, hc, if_false]
      repeat' split
      all_goals simp
    rw [List.length_append]
    omega

theorem State.ctx1_spdmHart (s : State) (r body : List Byte) :
    (s.spdmHart r body).ctx1 = transcript (s.hartOf s.responder).ctx1 r body := by
  unfold State.spdmHart
  dsimp only
  split <;> split <;> rfl

/-- A request has been answered with a body and its signature, its transcript extended, the state the row's next (R27 to
R29). -/
def SpdmAnswered (s t : State) (r : List Byte) (row : SpdmRow) : Prop :=
  let log := transcript (s.hartOf s.responder).ctx1 r (s.spdmBody r)
  t.outer.outputs = s.outer.outputs ++ [.mailbox (s.spdmBody r ++ s.spdmSignature r log)]
    ∧ (t.hartOf s.responder).ctx1 = log ∧ t.mgmt.spdm = row.next.getD s.mgmt.spdm
    ∧ t.mgmt.mbx.pending = s.mgmt.mbx.waiting.head? ∧ t.mem = s.mem

theorem State.spdmAnswered_spdmAnswer {s : State} (h : s.mgmt.handoff = none) (r : List Byte) (row : SpdmRow) :
    SpdmAnswered s (s.spdmAnswer r row) r row := by
  unfold SpdmAnswered
  intro log
  have log_eq : (s.spdmHart r (s.spdmBody r)).ctx1 = log := s.ctx1_spdmHart r _
  have sig_eq : (if spdmSigned r then s.signature (shake256 log 64) else []) = s.spdmSignature r log := rfl
  have sent := Mailbox.reply_areaPut s.mgmt.mbx (s.spdmBody r ++ s.spdmSignature r log) (s.length_reply_le r log)
  have hart : ((s.setHart s.responder (s.spdmHart r (s.spdmBody r))).hartOf s.responder).ctx1 = log := by
    rw [State.hartOf_setHart, if_pos rfl, log_eq]
  have free : (((s.setHart s.responder (s.spdmHart r (s.spdmBody r))).putReply (s.spdmBody r ++ s.spdmSignature r log)).modMgmt
      (fun m => { m with spdm := row.next.getD m.spdm })).mgmt.handoff = none := h
  unfold State.spdmAnswer
  dsimp only
  rw [log_eq, sig_eq, ← List.length_append, State.sendMbx_eq free]
  exact ⟨congrArg (fun bs => s.outer.outputs ++ [.mailbox bs]) sent, hart, rfl, rfl, rfl⟩

/-- The responder's part of O44: an event that handles a request sends one of the two replies. -/
theorem spdmResponderAnswers : Claim.SpdmResponderAnswers := by
  intro s r i code hp hb hh hc rows v fails
  have fail (e : Nat) : SpdmFailed s (s.spdmFail e) e := State.spdmFailed_spdmFail hh e
  refine ⟨fun hi => ?_, fun hr => ⟨_, rfl, ?unsupported⟩⟩
  · have run := exec_spdmEvent hi s
    have mine : decide (reqCode r = code) = true := decide_eq_true hc
    refine ⟨fun e he => ⟨_, run, ?error⟩, fun he hs => ⟨_, run, ?unserved⟩, fun row he hs hr => ⟨_, run, ?answered⟩⟩
    case error =>
      rw [State.respond_of_error hp hb hh mine he]
      exact fail e
    case unserved =>
      obtain ⟨row, hr⟩ := exists_row_of_no_error he
      rw [State.respond_of_row hp hb hh mine he hr, hs]
      exact fail 1
    case answered =>
      rw [State.respond_of_row hp hb hh mine he (hc ▸ hr), if_pos hs]
      have answered := State.spdmAnswered_spdmAnswer hh r row
      simpa [SpdmAnswered, State.spdmSignature, spdmSigned, transcript, hc] using answered
  case unsupported =>
    rw [← hc] at hr
    have mine : (spdmRow (reqCode r)).isNone = true := by rw [hr]; rfl
    rw [State.respond_of_error hp hb hh mine (spdmError_of_no_row hr)]
    exact fail 7

/-- Settles O44: a send frees the mailbox, a read changes the reading hart alone, and the responder gives one of two
replies. -/
theorem mailboxesAndResponder : Obligations.MailboxesAndResponder := ⟨mailboxesPassRequests, spdmResponderAnswers⟩

end Sys2Proof.Machine
end
/-! ## Runs of updates, device writes, and entries of the error log -/
section
namespace Sys2Proof.Machine

/-- What no update of a run changes stands after the run. -/
theorem foldl_keeps {α β γ : Type} (g : β → γ) {f : β → α → β} {l : List α} (h : ∀ b, ∀ a ∈ l, g (f b a) = g b) (b : β) :
    g (l.foldl f b) = g b := by
  induction l generalizing b with
  | nil => rfl
  | cons a l ih =>
    rw [List.foldl_cons, ih (fun b x hx => h b x (List.mem_cons_of_mem a hx)), h b a List.mem_cons_self]

/-- The head of the error ring and the count of lost entries may have moved; nothing else of the management state has
changed, and the module runs on as it did (R53). -/
def LogsOnly (s t : State) : Prop :=
  (∃ head lost, t.mgmt = { s.mgmt with elogHead := head, elogLost := lost }) ∧ t.stopped = s.stopped

theorem LogsOnly.of_same {s t : State} (hm : t.mgmt = s.mgmt) (hs : t.stopped = s.stopped) : LogsOnly s t :=
  ⟨⟨s.mgmt.elogHead, s.mgmt.elogLost, hm⟩, hs⟩

theorem LogsOnly.refl (s : State) : LogsOnly s s := .of_same rfl rfl

theorem LogsOnly.trans {s t u : State} (h : LogsOnly s t) (h' : LogsOnly t u) : LogsOnly s u := by
  obtain ⟨⟨_, _, hm⟩, hs⟩ := h
  obtain ⟨⟨head, lost, hm'⟩, hs'⟩ := h'
  exact ⟨⟨head, lost, by rw [hm', hm]⟩, hs'.trans hs⟩

theorem LogsOnly.ite {c : Prop} [Decidable c] {s t u : State} (ht : LogsOnly s t) (hu : LogsOnly s u) :
    LogsOnly s (if c then t else u) := by
  split
  · exact ht
  · exact hu

theorem LogsOnly.foldl {α : Type} {f : State → α → State} (h : ∀ t a, LogsOnly t (f t a)) (l : List α) (s : State) :
    LogsOnly s (l.foldl f s) := by
  induction l generalizing s with
  | nil => exact .refl s
  | cons a l ih => exact (h s a).trans (ih (f s a))

/-! ### Device writes -/

/-- Bytes that a device write does not reach stand as they stood. -/
theorem State.raw_poke_outside (s : State) {a n l : Nat} {bs : List Byte} (h : a + n ≤ l ∨ l + bs.length ≤ a) :
    (s.poke l bs).raw a n = s.raw a n := by
  refine List.map_congr_left (fun x hx => Mem.byte_poke_outside s.mem l x bs ?_)
  have := (mem_upFrom a n x).1 hx
  omega

theorem State.raw_poke (s : State) (l : Nat) (bs : List Byte) : (s.poke l bs).raw l bs.length = bs :=
  Mem.raw_poke s.mem l bs

/-! ### The tenant's copy (R451) -/

theorem logsOnly_guestWrite {s t : State} {y : Party} {gpa : Nat} {bs : List Byte} (h : s.guestWrite y gpa bs = .ok t) :
    LogsOnly s t := by
  unfold State.guestWrite at h
  split at h
  · cases h
  · cases h
    exact .of_same rfl rfl
  · cases h
    exact .of_same rfl rfl

theorem logsOnly_signal (s : State) (v n : Nat) : LogsOnly s (s.signal v n) := .ite (.of_same rfl rfl) (.of_same rfl rfl)

theorem logsOnly_errorRing (s : State) (v : Nat) (y : Party) (r : List Byte) : LogsOnly s (s.errorRing v y r) := by
  unfold State.errorRing
  refine .ite (.refl s) (.ite (.of_same rfl rfl) ?_)
  split
  · exact .of_same rfl rfl
  · next written =>
    exact (logsOnly_guestWrite written).trans (.trans (.of_same rfl rfl) (logsOnly_signal _ v 1))

theorem logsOnly_tenantCopy (s : State) (e : LogEntry) : LogsOnly s (s.tenantCopy e) := by
  unfold State.tenantCopy
  split
  · exact .refl s
  · exact .ite (.refl s) (.trans (.of_same rfl rfl) (logsOnly_errorRing _ _ _ _))

/-! ### An entry -/

theorem logsOnly_logError (s : State) (e : LogEntry) : LogsOnly s (s.logError e) := by
  unfold State.logError
  refine .ite ⟨⟨_, _, rfl⟩, rfl⟩ (.trans ?_ (logsOnly_tenantCopy _ e))
  exact ⟨⟨_, _, rfl⟩, rfl⟩

/-- An entry that no world owns has no tenant's copy (R451). -/
theorem State.tenantCopy_unowned (s : State) {e : LogEntry} (h : e.world = none) : s.tenantCopy e = s := by
  simp only [State.tenantCopy, h]

theorem LogEntry.length_bytes (e : LogEntry) (time : Nat) : (e.bytes time).length = 32 := by
  simp [LogEntry.bytes]

/-- An entry that no world owns is recorded, or counted as lost (R53, R55). -/
theorem logs_logError (s : State) (e : LogEntry) (h : e.world = none) : Logs s (s.logError e) e := by
  unfold Logs State.logError
  dsimp only
  split
  · exact ⟨rfl, rfl⟩
  · rw [State.tenantCopy_unowned _ h]
    refine ⟨rfl, rfl, fun _ => ?stands⟩
    case stands =>
      have stands := Mem.raw_poke s.mem (coronaLoc (s.mgmt.elogBase.toNat + 32 * s.mgmt.elogHead.toNat)) (e.bytes s.time)
      rwa [e.length_bytes] at stands

/-- The registers of the error ring (R53). -/
def Mgmt.logRegs (m : Mgmt) : Word64 × BitVec 10 × BitVec 10 × BitVec 32 := (m.elogBase, m.elogHead, m.elogTail, m.elogLost)

/-- Whether an entry is recorded turns on the ring's registers and the clock before, and the registers and memory after. -/
theorem logs_of_same {s s' t t' : State} {e : LogEntry} (h : Logs s t e) (regs : s'.mgmt.logRegs = s.mgmt.logRegs)
    (time : s'.time = s.time) (mgmt : t'.mgmt = t.mgmt) (mem : t'.mem = t.mem) : Logs s' t' e := by
  simp only [Mgmt.logRegs, Prod.mk.injEq] at regs
  obtain ⟨base, head, tail, lost⟩ := regs
  unfold Logs State.raw at h ⊢
  dsimp only at h ⊢
  rw [base, head, tail, lost, time, mgmt, mem]
  exact h

/-- The same for an entry made after changes to other registers. -/
theorem logs_logError_after {s t : State} (e : LogEntry) (h : e.world = none) (regs : s.mgmt.logRegs = t.mgmt.logRegs)
    (time : s.time = t.time) : Logs s (t.logError e) e := logs_of_same (logs_logError t e h) regs time rfl rfl

/-- The same for an entry after which the module stops (R52). -/
theorem logs_logError_stops {s t : State} (e : LogEntry) (h : e.world = none) (regs : s.mgmt.logRegs = t.mgmt.logRegs)
    (time : s.time = t.time) : Logs s { t.logError e with stopped := true } e :=
  logs_of_same (logs_logError t e h) regs time rfl rfl

end Sys2Proof.Machine
end
/-! ## What leaves the management state alone

A forced suspension and a wipe of world keys change cores, clusters, partitions and memory; the management state stands.
One lemma for each operation on the way. -/
section
namespace Sys2Proof.Machine

variable (s : State)

/-! ### Writes -/

@[simp] theorem State.sendStore_mgmt (c e m a p : Nat) (va : Word64) (bs : List Byte) (ts : List Bool) (y : Asker)
    (w : Nat) : (s.sendStore c e m a p va bs ts y w).mgmt = s.mgmt := rfl

@[simp] theorem State.putHere_mgmt (n u : Nat) (f : Bool) (l k : Nat) (bs : List Byte) :
    (s.putHere n u f l k bs).mgmt = s.mgmt := by
  unfold State.putHere
  dsimp only
  split
  · refine foldl_keeps State.mgmt (fun t c _ => ?_) s
    split
    · rfl
    · rw [State.storeAt_mgmt, State.keepOlder_mgmt]
  · rw [State.storeAt_mgmt, State.keepOlder_mgmt]

@[simp] theorem State.putPiece_mgmt (n e : Nat) (f : Bool) (p : Piece) (bs : List Byte) (w u : Nat) :
    (s.putPiece n e f p bs w u).mgmt = s.mgmt := by
  unfold State.putPiece
  split
  · exact s.putHere_mgmt n u f _ _ bs
  · split
    · rfl
    · rfl

@[simp] theorem State.putPieces_mgmt (n e : Nat) (f : Bool) (ps : List Piece) (bs : List Byte) (w u : Nat) :
    (s.putPieces n e f ps bs w u).mgmt = s.mgmt := by
  unfold State.putPieces
  induction joinLines ps generalizing s bs with
  | nil => rfl
  | cons p ps ih => rw [State.putRuns, ih, State.putPiece_mgmt]

@[simp] theorem State.engineWrite_mgmt (n e w : Nat) (ps : List Piece) (bs : List Byte) (u : Nat) :
    (s.engineWrite n e w ps bs u).mgmt = s.mgmt := s.putPieces_mgmt n e true ps bs w u

@[simp] theorem State.clearMarks_mgmt (n : Nat) (r : Option (Nat × Nat)) : (s.clearMarks n r).mgmt = s.mgmt := by
  unfold State.clearMarks State.unmarkPending
  split
  · dsimp only
    split
    · rfl
    · rfl
  · rfl

/-! ### Forced suspension (R167) -/

@[simp] theorem State.settleMatrix_mgmt (n : Nat) : (s.settleMatrix n).mgmt = s.mgmt := by
  refine foldl_keeps State.mgmt (fun t f _ => ?_) s
  unfold State.landMatrix
  split
  · rfl
  · rw [State.clearMarks_mgmt, State.engineWrite_mgmt]

@[simp] theorem State.landStrat_mgmt (u : StratRun) (f : StratFlight) : (s.landStrat u f).mgmt = s.mgmt := by
  unfold State.landStrat
  dsimp only
  rw [State.setCore_mgmt]
  split
  · exact s.engineWrite_mgmt _ _ _ _ _ _
  · rfl

@[simp] theorem State.settleStrat_mgmt (n : Nat) : (s.settleStrat n).mgmt = s.mgmt := by
  have settled (u : StratRun) (f : StratFlight) (t : State) : (t.settleFlight u f).1.mgmt = t.mgmt := by
    unfold State.settleFlight
    split
    · rfl
    · exact t.landStrat_mgmt u f
  unfold State.settleStrat
  dsimp only
  split
  · rfl
  · split
    · rw [State.setCluster_mgmt]
      exact foldl_keeps (fun r : State × StratRun => r.1.mgmt) (fun r f _ => settled r.2 f r.1) _
    · rfl

@[simp] theorem State.save_mgmt (n kind : Nat) (x : Bool) : (s.save n kind x).1.mgmt = s.mgmt := by
  unfold State.save
  split
  · rfl
  · dsimp only
    split
    · rfl
    · rw [State.poke_mgmt, State.setCluster_mgmt, State.setPart_mgmt]

@[simp] theorem State.forceOut_mgmt (n kind st : Nat) : (s.forceOut n kind st).mgmt = s.mgmt := by
  have dropped (t : State) : (t.dropReads n).mgmt = t.mgmt := rfl
  have quiet (t : State) : (t.noWaits n).mgmt = t.mgmt := rfl
  unfold State.forceOut
  split
  · rfl
  · dsimp only
    rw [State.perform_mgmt, quiet, State.setCore_mgmt, State.setRecBytes_mgmt, State.setCtl_mgmt, State.save_mgmt, dropped,
      State.settleStrat_mgmt, State.settleMatrix_mgmt, State.setCore_mgmt]

@[simp] theorem State.forceSuspend_mgmt (n kind : Nat) : (s.forceSuspend n kind).mgmt = s.mgmt := by
  unfold State.forceSuspend
  split
  · rfl
  · split
    · rfl
    · rw [State.enterPool_mgmt, State.forceOut_mgmt]

/-! ### Ends of records (R110, R161) -/

@[simp] theorem State.makeRunnable_mgmt (p a : Nat) : (s.makeRunnable p a).mgmt = s.mgmt := by
  unfold State.makeRunnable
  split
  · rfl
  · rw [State.enterPool_mgmt, State.setRecState_mgmt]

@[simp] theorem State.closeGroup_mgmt (p g : Nat) : (s.closeGroup p g).mgmt = s.mgmt := by
  unfold State.closeGroup
  dsimp only
  split
  · rw [State.modPart_mgmt]
    exact foldl_keeps State.mgmt (fun t a _ => t.makeRunnable_mgmt p a) s
  · rfl

@[simp] theorem State.leaveGroups_mgmt (p a : Nat) (gs : List Nat) : (s.leaveGroups p a gs).mgmt = s.mgmt := by
  refine foldl_keeps State.mgmt (fun t g _ => ?_) s
  split
  · rfl
  · dsimp only
    split
    · rfl
    · rw [State.closeGroup_mgmt, State.modPart_mgmt]

@[simp] theorem State.endUnit_mgmt (p a : Nat) (e : UnitEnd) : (s.endUnit p a e).mgmt = s.mgmt := by
  unfold State.endUnit
  dsimp only
  split
  · rfl
  · split
    · rfl
    · split
      · split
        · rfl
        · rfl
      · rfl

@[simp] theorem State.wipeRecord_mgmt (p a : Nat) : (s.wipeRecord p a).mgmt = s.mgmt := by
  unfold State.wipeRecord
  dsimp only
  rw [State.endUnit_mgmt, State.leaveGroups_mgmt, State.setRecState_mgmt]

/-! ### The wipe of a tier (R47) -/

@[simp] theorem State.endWiped_mgmt (p a : Nat) : (State.endWiped p s a).mgmt = s.mgmt := by
  have unlisted (t : State) : (t.unlist p a).mgmt = t.mgmt := rfl
  unfold State.endWiped
  dsimp only
  rw [State.wipeRecord_mgmt, unlisted]
  split
  · exact s.forceSuspend_mgmt _ 3
  · rfl

@[simp] theorem State.wipeWorld_mgmt (p w : Nat) : (s.wipeWorld p w).mgmt = s.mgmt := by
  unfold State.wipeWorld
  dsimp only
  split
  · rw [State.modPart_mgmt]
    exact foldl_keeps State.mgmt (fun t a _ => t.endWiped_mgmt p a) (s.drew 8)
  · rfl

@[simp] theorem State.wipePart_mgmt (p : Nat) : (s.wipePart p).mgmt = s.mgmt :=
  foldl_keeps State.mgmt (fun t w _ => t.wipeWorld_mgmt p w) s

@[simp] theorem State.wipeAll_mgmt : s.wipeAll.mgmt = s.mgmt :=
  foldl_keeps State.mgmt (fun t p _ => t.wipePart_mgmt p) s

/-- Of the management state a wipe destroys the secrets at most. -/
theorem State.wipeTier_mgmt (tier p : Nat) : ∃ b, (s.wipeTier tier p).mgmt = { s.mgmt with secrets := b } := by
  unfold State.wipeTier
  split
  · exact ⟨s.mgmt.secrets, rfl⟩
  · exact ⟨s.mgmt.secrets, s.wipePart_mgmt p⟩
  · exact ⟨s.mgmt.secrets, s.wipeAll_mgmt⟩
  · refine ⟨false, ?_⟩
    rw [State.modMgmt, State.wipeAll_mgmt]

end Sys2Proof.Machine
end
/-! ## What power-on leaves (O55) -/
section
namespace Sys2Proof.Machine

/-- Every general register of a core that has not run reads zero. -/
theorem Core.getG_init (n : Nat) : Core.init.getG n = 0 := by
  unfold Core.getG
  split
  · rfl
  · exact Sparse.get_nil 0 n

/-- Settles O55: no table of the reset state holds an entry, so every accessor answers its default. -/
theorem resetLeavesTheMachineClear : Obligations.ResetLeavesTheMachineClear := by
  unfold Obligations.ResetLeavesTheMachineClear
  intro s
  have core (n : Nat) : s.core n = Core.init := Sparse.get_nil Core.init n
  have measured (c : Fin 2) (i : Nat) : s.meas c i = List.replicate 64 0 := rfl
  have byte (l : Nat) : s.mem.byte l = 0 := Sparse.get_nil Mem.unlisted l
  exact ⟨fun n => ⟨core n, rfl, rfl, rfl⟩, fun n r => Core.getG_init r.toNat, fun n r => rfl, fun k => rfl,
    fun p => ⟨rfl, rfl⟩, fun h => ⟨rfl, rfl⟩, measured, fun v => ⟨rfl, fun q => rfl⟩, rfl, rfl, rfl, rfl, rfl, rfl, rfl,
    rfl, rfl, Mem.wf_init, byte, rfl⟩

end Sys2Proof.Machine
end
/-! ## Resets, stage 0, monitors, readiness and configuration records (O45) -/
section
namespace Sys2Proof.Machine

/-! ### Resets (R30, R31) -/

/-- Where a byte's block lies below a wiped range, it reads as before under every key. -/
theorem Mem.byteUnder_wipe (m : Mem) {l n x : Nat} (h : x / 16 < l / 16) (key : Nat) :
    (m.wipe l n).byteUnder key x = m.byteUnder key x :=
  Mem.byteUnder_congr x (fun y hy => Mem.same_wipe m l n y (by omega)) key

/-- A module reset leaves the memory below the SRAM as it reads under every key. -/
theorem State.byteUnder_keepRing (s : State) {l : Nat} (h : l < 2 ^ 52) (key : Nat) :
    (s.keepRing.wipe sramLo sramLen).byteUnder key l = s.mem.byteUnder key l := by
  unfold State.keepRing Mgmt.elogLoc coronaLoc sramLo
  rw [Mem.byteUnder_wipe _ (by omega), Mem.byteUnder_wipe _ (by omega), Mem.byteUnder_wipe _ (by omega)]

/-- A wipe of the SRAM clears it. -/
theorem Mem.byte_wipe_sram (m : Mem) {l : Nat} (lo : 2 ^ 52 ≤ l) (hi : l < 2 ^ 72) :
    (m.wipe sramLo sramLen).byte l = 0 := by
  rw [Mem.byte_wipe, if_pos]
  unfold sramLo sramLen
  omega

/-- Corona shared memory is no part of it. -/
theorem Mem.byte_wipe_above_sram (m : Mem) {l : Nat} (h : coronaLoc 0 ≤ l) : (m.wipe sramLo sramLen).byte l = m.byte l := by
  rw [Mem.byte_wipe, if_neg]
  unfold sramLo sramLen
  unfold coronaLoc at h
  omega

/-- Of Corona shared memory a module reset keeps the error ring alone. -/
theorem State.byte_keepRing (s : State) {l : Nat} (lo : coronaLoc 0 ≤ l) (hi : l < coronaLoc 0 + 2 ^ 64) :
    s.keepRing.byte l = if s.mgmt.elogLoc ≤ l ∧ l < s.mgmt.elogLoc + 32768 then s.mem.byte l else 0 := by
  have ring : coronaLoc 0 ≤ s.mgmt.elogLoc := Nat.add_le_add_left (Nat.zero_le _) _
  unfold State.keepRing coronaLen elogBytes
  rw [Mem.byte_wipe, Mem.byte_wipe]
  generalize coronaLoc 0 = c at lo hi ring ⊢
  generalize s.mgmt.elogLoc = r at ring ⊢
  by_cases above : r + 32768 ≤ l
  · rw [if_pos (by omega), if_neg (by omega)]
  · rw [if_neg (by omega)]
    by_cases below : l < r
    · rw [if_pos (by omega), if_neg (by omega)]
    · rw [if_neg (by omega), if_pos (by omega)]

/-! ### Stage 0 (R31, R36) -/

@[simp] theorem State.raw_startHart (s : State) (h : HartId) (a : Word64) (l n : Nat) :
    (s.startHart h a).raw l n = s.raw l n := rfl

/-- Starting a hart changes the harts alone. -/
theorem State.startHart_mgmt (s : State) (h : HartId) (a : Word64) :
    (s.startHart h a).mgmt = { s.mgmt with harts := (s.startHart h a).mgmt.harts } := rfl

/-- A hart after its start: one that runs goes on. -/
def Hart.started (x : Hart) (a : Word64) : Hart := if x.running then x else { x with running := true, pc := a }

theorem Hart.started_of_waiting {x : Hart} (h : x.running = false) (a : Word64) :
    x.started a = { x with running := true, pc := a } := by
  rw [Hart.started, h]
  rfl

theorem State.hartOf_startHart (s : State) (h g : HartId) (a : Word64) :
    (s.startHart h a).hartOf g = if g = h then (s.hartOf h).started a else s.hartOf g := by
  rw [State.startHart, State.modHart, State.hartOf_setHart]
  rfl

/-- The accepted identity record's chain, and nonce slots of zeros, put into a complex's memory. -/
def State.withIdentity (s : State) (c : Fin 2) (chain : List Byte) : State :=
  (s.fillIdentity c chain).poke (mgmtLoc c 0xE000) (List.replicate 8192 (0 : Byte))

@[simp] theorem State.withIdentity_mgmt (s : State) (c : Fin 2) (chain : List Byte) :
    (s.withIdentity c chain).mgmt = s.mgmt := by
  rw [State.withIdentity, State.poke_mgmt, State.fillIdentity, State.poke_mgmt, State.poke_mgmt, State.poke_mgmt,
    State.poke_mgmt]

/-- The certificate chain stands at 0xD000 (R36). -/
theorem State.raw_withIdentity_chain (s : State) (c : Fin 2) {chain : List Byte} (h : chain.length = 3960) :
    (s.withIdentity c chain).raw (mgmtLoc c 0xD000) 3960 = chain := by
  unfold State.withIdentity State.fillIdentity
  rw [State.raw_poke_outside _ (.inl (by unfold mgmtLoc; omega)), ← h]
  exact State.raw_poke _ _ chain

/-- The nonce slots are zeros (R409). -/
theorem State.raw_withIdentity_slots (s : State) (c : Fin 2) (chain : List Byte) :
    (s.withIdentity c chain).raw (mgmtLoc c 0xE000) 8192 = List.replicate 8192 0 := by
  have stands := State.raw_poke (s.fillIdentity c chain) (mgmtLoc c 0xE000) (List.replicate 8192 (0 : Byte))
  rwa [List.length_replicate] at stands

/-- Stage 0 derives the secrets on the first complex that runs it, and marks its own as done (R31, R35). -/
def State.enterStage0 (s : State) : State :=
  s.modMgmt (fun m => { m with
    secrets := m.secrets || m.staged.isEmpty, staged := Marks.add s.hid.cplx.val m.staged })

section
variable {s : State}

theorem exec_stage0_again (h : Marks.has s.hid.cplx.val s.mgmt.staged = true) : exec .stage0 s = .next s := by
  change execStage0 s = _
  rw [execStage0, if_pos h]

variable (h : Marks.has s.hid.cplx.val s.mgmt.staged = false)
include h

theorem exec_stage0_accepts (ok : identityOk (s.identityRecord s.hid.cplx) = true) :
    exec .stage0 s =
      let t := s.enterStage0.withIdentity s.hid.cplx (sliceB 8 3960 (s.identityRecord s.hid.cplx))
      .next (if s.hid.cplx = s.mgmt.zenith then t.startHart ⟨s.hid.cplx, 0⟩ (reg firstStageAt) else t) := by
  change execStage0 s = _
  rw [execStage0, if_neg (by rw [h]; decide), if_pos ok]
  rfl

theorem exec_stage0_refuses (bad : identityOk (s.identityRecord s.hid.cplx) = false) :
    exec .stage0 s = .next ((s.enterStage0.modMgmt (fun m => { m with mismatch := true })).say .identityMismatch) := by
  change execStage0 s = _
  rw [execStage0, if_neg (by rw [h]; decide), if_neg (by rw [bad]; decide)]
  rfl
end

/-- What an accepted identity record leaves: the identity area filled, the Zenith's hart 0 started (R31, R36). -/
theorem stage0_accepts {s : State} (h : Marks.has s.hid.cplx.val s.mgmt.staged = false)
    (ok : identityOk (s.identityRecord s.hid.cplx) = true) : let c := s.hid.cplx
    Answers .stage0 s (fun t => t.mgmt = { s.enterStage0.mgmt with harts := t.mgmt.harts }
      ∧ t.raw (mgmtLoc c 0xD000) 3960 = sliceB 8 3960 (s.identityRecord c)
      ∧ t.raw (mgmtLoc c 0xE000) 8192 = List.replicate 8192 0
      ∧ (c = s.mgmt.zenith → (s.hartOf ⟨c, 0⟩).running = false →
          t.hartOf ⟨c, 0⟩ = { s.hartOf ⟨c, 0⟩ with running := true, pc := BitVec.ofNat 64 firstStageAt })
      ∧ (c ≠ s.mgmt.zenith → t.hartOf ⟨c, 0⟩ = s.hartOf ⟨c, 0⟩)) := by
  intro c
  have chain := s.enterStage0.raw_withIdentity_chain c (length_sliceB 8 3960 (s.identityRecord c))
  have slots := s.enterStage0.raw_withIdentity_slots c (sliceB 8 3960 (s.identityRecord c))
  refine ⟨_, exec_stage0_accepts h ok, ?_⟩
  have mgmt := s.enterStage0.withIdentity_mgmt c (sliceB 8 3960 (s.identityRecord c))
  generalize s.enterStage0.withIdentity c (sliceB 8 3960 (s.identityRecord c)) = t at chain slots mgmt ⊢
  have harts (h : HartId) : t.hartOf h = s.hartOf h := by
    rw [State.hartOf, mgmt]
    rfl
  dsimp only
  by_cases hz : c = s.mgmt.zenith
  · rw [if_pos hz, State.raw_startHart, State.raw_startHart, State.startHart_mgmt, mgmt, State.hartOf_startHart,
      if_pos rfl, harts]
    exact ⟨rfl, chain, slots, fun _ waiting => Hart.started_of_waiting waiting _, fun other => absurd hz other⟩
  · rw [if_neg hz, mgmt]
    exact ⟨rfl, chain, slots, fun zenith => absurd zenith hz, fun _ => harts _⟩

/-! ### Monitors (R51, R52) -/

/-- The monitor registers after a reading. -/
def Monitor.afterReading (m : Monitor) (r : DieReading) : Monitor :=
  let t := reached r.temp m.tthrot
  { m with
    temp := Sparse.set r.die r.temp m.temp, vcore := Sparse.set r.die r.vcore m.vcore,
    proc := Sparse.set r.die r.proc m.proc, warn := dieBit m.warn r.die (reached r.temp m.twarn),
    throt := dieBit m.throt r.die t, volt := dieBit m.volt r.die (m.railOut r.die r.vcore),
    hot := if t then m.hot ||| (1#7 <<< r.die) else m.hot &&& ~~~(1#7 <<< r.die) }

/-- A reading's values and bits, with an entry for each bit that it newly sets. -/
def State.noteReading (s : State) (r : DieReading) : State :=
  let m := s.mgmt.mon
  let m' := m.afterReading r
  let s := s.modMgmt (fun g => { g with mon := m' })
  let s := if m'.warn = m.warn then s else s.logError ⟨1, 816 + r.die, none, 0, monSyn r.die r.temp⟩
  let s := if m'.throt = m.throt then s else s.logError ⟨2, 816 + r.die, none, 0, monSyn r.die r.temp⟩
  if m'.volt = m.volt then s else s.logError ⟨4, 816 + r.die, none, 0, monSyn r.die r.vcore⟩

/-- The entry of a reading at TTRIP. -/
def tripEntry (r : DieReading) : LogEntry := ⟨3, 816 + r.die, none, 0, monSyn r.die r.temp⟩

theorem State.readDie_of_no_die (s : State) {r : DieReading} (h : ¬ r.die < 7) : s.readDie r = s := by
  rw [State.readDie, if_pos (by omega)]

theorem State.readDie_of_die (s : State) {r : DieReading} (h : r.die < 7) :
    s.readDie r = if reached r.temp s.mgmt.mon.ttrip then
      { (s.noteReading r).logError (tripEntry r) with stopped := true } else s.noteReading r := by
  rw [State.readDie, if_neg (by omega)]
  rfl

theorem logsOnly_noteReading (s : State) (r : DieReading) :
    LogsOnly (s.modMgmt (fun g => { g with mon := s.mgmt.mon.afterReading r })) (s.noteReading r) := by
  have log {t u : State} {c : Prop} [Decidable c] (e : LogEntry) (h : LogsOnly t u) :
      LogsOnly t (if c then u else u.logError e) := .ite h (h.trans (logsOnly_logError u e))
  exact log _ (log _ (log _ (.refl _)))

theorem State.mon_noteReading (s : State) (r : DieReading) : (s.noteReading r).mgmt.mon = s.mgmt.mon.afterReading r := by
  obtain ⟨⟨_, _, hm⟩, -⟩ := logsOnly_noteReading s r
  rw [hm]
  rfl

theorem State.stopped_noteReading (s : State) (r : DieReading) : (s.noteReading r).stopped = s.stopped :=
  (logsOnly_noteReading s r).2

/-- A reading of a die sets its registers, whether or not it stops the module. -/
theorem State.mon_readDie (s : State) {r : DieReading} (h : r.die < 7) :
    (s.readDie r).mgmt.mon = s.mgmt.mon.afterReading r := by
  rw [State.readDie_of_die s h]
  split
  · obtain ⟨⟨_, _, hm⟩, -⟩ := logsOnly_logError (s.noteReading r) (tripEntry r)
    simp only [hm, State.mon_noteReading]
  · exact s.mon_noteReading r

/-- A reading leaves TTRIP. -/
theorem State.ttrip_readDie (s : State) (r : DieReading) : (s.readDie r).mgmt.mon.ttrip = s.mgmt.mon.ttrip := by
  by_cases h : r.die < 7
  · rw [State.mon_readDie s h]
    rfl
  · rw [State.readDie_of_no_die s h]

/-- Is this a reading of a die at TTRIP? -/
def tripsAt (ttrip : BitVec 16) (r : DieReading) : Bool := decide (r.die < 7) && !r.temp.slt ttrip

/-- A reading stops the module at TTRIP only. -/
theorem State.stopped_readDie (s : State) (r : DieReading) :
    (s.readDie r).stopped = (s.stopped || tripsAt s.mgmt.mon.ttrip r) := by
  by_cases h : r.die < 7
  · rw [State.readDie_of_die s h]
    cases ht : r.temp.slt s.mgmt.mon.ttrip <;> simp [reached, tripsAt, ht, h, State.stopped_noteReading]
  · simp [State.readDie_of_no_die s h, tripsAt, h]

theorem State.stopped_foldl_readDie (s : State) (rs : List DieReading) :
    (rs.foldl State.readDie s).stopped = (s.stopped || rs.any (tripsAt s.mgmt.mon.ttrip)) := by
  induction rs generalizing s with
  | nil => simp
  | cons r rs ih => rw [List.foldl_cons, ih, State.stopped_readDie, State.ttrip_readDie, List.any_cons, Bool.or_assoc]

/-- A reading sets a die's bit where it is at the threshold or above it. -/
theorem dieBit_reached (m : BitVec 7) (d : Nat) (x t : BitVec 16) :
    dieBit m d (reached x t) = m ||| (if x.slt t then 0 else 1#7 <<< d) := by
  cases h : x.slt t <;> simp [dieBit, reached, h]

/-- A bit that is set stays as it is. -/
theorem dieBit_of_set {m : BitVec 7} {d : Nat} {b : Bool} (h : b = true → m.getLsbD d = true) : dieBit m d b = m := by
  cases b with
  | false => rfl
  | true =>
    have set := h rfl
    refine BitVec.eq_of_getLsbD_eq (fun i hi => ?_)
    by_cases hd : i = d
    · subst hd
      simp [dieBit, set]
    · simp [dieBit]
      omega

/-- The rule of R51 for a rail, as a proposition. -/
theorem Monitor.railOut_iff (m : Monitor) (d : Nat) (v : BitVec 16) : m.railOut d v = true ↔
    ∃ r, Sparse.find? d m.rail = some r ∧ (20 * v.toNat < 19 * r.toNat ∨ 21 * r.toNat < 20 * v.toNat) := by
  unfold Monitor.railOut
  cases Sparse.find? d m.rail <;> simp

/-- A reading that newly sets no bit leaves no entry. -/
theorem State.noteReading_of_no_new_bit {s : State} {r : DieReading}
    (hw : s.mgmt.mon.warn.getLsbD r.die = true) (ht : s.mgmt.mon.throt.getLsbD r.die = true)
    (hv : s.mgmt.mon.railOut r.die r.vcore = true → s.mgmt.mon.volt.getLsbD r.die = true) :
    s.noteReading r = s.modMgmt (fun g => { g with mon := s.mgmt.mon.afterReading r }) := by
  have warn : (s.mgmt.mon.afterReading r).warn = s.mgmt.mon.warn := dieBit_of_set (fun _ => hw)
  have throt : (s.mgmt.mon.afterReading r).throt = s.mgmt.mon.throt := dieBit_of_set (fun _ => ht)
  have volt : (s.mgmt.mon.afterReading r).volt = s.mgmt.mon.volt := dieBit_of_set hv
  simp only [State.noteReading, warn, throt, volt, if_true]

theorem exec_monitorUpdate (s : State) (rs : List DieReading) :
    exec (.monitorUpdate rs) s = .next (rs.foldl State.readDie s) := rfl

/-- A reading of a die, at TTRIP, that newly sets no bit (R52). -/
theorem State.readDie_of_trip {s : State} {r : DieReading} (h : r.die < 7) (trip : r.temp.slt s.mgmt.mon.ttrip = false)
    (hw : s.mgmt.mon.warn.getLsbD r.die = true) (ht : s.mgmt.mon.throt.getLsbD r.die = true)
    (hv : s.mgmt.mon.railOut r.die r.vcore = true → s.mgmt.mon.volt.getLsbD r.die = true) :
    s.readDie r = { (s.modMgmt (fun g => { g with mon := s.mgmt.mon.afterReading r })).logError (tripEntry r) with
      stopped := true } := by
  rw [State.readDie_of_die s h, State.noteReading_of_no_new_bit hw ht hv, if_pos (by simp [reached, trip])]

/-- A voltage fault of a die by its last reading, once it has lasted (R52). -/
theorem exec_voltageFaultTimeout {s : State} {die : Nat} (h : die < 7)
    (out : s.mgmt.mon.railOut die (Sparse.get s.mgmt.mon.vcore 0 die) = true) :
    exec (.voltageFaultTimeout die) s = .next { s.logError
      ⟨5, 816 + die, none, 0, monSyn die (Sparse.get s.mgmt.mon.vcore 0 die)⟩ with stopped := true } := by
  change execVoltageFaultTimeout die s = _
  have go : ¬ (decide (7 ≤ die) || !s.mgmt.mon.railOut die (Sparse.get s.mgmt.mon.vcore 0 die)) = true := by
    rw [out]
    simp [h]
  rw [execVoltageFaultTimeout, if_neg go]

/-- The resets' and monitors' part of O45. -/
theorem resetsAndStops : Claim.ResetsAndStops := by
  intro s corona out
  have rail (die : Nat) (v : BitVec 16) : s.mgmt.mon.railOut die v = true ↔ out die v := Monitor.railOut_iff _ die v
  refine ⟨⟨_, rfl, rfl, rfl, rfl, rfl, rfl, rfl, rfl, rfl, rfl, rfl, rfl, rfl, rfl, rfl, rfl, ?moduleMemory⟩,
    ⟨_, rfl, rfl, rfl, rfl, rfl, rfl, rfl, rfl, rfl, ?powerOnMemory⟩,
    ⟨fun again => ⟨s, exec_stage0_again again, rfl⟩,
      fun first => ⟨fun ok => stage0_accepts first ok, fun bad => ⟨_, exec_stage0_refuses first bad, rfl, rfl, rfl⟩⟩⟩,
    fun rs => ⟨_, exec_monitorUpdate s rs, s.stopped_foldl_readDie rs⟩,
    fun r hr => ⟨_, exec_monitorUpdate s [r], ?read⟩,
    fun r hr trip hw ht hv => ⟨_, exec_monitorUpdate s [r], ?trips⟩,
    fun die hd hv => ⟨_, exec_voltageFaultTimeout hd ((rail _ _).2 hv), rfl, logs_logError_stops _ rfl rfl rfl⟩⟩
  case moduleMemory =>
    exact ⟨fun l hl => s.byteUnder_keepRing hl, fun l => Mem.byte_wipe_sram s.keepRing,
      fun l hl => (Mem.byte_wipe_above_sram s.keepRing hl.1).trans (s.byte_keepRing hl.1 hl.2)⟩
  case powerOnMemory =>
    intro l lo hl
    obtain hi | shared := hl
    · exact Mem.byte_wipe_sram _ lo hi
    · refine (Mem.byte_wipe_above_sram _ shared.1).trans ?_
      rw [Mem.byte_wipe]
      exact if_pos shared
  case read =>
    dsimp only [List.foldl_cons, List.foldl_nil]
    rw [State.mon_readDie s hr]
    refine ⟨Sparse.get_set_same _ _ _ _, Sparse.get_set_same _ _ _ _, Sparse.get_set_same _ _ _ _, dieBit_reached _ _ _ _,
      dieBit_reached _ _ _ _, fun hv => ?_, fun hv => ?_, rfl⟩
    · simp [Monitor.afterReading, (rail _ _).2 hv, dieBit]
    · simp [Monitor.afterReading, mt (rail _ _).1 hv, dieBit]
  case trips =>
    rw [List.foldl_cons, List.foldl_nil, State.readDie_of_trip hr trip hw ht (fun h => hv ((rail _ _).1 h))]
    exact ⟨rfl, logs_logError_stops (tripEntry r) rfl rfl rfl⟩

/-! ### Readiness (R32, R33) -/

theorem exec_functionReady {s : State} {b : Nat} (h : isFunction b = true)
    (link : ∀ l, linkOf b = some l → Marks.has l s.mgmt.ready = true) (hr : Marks.has b s.mgmt.ready = false)
    (hf : Marks.has b s.mgmt.failed = false) : exec (.functionReady b) s = .next (s.modMgmt (fun m =>
      { m with ready := Marks.add b m.ready, readychg := true })) := by
  change execFunctionReady b s = _
  unfold execFunctionReady
  cases hl : linkOf b with
  | none => simp [h, hr, hf]
  | some l => simp [h, hr, hf, link l hl]

/-- A function that misses its limit is marked failed, and a pod port among them for want of its far end. -/
def Mgmt.missed (m : Mgmt) (b : Nat) : Mgmt :=
  { m with failed := Marks.add b m.failed, readychg := true,
           farEnd := if 769 ≤ b ∧ b < 805 then Marks.add b m.farEnd else m.farEnd }

theorem exec_readinessLimitMissed {s : State} {b : Nat} (h : isFunction b = true)
    (hr : Marks.has b s.mgmt.ready = false) (hf : Marks.has b s.mgmt.failed = false) :
    exec (.readinessLimitMissed b) s = .next ((s.modMgmt (fun m => m.missed b)).logError (readyEntry b)) := by
  change execReadinessLimitMissed b s = _
  simp only [execReadinessLimitMissed, h, hr, hf, Bool.not_false, Bool.and_self, if_true]
  rfl

/-- A function that fails in service. -/
def Mgmt.failedInService (m : Mgmt) (b : Nat) : Mgmt :=
  { m with ready := Marks.del b m.ready, failed := Marks.add b m.failed, readychg := true }

theorem exec_functionFailedInService {s : State} {b : Nat} (h : Marks.has b s.mgmt.ready = true) :
    exec (.functionFailedInService b) s = .next ((s.modMgmt (fun m => m.failedInService b)).logError (readyEntry b)) := by
  change execFunctionFailedInService b s = _
  rw [execFunctionFailedInService, if_pos h]
  rfl

theorem exec_podPortReturnsToService {s : State} {b : Nat} (h : Marks.has (769 + b) s.mgmt.farEnd = true) :
    exec (.podPortReturnsToService b) s = .next (s.modMgmt (fun m => { m with
      ready := Marks.add (769 + b) m.ready, failed := Marks.del (769 + b) m.failed,
      farEnd := Marks.del (769 + b) m.farEnd, readychg := true })) := by
  change execPodPortReturnsToService b s = _
  rw [execPodPortReturnsToService, if_pos h]

theorem Mgmt.has_failed_missed (m : Mgmt) (b x : Nat) :
    Marks.has x (m.missed b).failed = (decide (x = b) || Marks.has x m.failed) := Marks.has_add b x m.failed

theorem Mgmt.farEnd_missed (m : Mgmt) {b : Nat} (lo : 769 ≤ b) (hi : b < 805) : Marks.has b (m.missed b).farEnd = true := by
  have added : (m.missed b).farEnd = Marks.add b m.farEnd := if_pos ⟨lo, hi⟩
  simp [added, Marks.has_add]

theorem Mgmt.has_ready_failedInService (m : Mgmt) (b x : Nat) :
    Marks.has x (m.failedInService b).ready = (!decide (x = b) && Marks.has x m.ready) := Marks.has_del b x m.ready

theorem Mgmt.has_failed_failedInService (m : Mgmt) (b x : Nat) :
    Marks.has x (m.failedInService b).failed = (decide (x = b) || Marks.has x m.failed) := Marks.has_add b x m.failed

/-! ### A record sets a field of the module (R38) -/

section
variable {γ : Type} (m : Mgmt) (field seq : Nat) (v : Option (BitVec 16)) (f : Monitor → BitVec 16 → Monitor)

/-- A field keeps its value, or takes the record's under the record's number. -/
theorem Mgmt.setField_cases : m.setField field seq v f = m
    ∨ ∃ x, m.setField field seq v f = { m with fieldSeq := Sparse.set field seq m.fieldSeq, mon := f m.mon x } := by
  unfold Mgmt.setField
  cases v with
  | none => exact .inl rfl
  | some x =>
    dsimp only
    split
    · exact .inl rfl
    · exact .inr ⟨x, rfl⟩

/-- A register that is neither a monitor's nor a field's number stays. -/
theorem Mgmt.setField_keeps (g : Mgmt → γ) (h : ∀ (m : Mgmt) seqs mon, g { m with fieldSeq := seqs, mon := mon } = g m) :
    g (m.setField field seq v f) = g m := by
  obtain e | ⟨x, e⟩ := m.setField_cases field seq v f
  · rw [e]
  · rw [e, h]

/-- A monitor register that the field is no part of stays. -/
theorem Mgmt.mon_setField_keeps (g : Monitor → γ) (h : ∀ q x, g (f q x) = g q) :
    g (m.setField field seq v f).mon = g m.mon := by
  obtain e | ⟨x, e⟩ := m.setField_cases field seq v f
  · rw [e]
  · rw [e]
    exact h m.mon x

theorem Mgmt.fieldSeq_setField_other {n : Nat} (h : n ≠ field) :
    Sparse.get (m.setField field seq v f).fieldSeq 0 n = Sparse.get m.fieldSeq 0 n := by
  obtain e | ⟨x, e⟩ := m.setField_cases field seq v f
  · rw [e]
  · rw [e]
    exact Sparse.get_set_other seq 0 m.fieldSeq h

/-- A value that a record holds is set unless a later record has set the field. -/
theorem Mgmt.mon_setField_some (x : BitVec 16) :
    (m.setField field seq (some x) f).mon = if seq < Sparse.get m.fieldSeq 0 field then m.mon else f m.mon x := by
  unfold Mgmt.setField Mgmt.fieldNewer
  by_cases later : seq < Sparse.get m.fieldSeq 0 field <;> simp [later]
end

/-! ### The rails -/

/-- The rail of one die, as a record sets it. -/
def Mgmt.setRail (r : Record) (m : Mgmt) (d : Nat) : Mgmt :=
  m.setField (16 + d) r.seq (Config.recordRail r.type d r.payload) (fun q x => { q with rail := Sparse.set d x q.rail })

theorem Mgmt.setRails_eq (m : Mgmt) (r : Record) : m.setRails r = (upFrom 0 7).foldl (Mgmt.setRail r) m := rfl

/-- The rails of other dies keep a die's number and value. -/
theorem Mgmt.setRail_others (r : Record) (m : Mgmt) {d : Nat} {ds : List Nat} (h : d ∉ ds) :
    Sparse.get (ds.foldl (Mgmt.setRail r) m).fieldSeq 0 (16 + d) = Sparse.get m.fieldSeq 0 (16 + d)
      ∧ Sparse.find? d (ds.foldl (Mgmt.setRail r) m).mon.rail = Sparse.find? d m.mon.rail := by
  have apart {c : Nat} (hc : c ∈ ds) : d ≠ c := fun e => h (e ▸ hc)
  refine ⟨foldl_keeps (fun m : Mgmt => Sparse.get m.fieldSeq 0 (16 + d)) (fun m c hc => ?_) m,
    foldl_keeps (fun m : Mgmt => Sparse.find? d m.mon.rail) (fun m c hc => ?_) m⟩
  · exact Mgmt.fieldSeq_setField_other m _ _ _ _ (by have := apart hc; omega)
  · exact Mgmt.mon_setField_keeps m _ _ _ _ (fun q : Monitor => Sparse.find? d q.rail)
      (fun q x => Sparse.find?_set_other x q.rail (apart hc))

/-- A record's value for a die's rail is set unless a later record has set it (R51). -/
theorem Mgmt.rail_setRails (m : Mgmt) (r : Record) {d : Nat} {x : BitVec 16} (h : d < 7)
    (hx : Config.recordRail r.type d r.payload = some x) (fresh : ¬ r.seq < Sparse.get m.fieldSeq 0 (16 + d)) :
    Sparse.find? d (m.setRails r).mon.rail = some x := by
  have dies : upFrom 0 7 = upFrom 0 d ++ d :: upFrom (d + 1) (6 - d) := by
    have cut := upFrom_add 0 d (6 - d + 1)
    rwa [Nat.zero_add, show d + (6 - d + 1) = 7 by omega] at cut
  have before : d ∉ upFrom 0 d := by simp [mem_upFrom]
  have after : d ∉ upFrom (d + 1) (6 - d) := by simp [mem_upFrom]
  rw [Mgmt.setRails_eq, dies, List.foldl_append, List.foldl_cons, (Mgmt.setRail_others r _ after).2, Mgmt.setRail, hx,
    Mgmt.mon_setField_some, (Mgmt.setRail_others r m before).1, if_neg fresh]
  exact Sparse.find?_set_same d x _

/-- The rails' fields are the rails alone. -/
theorem Mgmt.setRails_keeps {γ : Type} (m : Mgmt) (r : Record) (g : Mgmt → γ)
    (h : ∀ (m : Mgmt) seqs mon, g { m with fieldSeq := seqs, mon := mon } = g m) : g (m.setRails r) = g m :=
  foldl_keeps g (fun m _ _ => Mgmt.setField_keeps m _ _ _ _ g h) m

theorem Mgmt.mon_setRails_keeps {γ : Type} (m : Mgmt) (r : Record) (g : Monitor → γ)
    (h : ∀ (q : Monitor) rail, g { q with rail := rail } = g q) : g (m.setRails r).mon = g m.mon :=
  foldl_keeps (fun m : Mgmt => g m.mon) (fun m _ _ => Mgmt.mon_setField_keeps m _ _ _ _ g (fun q _ => h q _)) m

theorem Mgmt.mon_setRails (m : Mgmt) (r : Record) :
    (m.setRails r).mon = { m.mon with rail := (m.setRails r).mon.rail } := by
  have rest := m.mon_setRails_keeps r (fun q => { q with rail := [] }) (fun _ _ => rfl)
  exact congrArg (fun q : Monitor => { q with rail := (m.setRails r).mon.rail }) rest

/-- Rails are set under numbers from 16 on. -/
theorem Mgmt.fieldSeq_setRails (m : Mgmt) (r : Record) {n : Nat} (h : n < 16) :
    Sparse.get (m.setRails r).fieldSeq 0 n = Sparse.get m.fieldSeq 0 n :=
  foldl_keeps (fun m : Mgmt => Sparse.get m.fieldSeq 0 n)
    (fun m _ _ => Mgmt.fieldSeq_setField_other m _ _ _ _ (by omega)) m

/-! ### The thresholds -/

/-- The three thresholds, each as a record sets it. -/
def Mgmt.setTwarn (m : Mgmt) (r : Record) : Mgmt :=
  m.setField 0 r.seq (Config.recordThreshold 0 r.payload) (fun q x => { q with twarn := x })
def Mgmt.setTthrot (m : Mgmt) (r : Record) : Mgmt :=
  m.setField 1 r.seq (Config.recordThreshold 1 r.payload) (fun q x => { q with tthrot := x })
def Mgmt.setTtrip (m : Mgmt) (r : Record) : Mgmt :=
  m.setField 2 r.seq (Config.recordThreshold 2 r.payload)
    (fun q x => { q with ttrip := if x.slt q.ttrip then x else q.ttrip })

theorem Mgmt.setThresholds_eq (m : Mgmt) (r : Record) : m.setThresholds r = ((m.setTwarn r).setTthrot r).setTtrip r := rfl

theorem Mgmt.setThresholds_keeps {γ : Type} (m : Mgmt) (r : Record) (g : Mgmt → γ)
    (h : ∀ (m : Mgmt) seqs mon, g { m with fieldSeq := seqs, mon := mon } = g m) : g (m.setThresholds r) = g m := by
  rw [Mgmt.setThresholds_eq, Mgmt.setTtrip, Mgmt.setField_keeps _ _ _ _ _ g h, Mgmt.setTthrot,
    Mgmt.setField_keeps _ _ _ _ _ g h, Mgmt.setTwarn, Mgmt.setField_keeps _ _ _ _ _ g h]

theorem Mgmt.mon_setTwarn_keeps {γ : Type} (m : Mgmt) (r : Record) (g : Monitor → γ)
    (h : ∀ (q : Monitor) x, g { q with twarn := x } = g q) : g (m.setTwarn r).mon = g m.mon :=
  Mgmt.mon_setField_keeps m _ _ _ _ g h

theorem Mgmt.mon_setTthrot_keeps {γ : Type} (m : Mgmt) (r : Record) (g : Monitor → γ)
    (h : ∀ (q : Monitor) x, g { q with tthrot := x } = g q) : g (m.setTthrot r).mon = g m.mon :=
  Mgmt.mon_setField_keeps m _ _ _ _ g h

theorem Mgmt.mon_setTtrip_keeps {γ : Type} (m : Mgmt) (r : Record) (g : Monitor → γ)
    (h : ∀ (q : Monitor) x, g { q with ttrip := x } = g q) : g (m.setTtrip r).mon = g m.mon :=
  Mgmt.mon_setField_keeps m _ _ _ _ g (fun q _ => h q _)

theorem Mgmt.rail_setThresholds (m : Mgmt) (r : Record) : (m.setThresholds r).mon.rail = m.mon.rail := by
  rw [Mgmt.setThresholds_eq, Mgmt.mon_setTtrip_keeps _ r Monitor.rail (fun _ _ => rfl),
    Mgmt.mon_setTthrot_keeps _ r Monitor.rail (fun _ _ => rfl), Mgmt.mon_setTwarn_keeps _ r Monitor.rail (fun _ _ => rfl)]

theorem Mgmt.twarn_setThresholds (m : Mgmt) (r : Record) {x : BitVec 16}
    (hx : Config.recordThreshold 0 r.payload = some x) :
    (m.setThresholds r).mon.twarn = if r.seq < Sparse.get m.fieldSeq 0 0 then m.mon.twarn else x := by
  rw [Mgmt.setThresholds_eq, Mgmt.mon_setTtrip_keeps _ r Monitor.twarn (fun _ _ => rfl),
    Mgmt.mon_setTthrot_keeps _ r Monitor.twarn (fun _ _ => rfl), Mgmt.setTwarn, hx, Mgmt.mon_setField_some]
  split
  · rfl
  · rfl

theorem sle_refl {w : Nat} (x : BitVec w) : x.sle x = true := by
  rw [BitVec.sle_iff_toInt_le]

theorem Mgmt.ttrip_setTtrip (m : Mgmt) (r : Record) : (m.setTtrip r).mon.ttrip.sle m.mon.ttrip = true := by
  obtain e | ⟨x, e⟩ := m.setField_cases 2 r.seq (Config.recordThreshold 2 r.payload)
    (fun q x => { q with ttrip := if x.slt q.ttrip then x else q.ttrip })
  · rw [Mgmt.setTtrip, e]
    exact sle_refl _
  · rw [Mgmt.setTtrip, e]
    dsimp only
    split
    · next below =>
      rw [BitVec.slt_iff_toInt_lt] at below
      rw [BitVec.sle_iff_toInt_le]
      omega
    · exact sle_refl _

/-- TTRIP only falls (R51). -/
theorem Mgmt.ttrip_setThresholds (m : Mgmt) (r : Record) : (m.setThresholds r).mon.ttrip.sle m.mon.ttrip = true := by
  have falls := ((m.setTwarn r).setTthrot r).ttrip_setTtrip r
  rwa [Mgmt.mon_setTthrot_keeps _ r Monitor.ttrip (fun _ _ => rfl),
    Mgmt.mon_setTwarn_keeps _ r Monitor.ttrip (fun _ _ => rfl)] at falls

/-! ### What a record applies -/

theorem Mgmt.records_applyRecord (m : Mgmt) (r : Record) : (m.applyRecord r).records = m.records := by
  have rails := m.setRails_keeps r Mgmt.records (fun _ _ _ => rfl)
  unfold Mgmt.applyRecord
  dsimp only
  split
  · exact (Mgmt.setThresholds_keeps _ r Mgmt.records (fun _ _ _ => rfl)).trans rails
  · split
    · exact rails
    · exact rails

theorem Mgmt.dbg_applyRecord (m : Mgmt) (r : Record) (h : r.type ≠ 5) : (m.applyRecord r).dbg = m.dbg := by
  have rails := m.setRails_keeps r Mgmt.dbg (fun _ _ _ => rfl)
  unfold Mgmt.applyRecord
  dsimp only
  rw [if_neg h]
  split
  · exact (Mgmt.setThresholds_keeps _ r Mgmt.dbg (fun _ _ _ => rfl)).trans rails
  · exact rails

theorem Mgmt.mon_applyRecord (m : Mgmt) (r : Record) :
    (m.applyRecord r).mon = if r.type = 3 then ((m.setRails r).setThresholds r).mon else (m.setRails r).mon := by
  unfold Mgmt.applyRecord
  dsimp only
  split
  · rfl
  · split
    · rfl
    · rfl

theorem Mgmt.mon_applyRecord_of_no_thresholds (m : Mgmt) (r : Record) (h : r.type ≠ 3) :
    (m.applyRecord r).mon = { m.mon with rail := (m.applyRecord r).mon.rail } := by
  rw [Mgmt.mon_applyRecord, if_neg h]
  exact m.mon_setRails r

theorem Mgmt.twarn_applyRecord (m : Mgmt) (r : Record) (h : r.type = 3) {x : BitVec 16}
    (hx : Config.recordThreshold 0 r.payload = some x) :
    (m.applyRecord r).mon.twarn = if r.seq < Sparse.get m.fieldSeq 0 0 then m.mon.twarn else x := by
  have rails : (m.setRails r).mon.twarn = m.mon.twarn := m.mon_setRails_keeps r Monitor.twarn (fun _ _ => rfl)
  rw [Mgmt.mon_applyRecord, if_pos h, Mgmt.twarn_setThresholds _ r hx, rails, m.fieldSeq_setRails r (by decide)]

theorem Mgmt.rail_applyRecord (m : Mgmt) (r : Record) {d : Nat} {x : BitVec 16} (h : d < 7)
    (hx : Config.recordRail r.type d r.payload = some x) (fresh : ¬ r.seq < Sparse.get m.fieldSeq 0 (16 + d)) :
    Sparse.find? d (m.applyRecord r).mon.rail = some x := by
  have rails : (m.applyRecord r).mon.rail = (m.setRails r).mon.rail := by
    rw [Mgmt.mon_applyRecord]
    split
    · exact Mgmt.rail_setThresholds _ r
    · rfl
  rw [rails]
  exact m.rail_setRails r h hx fresh

theorem Mgmt.ttrip_applyRecord (m : Mgmt) (r : Record) : (m.applyRecord r).mon.ttrip.sle m.mon.ttrip = true := by
  have rails : (m.setRails r).mon.ttrip = m.mon.ttrip := m.mon_setRails_keeps r Monitor.ttrip (fun _ _ => rfl)
  rw [Mgmt.mon_applyRecord, ← rails]
  split
  · exact Mgmt.ttrip_setThresholds _ r
  · exact sle_refl _

/-! ### CONFIG_RECORD_APPLY (R38) -/

/-- The number of a record's own field: its type and target. -/
def Record.number (r : Record) : Nat := r.type * 2 ^ 16 + r.target

/-- The entry of a skipped record at an offset of F (log 29). -/
def skipEntry (r : Record) (off : Nat) : LogEntry :=
  ⟨0x11, r.target, none, off, r.type + r.version * 2 ^ 16 + r.target * 2 ^ 32⟩

section
variable {s : State} {a off : Nat}

theorem exec_configRecordApply_skips (h : s.skips (s.readRecord a) = true) :
    exec (.configRecordApply a off) s = .next (s.logError (skipEntry (s.readRecord a) off)) := by
  change execConfigRecordApply a off s = _
  unfold execConfigRecordApply
  dsimp only
  rw [if_pos h, skipEntry]

/-- A record whose target is ready, of which no later one has been applied, is. -/
theorem exec_configRecordApply_applies (h : s.skips (s.readRecord a) = false)
    (ready : (s.readRecord a).target = 0xFFFF ∨ Marks.has (s.readRecord a).target s.mgmt.ready = true)
    (last : ∀ q, Sparse.find? (s.readRecord a).number s.mgmt.records = some q → q.1 ≤ (s.readRecord a).seq) :
    exec (.configRecordApply a off) s = .next (s.modMgmt (fun m => let r := s.readRecord a
      { m with records := Sparse.set r.number (r.seq, r.payload) m.records }.applyRecord r)) := by
  generalize hr : s.readRecord a = r at h ready last ⊢
  have waits : ¬ (r.target ≠ 0xFFFF ∧ Marks.has r.target s.mgmt.ready = false) := by
    rintro ⟨named, waiting⟩
    obtain whole | ready := ready
    · exact named whole
    · simp [ready] at waiting
  have newest : s.mgmt.newer r.number r.seq = false := by
    unfold Mgmt.newer
    split
    · next q hq => exact decide_eq_false (Nat.not_lt.2 (last q hq))
    · rfl
  change execConfigRecordApply a off s = _
  unfold execConfigRecordApply
  dsimp only
  rw [hr, if_neg (by rw [h]; decide), if_neg waits]
  simp only [State.modMgmt]
  rw [← Record.number, if_neg (by rw [newest]; decide)]
end

/-- The readiness and configuration part of O45. -/
theorem functionsBecomeReadyOrFail : Claim.FunctionsBecomeReadyOrFail := by
  refine ⟨fun s b => ⟨fun h link hr hf => ⟨_, exec_functionReady h link hr hf, fun x => Marks.has_add b x _, rfl⟩,
      fun h hr hf => ⟨_, exec_readinessLimitMissed h hr hf, ?missed⟩,
      fun hr => ⟨_, exec_functionFailedInService hr, ?failed⟩,
      fun hf => ⟨_, exec_podPortReturnsToService hf, ?returns⟩⟩,
    fun s a off => ⟨fun skip => ⟨_, exec_configRecordApply_skips skip, ?skipped, logs_logError _ _ rfl⟩,
      fun h ready last => ⟨_, exec_configRecordApply_applies h ready last, ?applied⟩⟩⟩
  case missed =>
    obtain ⟨⟨_, _, mgmt⟩, -⟩ := logsOnly_logError (s.modMgmt (fun m => m.missed b)) (readyEntry b)
    have logs : Logs s _ (readyEntry b) := logs_logError_after (t := s.modMgmt (fun m => m.missed b)) _ rfl rfl rfl
    rw [mgmt]
    exact ⟨s.mgmt.has_failed_missed b, rfl, rfl, s.mgmt.farEnd_missed, logs⟩
  case failed =>
    obtain ⟨⟨_, _, mgmt⟩, -⟩ := logsOnly_logError (s.modMgmt (fun m => m.failedInService b)) (readyEntry b)
    have logs : Logs s _ (readyEntry b) := logs_logError_after (t := s.modMgmt (fun m => m.failedInService b)) _ rfl rfl rfl
    have ready := s.mgmt.has_ready_failedInService b
    have failed := s.mgmt.has_failed_failedInService b
    rw [mgmt]
    exact ⟨(ready b).trans (by simp), (failed b).trans (by simp), rfl,
      fun x hx => ⟨(ready x).trans (by simp [hx]), (failed x).trans (by simp [hx])⟩, logs⟩
  case returns => simp [State.modMgmt, Marks.has_add, Marks.has_del]
  case skipped =>
    obtain ⟨⟨_, _, mgmt⟩, -⟩ := logsOnly_logError s (skipEntry (s.readRecord a) off)
    rw [mgmt]
  case applied =>
    let r := s.readRecord a
    let m : Mgmt := { s.mgmt with records := Sparse.set r.number (r.seq, r.payload) s.mgmt.records }
    have records : (m.applyRecord r).records = Sparse.set r.number (r.seq, r.payload) s.mgmt.records :=
      m.records_applyRecord r
    exact ⟨(congrArg (Sparse.find? _) records).trans (Sparse.find?_set_same _ _ _),
      fun x hx => (congrArg (Sparse.find? x) records).trans (Sparse.find?_set_other _ _ hx), m.ttrip_applyRecord r,
      m.mon_applyRecord_of_no_thresholds r, fun x ht hx => m.twarn_applyRecord r ht hx,
      fun d x hd hx fresh => m.rail_applyRecord r hd hx fresh, m.dbg_applyRecord r, rfl⟩

/-- Settles O45: each event's equation, with what its entry and the fields of a record leave alone. -/
theorem resetsStopsAndReadiness : Obligations.ResetsStopsAndReadiness := ⟨resetsAndStops, functionsBecomeReadyOrFail⟩

end Sys2Proof.Machine
end
/-! ## Live update and debug authorisation (O47) -/
section
namespace Sys2Proof.Machine

/-! ### Measurements -/

@[simp] theorem State.raw_extendMeas (s : State) (c : Fin 2) (i : Nat) (bs : List Byte) (l n : Nat) :
    (s.extendMeas c i bs).raw l n = s.raw l n := rfl

@[simp] theorem State.hartOf_extendMeas (s : State) (c : Fin 2) (i : Nat) (bs : List Byte) (h : HartId) :
    (s.extendMeas c i bs).hartOf h = s.hartOf h := rfl

theorem measNo_inj {c d : Fin 2} {i j : Nat} (hi : i < 16) (hj : j < 16) (h : measNo c i = measNo d j) : c = d ∧ i = j := by
  unfold measNo at h
  exact ⟨Fin.ext (by omega), by omega⟩

/-- Another measurement register stands. -/
theorem State.meas_extendMeas_other (s : State) {c d : Fin 2} {i j : Nat} (bs : List Byte) (hi : i < 16) (hj : j < 16)
    (h : ¬ (d = c ∧ j = i)) : (s.extendMeas c i bs).meas d j = s.meas d j := by
  unfold State.meas State.extendMeas
  rw [Sparse.get_set_other _ _ _ (fun e => h (measNo_inj hj hi e))]

/-! ### STAGE, ABORT and HANDOFF (R45) -/

/-- An ABORT has no effect during a handoff. -/
theorem exec_updctlAbort_handoff {s : State} (u : s.mgmt.updst = 3) : exec .updctlAbort s = .next s := by
  change execUpdctlAbort s = _
  simp [execUpdctlAbort, u]

/-- A HANDOFF has none without a standby that is ready. -/
theorem exec_updctlHandoff_unstaged {s : State} (u : s.mgmt.updst ≠ 2) : exec .updctlHandoff s = .next s := by
  change execUpdctlHandoff s = _
  simp [execUpdctlHandoff, u]

section
variable {s : State} (z : s.zenithActs = true)
include z

theorem exec_updctlStage_idle (u : s.mgmt.updst = 0) : exec .updctlStage s = .next (s.setUpdst 1) := by
  change execUpdctlStage s = _
  simp [execUpdctlStage, z, u]

theorem exec_updctlStage_again (u : 4 ≤ s.mgmt.updst) : exec .updctlStage s = .next (s.nadirToRom.setUpdst 1) := by
  change execUpdctlStage s = _
  have busy : s.mgmt.updst ≠ 0 := by omega
  simp [execUpdctlStage, z, u, busy]

theorem exec_updctlAbort (idle : s.mgmt.updst ≠ 0) (swap : s.mgmt.updst ≠ 3) :
    exec .updctlAbort s = .next (s.nadirToRom.setUpdst 0) := by
  change execUpdctlAbort s = _
  simp [execUpdctlAbort, z, idle, swap]

theorem exec_updctlHandoff (u : s.mgmt.updst = 2) : exec .updctlHandoff s = .next { s with mgmt :=
    { s.mgmt with updst := 3, handoff := some s.hid } } := by
  change execUpdctlHandoff s = _
  simp [execUpdctlHandoff, z, u, State.modMgmt]
end

/-- A hart that does not act for the Zenith updates nothing (R42, R45). -/
theorem exec_updctl_other {s : State} (z : s.zenithActs = false) :
    ∀ i ∈ [Instr.updctlStage, .updctlAbort, .updctlHandoff], exec i s = .next s := by
  have stage : exec .updctlStage s = .next s := by
    change execUpdctlStage s = _
    simp [execUpdctlStage, z]
  have abort : exec .updctlAbort s = .next s := by
    change execUpdctlAbort s = _
    simp [execUpdctlAbort, z]
  have handoff : exec .updctlHandoff s = .next s := by
    change execUpdctlHandoff s = _
    simp [execUpdctlHandoff, z]
  simp [stage, abort, handoff]

theorem Sparse.get_foldl_erase {α : Type} (f : Nat → Nat) (ns : List Nat) (t : Sparse α) (d : α) (x : Nat) :
    Sparse.get (ns.foldl (fun t n => Sparse.erase (f n) t) t) d x = if x ∈ ns.map f then d else Sparse.get t d x := by
  induction ns generalizing t with
  | nil => simp
  | cons n ns ih =>
    rw [List.foldl_cons, ih, Sparse.get_erase]
    by_cases first : x = f n <;> simp [first]

/-- The Nadir's harts are those after reset once it has gone back to ROM, and the Zenith's are as they were. -/
theorem State.hartOf_nadirToRom (s : State) (h : HartId) :
    s.nadirToRom.hartOf h = if h.cplx = s.nadir then Hart.init else s.hartOf h := by
  have mine : hartNo h ∈ (upFrom 0 4).map (fun n => 4 * s.nadir.val + n) ↔ h.cplx = s.nadir := by
    simp only [List.mem_map, mem_upFrom, hartNo]
    constructor
    · rintro ⟨n, hn, e⟩
      exact Fin.ext (by omega)
    · rintro e
      exact ⟨h.hart.val, by omega, by rw [e]; omega⟩
  have erased := Sparse.get_foldl_erase (fun n => 4 * s.nadir.val + n) (upFrom 0 4) s.mgmt.harts Hart.init (hartNo h)
  simp only [mine] at erased
  exact erased

/-- The two complexes differ. -/
theorem State.nadir_ne (s : State) : s.nadir ≠ s.mgmt.zenith := by
  unfold State.nadir
  generalize s.mgmt.zenith = z
  revert z
  decide

/-! ### The standby's first stage (R45 step 2) -/

/-- What a measurement register becomes by the admission of the staged image number i (R26, R45). -/
def State.withStaged (s : State) (m : List Byte) (i : Nat) : List Byte :=
  let image := coronaLoc (s.mgmt.updsrc.toNat + stagedOffsets.getD i 0)
  let word := fun n => leNat (s.raw (image + 4 * n) 4)
  if (admissionOf word (word 1)).status = 0 then shake256 (m ++ shake256 (s.raw image (4 * word 1)) 16) 64 else m

/-- The staged image leaves its result in its complex's memory and, admitted, extends MEAS8. -/
theorem State.admitStaged_cases (c : Fin 2) (s : State) (i : Nat) : ∃ bs : List Byte, bs.length = 32 ∧
    let t := s.poke (mgmtLoc c (stagedResults + 32 * i)) bs
    (State.admitStaged c s i = t ∧ ∀ m, s.withStaged m i = m)
      ∨ ∃ hash, State.admitStaged c s i = t.extendMeas c 8 hash ∧ ∀ m, s.withStaged m i = shake256 (m ++ hash) 64 := by
  have apart (n : Nat) : coronaLoc (s.mgmt.updsrc.toNat + stagedOffsets.getD i 0 + 4 * n)
      = coronaLoc (s.mgmt.updsrc.toNat + stagedOffsets.getD i 0) + 4 * n := (Nat.add_assoc _ _ _).symm
  have length (r : AdmResult) (hash : List Byte) : (r.bytes hash).length = 32 := by
    unfold AdmResult.bytes
    split <;> simp
  unfold State.admitStaged State.withStaged
  dsimp only
  simp only [apart]
  split
  · exact ⟨_, length _ _, .inr ⟨_, rfl, fun _ => rfl⟩⟩
  · exact ⟨_, length _ _, .inl ⟨rfl, fun _ => rfl⟩⟩

section
variable (c : Fin 2) (s : State) (i : Nat)

theorem State.meas_admitStaged : (State.admitStaged c s i).meas c 8 = s.withStaged (s.meas c 8) i := by
  obtain ⟨bs, -, ⟨e, same⟩ | ⟨hash, e, more⟩⟩ := s.admitStaged_cases c i
  · rw [e, same, State.meas_poke]
  · rw [e, more, State.meas_extendMeas, State.meas_poke]

theorem State.meas_admitStaged_other {d : Fin 2} {j : Nat} (hj : j < 16) (h : ¬ (d = c ∧ j = 8)) :
    (State.admitStaged c s i).meas d j = s.meas d j := by
  obtain ⟨bs, -, ⟨e, -⟩ | ⟨hash, e, -⟩⟩ := s.admitStaged_cases c i
  · rw [e, State.meas_poke]
  · rw [e, State.meas_extendMeas_other _ _ (by decide) hj h, State.meas_poke]

@[simp] theorem State.hartOf_admitStaged (h : HartId) : (State.admitStaged c s i).hartOf h = s.hartOf h := by
  obtain ⟨bs, -, ⟨e, -⟩ | ⟨hash, e, -⟩⟩ := s.admitStaged_cases c i
  · rw [e]
    rfl
  · rw [e]
    rfl

theorem State.updsrc_admitStaged : (State.admitStaged c s i).mgmt.updsrc = s.mgmt.updsrc := by
  obtain ⟨bs, -, ⟨e, -⟩ | ⟨hash, e, -⟩⟩ := s.admitStaged_cases c i
  · rw [e]
    rfl
  · rw [e]
    rfl

/-- The result of one of the two staged images lies outside Corona shared memory. -/
theorem State.raw_admitStaged (hi : i < 2) (a n : Nat) :
    (State.admitStaged c s i).raw (coronaLoc a) n = s.raw (coronaLoc a) n := by
  have below (bs : List Byte) (h : bs.length = 32) :
      coronaLoc a + n ≤ mgmtLoc c (stagedResults + 32 * i)
        ∨ mgmtLoc c (stagedResults + 32 * i) + bs.length ≤ coronaLoc a := by
    unfold mgmtLoc coronaLoc stagedResults
    omega
  obtain ⟨bs, hl, ⟨e, -⟩ | ⟨hash, e, -⟩⟩ := s.admitStaged_cases c i
  · rw [e, State.raw_poke_outside s (below bs hl)]
  · rw [e, State.raw_extendMeas, State.raw_poke_outside s (below bs hl)]

/-- So the second image is admitted as it stood before the first. -/
theorem State.withStaged_admitStaged (hi : i < 2) (m : List Byte) (j : Nat) :
    (State.admitStaged c s i).withStaged m j = s.withStaged m j := by
  have word (a n : Nat) : (State.admitStaged c s i).raw (coronaLoc a + 4 * n) 4 = s.raw (coronaLoc a + 4 * n) 4 := by
    have there := s.raw_admitStaged c i hi (a + 4 * n) 4
    rwa [show coronaLoc (a + 4 * n) = coronaLoc a + 4 * n from (Nat.add_assoc _ _ _).symm] at there
  unfold State.withStaged
  dsimp only
  simp only [State.updsrc_admitStaged, word, s.raw_admitStaged c i hi]
end

/-- The digest of the new image at UPDSRC, and whether its signature verifies (R23, R45). -/
def State.stagedDigest (s : State) : List Byte :=
  let a := s.mgmt.updsrc.toNat
  shake256 (s.raw (coronaLoc (a + 8)) (leNat (s.raw (coronaLoc a) 8))) 64
def State.stagedVerifies (s : State) : Bool :=
  let a := s.mgmt.updsrc.toNat
  Config.falconVerify (sliceB 0 1793 Config.vendKey) s.stagedDigest
    (s.raw (coronaLoc (a + 8 + leNat (s.raw (coronaLoc a) 8))) 1280)

/-- The Nadir after its measurements and the admission of its staged images. -/
def State.standbyMeasured (s : State) : State :=
  State.admitStaged s.nadir (State.admitStaged s.nadir
    ((s.extendMeas s.nadir 0 s.stagedDigest).extendMeas s.nadir 1 (s.meas s.mgmt.zenith 0)) 0) 1

section
variable (s : State)

theorem State.meas0_standbyMeasured :
    s.standbyMeasured.meas s.nadir 0 = shake256 (s.meas s.nadir 0 ++ s.stagedDigest) 64 := by
  rw [State.standbyMeasured, State.meas_admitStaged_other _ _ _ (by decide) (by simp),
    State.meas_admitStaged_other _ _ _ (by decide) (by simp),
    State.meas_extendMeas_other _ _ (by decide) (by decide) (by simp), State.meas_extendMeas]

theorem State.meas1_standbyMeasured :
    s.standbyMeasured.meas s.nadir 1 = shake256 (s.meas s.nadir 1 ++ s.meas s.mgmt.zenith 0) 64 := by
  rw [State.standbyMeasured, State.meas_admitStaged_other _ _ _ (by decide) (by simp),
    State.meas_admitStaged_other _ _ _ (by decide) (by simp), State.meas_extendMeas,
    State.meas_extendMeas_other _ _ (by decide) (by decide) (by simp)]

theorem State.meas8_standbyMeasured :
    s.standbyMeasured.meas s.nadir 8 = s.withStaged (s.withStaged (s.meas s.nadir 8) 0) 1 := by
  have extended (c : Fin 2) (i : Nat) (bs m : List Byte) (t : State) (j : Nat) :
      (t.extendMeas c i bs).withStaged m j = t.withStaged m j := rfl
  rw [State.standbyMeasured, State.meas_admitStaged, State.withStaged_admitStaged _ _ _ (by decide),
    State.meas_admitStaged, extended, extended, extended, extended,
    State.meas_extendMeas_other _ _ (by decide) (by decide) (by simp),
    State.meas_extendMeas_other _ _ (by decide) (by decide) (by simp)]

/-- The Zenith's bank stands. -/
theorem State.measZenith_standbyMeasured {j : Nat} (hj : j < 16) :
    s.standbyMeasured.meas s.mgmt.zenith j = s.meas s.mgmt.zenith j := by
  have other {i : Nat} : ¬ (s.mgmt.zenith = s.nadir ∧ j = i) := fun h => s.nadir_ne h.1.symm
  rw [State.standbyMeasured, State.meas_admitStaged_other _ _ _ hj other, State.meas_admitStaged_other _ _ _ hj other,
    State.meas_extendMeas_other _ _ (by decide) hj other, State.meas_extendMeas_other _ _ (by decide) hj other]

@[simp] theorem State.hartOf_standbyMeasured (h : HartId) : s.standbyMeasured.hartOf h = s.hartOf h := by
  rw [State.standbyMeasured, State.hartOf_admitStaged, State.hartOf_admitStaged, State.hartOf_extendMeas,
    State.hartOf_extendMeas]
end

/-! ### The standby's harts -/

theorem Hart.started_of_running {x : Hart} (h : x.running = true) (a : Word64) : x.started a = x := if_pos h

theorem Hart.started_started (x : Hart) (a b : Word64) : (x.started a).started b = x.started a := by
  have runs : (x.started a).running = true := by
    unfold Hart.started
    split
    · assumption
    · rfl
  exact Hart.started_of_running runs b

@[simp] theorem State.meas_startHart (s : State) (h : HartId) (a : Word64) (c : Fin 2) (i : Nat) :
    (s.startHart h a).meas c i = s.meas c i := rfl

/-- Harts of a complex that start at one address. -/
def State.startHarts (s : State) (c : Fin 2) (ns : List (Fin 4)) (a : Word64) : State :=
  ns.foldl (fun t n => t.startHart ⟨c, n⟩ a) s

theorem State.hartOf_startHarts (s : State) (c : Fin 2) (ns : List (Fin 4)) (a : Word64) (n : Fin 4) :
    (s.startHarts c ns a).hartOf ⟨c, n⟩ = if n ∈ ns then (s.hartOf ⟨c, n⟩).started a else s.hartOf ⟨c, n⟩ := by
  unfold State.startHarts
  induction ns generalizing s with
  | nil => rfl
  | cons m ns ih =>
    rw [List.foldl_cons, ih, State.hartOf_startHart]
    by_cases first : n = m
    · subst first
      simp [Hart.started_started]
    · simp [first]

@[simp] theorem State.meas_startHarts (s : State) (d : Fin 2) (ns : List (Fin 4)) (a : Word64) (c : Fin 2) (i : Nat) :
    (s.startHarts d ns a).meas c i = s.meas c i := by
  unfold State.startHarts
  exact foldl_keeps (fun t : State => t.meas c i) (fun t n _ => t.meas_startHart ⟨d, n⟩ a c i) s

@[simp] theorem State.hartOf_setUpdst (s : State) (n : Nat) (h : HartId) : (s.setUpdst n).hartOf h = s.hartOf h := rfl

@[simp] theorem State.meas_setUpdst (s : State) (n : Nat) (c : Fin 2) (i : Nat) : (s.setUpdst n).meas c i = s.meas c i := rfl

/-- The state in which the standby runs. -/
def State.standbyRuns (s : State) : State :=
  let t := s.standbyMeasured.startHarts s.nadir [1, 2, 3] (s.mgmt.updsrc + 8)
  (t.startHart ⟨s.nadir, 0⟩ Config.standbyEntry).setUpdst 2

@[simp] theorem State.meas_standbyRuns (s : State) (c : Fin 2) (i : Nat) :
    s.standbyRuns.meas c i = s.standbyMeasured.meas c i := by
  rw [State.standbyRuns, State.meas_setUpdst, State.meas_startHart, State.meas_startHarts]

/-- A hart of the standby that waited runs. -/
theorem State.hartOf_standbyRuns {s : State} {n : Fin 4} (h : (s.hartOf ⟨s.nadir, n⟩).running = false) :
    s.standbyRuns.hartOf ⟨s.nadir, n⟩ = { s.hartOf ⟨s.nadir, n⟩ with
      running := true, pc := if n = 0 then Config.standbyEntry else s.mgmt.updsrc + 8 } := by
  have others : ∀ m : Fin 4, m ≠ 0 → m ∈ ([1, 2, 3] : List (Fin 4)) := by decide
  rw [State.standbyRuns, State.hartOf_setUpdst, State.hartOf_startHart, State.hartOf_startHarts, State.hartOf_startHarts,
    State.hartOf_standbyMeasured, State.hartOf_standbyMeasured]
  by_cases hn : n = 0
  · subst hn
    rw [if_pos rfl, if_neg (by decide), if_pos rfl]
    exact Hart.started_of_waiting h _
  · rw [if_neg (fun e => hn (congrArg HartId.hart e)), if_pos (others n hn), if_neg hn]
    exact Hart.started_of_waiting h _

section
variable {s : State} (u : s.mgmt.updst = 1)
include u

theorem exec_standbyFirstStage_runs (ok : s.stagedVerifies = true) :
    exec .standbyFirstStage s = .next s.standbyRuns := by
  change execStandbyFirstStage s = _
  rw [State.stagedVerifies, State.stagedDigest] at ok
  rw [execStandbyFirstStage, State.standbyRuns, State.standbyMeasured, State.stagedDigest, State.startHarts]
  dsimp only at ok ⊢
  rw [if_neg (fun h => h u), if_pos ok]
  simp only [List.foldl_cons, List.foldl_nil]

theorem exec_standbyFirstStage_refuses (bad : s.stagedVerifies = false) :
    exec .standbyFirstStage s = .next (s.setUpdst 5) := by
  change execStandbyFirstStage s = _
  rw [State.stagedVerifies, State.stagedDigest] at bad
  rw [execStandbyFirstStage]
  dsimp only at bad ⊢
  rw [if_neg (fun h => h u), if_neg (Bool.eq_false_iff.1 bad)]
end

/-! ### The end of a handoff (R45, R46, R439) -/

theorem logsOnly_ringBell (s : State) (v q : Nat) (x : BitVec 32) : LogsOnly s (s.ringBell v q x) := by
  unfold State.ringBell
  refine .ite (.trans (.of_same rfl rfl) (logsOnly_logError _ _)) (.of_same rfl rfl)

/-- Of the management state, notifies that are let through touch the error log alone. -/
theorem logsOnly_openGates (s : State) : LogsOnly s s.openGates := by
  unfold State.openGates
  refine .foldl (fun t e => ?_) _ s
  dsimp only
  have latched : LogsOnly t { t with outer := { t.outer with latch := Sparse.erase e.1 t.outer.latch } } :=
    .of_same rfl rfl
  exact .ite (.refl t) (latched.trans (logsOnly_ringBell _ _ _ _))

/-- The registers of a live update after a handoff has ended. -/
theorem State.endHandoff_registers (s : State) (n : Nat) :
    let t := s.endHandoff n
    t.mgmt.updst = n ∧ t.mgmt.zenith = s.mgmt.zenith ∧ t.mgmt.handoff = none ∧ t.mgmt.spdm = s.mgmt.spdm := by
  intro t
  obtain ⟨⟨_, _, mgmt⟩, -⟩ := logsOnly_openGates (s.modMgmt (fun m =>
    { m with updst := n, handoff := none, mbx := m.mbx.present false, ifm := m.ifm.present false }))
  have ended : t.mgmt = _ := mgmt
  rw [ended]
  exact ⟨rfl, rfl, rfl, rfl⟩

/-- The roles change with the end of the handoff, and the SPDM connection starts anew (R46). -/
theorem State.swapRoles_registers (s : State) (es : List TableEntry) :
    let t := s.swapRoles es
    t.mgmt.updst = 4 ∧ t.mgmt.zenith = s.nadir ∧ t.mgmt.handoff = none ∧ t.mgmt.spdm = 0 :=
  State.endHandoff_registers _ 4

section
variable {s : State} (u : s.mgmt.updst = 3)
include u

theorem exec_stateTableImport_commits {es : List TableEntry} (h : importTable s.stateTable = some es) :
    exec .stateTableImport s = .next (s.swapRoles es) := by
  change execStateTableImport s = _
  rw [execStateTableImport, if_neg (fun n => n u), h]

theorem exec_stateTableImport_refuses (h : importTable s.stateTable = none) :
    exec .stateTableImport s = .next (s.endHandoff 5) := by
  change execStateTableImport s = _
  rw [execStateTableImport, if_neg (fun n => n u), h]

theorem exec_handoffTimeout : exec .handoffTimeout s = .next (s.endHandoff 5) := by
  change execHandoffTimeout s = _
  rw [execHandoffTimeout, if_neg (fun n => n u)]
end

/-- The live update's part of O47. -/
theorem liveUpdateSwapsRoles : Claim.LiveUpdateSwapsRoles := by
  intro s u z
  refine ⟨fun zenith => ⟨fun hu => ?stage, fun hu => ?abort, fun hu => ⟨s, exec_updctlAbort_handoff hu, rfl⟩,
      fun hu => ⟨_, exec_updctlHandoff zenith hu, rfl⟩, fun hu => ⟨s, exec_updctlHandoff_unstaged hu, rfl⟩⟩,
    fun other i hi => ⟨s, exec_updctl_other other i hi, rfl⟩,
    fun hu => ⟨fun ok => ⟨_, exec_standbyFirstStage_runs hu ok, ?runs⟩,
      fun ok => ⟨_, exec_standbyFirstStage_runs hu ok, ?admits⟩,
      fun bad => ⟨_, exec_standbyFirstStage_refuses hu bad, rfl⟩⟩,
    fun hu => ⟨fun es h => ⟨_, exec_stateTableImport_commits hu h, s.swapRoles_registers es⟩,
      fun h => ⟨_, exec_stateTableImport_refuses hu h, ?refused⟩, ⟨_, exec_handoffTimeout hu, ?late⟩⟩⟩
  case stage =>
    obtain idle | swapped | failed := hu
    · exact ⟨_, exec_updctlStage_idle zenith idle, rfl, rfl, rfl⟩
    · exact ⟨_, exec_updctlStage_again zenith (by omega), rfl, rfl, rfl⟩
    · exact ⟨_, exec_updctlStage_again zenith (by omega), rfl, rfl, rfl⟩
  case abort =>
    refine ⟨_, exec_updctlAbort zenith (by omega) (by omega), rfl, rfl, fun n => ⟨?_, ?_⟩, rfl⟩
    · rw [State.hartOf_setUpdst, State.hartOf_nadirToRom]
      exact if_pos rfl
    · rw [State.hartOf_setUpdst, State.hartOf_nadirToRom]
      exact if_neg s.nadir_ne.symm
  case runs =>
    refine ⟨rfl, ?_, ?_, fun j hj => ?_, fun n hn => State.hartOf_standbyRuns hn⟩
    · exact (s.meas_standbyRuns _ 0).trans s.meas0_standbyMeasured
    · exact (s.meas_standbyRuns _ 1).trans s.meas1_standbyMeasured
    · exact (s.meas_standbyRuns _ j).trans (s.measZenith_standbyMeasured hj)
  case admits => exact (s.meas_standbyRuns _ 8).trans s.meas8_standbyMeasured
  case refused =>
    obtain ⟨updst, roles, ended, -⟩ := s.endHandoff_registers 5
    exact ⟨updst, roles, ended⟩
  case late =>
    obtain ⟨updst, roles, ended, -⟩ := s.endHandoff_registers 5
    exact ⟨updst, roles, ended⟩

/-! ### Debug authorisation (R47 to R50) -/

theorem exec_debugNonceExpiry (s : State) :
    exec .debugNonceExpiry s = .next (s.modDbg (fun d => { d with valid := false })) := rfl

/-- What closes a debug grant: tier 0 or 1 of the requested target (R49). -/
def Debug.close (d : Debug) : Debug :=
  if d.tier.toNat ≤ 1 then
    { d with opened := d.opened.filter (fun o => !(o.tier = d.tier.toNat && o.target = d.target)) } else d

theorem Debug.mem_opened_close (d : Debug) (o : DbgOpen) : o ∈ d.close.opened ↔
    o ∈ d.opened ∧ (d.tier.toNat ≤ 1 → ¬ (o.tier = d.tier.toNat ∧ o.target = d.target)) := by
  unfold Debug.close
  split
  · next low => simp [low, ← imp_iff_not_or]
  · next high => simp [high]

/-- An accepted OPEN in the debug registers: the grant is renewed, the nonce used (R48). -/
def Debug.opening (d x : Debug) : Debug :=
  { x.setFailure 0 with
    opened := (x.opened.filter (fun o => !(o.tier = d.tier.toNat && o.target = d.target))) ++ [⟨d.tier.toNat, d.target⟩] }

/-- The entry of an OPEN that fails, with its reason (R54; log 29). -/
def Debug.refusal (d : Debug) (f : Nat) : LogEntry :=
  ⟨0x12, 0, none, 0, d.tier.toNat + d.target.toNat * 2 ^ 8 + f * 2 ^ 40⟩

section
variable {s : State} (acts : s.debugActs = true)
include acts

theorem exec_dbgctlNonce : exec .dbgctlNonce s = .next ((s.modDbg (fun d =>
    { d with nonce := shake256 (s.secret 4 ++ s.random 32) 32, valid := true })).drew 32) := by
  change execDbgctlNonce s = _
  rw [execDbgctlNonce, if_pos acts]

theorem exec_dbgctlClose : exec .dbgctlClose s = .next (s.modDbg Debug.close) := by
  change execDbgctlClose s = _
  rw [execDbgctlClose, if_pos acts]
  rfl

theorem exec_dbgctlOpen_fails {f : Nat} (hf : s.openFailure = f) (bad : f ≠ 0) :
    exec .dbgctlOpen s = .next ((s.modDbg (fun x => x.setFailure f)).logError (s.mgmt.dbg.refusal f)) := by
  subst hf
  change execDbgctlOpen s = _
  simp only [execDbgctlOpen, Debug.refusal, acts, if_pos bad, Bool.not_true, Bool.false_eq_true, if_false]

theorem exec_dbgctlOpen_opens (ok : s.openFailure = 0)
    (room : s.canWipe s.mgmt.dbg.tier.toNat (s.mgmt.dbg.target.toNat / 2 ^ 24) = true) :
    exec .dbgctlOpen s = .next s.openTier := by
  change execDbgctlOpen s = _
  simp only [execDbgctlOpen, acts, ok, room, Bool.not_true, Bool.false_eq_true, if_false, ne_eq, not_true]
end

theorem exec_dbgctl_other {s : State} (h : s.debugActs = false) :
    ∀ i ∈ [Instr.dbgctlNonce, .dbgctlClose, .dbgctlOpen], exec i s = .next s := by
  have nonce : exec .dbgctlNonce s = .next s := by
    change execDbgctlNonce s = _
    simp [execDbgctlNonce, h]
  have close : exec .dbgctlClose s = .next s := by
    change execDbgctlClose s = _
    simp [execDbgctlClose, h]
  have refused : exec .dbgctlOpen s = .next s := by
    change execDbgctlOpen s = _
    simp [execDbgctlOpen, h]
  simp [nonce, close, refused]

theorem Debug.mem_opened_opening (d : Debug) (o : DbgOpen) : o ∈ (d.opening d).opened ↔
    o ∈ d.opened ∨ o = ⟨d.tier.toNat, d.target⟩ := by
  by_cases same : o = ⟨d.tier.toNat, d.target⟩
  · simp [Debug.opening, same]
  · have kept : ¬ (o.tier = d.tier.toNat ∧ o.target = d.target) := fun ⟨ht, hx⟩ => same (by rw [← ht, ← hx])
    simp [Debug.opening, Debug.setFailure, same, ← not_and_or, kept]

/-- What an accepted OPEN measures: tier, target and the signature's hash (R48). -/
def State.openNote (s : State) : List Byte :=
  leBytes s.mgmt.dbg.tier.toNat 1 ++ targetBytes s.mgmt.dbg.target ++ [0, 0, 0] ++ shake256 s.requestSig 16

/-- The wipe comes first, and MEAS14 last (R48 steps 3 and 4). -/
theorem State.openTier_eq (s : State) : let w := s.wipeTier s.mgmt.dbg.tier.toNat (s.mgmt.dbg.target.toNat / 2 ^ 24)
    s.openTier = (w.modDbg s.mgmt.dbg.opening).extendMeas w.mgmt.zenith 14 s.openNote := rfl

/-- The grant stands beside the older ones, whatever the wipe has struck. -/
theorem State.dbg_openTier (s : State) : s.openTier.mgmt.dbg = s.mgmt.dbg.opening s.mgmt.dbg := by
  obtain ⟨b, wiped⟩ := s.wipeTier_mgmt s.mgmt.dbg.tier.toNat (s.mgmt.dbg.target.toNat / 2 ^ 24)
  rw [State.openTier_eq]
  dsimp only [State.extendMeas, State.modDbg, State.modMgmt]
  rw [wiped]

/-- MEAS14 of the Zenith is extended with the grant. -/
theorem State.meas_openTier (s : State) :
    s.openTier.meas s.mgmt.zenith 14 = shake256 (s.meas s.mgmt.zenith 14 ++ s.openNote) 64 := by
  obtain ⟨b, wiped⟩ := s.wipeTier_mgmt s.mgmt.dbg.tier.toNat (s.mgmt.dbg.target.toNat / 2 ^ 24)
  rw [State.openTier_eq]
  generalize s.wipeTier s.mgmt.dbg.tier.toNat (s.mgmt.dbg.target.toNat / 2 ^ 24) = w at wiped ⊢
  have zenith : w.mgmt.zenith = s.mgmt.zenith := by rw [wiped]
  have before : (w.modDbg s.mgmt.dbg.opening).meas s.mgmt.zenith 14 = s.meas s.mgmt.zenith 14 := by
    rw [State.meas, State.modDbg, State.modMgmt, wiped]
    rfl
  rw [zenith, State.meas_extendMeas, before]

/-- The debug part of O47. -/
theorem debugOpensByAuthority : Claim.DebugOpensByAuthority := by
  intro s d z
  refine ⟨⟨_, exec_debugNonceExpiry s, rfl⟩,
    fun acts => ⟨⟨_, exec_dbgctlNonce acts, rfl⟩, ⟨_, exec_dbgctlClose acts, SameMemory.of_mem rfl, d.mem_opened_close⟩,
      fun f hf bad => ⟨_, exec_dbgctlOpen_fails acts hf bad, ?fails⟩,
      fun ok room => ⟨_, exec_dbgctlOpen_opens acts ok room, ?opens⟩⟩,
    fun other i hi => ⟨s, exec_dbgctl_other other i hi, rfl⟩⟩
  case fails =>
    obtain ⟨⟨_, _, mgmt⟩, -⟩ := logsOnly_logError (s.modDbg (fun x => x.setFailure f)) (d.refusal f)
    have logs : Logs s _ (d.refusal f) := logs_logError_after (t := s.modDbg (fun x => x.setFailure f)) _ rfl rfl rfl
    rw [mgmt]
    exact ⟨rfl, rfl, rfl, rfl, rfl, logs⟩
  case opens =>
    dsimp only
    rw [s.dbg_openTier]
    exact ⟨(d.mem_opened_opening _).2 (.inr rfl), rfl, fun o ho => (d.mem_opened_opening o).2 (.inl ho), s.meas_openTier⟩

/-- Settles O47: the roles swap at the commit alone, and a debug tier opens by an accepted request alone. -/
theorem liveUpdateAndDebug : Obligations.LiveUpdateAndDebug := ⟨liveUpdateSwapsRoles, debugOpensByAuthority⟩

end Sys2Proof.Machine
end
/-! ## CapCheck (O8) -/
section
namespace Sys2Proof.Machine

theorem trap_natCast {α : Type} (t : Trap) (a : Nat) : (trap t (BitVec.ofInt 64 (a : Int)) : Chk α) = trapN t a := by
  rw [trap, trapN, BitVec.ofInt_natCast]

section
variable {c : Cap} {a : Int} {n perms : Nat}

theorem capRange_of_inside (lo : c.base ≤ a) (hi : a + n ≤ c.top) : capRange c a n = .ok () :=
  if_neg (not_or.2 ⟨not_lt.2 lo, not_lt.2 hi⟩)

theorem capRange_of_outside (h : a < c.base ∨ (c.top : Int) < a + n) :
    capRange c a n = trap .capbounds (BitVec.ofInt 64 a) := if_pos h

theorem capCheck_of_untagged (tag : c.tag = false) : capCheck c a n perms = trap .captag (BitVec.ofInt 64 a) :=
  if_pos tag

theorem capCheck_of_sealed (tag : c.tag = true) (sealed : c.otype ≠ 0) :
    capCheck c a n perms = trap .capseal (BitVec.ofInt 64 a) := by
  rw [capCheck, if_neg (by simp [tag]), if_pos sealed]

theorem capCheck_of_not_grants (tag : c.tag = true) (unsealed : c.otype = 0) (perm : c.grants perms = false) :
    capCheck c a n perms = trap .capperm (BitVec.ofInt 64 a) := by
  simp [capCheck, tag, unsealed, perm]

/-- With the first three checks passed, the bounds decide. -/
theorem capCheck_of_grants (tag : c.tag = true) (unsealed : c.otype = 0) (perm : c.grants perms = true) :
    capCheck c a n perms = capRange c a n := by
  simp [capCheck, tag, unsealed, perm]

theorem capCheck_eq_ok_iff : capCheck c a n perms = .ok () ↔
    c.tag = true ∧ c.otype = 0 ∧ c.grants perms = true ∧ c.base ≤ a ∧ a + n ≤ c.top := by
  constructor
  · intro ok
    have tag : c.tag = true := by
      by_contra h
      cases (capCheck_of_untagged (Bool.eq_false_iff.2 h)).symm.trans ok
    have unsealed : c.otype = 0 := by
      by_contra h
      cases (capCheck_of_sealed tag h).symm.trans ok
    have perm : c.grants perms = true := by
      by_contra h
      cases (capCheck_of_not_grants tag unsealed (Bool.eq_false_iff.2 h)).symm.trans ok
    rw [capCheck_of_grants tag unsealed perm] at ok
    have inside : ¬ (a < c.base ∨ (c.top : Int) < a + n) := by
      intro h
      cases (capRange_of_outside h).symm.trans ok
    exact ⟨tag, unsealed, perm, by omega, by omega⟩
  · rintro ⟨tag, unsealed, perm, lo, hi⟩
    rw [capCheck_of_grants tag unsealed perm, capRange_of_inside lo hi]
end

/-- Settles O8, from one rule for each check of CapCheck, given that the checks before it pass. -/
theorem capCheckOrder : Obligations.CapCheckOrder := by
  unfold Obligations.CapCheckOrder
  intro c a n perms
  simp only [← trap_natCast]
  refine ⟨?passes, capCheck_of_untagged, capCheck_of_sealed, capCheck_of_not_grants, ?bounds⟩
  case passes =>
    rw [capCheck_eq_ok_iff]
    norm_cast
  case bounds =>
    intro tag unsealed perm outside
    rw [capCheck_of_grants tag unsealed perm]
    exact capRange_of_outside (by exact_mod_cast outside)

end Sys2Proof.Machine
end
/-! ## Words of the spec's encodings (O57) -/
section
namespace Sys2Proof

theorem decodeFor_of_encode {i : Instr} {e : EngineId} {w : Nat} (hi : i.wf = true) (he : i.engine = some e)
    (hw : encode i = some w) : decodeFor e w = some i := (decodeReadsEveryEncoding i e w hi he hw).2

/-- No engine's map gives an opcode 0, nor does the transfer map a kind 0 (R63, R68 to R71). -/
theorem decodeFor_of_lt {w : Nat} (h : w < 2 ^ 26) (e : EngineId) : decodeFor e w = none := by
  have opcode : fld w 26 6 = 0 := by rw [fld, Nat.div_eq_of_lt h, Nat.zero_mod]
  have kind : fld w 28 4 = 0 := by rw [fld, Nat.div_eq_of_lt (h.trans (by decide)), Nat.zero_mod]
  have unread : rawFor e w = none := by
    cases e <;> simp only [rawFor, rawSeq, rawVec, rawMat, rawXfer, rawStrat, opcode, kind]
  rw [decodeFor_eq, unread, checked]

/-- Settles O57: each word is the encoding of a well-formed instruction, which its engine's map reads back, and a word of
zeros has opcode 0. -/
theorem decodeReadsSpecWords : Obligations.DecodeReadsSpecWords := by
  unfold Obligations.DecodeReadsSpecWords
  refine ⟨?_, ?_, ?_, ?_, ?_, ?_, ?_, ?_, ?_, ?_, ?_, ?_, ?_, ?_, ?_, ?_, decodeFor_of_lt (by decide)⟩
  all_goals exact decodeFor_of_encode (by decide) rfl (by decide)

end Sys2Proof
end
/-! ## Integer results of the sequencer (O1, O2, O3) -/
section
namespace Sys2Proof.Machine

/-! ### High halves, quotients and remainders as the bit-vector library has them -/

/-- Bits [127:64] of the signed product (R87). -/
theorem mulHighS_eq (x y : Word64) : mulHighS x y = (x.signExtend 128 * y.signExtend 128).extractLsb' 64 64 := by
  have wide (z : Word64) : (z.signExtend 128).toInt = z.toInt := BitVec.toInt_signExtend_of_le (by decide)
  have hx := BitVec.le_toInt x
  have hx' := BitVec.toInt_lt (x := x)
  have hy := BitVec.le_toInt y
  have hy' := BitVec.toInt_lt (x := y)
  have small : (x.signExtend 128 * y.signExtend 128).toInt = x.toInt * y.toInt := by
    rw [BitVec.toInt_mul, wide, wide]
    norm_num at hx hx' hy hy'
    apply Int.bmod_eq_of_le <;> norm_num <;> nlinarith
  have nat : (x.signExtend 128 * y.signExtend 128) = BitVec.ofInt 128 (x.toInt * y.toInt) := by
    rw [← small, BitVec.ofInt_toInt]
  rw [nat]
  apply BitVec.eq_of_toNat_eq
  rw [mulHighS, BitVec.extractLsb'_toNat, BitVec.toNat_ofInt, BitVec.toNat_ofInt, Nat.shiftRight_eq_div_pow]
  generalize x.toInt * y.toInt = z
  omega

/-- Bits [127:64] of the unsigned product (R87). -/
theorem mulHighU_eq (x y : Word64) : mulHighU x y = (x.zeroExtend 128 * y.zeroExtend 128).extractLsb' 64 64 := by
  have small : x.toNat * y.toNat < 2 ^ 128 := by
    have := Nat.mul_lt_mul'' x.isLt y.isLt
    omega
  apply BitVec.eq_of_toNat_eq
  rw [mulHighU, BitVec.extractLsb'_toNat, BitVec.toNat_mul, BitVec.toNat_setWidth_of_le (by decide),
    BitVec.toNat_setWidth_of_le (by decide), Nat.mod_eq_of_lt small, Nat.shiftRight_eq_div_pow, BitVec.toNat_ofNat]

theorem divS_eq (x y : Word64) : divS x y = if y = 0 then BitVec.allOnes 64 else x.sdiv y := by
  rw [divS]
  congr 1
  apply BitVec.eq_of_toInt_eq
  rw [BitVec.toInt_ofInt, BitVec.toInt_sdiv]

theorem divU_eq (x y : Word64) : divU x y = if y = 0 then BitVec.allOnes 64 else x.udiv y := by
  rw [divU]
  congr 1
  apply BitVec.eq_of_toNat_eq
  exact Nat.mod_eq_of_lt ((Nat.div_le_self _ _).trans_lt x.isLt)

theorem remS_eq (x y : Word64) : remS x y = if y = 0 then x else x.srem y := by
  rw [remS, ← BitVec.toInt_srem, BitVec.ofInt_toInt]

theorem remU_eq (x y : Word64) : remU x y = if y = 0 then x else x.umod y := by
  rw [remU]
  congr 1
  apply BitVec.eq_of_toNat_eq
  exact Nat.mod_eq_of_lt ((Nat.mod_le _ _).trans_lt x.isLt)

/-! ### Bit counts (R89) -/

theorem bitAt_toNat {w : Nat} (x : BitVec w) (i : Nat) : bitAt x.toNat i = x.getLsbD i := by
  rw [bitAt, BitVec.getLsbD, Nat.testBit_eq_decide_div_mod_eq]

theorem zerosAbove_le (x n : Nat) : zerosAbove x n ≤ n := by
  induction n with
  | zero => exact le_rfl
  | succ n ih => rw [zerosAbove]; split <;> omega

/-- The counted bits are zero. -/
theorem bitAt_of_zerosAbove (x n i : Nat) (hi : i < n) (h : n - zerosAbove x n ≤ i) : bitAt x i = false := by
  induction n with
  | zero => omega
  | succ n ih =>
    rw [zerosAbove] at h
    split at h
    · omega
    next bit =>
      by_cases same : i = n
      · rw [same]
        exact Bool.eq_false_iff.2 bit
      · exact ih (by omega) (by omega)

/-- Below them stands a one. -/
theorem bitAt_below_zerosAbove (x n : Nat) (h : zerosAbove x n < n) : bitAt x (n - 1 - zerosAbove x n) = true := by
  induction n with
  | zero => omega
  | succ n ih =>
    rw [zerosAbove] at h ⊢
    split
    next bit => simpa using bit
    next bit =>
      rw [if_neg bit] at h
      have := ih (by omega)
      rwa [show n + 1 - 1 - (zerosAbove x n + 1) = n - 1 - zerosAbove x n by omega]

theorem lowestOne_of_zero (x i n : Nat) (h : ∀ k, i ≤ k → k < i + n → bitAt x k = false) : lowestOne x i n = 64 := by
  induction n generalizing i with
  | zero => rfl
  | succ n ih =>
    rw [lowestOne, h i le_rfl (by omega)]
    exact ih (i + 1) (fun k hk hk' => h k (by omega) (by omega))

/-- With a one among the bits looked at, the lowest of them is found. -/
theorem lowestOne_spec (x i n : Nat) (h : ∃ k, i ≤ k ∧ k < i + n ∧ bitAt x k = true) :
    i ≤ lowestOne x i n ∧ lowestOne x i n < i + n ∧ bitAt x (lowestOne x i n) = true
      ∧ ∀ k, i ≤ k → k < lowestOne x i n → bitAt x k = false := by
  induction n generalizing i with
  | zero => omega
  | succ n ih =>
    rw [lowestOne]
    split
    next bit => exact ⟨le_rfl, by omega, bit, fun k _ _ => by omega⟩
    next bit =>
      obtain ⟨k, hk, hk', one⟩ := h
      have past : k ≠ i := by
        rintro rfl
        exact bit one
      obtain ⟨low, high, found, below⟩ := ih (i + 1) ⟨k, by omega, by omega, one⟩
      refine ⟨by omega, by omega, found, fun j hj hj' => ?_⟩
      by_cases same : j = i
      · rw [same]
        exact Bool.eq_false_iff.2 bit
      · exact below j (by omega) hj'

theorem exists_bit_of_ne_zero {x : Word64} (h : x ≠ 0) : ∃ k, 0 ≤ k ∧ k < 0 + 64 ∧ bitAt x.toNat k = true := by
  by_contra none
  push Not at none
  refine h (BitVec.eq_of_getLsbD_eq fun k hk => ?_)
  rw [← bitAt_toNat, BitVec.ofNat_eq_ofNat, BitVec.getLsbD_zero]
  exact Bool.eq_false_iff.2 (none k (Nat.zero_le k) (by omega))

theorem onesOf_eq_countP (x n : Nat) : onesOf x n = (List.range n).countP (fun i => bitAt x i) := by
  induction n generalizing x with
  | zero => rfl
  | succ n ih =>
    rw [onesOf, ih, List.range_succ_eq_map, List.countP_cons, List.countP_map]
    have shift : ((fun i => bitAt x i) ∘ Nat.succ) = fun i => bitAt (x / 2) i := by
      funext i
      rw [Function.comp_apply, bitAt, bitAt, Nat.pow_succ', Nat.div_div_eq_div_mul]
    rw [shift, add_comm]
    congr 1
    rcases Nat.mod_two_eq_zero_or_one x with h | h <;> simp [bitAt, h]

/-! ### MOVHI (R91) -/

theorem getLsbD_replaceChunk (v : Word64) (k : BitVec 2) (i : BitVec 16) (n : Nat) (hn : n < 64) :
    (replaceChunk v k i).getLsbD n = if n / 16 = k.toNat then i.getLsbD (n - 16 * k.toNat) else v.getLsbD n := by
  have chunk : (0xFFFF#64).getLsbD (n - 16 * k.toNat) = decide (n - 16 * k.toNat < 16) := by
    rw [show (0xFFFF#64) = (BitVec.allOnes 16).zeroExtend 64 by decide, BitVec.getLsbD_setWidth, BitVec.getLsbD_allOnes]
    simp only [show n - 16 * k.toNat < 64 by omega, decide_true, Bool.true_and]
  rw [replaceChunk]
  simp only [BitVec.getLsbD_or, BitVec.getLsbD_and, BitVec.getLsbD_not, BitVec.getLsbD_shiftLeft, BitVec.truncate_eq_setWidth,
    BitVec.getLsbD_setWidth, chunk, hn, show n - 16 * k.toNat < 64 by omega, decide_true, Bool.true_and]
  split
  next same => simp [show ¬ n < 16 * k.toNat by omega, show n - 16 * k.toNat < 16 by omega]
  next other =>
    by_cases below : n < 16 * k.toNat
    · simp [below]
    · have above : 16 ≤ n - 16 * k.toNat := by omega
      simp [below, show ¬ n - 16 * k.toNat < 16 by omega, BitVec.getLsbD_of_ge i _ above]

theorem extractLsb'_replaceChunk (v : Word64) (k : BitVec 2) (i : BitVec 16) :
    (replaceChunk v k i).extractLsb' (16 * k.toNat) 16 = i := by
  refine BitVec.eq_of_getLsbD_eq fun j hj => ?_
  have hk := k.isLt
  rw [BitVec.getLsbD_extractLsb', getLsbD_replaceChunk _ _ _ _ (by omega), if_pos (by omega), Nat.add_sub_cancel_left]
  simp [hj]

/-! ### Comparisons (R62, R88) -/

theorem slt_eq_false_iff (x y : Word64) : x.slt y = false ↔ y.toInt ≤ x.toInt := by
  rw [← Bool.not_eq_true, BitVec.slt_iff_toInt_lt, not_lt]

theorem ult_eq_false_iff (x y : Word64) : x.ult y = false ↔ y.toNat ≤ x.toNat := by
  rw [← Bool.not_eq_true, BitVec.ult_iff_lt, BitVec.lt_def, not_lt]

theorem condHolds_iff (cc : BitVec 3) (x y : Word64) : condHolds cc x y = true ↔ CondOf cc x y := by
  have cases8 : cc = 0 ∨ cc = 1 ∨ cc = 2 ∨ cc = 3 ∨ cc = 4 ∨ cc = 5 ∨ cc = 6 ∨ cc = 7 := by
    revert cc; decide
  rcases cases8 with rfl | rfl | rfl | rfl | rfl | rfl | rfl | rfl
  all_goals
    simp [condHolds, CondOf, BitVec.slt_iff_toInt_lt, BitVec.ult_iff_lt, BitVec.lt_def, bitAt_toNat, slt_eq_false_iff,
      ult_eq_false_iff]

/-! ### The instructions -/

/-- An instruction whose whole effect is to write a value to gd. -/
theorem answers_wroteG {i : Instr} {s : State} {d : BitVec 5} {v w : Word64} (h : exec i s = .next (s.writeG d v))
    (hv : v = w) : Answers i s (fun t => WroteG s t d w) := hv ▸ ⟨_, h, wroteG_writeG s d v⟩

theorem threeRegisterResults : Claim.ThreeRegisterResults := by
  intro s d a b
  refine ⟨?_, ?_, ?_, ?_, ?_, ?_, ?_, ?_, ?_, ?_, ?_, ?_, ?_, ?_, ?_⟩
  case refine_4 => exact answers_wroteG rfl (mulHighS_eq _ _)
  case refine_5 => exact answers_wroteG rfl (mulHighU_eq _ _)
  case refine_6 => exact answers_wroteG rfl (divS_eq _ _)
  case refine_7 => exact answers_wroteG rfl (divU_eq _ _)
  case refine_8 => exact answers_wroteG rfl (remS_eq _ _)
  case refine_9 => exact answers_wroteG rfl (remU_eq _ _)
  all_goals exact answers_wroteG rfl rfl

theorem bitCountResults : Claim.BitCountResults := by
  intro s d a
  refine ⟨⟨_, answers_wroteG rfl rfl, fun zero => ?_, fun some => ?_⟩, answers_wroteG rfl ?_,
    _, answers_wroteG rfl rfl, fun zero => ?_, fun some => ?_⟩
  case refine_1 => rw [zero]; decide
  case refine_2 =>
    have bits := bitAt_of_zerosAbove (s.g a).toNat 64
    obtain ⟨k, -, hk, one⟩ := exists_bit_of_ne_zero some
    have lt : zerosAbove (s.g a).toNat 64 < 64 := by
      by_contra all
      rw [bits k (by omega) (by omega)] at one
      cases one
    have top := bitAt_below_zerosAbove _ _ lt
    simp only [bitAt_toNat] at bits top
    refine ⟨lt, top, fun i hi => ?_⟩
    by_cases inside : i < 64
    · exact bits i inside (by omega)
    · exact BitVec.getLsbD_of_ge _ _ (by omega)
  case refine_3 => simp only [onesOf_eq_countP, bitAt_toNat]
  case refine_4 =>
    refine lowestOne_of_zero _ 0 64 fun k _ _ => ?_
    rw [zero, bitAt_toNat, BitVec.ofNat_eq_ofNat, BitVec.getLsbD_zero]
  case refine_5 =>
    obtain ⟨-, lt, one, below⟩ := lowestOne_spec _ 0 64 (exists_bit_of_ne_zero some)
    simp only [bitAt_toNat] at one below
    exact ⟨by omega, one, fun i hi => below i (Nat.zero_le i) hi⟩

theorem immediateResults : Claim.ImmediateResults := by
  intro s d a i h k
  refine ⟨?_, ?_, ?_, ?_, ?_, ?_, ?_, ?_, _, answers_wroteG rfl rfl, extractLsb'_replaceChunk _ _ _, fun n hn other => ?_⟩
  case refine_9 => rw [getLsbD_replaceChunk _ _ _ _ hn, if_neg other]
  all_goals exact answers_wroteG rfl rfl

/-- Settles O1: every form writes one value to gd, and the model's value is the one of R87, R89 or R91. -/
theorem arithmeticResults : Obligations.ArithmeticResults :=
  ⟨threeRegisterResults, bitCountResults, immediateResults⟩

theorem setG_zero (c : Core) (v : Word64) : c.setG 0 v = c := rfl

/-- A strict comparison selects what the weak one does: equal keys are keys of one word. -/
theorem select_of_lt {n : Type} [LinearOrder n] {f : Word64 → n} (inj : f.Injective) (x y : Word64) :
    (if f x < f y then x else y) = if f x ≤ f y then x else y := by
  by_cases same : x = y
  · simp [same]
  · simp only [le_iff_lt_or_eq, inj.eq_iff, same, or_false]

theorem select_of_lt' {n : Type} [LinearOrder n] {f : Word64 → n} (inj : f.Injective) (x y : Word64) :
    (if f x < f y then y else x) = if f x ≤ f y then y else x := by
  by_cases same : x = y
  · simp [same]
  · simp only [le_iff_lt_or_eq, inj.eq_iff, same, or_false]

/-- Settles O2, by the order of the integers that the comparisons stand for; with g0 as gd nothing is written. -/
theorem minMaxSelectResults : Obligations.MinMaxSelectResults := by
  unfold Obligations.MinMaxSelectResults
  intro s d a b
  have toInt_inj : Function.Injective (@BitVec.toInt 64) := fun _ _ => BitVec.eq_of_toInt_eq
  have toNat_inj : Function.Injective (@BitVec.toNat 64) := fun _ _ => BitVec.eq_of_toNat_eq
  refine ⟨answers_wroteG rfl ?_, answers_wroteG rfl ?_, answers_wroteG rfl ?_, answers_wroteG rfl ?_,
    answers_wroteG rfl rfl, ?_, ?_, ?_, ?_, ?_, ?_⟩
  · simp only [BitVec.slt_iff_toInt_lt, select_of_lt toInt_inj]
  · simp only [BitVec.slt_iff_toInt_lt, select_of_lt' toInt_inj]
  · simp only [BitVec.ult_iff_lt, BitVec.lt_def, select_of_lt toNat_inj]
  · simp only [BitVec.ult_iff_lt, BitVec.lt_def, select_of_lt' toNat_inj]
  · rintro rfl
    exact ⟨s.advance, rfl, wentTo_advance s⟩
  all_goals
    simp only [encode, wordOf, Option.some.injEq]
    ring

/-- Settles O3: the condition that CMP.cc tests is the one of R62's table. -/
theorem compareWritesCondition : Obligations.CompareWritesCondition := by
  unfold Obligations.CompareWritesCondition
  intro s d a b cc
  refine ⟨fun holds => answers_wroteG rfl ?_, fun fails => answers_wroteG rfl ?_, ?_⟩
  · rw [(condHolds_iff _ _ _).2 holds, flagWord, if_pos rfl]
  · rw [Bool.eq_false_iff.2 (mt (condHolds_iff _ _ _).1 fails), flagWord, if_neg Bool.false_ne_true]
  · simp only [encode, wordOf, Option.some.injEq]
    ring

end Sys2Proof.Machine
end
/-! ## Branches, jumps and the stage window (O4, O5) -/
section
namespace Sys2Proof.Machine

theorem wentTo_goto (s : State) (pc : Word64) : WentTo s (s.goto pc) pc := onlyCore_setMe s _

/-- A second change of the acting core leaves the first one behind. -/
theorem onlyCore_setMe_of {s t : State} {c : Core} (x : Core) (h : OnlyCore s t c) : OnlyCore s (t.setMe x) x := by
  obtain ⟨hm, hs, hp, hc, hw, -⟩ := h
  obtain ⟨-, -, -, -, -, -, actor, -, -⟩ := id hs
  exact ⟨hm, hs, hp, fun n hn => (State.core_setMe t n x (actor ▸ hn)).trans (hc n hn), hw, State.me_setMe t x⟩

theorem State.me_setSys (s : State) (f : CoreSys → CoreSys) : (s.setSys f).me = { s.me with sys := f s.me.sys } :=
  State.me_setMe s _

/-- The acting core's system registers change, and it goes to a word offset. -/
theorem wroteSys_goto (s : State) (f : CoreSys → CoreSys) (pc : Word64) :
    WroteSys s ((s.setSys f).goto pc) (f s.me.sys) pc := by
  have h := onlyCore_setMe_of { (s.setSys f).me with pc := pc } (onlyCore_setMe s { s.me with sys := f s.me.sys })
  exact Eq.mp (congrArg (fun c => OnlyCore s _ { c with pc := pc }) (State.me_setSys s f)) h

theorem wroteSys_advance (s : State) (f : CoreSys → CoreSys) :
    WroteSys s (s.setSys f).advance (f s.me.sys) (s.me.pc + 1) :=
  Eq.mp (congrArg (fun c : Core => WroteSys s _ _ (c.pc + 1)) (State.me_setSys s f)) (wroteSys_goto s f _)

/-- Settles O4: the branch goes where the condition of R62 sends it. -/
theorem branchGoesByCondition : Obligations.BranchGoesByCondition := by
  unfold Obligations.BranchGoesByCondition
  intro s a b cc o
  refine ⟨fun holds => ⟨_, rfl, ?_⟩, fun fails => ⟨_, rfl, ?_⟩, ?_⟩
  · rw [if_pos ((condHolds_iff _ _ _).2 holds)]
    exact wentTo_goto s _
  · rw [if_neg (mt (condHolds_iff _ _ _).1 fails)]
    exact wentTo_advance s
  · simp only [encode, wordOf, Option.some.injEq]
    ring

theorem jumpsAndNop : Claim.JumpsAndNop := by
  intro s o a
  refine ⟨⟨_, rfl, wentTo_goto s _⟩, ⟨_, rfl, fun r => ?_, ?_⟩, ⟨_, rfl, wentTo_goto s _⟩, _, rfl, wentTo_advance s⟩
  · refine (State.g_setMe_setG s 31 r _ _).trans ?_
    by_cases h : r = 31
    · simp [h]
    · rw [if_neg (fun both => h both.1), if_neg h]
  · refine Eq.mp (congrArg (OnlyCore s _) ?_) (onlyCore_setMe s _)
    rw [State.me_setMe]
    rfl

theorem extractLsb'_eq_zero_iff (x : Word64) : x.extractLsb' 60 4 = 0 ↔ bitsAt x.toNat 60 4 = 0 := by
  rw [← BitVec.toNat_inj, BitVec.extractLsb'_toNat, Nat.shiftRight_eq_div_pow]
  rfl

theorem loopWindow : Claim.LoopWindow := by
  intro s a n w o
  refine ⟨fun top => ?_, fun top can => ?_, fun more => ⟨_, rfl, ?_⟩, fun last drain => ⟨_, rfl, ?_⟩,
    fun last empty => ⟨_, rfl, ?_⟩⟩
  · have arms : exec (.stwin a n w) s = s.runSeq (.ok (s.armWindow ((s.g a).setWidth 60) n.toNat w)) :=
      congrArg s.runSeq (if_neg (not_not.2 ((extractLsb'_eq_zero_iff _).1 top)))
    exact ⟨_, arms, onlyCore_noWait (wroteSys_advance s _)⟩
  · have traps : exec (.stwin a n w) s = s.runSeq (trap .argrange (s.g a)) :=
      congrArg s.runSeq (if_pos (mt (extractLsb'_eq_zero_iff _).2 top))
    exact ⟨_, traps, enteredHandler_trapEntry s .argrange _ none can⟩
  · rw [State.loopStep, if_pos more]
    exact wroteSys_goto s _ _
  · rw [State.loopStep, if_neg (not_not.2 last), if_pos drain]
    exact wroteSys_goto s _ _
  · rw [State.loopStep, if_neg (not_not.2 last), if_neg (Nat.not_lt.2 empty.le)]
    exact wentTo_advance s

/-- Settles O5: a jump writes the pc alone, and the window's instructions one clause each of R97 and R98. -/
theorem jumpsAndLoopWindow : Obligations.JumpsAndLoopWindow := ⟨jumpsAndNop, loopWindow⟩

end Sys2Proof.Machine
end
/-! ## Event latches, and the machine's acting core, through the shared operations -/
section
namespace Sys2Proof.Machine

/-! ### Cores that may have seen an event (R321) -/

/-- A core is as before, or its event latch has been set. -/
def Latched (c d : Core) : Prop := d = c ∨ d = c.latch

/-- Every core is as before but for its event latch. -/
def CoresLatched (s t : State) : Prop := ∀ n, Latched (s.core n) (t.core n)

theorem Latched.trans {c d e : Core} (h : Latched c d) (h' : Latched d e) : Latched c e := by
  rcases h with rfl | rfl
  · exact h'
  · rcases h' with rfl | rfl
    · exact .inr rfl
    · exact .inr rfl

/-- A latch shows in nothing that does not read it. -/
theorem Latched.same {c d : Core} {α : Type} (h : Latched c d) (view : Core → α) (hv : view c.latch = view c) :
    view d = view c := by
  rcases h with rfl | rfl
  · rfl
  · exact hv

theorem Latched.run {c d : Core} (h : Latched c d) : d.run = c.run := h.same Core.run rfl
theorem Latched.eng {c d : Core} (h : Latched c d) : d.eng = c.eng := h.same Core.eng rfl
theorem Latched.lease {c d : Core} (h : Latched c d) : d.sys.lease = c.sys.lease := h.same (fun c => c.sys.lease) rfl

theorem CoresLatched.refl (s : State) : CoresLatched s s := fun _ => .inl rfl

theorem CoresLatched.of_cores {s t : State} (h : t.cores = s.cores) : CoresLatched s t := fun n => by
  rw [State.core, State.core, h]
  exact .inl rfl

theorem CoresLatched.trans {s t u : State} (h : CoresLatched s t) (h' : CoresLatched t u) : CoresLatched s u :=
  fun n => (h n).trans (h' n)

theorem CoresLatched.foldl {α : Type} {f : State → α → State} (h : ∀ t x, CoresLatched t (f t x)) (l : List α) (s : State) :
    CoresLatched s (l.foldl f s) := by
  induction l generalizing s with
  | nil => exact .refl s
  | cons x l ih => exact (h s x).trans (ih _)

/-- A change of a table's values, number by number, relates what it reads before and after. -/
theorem get_map_of_rel {α : Type} {R : α → α → Prop} {f : Nat × α → Nat × α} {n : Nat} {d : α} (hd : R d d)
    (hf : ∀ p, (f p).1 = p.1 ∧ (p.1 = n → R p.2 (f p).2)) (l : Sparse α) :
    R (Sparse.get l d n) (Sparse.get (l.map f) d n) := by
  unfold Sparse.get
  induction l with
  | nil => exact hd
  | cons p l ih =>
    obtain ⟨j, v⟩ := p
    obtain ⟨key, rel⟩ := hf (j, v)
    rw [List.map_cons, Sparse.find?, ← Prod.mk.eta (p := f (j, v)), Sparse.find?, key]
    split
    next same => exact rel same
    next => exact ih

theorem coresLatched_wake (s : State) (w : Option Nat) (gs : List Nat) : CoresLatched s (s.wake w gs) := by
  intro n
  refine get_map_of_rel (R := Latched) (.inl rfl) (fun p => ?_) s.cores
  split
  · split
    · exact ⟨rfl, fun _ => .inr rfl⟩
    · exact ⟨rfl, fun _ => .inl rfl⟩
  · exact ⟨rfl, fun _ => .inl rfl⟩

/-- The core whose own sequencer wrote sees no event (R321). -/
theorem core_wake_writer (s : State) (n : Nat) (gs : List Nat) : (s.wake (some n) gs).core n = s.core n := by
  refine get_map_of_rel (R := fun c d : Core => d = c) rfl (fun p => ?_) s.cores
  split
  · split
    next told =>
      refine ⟨rfl, fun same => ?_⟩
      simp [same] at told
    next => exact ⟨rfl, fun _ => rfl⟩
  · exact ⟨rfl, fun _ => rfl⟩

theorem coresLatched_setRecBytesBy (s : State) (w : Option Nat) (p a o : Nat) (bs : List Byte) :
    CoresLatched s (s.setRecBytesBy w p a o bs) := coresLatched_wake { s with mem := _ } _ _

theorem coresLatched_makeRunnable (s : State) (p a : Nat) : CoresLatched s (s.makeRunnable p a) := by
  unfold State.makeRunnable
  split
  · exact .refl s
  · exact coresLatched_setRecBytesBy s none p a 28 _

theorem coresLatched_guestFault (s : State) (f : FaultRec) : CoresLatched s (s.guestFault f) := by
  unfold State.guestFault
  simp only
  split <;> exact .of_cores rfl

theorem coresLatched_closeGroup (s : State) (p g : Nat) : CoresLatched s (s.closeGroup p g) := by
  unfold State.closeGroup
  simp only
  split
  · exact CoresLatched.foldl (fun t a => coresLatched_makeRunnable t p a) _ s
  · exact .refl s

theorem coresLatched_leaveGroups (s : State) (p a : Nat) (gs : List Nat) : CoresLatched s (s.leaveGroups p a gs) := by
  refine CoresLatched.foldl (fun t g => ?_) gs s
  split
  · exact .refl t
  · simp only
    split
    · exact .of_cores rfl
    · exact coresLatched_closeGroup (t.modPart p _) p g

theorem cores_endUnit (s : State) (p a : Nat) (e : UnitEnd) : (s.endUnit p a e).cores = s.cores := by
  unfold State.endUnit
  simp only
  split
  · rfl
  · split
    · rfl
    · split
      · split <;> rfl
      · rfl

/-! ### The acting core stays the acting core -/

@[simp] theorem State.setRecBytesBy_actor (s : State) (w : Option Nat) (p a o : Nat) (bs : List Byte) :
    (s.setRecBytesBy w p a o bs).actor = s.actor := rfl

@[simp] theorem State.makeRunnable_actor (s : State) (p a : Nat) : (s.makeRunnable p a).actor = s.actor := by
  unfold State.makeRunnable; split <;> rfl

@[simp] theorem State.guestFault_actor (s : State) (f : FaultRec) : (s.guestFault f).actor = s.actor := by
  unfold State.guestFault; simp only; split <;> rfl

@[simp] theorem State.closeGroup_actor (s : State) (p g : Nat) : (s.closeGroup p g).actor = s.actor := by
  unfold State.closeGroup
  simp only
  split
  · exact foldl_keeps State.actor (fun t a _ => t.makeRunnable_actor p a) s
  · rfl

@[simp] theorem State.leaveGroups_actor (s : State) (p a : Nat) (gs : List Nat) :
    (s.leaveGroups p a gs).actor = s.actor := by
  refine foldl_keeps State.actor (fun t g _ => ?_) s
  split
  · rfl
  · simp only
    split
    · rfl
    · exact State.closeGroup_actor _ p g

@[simp] theorem State.endUnit_actor (s : State) (p a : Nat) (e : UnitEnd) : (s.endUnit p a e).actor = s.actor := by
  unfold State.endUnit
  simp only
  split
  · rfl
  · split
    · rfl
    · split
      · split <;> rfl
      · rfl

@[simp] theorem State.putHere_actor (s : State) (n u : Nat) (f : Bool) (l k : Nat) (bs : List Byte) :
    (s.putHere n u f l k bs).actor = s.actor := by
  unfold State.putHere
  simp only
  split
  · refine foldl_keeps State.actor (fun t c _ => ?_) s
    split
    · rfl
    · exact State.keepOlder_actor ..
  · exact State.keepOlder_actor ..

@[simp] theorem State.putPiece_actor (s : State) (n e w u : Nat) (f : Bool) (p : Piece) (bs : List Byte) :
    (s.putPiece n e f p bs w u).actor = s.actor := by
  unfold State.putPiece
  split
  · exact State.putHere_actor ..
  · split <;> rfl

@[simp] theorem State.putPieces_actor (s : State) (n e w u : Nat) (f : Bool) (ps : List Piece) (bs : List Byte) :
    (s.putPieces n e f ps bs w u).actor = s.actor := by
  unfold State.putPieces
  induction joinLines ps generalizing s bs with
  | nil => rfl
  | cons p ps ih => rw [State.putRuns, ih, State.putPiece_actor]

@[simp] theorem State.clearMarks_actor (s : State) (n : Nat) (r : Option (Nat × Nat)) :
    (s.clearMarks n r).actor = s.actor := by
  unfold State.clearMarks State.unmarkPending
  split
  · simp only
    split <;> rfl
  · rfl

@[simp] theorem State.settleMatrix_actor (s : State) (n : Nat) : (s.settleMatrix n).actor = s.actor := by
  refine foldl_keeps State.actor (fun t f _ => ?_) s
  unfold State.landMatrix
  split
  · rfl
  · exact (State.clearMarks_actor ..).trans (State.putPieces_actor ..)

theorem State.landStrat_actor (s : State) (u : StratRun) (f : StratFlight) : (s.landStrat u f).actor = s.actor := by
  unfold State.landStrat
  simp only [setCore_actor]
  split
  · exact State.putPieces_actor ..
  · rfl

@[simp] theorem State.settleStrat_actor (s : State) (n : Nat) : (s.settleStrat n).actor = s.actor := by
  have settled (r : State × StratRun) (f : StratFlight) : (r.1.settleFlight r.2 f).1.actor = r.1.actor := by
    unfold State.settleFlight
    split
    · rfl
    · exact State.landStrat_actor ..
  unfold State.settleStrat
  dsimp only
  split
  · rfl
  · split
    · rw [State.setCluster_actor]
      exact foldl_keeps (fun r : State × StratRun => r.1.actor) (fun r f _ => settled r f) _
    · rfl

@[simp] theorem State.save_actor (s : State) (n k : Nat) (faulted : Bool) : (s.save n k faulted).1.actor = s.actor := by
  unfold State.save
  split
  · rfl
  · dsimp only
    split
    · rfl
    · rw [State.poke_actor, State.setCluster_actor, State.setPart_actor]

/-- A core that its continuation is taken from stands idle (R167). -/
theorem core_forceOut {s : State} {n : Nat} {r : Running} (h : (s.core n).run = some r) (kind st : Nat) :
    ∃ c : Core, (s.forceOut n kind st).core n = c.idle ∧ (s.forceOut n kind st).actor = s.actor := by
  have idled (t : State) (c : Core) : (((t.setCore n c).noWaits n).perform n (fun _ => true)).core n = c :=
    t.core_setCore_same n c
  have quiet (t : State) : (t.noWaits n).actor = t.actor := rfl
  have dropped (t : State) : (t.dropReads n).actor = t.actor := rfl
  unfold State.forceOut
  rw [h]
  dsimp only
  refine ⟨_, idled _ _, ?_⟩
  rw [State.perform_actor, quiet, State.setCore_actor, State.setRecBytes_actor, State.setCtl_actor, State.save_actor, dropped,
    State.settleStrat_actor, State.settleMatrix_actor, State.setCore_actor]

end Sys2Proof.Machine
end
/-! ## TRAP (O6) -/
section
namespace Sys2Proof.Machine

/-- EndFaulted leaves the core as one that its continuation has been taken from, but for its event latch (R177). -/
theorem core_endFaulted {s : State} {n : Nat} {r : Running} (run : (s.core n).run = some r) (save : s.canSave n = true)
    (code : Nat) (info : Word64) (lane : Option Nat) (e w : Nat) (more : Bool) (pc : Nat) :
    ∃ c : Core, Latched c.idle ((s.endFaulted n code info lane e w more pc).core n)
      ∧ (s.endFaulted n code info lane e w more pc).actor = s.actor := by
  obtain ⟨c, idle, actor⟩ := core_forceOut run 4 6
  unfold State.endFaulted
  rw [run]
  simp only [save, Bool.not_true, Bool.false_eq_true, ↓reduceIte, State.endUnit_actor, State.leaveGroups_actor,
    State.guestFault_actor, actor, and_true]
  refine ⟨c, ?_⟩
  rw [← idle]
  exact ((coresLatched_guestFault _ _).trans ((coresLatched_leaveGroups _ _ _ _).trans (.of_cores (cores_endUnit ..)))) n

theorem trapEntersHandler : Claim.TrapEntersHandler :=
  fun s i can => ⟨_, rfl, enteredHandler_trapEntry s .swtrap (i.zeroExtend 64) none can⟩

theorem trapWithoutHandlerEndsFaulted : Claim.TrapWithoutHandlerEndsFaulted := by
  intro s i r run none save
  have ends := trapEntry_endFaulted s s.actor.core .swtrap (i.zeroExtend 64) Option.none 0 s.me.pc.toNat s.me.holdsTrap s.me.pc
    none
  refine ⟨_, congrArg Host.Outcome.next ends, rfl, ?_⟩
  obtain ⟨c, idle, actor⟩ := core_endFaulted run save Trap.swtrap.code (i.zeroExtend 64) Option.none 0 s.me.pc.toNat
    s.me.holdsTrap s.me.pc.toNat
  rw [State.me, actor]
  exact ⟨idle.run, idle.eng, idle.lease⟩

/-- Settles O6: TRAP is SWTRAP's trap entry, which ends the continuation where no handler can run. -/
theorem trapsEnterOrEndFaulted : Obligations.TrapsEnterOrEndFaulted :=
  ⟨trapEntersHandler, trapWithoutHandlerEndsFaulted⟩

end Sys2Proof.Machine
end
/-! ## Two refutations: leaving PENDTRAP (O7) and a grant to another world (O36) -/
section
namespace Sys2Proof.Machine

/-- What an instruction answers in a state is one next state. -/
theorem of_answers {i : Instr} {s t : State} {P : State → Prop} (h : Answers i s P) (e : exec i s = .next t) : P t := by
  obtain ⟨u, hu, hP⟩ := h
  cases hu.symm.trans e
  exact hP

/-- Core 0 in PENDTRAP mode, with a matrix block queued whose ACCRDs have marked what they will write (R186). -/
def pendtrapState : State :=
  { State.reset with cores := [(0, { Core.init with
      sys := { CoreSys.init with pendtrap := true }
      eng := { CoreEng.init with matQ := [⟨0, 0, 0, [], 0, none, true⟩] } })] }

/-- Leaving the mode takes the mark from the queued block, whose bits are gone (R186). -/
theorem leavePending_unmarks :
    (pendtrapState.writeSys 0 0).advance.me.eng.matQ = [⟨0, 0, 0, [], 0, none, false⟩] := by decide +kernel

/-- Refutes O7: with g0 as its source, SREGW of STATUS leaves PENDTRAP and takes the mark from a queued matrix block, which
the statement says stays as it is. -/
theorem not_systemRegistersAndEvents : ¬ Obligations.SystemRegistersAndEvents := by
  unfold Obligations.SystemRegistersAndEvents
  rintro ⟨-, writes, -⟩
  obtain ⟨-, -, -, -, -, -, -, -, leaves, -⟩ := writes pendtrapState 0 0
  obtain ⟨me, -⟩ := of_answers (leaves (by decide)) rfl
  have kept := congrArg (fun c : Core => c.eng.matQ) me
  exact absurd (leavePending_unmarks.symm.trans kept) (by decide)

/-- Cluster 0 with a slot in use, its array last granted to world 1 of partition 0, and a claim of core 0. -/
def otherWorldState : State :=
  { State.reset with clusters := [(0, { Cluster.init with
      claims := [0], position := 7, lastWorld := some (0, 1), slots := [(0, Slot.init)] })] }

/-- The grant clears the slot's contents and keeps its shape (R254, R290; log 50). -/
theorem arrayGrant_keeps_shape : (otherWorldState.grantTo 0 0).myCluster.slots = [(0, Slot.init)] := by decide +kernel

/-- Refutes O36: a grant to another world clears what the slots hold but keeps their table, which the statement says is
empty. -/
theorem not_arrayIsGranted : ¬ Obligations.ArrayIsGranted := by
  unfold Obligations.ArrayIsGranted
  rintro ⟨grants, -⟩
  have granted : exec .arrayGrant otherWorldState = .next (otherWorldState.grantTo 0 0) := rfl
  obtain ⟨-, -, -, -, -, -, -, -, toCore⟩ := of_answers (grants otherWorldState 0 1 rfl (by decide) (by decide) rfl (by decide)
    (fun j _ _ => by omega) (by decide)) granted
  obtain ⟨-, -, cleared, -⟩ := toCore (by decide) (by decide)
  obtain ⟨slots, -⟩ := cleared (by decide) (by decide)
  exact absurd (arrayGrant_keeps_shape.symm.trans slots) (by decide)

end Sys2Proof.Machine
end
/-! ## Return from a trap, held engine traps, words that are no instruction (O18) -/
section
namespace Sys2Proof.Machine

/-! ### ERET (R116, R175) -/

theorem engineReturn_of_none {s : State} (h : s.me.eng.trapFrom = none) : s.engineReturn s.actor.core = s := by
  rw [State.me] at h
  unfold State.engineReturn
  simp only [h]

/-- An engine other than the transfer unit takes words again; without ABANDON nothing else changes (R175). -/
theorem onlyCore_engineReturn {s t : State} {c : Core} {e : Nat} (h : OnlyCore s t c) (hf : c.eng.trapFrom = some e)
    (he : e ≠ 3) (ha : c.sys.abandon = false) :
    OnlyCore s (t.engineReturn s.actor.core)
      { c with eng := { c.eng with stopped := Marks.del e c.eng.stopped, trapFrom := none } } := by
  obtain ⟨-, ⟨-, -, -, -, -, -, actor, -, -⟩, -, -, -, me⟩ := id h
  have core : t.core s.actor.core = c := by rw [← actor]; exact me
  have resumed : t.engineReturn s.actor.core = (t.setMe { c with
      eng := { c.eng with stopped := Marks.del e c.eng.stopped } }).setMe { c with
      sys := { c.sys with abandon := false }, eng := { c.eng with stopped := Marks.del e c.eng.stopped, trapFrom := none } } := by
    unfold State.engineReturn State.resumeEngine
    simp only [core, hf, ha, he, Bool.false_eq_true, ↓reduceIte, State.core_setCore_same]
    rw [← actor]
    rfl
  have same : { c.sys with abandon := false } = c.sys := by rw [← ha]
  rw [resumed, same]
  exact onlyCore_setMe_of _ (onlyCore_setMe_of _ h)

theorem returnFromTrap : Claim.ReturnFromTrap := by
  intro s
  have returns (inh : s.me.sys.inh = true) : exec .eret s = s.runSeq (.ok (((s.setSys (fun y => { y with inh := false })).goto
      (s.me.sys.eretpc.setWidth 64)).engineReturn s.actor.core)) :=
    congrArg s.runSeq (if_neg (by simp [inh]))
  have gone := wroteSys_goto s (fun y => { y with inh := false }) (s.me.sys.eretpc.setWidth 64)
  refine ⟨fun inh idle => ⟨_, returns inh, ?_⟩, fun e inh served other keep => ⟨_, returns inh, ?_⟩, fun inh handler => ?_⟩
  · obtain ⟨-, ⟨-, -, -, -, -, -, actor, -, -⟩, -, -, -, me⟩ := id gone
    rw [← actor, engineReturn_of_none (by rw [me]; exact idle), actor]
    exact onlyCore_noWait gone
  · exact onlyCore_noWait (onlyCore_engineReturn gone served other keep)
  · have traps : exec .eret s = s.runSeq (trap .nohandler 0) := congrArg s.runSeq (if_pos inh)
    exact ⟨_, traps, enteredHandler_trapEntry s .nohandler 0 none ⟨inh, handler⟩⟩

/-! ### Delivery (R174) -/

theorem trapOfCode_code (c : Trap) : trapOfCode c.code = c := by cases c <;> rfl

/-- A core as trap entry leaves it: the handler's registers set, and traps inhibited (R175). -/
def Core.entered (c : Core) (t : Trap) (info : Word64) (lane : Option Nat) (e w : Nat) (more : Bool) (pc : Word64) : Core :=
  { c with
    pc := c.sys.trapvec.setWidth 64
    eng := { c.eng with stratQ := [], trapFrom := none }
    sys := { c.sys with
      faultInfo := faultInfoOf t.code lane e w more, faultAddr := info, faultPc := pc.setWidth 20
      eretpc := (if t = .swtrap then pc + 1 else pc).setWidth 20, inh := true } }

theorem State.trapEntry_of_handler {s : State} {n : Nat} {c : Core} (hc : s.core n = c) (inh : c.sys.inh = false)
    (handler : c.sys.trapvec ≠ 0) (t : Trap) (info : Word64) (lane : Option Nat) (e w : Nat) (more : Bool) (pc : Word64) :
    s.trapEntry n t info lane e w more pc = ((s.setCore n (c.entered t info lane e w more pc)).noWait n).dropLoads n 0 := by
  unfold State.trapEntry
  dsimp only
  rw [hc, inh, Bool.false_or, if_neg (by simpa using handler)]
  rfl

/-- A core that takes its oldest held trap, whose word belongs to an engine (R174). -/
def Core.delivers (c : Core) (t : Trap) (h : HeldTrap) (rest : List HeldTrap) : Core :=
  Core.entered { c with eng := { c.eng with heldTraps := rest } } t h.info h.lane h.engine h.word (!rest.isEmpty) c.pc

theorem State.deliver_of_handler {s : State} {n : Nat} {c : Core} {t : Trap} {h : HeldTrap} {rest : List HeldTrap}
    (hc : s.core n = c) (held : c.eng.heldTraps = h :: rest) (inh : c.sys.inh = false) (handler : c.sys.trapvec ≠ 0)
    (run : c.run.isSome = true) (code : h.code = t.code) (engine : h.engine ≠ 0) :
    let d := c.delivers t h rest
    s.deliver n = ((((s.setCore n { c with eng := { c.eng with heldTraps := rest } }).setCore n d).noWait n).dropLoads n 0).setCore
      n { d with eng := { d.eng with trapFrom := some h.engine } } := by
  have entry := State.trapEntry_of_handler (State.core_setCore_same s n { c with eng := { c.eng with heldTraps := rest } })
    inh handler t h.info h.lane h.engine h.word (!rest.isEmpty) c.pc
  have now (u : State) (d : Core) : (((u.setCore n d).noWait n).dropLoads n 0).core n = d := State.core_setCore_same u n d
  unfold State.deliver
  rw [hc]
  simp only [held, code, trapOfCode_code, decide_eq_false handler, Bool.false_and, Bool.false_eq_true, ↓reduceIte, entry, now,
    engine]
  exact if_pos run

theorem heldEngineTrapIsDelivered : Claim.HeldEngineTrapIsDelivered := by
  intro s h rest r c can run held ready code hardware engine
  obtain ⟨inh, handler⟩ := can
  have delivers := State.deliver_of_handler (s := s) (n := s.actor.core) rfl held inh handler (Option.isSome_of_eq_some run)
    code engine
  refine ⟨_, congrArg Host.Outcome.next ((if_pos ready).trans delivers), ?_⟩
  have entered := onlyCore_dropLoads s.actor.core 0 (onlyCore_noWait (onlyCore_setMe_of (s.me.delivers c h rest)
    (onlyCore_setMe s { s.me with eng := { s.me.eng with heldTraps := rest } })))
  have taken := onlyCore_setMe_of { s.me.delivers c h rest with
    eng := { (s.me.delivers c h rest).eng with trapFrom := some h.engine } } entered
  refine Eq.mp (congrArg (OnlyCore _ _) ?_) taken
  rw [Core.delivers, Core.entered, if_neg hardware, ← code]

/-! ### Words that are no instruction (R74, R173, R198) -/

theorem illegalWordsAreHeld : Claim.IllegalWordsAreHeld := by
  intro s w
  refine ⟨fun word good none can => ?_, fun word bad can => ⟨Config.errorAddr s.draws, ?_⟩, fun b l word good none queue => ?_⟩
  · have raises : exec (.notAnInstruction .sequencer) s = s.runSeq (trap .illegal 0) := by
      change execNotAnInstruction .sequencer s = _
      simp only [execNotAnInstruction, word, good, none, Option.isSome_none, Bool.false_eq_true, ↓reduceIte, State.raiseAt]
    exact ⟨_, raises, enteredHandler_trapEntry s .illegal 0 Option.none can⟩
  · have raises : exec (.notAnInstruction .sequencer) s = s.runSeq (trap .memerr (Config.errorAddr s.draws)) := by
      change execNotAnInstruction .sequencer s = _
      simp only [execNotAnInstruction, word, bad, ↓reduceIte, State.raiseAt]
    exact ⟨_, raises, enteredHandler_trapEntry s .memerr _ none can⟩
  · have raises : exec (.notAnInstruction .transfer) s = s.runWord s.actor.core 3 b.next (trap .illegal 0) := by
      change execNotAnInstruction .transfer s = _
      simp only [execNotAnInstruction, word, good, none, Option.isSome_none, Bool.false_eq_true, ↓reduceIte, State.raiseAt,
        queue]
    exact ⟨_, raises, onlyCore_dropLoads _ 3 (onlyCore_noWaiter 3 (onlyCore_setMe s _))⟩

/-- Settles O18, by the engine side of ERET, the delivery of the oldest held trap, and the traps of a bad word. -/
theorem trapReturnAndHeldTraps : Obligations.TrapReturnAndHeldTraps :=
  ⟨returnFromTrap, heldEngineTrapIsDelivered, illegalWordsAreHeld⟩

end Sys2Proof.Machine
end
/-! ## Blocks that E words queue, and the lease (O20) -/
section
namespace Sys2Proof.Machine

/-! ### Waits and engine changes of the acting core -/

/-- The acting core's sequencer takes its place among the waiters of a resource; nothing else changes. -/
theorem onlyCore_queueUp {s t : State} {c : Core} (r : Resource) (h : OnlyCore s t c) :
    OnlyCore s (t.queueUp r s.actor.core) c := by
  unfold State.queueUp
  split
  · exact h
  · obtain ⟨hm, hs, hp, hc, hw, hme⟩ := onlyCore_noWait h
    refine ⟨hm, hs, hp, hc, fun w other => ?_, hme⟩
    have notMe : w ≠ (r, s.actor.core) := by
      rintro rfl
      exact other 0 rfl
    rw [← hw w other]
    simp [notMe]

/-- A wait changes nothing but the waiters. -/
theorem State.queueUp_eq (s : State) (r : Resource) (who : Nat) : ∃ ws, s.queueUp r who = { s with waiters := ws } := by
  unfold State.queueUp
  split
  · exact ⟨s.waiters, rfl⟩
  · exact ⟨_, rfl⟩

theorem State.me_setEng (s : State) (f : CoreEng → CoreEng) : (s.setEng f).me = { s.me with eng := f s.me.eng } :=
  State.me_setMe s _

/-- The acting core's change and its step to the next word are one change of that core. -/
theorem onlyCore_advance {s t : State} {c : Core} (h : OnlyCore s t c) : OnlyCore s t.advance { c with pc := c.pc + 1 } := by
  obtain ⟨-, -, -, -, -, me⟩ := id h
  exact Eq.mp (congrArg (fun d : Core => OnlyCore s t.advance { d with pc := d.pc + 1 }) me)
    (onlyCore_setMe_of { t.me with pc := t.me.pc + 1 } h)

theorem onlyCore_setEng_advance (s : State) (f : CoreEng → CoreEng) :
    OnlyCore s (s.setEng f).advance { s.me with eng := f s.me.eng, pc := s.me.pc + 1 } :=
  onlyCore_advance (onlyCore_setMe s _)

/-! ### Stage selectors (R17, R72) -/

theorem selOn_of_on {sel : BitVec 4} {sample : BitVec 8}
    (h : sel = 0 ∨ (8 ≤ sel.toNat ∧ sample.getLsbD (sel.toNat - 8) = true)) : selOn sel sample = true := by
  rw [selOn, bitAt_toNat]
  rcases h with rfl | ⟨-, bit⟩
  · rfl
  · rw [bit, Bool.or_true]

theorem selOn_of_off {sel : BitVec 4} {sample : BitVec 8}
    (h : 8 ≤ sel.toNat ∧ sample.getLsbD (sel.toNat - 8) = false) : selOn sel sample = false := by
  obtain ⟨high, bit⟩ := h
  have staged : sel ≠ 0 := by
    rintro rfl
    exact absurd high (by decide)
  rw [selOn, bitAt_toNat, bit, Bool.or_false, decide_eq_false staged]

/-! ### The words that queue a block (R99) -/

variable {s : State} {sel : BitVec 4} {o : BitVec 20}

theorem issueVec_of_on (on : selOn sel s.me.sys.stagewin = true) (closed : s.me.sys.region = .closed)
    (room : s.me.eng.vecQ.length < 16) : s.issueVec sel o = .ok (s.queueVec o none) := by
  unfold State.issueVec
  simp only [closed, on, Nat.not_le.2 room, Bool.not_true, Bool.false_eq_true, ↓reduceIte]

theorem issueVec_of_off (off : selOn sel s.me.sys.stagewin = false) (closed : s.me.sys.region = .closed) :
    s.issueVec sel o = .ok s.advance := by
  unfold State.issueVec
  simp only [closed, off, Bool.not_false, ↓reduceIte]

theorem issueMat_of_on (on : selOn sel s.me.sys.stagewin = true) (lease : s.me.sys.lease = true)
    (room : s.me.eng.matQ.length < 8) (plain : s.me.sys.pendtrap = false) : s.issueMat sel o = .ok (s.setEng (fun e => { e with
      matQ := e.matQ ++ [⟨o.toNat, o.toNat, s.me.sys.stagewin, s.me.c, s.imageNow, none, false⟩] })).advance := by
  unfold State.issueMat
  simp only [on, lease, plain, Nat.not_le.2 room, Bool.not_true, Bool.false_eq_true, Bool.true_eq_false, ↓reduceIte]

theorem issueMat_of_off (off : selOn sel s.me.sys.stagewin = false) : s.issueMat sel o = .ok s.advance := by
  unfold State.issueMat
  simp only [off, Bool.not_false, ↓reduceIte]

theorem issueMat_of_unclaimed (on : selOn sel s.me.sys.stagewin = true) (lease : s.me.sys.lease = false) :
    s.issueMat sel o = trapN .nolease o.toNat := by
  unfold State.issueMat
  simp only [on, lease, Bool.not_true, Bool.false_eq_true, ↓reduceIte]

theorem issueXfer_of_on {ps : List Probe} {hs : List Hold} (on : selOn sel s.me.sys.stagewin = true)
    (first : firstPass s.me.c (s.xferWords o.toNat) o.toNat Nest.fresh 0 = .ok ps)
    (second : s.secondPass s.actor.core s.me.eng.nextIdent ps [] = .ok hs) (room : s.me.eng.xferQ.length < 4)
    (plain : s.me.sys.pendtrap = false) : s.issueXfer sel o = .ok (s.setEng (fun e => { e with
      xferQ := e.xferQ ++ [⟨o.toNat, o.toNat, s.me.eng.nextIdent, s.me.c, s.imageNow, Nest.fresh, false⟩]
      holds := e.holds ++ hs, nextIdent := s.me.eng.nextIdent + 1 })).advance := by
  have free : waitUnless (decide (s.me.eng.xferQ.length < 4)) .other = .ok () := if_pos (decide_eq_true room)
  unfold State.issueXfer
  simp only [on, first, second, free, plain, Bool.not_true, Bool.false_eq_true, ↓reduceIte, bind, Except.bind]

theorem issueXfer_of_off (off : selOn sel s.me.sys.stagewin = false) : s.issueXfer sel o = .ok s.advance := by
  unfold State.issueXfer
  simp only [off, Bool.not_false, ↓reduceIte]

theorem execAttngo_of_on (on : selOn sel s.me.sys.stagewin = true) (nimbus : isNimbus s.home = true) :
    execAttngo sel o s = .next ((s.setEng (fun e => { e with stratQ := [s.me.stratBlock s.imageNow o.toNat] })).queueUp .other
      s.actor.core) := by
  unfold execAttngo
  simp only [on, nimbus, Bool.not_true, Bool.false_eq_true, Bool.true_eq_false, ↓reduceIte]

theorem execAttngo_of_off (off : selOn sel s.me.sys.stagewin = false) : execAttngo sel o s = .next s.advance := by
  unfold execAttngo
  simp only [off, Bool.not_false, ↓reduceIte]

theorem execAttngo_elsewhere (on : selOn sel s.me.sys.stagewin = true) (cirrus : isNimbus s.home = false) :
    execAttngo sel o s = s.runSeq (trapN .nounit o.toNat) := by
  unfold execAttngo
  simp only [on, cirrus, Bool.not_true, Bool.false_eq_true, ↓reduceIte]

/-- A sequencer instruction that has taken effect, with the frame of the acting core. -/
theorem answers_onlyCore {i : Instr} {r : Chk State} {t : State} {c : Core} (he : exec i s = s.runSeq r) (hr : r = .ok t)
    (h : OnlyCore s t c) : Answers i s (fun t => OnlyCore s t c) :=
  ⟨_, he.trans (congrArg s.runSeq hr), onlyCore_noWait h⟩

/-- A sequencer instruction that traps, where a handler can run. -/
theorem answers_entered {i : Instr} {r : Chk State} {t : Trap} {info : Word64} (he : exec i s = s.runSeq r)
    (hr : r = trap t info) (can : CanTrap s) : Answers i s (fun u => EnteredHandler s u t.code info none
      (if t = .swtrap then s.me.pc + 1 else s.me.pc)) :=
  ⟨_, he.trans (congrArg s.runSeq hr), enteredHandler_trapEntry s t info none can⟩

end Sys2Proof.Machine
end
section
namespace Sys2Proof.Machine

theorem blocksAreQueued : Claim.BlocksAreQueued := by
  intro s sel o
  refine ⟨fun on closed room => ?_, fun on lease room plain => ?_, fun ps hs on first second room plain => ?_,
    fun on nimbus => ?_, fun off => ⟨?_, ?_, ?_, fun closed => ?_⟩, fun on can unclaimed => ?_, fun on can cirrus => ?_⟩
  · exact answers_onlyCore rfl (issueVec_of_on (selOn_of_on on) closed room) (onlyCore_setEng_advance s _)
  · exact answers_onlyCore rfl (issueMat_of_on (selOn_of_on on) lease room plain) (onlyCore_setEng_advance s _)
  · exact answers_onlyCore rfl (issueXfer_of_on (selOn_of_on on) first second room plain) (onlyCore_setEng_advance s _)
  · exact ⟨_, execAttngo_of_on (selOn_of_on on) nimbus, onlyCore_queueUp .other (onlyCore_setMe s _)⟩
  · exact answers_onlyCore rfl (issueMat_of_off (selOn_of_off off)) (wentTo_advance s)
  · exact answers_onlyCore rfl (issueXfer_of_off (selOn_of_off off)) (wentTo_advance s)
  · exact ⟨_, execAttngo_of_off (selOn_of_off off), wentTo_advance s⟩
  · exact answers_onlyCore rfl (issueVec_of_off (selOn_of_off off) closed) (wentTo_advance s)
  · exact answers_entered rfl (issueMat_of_unclaimed (selOn_of_on on) unclaimed) can
  · exact answers_entered (t := .nounit) (execAttngo_elsewhere (selOn_of_on on) cirrus) rfl can

/-! ### The lease (R101) -/

/-- A change of the acting core in a state whose cluster has become `cl`. -/
theorem onlyCore_setMyCluster {s t : State} {cl : Cluster} {c : Core} (h : OnlyCore (s.setMyCluster cl) t c) :
    t.me = c ∧ t.myCluster = cl ∧ SameMemory s t ∧ t.parts = s.parts ∧ OtherCoresSame s t := by
  obtain ⟨mem, ⟨clusters, -, -, -, -, -, actor, -, -⟩, parts, others, -, me⟩ := h
  refine ⟨me, ?_, mem, parts, others⟩
  rw [State.myCluster, State.home, State.cluster, clusters, actor]
  exact State.myCluster_setMyCluster s cl

/-- With no claim held, one is registered and the instruction waits. -/
theorem execMlease_of_unclaimed {s : State} (lease : s.me.sys.lease = false) (free : s.actor.core ∉ s.myCluster.claims) :
    execMlease s = .next (((s.setMyCluster { s.myCluster with claims := Marks.add s.actor.core s.myCluster.claims }).setSys
      (fun y => { y with lease := true })).queueUp .other s.actor.core) := by
  have none : Marks.has s.actor.core s.myCluster.claims = false := by
    rw [Bool.eq_false_iff]
    exact mt (Marks.has_iff _ _).1 free
  unfold execMlease
  simp only [lease, none, Bool.false_eq_true, ↓reduceIte]
  rfl

theorem execMlease_of_claimed {s : State} (lease : s.me.sys.lease = true) (idle : (Resource.other, s.actor.core) ∉ s.waiters) :
    execMlease s = .next s.advance := by
  have none : s.waiters.contains (.other, s.actor.core) = false := by simpa using idle
  unfold execMlease
  simp only [lease, none, Bool.false_eq_true, ↓reduceIte]

/-- With no matrix word left the claim ends, and a grant to the core with it. -/
theorem releaseLease_of_idle {s : State} (queue : s.me.eng.matQ = []) (flights : ∀ f ∈ s.myCluster.flights, f.core ≠ s.actor.core) :
    s.releaseLease s.actor.core = (s.setMyCluster { s.myCluster with
      claims := Marks.del s.actor.core s.myCluster.claims
      granted := if s.myCluster.granted = some (.core s.actor.core) then none else s.myCluster.granted }).setSys
        (fun y => { y with lease := false }) := by
  have landed : s.myCluster.flights.any (fun f => f.core = s.actor.core) = false := by simpa using flights
  have me := State.me_setSys s (fun y => { y with lease := false })
  unfold State.releaseLease State.endClaim
  change (let t := s.setSys (fun y => { y with lease := false });
    if t.me.sys.lease || !t.me.eng.matQ.isEmpty || s.myCluster.flights.any (fun f => f.core = s.actor.core) then t else _) = _
  simp only [me, queue, landed, List.isEmpty_nil, Bool.not_true, Bool.or_self, Bool.false_eq_true, ↓reduceIte]
  rfl

theorem leaseClaims : Claim.LeaseClaims := by
  intro s
  refine ⟨fun lease free => ⟨_, execMlease_of_unclaimed lease free, ?_⟩,
    fun lease idle => ⟨_, execMlease_of_claimed lease idle, wentTo_advance s⟩,
    fun queue flights => ⟨(s.releaseLease s.actor.core).advance, rfl, ?_⟩⟩
  · obtain ⟨me, cluster, mem, parts, -⟩ := onlyCore_setMyCluster (onlyCore_queueUp .other (onlyCore_setMe
      (s.setMyCluster { s.myCluster with claims := Marks.add s.actor.core s.myCluster.claims })
      { s.me with sys := { s.me.sys with lease := true } }))
    have claims (k : Nat) := (congrArg (k ∈ ·) (congrArg Cluster.claims cluster)).to_iff.trans (Marks.mem_add s.actor.core k _)
    refine ⟨me, ?_, (claims _).2 (.inl rfl), fun k other => (claims k).trans (or_iff_right other), mem, parts⟩
    exact cluster.trans (congrArg (fun m => { s.myCluster with claims := m }) (congrArg Cluster.claims cluster)).symm
  · rw [releaseLease_of_idle queue flights]
    obtain ⟨me, cluster, mem, parts, others⟩ := onlyCore_setMyCluster (wroteSys_advance (s.setMyCluster { s.myCluster with
      claims := Marks.del s.actor.core s.myCluster.claims
      granted := if s.myCluster.granted = some (.core s.actor.core) then none else s.myCluster.granted })
        (fun y => { y with lease := false }))
    have claims (k : Nat) := (congrArg (k ∈ ·) (congrArg Cluster.claims cluster)).to_iff.trans (Marks.mem_del s.actor.core k _)
    exact ⟨me, fun held => ((claims _).1 held).1 rfl, fun k other => (claims k).trans (and_iff_right other),
      congrArg Cluster.granted cluster, mem, parts, others⟩

/-- Settles O20: each E word answers by the rule of its stage, lease and unit; a claim is a number in the cluster's set. -/
theorem blocksQueueUnderLease : Obligations.BlocksQueueUnderLease := ⟨blocksAreQueued, leaseClaims⟩

end Sys2Proof.Machine
end
/-! ## Approximable regions (O21) -/
section
namespace Sys2Proof.Machine

/-! ### Sets of registers -/

theorem mem_regRange (first n k : Nat) : k ∈ regRange first n ↔ first ≤ k ∧ k < first + n := mem_upFrom first n k

/-- Registers marked full one by one are taken from the empty ones together. -/
theorem foldl_markFull (rs : List Nat) (c : Core) :
    rs.foldl Core.markFull c = { c with vEmpty := Marks.delAll rs c.vEmpty } := by
  induction rs generalizing c with
  | nil => simp [Marks.delAll]
  | cons r rs ih =>
    rw [List.foldl_cons, ih]
    simp only [Core.markFull, Marks.del, Marks.delAll, List.filter_filter, List.contains_cons, Bool.not_or, Core.mk.injEq,
      true_and, and_true]
    exact List.filter_congr (fun k _ => Bool.and_comm _ _)

/-! ### VRUN, APXBEGIN and APXEND (R112, R113) -/

variable {s t : State} {c : Core}

theorem imageNow_congr (h : t.me.run = s.me.run) : t.imageNow = s.imageNow := by
  rw [State.imageNow, State.imageNow, h]

/-- A change of the system registers of a core that has become c. -/
theorem onlyCore_setSys (f : CoreSys → CoreSys) (h : OnlyCore s t c) : OnlyCore s (t.setSys f) { c with sys := f c.sys } := by
  obtain ⟨-, -, -, -, -, me⟩ := id h
  rw [State.setSys, me]
  exact onlyCore_setMe_of _ h

/-- A vector block joins the queue of a core that has otherwise become c. -/
theorem onlyCore_queueVec (h : OnlyCore s t c) (run : c.run = s.me.run) (o : BitVec 20) (region : Option RegionRun) :
    OnlyCore s (t.queueVec o region) { c with
      pc := c.pc + 1
      eng := { c.eng with vecQ := c.eng.vecQ ++ [⟨o.toNat, o.toNat, c.sys.stagewin, [], s.imageNow, region, false⟩] } } := by
  obtain ⟨-, -, -, -, -, me⟩ := id h
  have image : t.imageNow = s.imageNow := imageNow_congr (by rw [me, run])
  unfold State.queueVec State.setEng
  rw [me, image]
  exact onlyCore_advance (onlyCore_setMe_of _ h)

theorem beginRegion_of_closed {i v : BitVec 6} {n : BitVec 4} {r : Running} (fits : v.toNat + n.toNat ≤ 55)
    (closed : s.me.sys.region = .closed) (run : s.me.run = some r) : s.beginRegion i v n = .ok (s.setSys (fun y => { y with
      region := .opened (RegionRun.start i.toNat v.toNat (n.toNat + 1) (s.fitState r i.toNat)) })).advance := by
  have regs : checkRegs v n = .ok () := if_pos (decide_eq_true fits)
  unfold State.beginRegion
  simp only [regs, closed, run]

theorem beginRegion_of_not_closed {i v : BitVec 6} {n : BitVec 4} (fits : v.toNat + n.toNat ≤ 55)
    (busy : s.me.sys.region ≠ .closed) : s.beginRegion i v n = trapN .apxseq i.toNat := by
  have regs : checkRegs v n = .ok () := if_pos (decide_eq_true fits)
  unfold State.beginRegion
  simp only [regs]

theorem endRegion_of_closed {i v : BitVec 6} {n : BitVec 4} (fits : v.toNat + n.toNat ≤ 55)
    (closed : s.me.sys.region = .closed) : s.endRegion i v n = trapN .apxseq i.toNat := by
  have regs : checkRegs v n = .ok () := if_pos (decide_eq_true fits)
  unfold State.endRegion
  simp only [regs, closed]

/-- An execution that did not sample SERVE takes no count. -/
theorem takeCount_of_not_serve {r : Running} {x : RegionRun} (h : x.sampled ≠ .serve) : s.takeCount r x = (s, false) := by
  unfold State.takeCount
  split
  next serve _ => exact absurd serve h
  next => rfl

/-- The core at the VRUN of an open region: the execution is issued and its outputs are empty. -/
def Core.issued (c : Core) (z : RegionRun) : Core :=
  { c with sys := { c.sys with region := .issued z }, vEmpty := Marks.addAll (regRange z.firstOut z.nOut) c.vEmpty }

theorem onlyCore_issueVec {sel : BitVec 4} {o : BitVec 20} {x z : RegionRun} {r : Running}
    (region : s.me.sys.region = .opened x) (sampled : x.sampled ≠ .serve) (on : selOn sel s.me.sys.stagewin = true)
    (room : s.me.eng.vecQ.length < 16) (run : s.me.run = some r)
    (hz : z = { x with checks := false, offset := o.toNat, firstOut := s.outputsAhead.1, nOut := s.outputsAhead.2 }) :
    ∃ t, s.issueVec sel o = .ok t ∧ t.me.vEmpty = (s.me.issued z).vEmpty ∧ OnlyCore s t { s.me with
      pc := s.me.pc + 1, sys := { s.me.sys with region := .issued z }, vEmpty := t.me.vEmpty
      eng := { s.me.eng with
        vecQ := s.me.eng.vecQ ++ [⟨o.toNat, o.toNat, s.me.sys.stagewin, [], s.imageNow, some z, false⟩] } } := by
  have issued : OnlyCore s ((s.setSys (fun y => { y with region := .issued z })).setMe (s.me.issued z)) (s.me.issued z) :=
    onlyCore_setMe_of _ (onlyCore_setMe s _)
  have queued := onlyCore_queueVec issued rfl o (some z)
  obtain ⟨-, -, -, -, -, me⟩ := id queued
  refine ⟨_, ?_, by rw [me], by rw [me]; exact queued⟩
  unfold State.issueVec
  simp only [region, on, run, Nat.not_le.2 room, takeCount_of_not_serve sampled, Bool.not_true, Bool.false_eq_true,
    ↓reduceIte]
  rw [State.me_setSys, hz]
  rfl

/-- The core past the APXEND of its issued region: the queued block, if any, has its outputs, and they alone are marked. -/
def Core.ends (c : Core) (x : RegionRun) (v n : Nat) : Core :=
  let d := { c with eng := { c.eng with vecQ := c.eng.vecQ.map (closeBlock v n) } }
  let outs := regRange v n
  let d := if c.eng.vecQ.any Block.isOpen then
      (d.unmarkOutputs ((regRange x.firstOut x.nOut).filter (fun r => !outs.contains r))).markOutputs outs
    else d
  { d with sys := { d.sys with region := .closed }, pc := d.pc + 1 }

theorem ends_eq (c : Core) (x : RegionRun) (v n : Nat) :
    c.ends x v n = { c with pc := c.pc + 1, sys := { c.sys with region := .closed }, vEmpty := (c.ends x v n).vEmpty
                            eng := { c.eng with vecQ := c.eng.vecQ.map (closeBlock v n) } } := by
  unfold Core.ends Core.unmarkOutputs Core.markOutputs
  simp only [foldl_markFull]
  split <;> rfl

theorem onlyCore_endRegion {i v : BitVec 6} {n : BitVec 4} {x : RegionRun} (fits : v.toNat + n.toNat ≤ 55)
    (issued : s.me.sys.region = .issued x) (same : x.id = i.toNat) :
    ∃ t, s.endRegion i v n = .ok t ∧ t.me.vEmpty = (s.me.ends x v.toNat (n.toNat + 1)).vEmpty ∧ OnlyCore s t { s.me with
      pc := s.me.pc + 1, sys := { s.me.sys with region := .closed }, vEmpty := t.me.vEmpty
      eng := { s.me.eng with vecQ := s.me.eng.vecQ.map (closeBlock v.toNat (n.toNat + 1)) } } := by
  have ended : ∃ t, s.endRegion i v n = .ok t ∧ OnlyCore s t (s.me.ends x v.toNat (n.toNat + 1)) := by
    have regs : checkRegs v n = .ok () := if_pos (decide_eq_true fits)
    have named := onlyCore_setMe s { s.me with eng := { s.me.eng with
      vecQ := s.me.eng.vecQ.map (closeBlock v.toNat (n.toNat + 1)) } }
    unfold State.endRegion Core.ends
    simp only [regs, issued, same, ↓reduceIte, State.me_setEng]
    refine ⟨_, rfl, ?_⟩
    split
    · exact onlyCore_advance (onlyCore_setSys _ (onlyCore_setMe_of _ named))
    · exact onlyCore_advance (onlyCore_setSys _ named)
  obtain ⟨t, ends, only⟩ := ended
  obtain ⟨-, -, -, -, -, me⟩ := id only
  have empty := congrArg Core.vEmpty me
  rw [ends_eq] at only
  exact ⟨t, ends, empty, by rw [empty]; exact only⟩

/-- Registers marked empty by an APXEND that named `outs`, those that its VRUN had marked taken back. -/
theorem mem_ends (c : Core) (x : RegionRun) (v n k : Nat) : k ∈ (c.ends x v n).vEmpty ↔
    if c.eng.vecQ.any Block.isOpen = true then
      (v ≤ k ∧ k < v + n) ∨ (k ∈ c.vEmpty
        ∧ ¬ (x.firstOut ≤ k ∧ k < x.firstOut + x.nOut ∧ ¬ (v ≤ k ∧ k < v + n)
          ∧ c.eng.vecFlight.any (fun f => f.writes [k]) = false))
    else k ∈ c.vEmpty := by
  unfold Core.ends Core.unmarkOutputs Core.markOutputs
  simp only [foldl_markFull]
  split
  · simp only [Marks.mem_addAll, Marks.mem_delAll, List.mem_filter, mem_regRange, Bool.not_eq_true', List.contains_eq_mem,
      decide_eq_false_iff_not]
    tauto
  · rfl

theorem isEmpty_ends (c : Core) (x : RegionRun) (v n k : Nat) :
    (c.ends x v n).isEmpty k =
      if c.eng.vecQ.any Block.isOpen = true ∧ v ≤ k ∧ k < v + n then true
      else if c.eng.vecQ.any Block.isOpen = true ∧ x.firstOut ≤ k ∧ k < x.firstOut + x.nOut
        ∧ c.eng.vecFlight.any (fun f => f.writes [k]) = false then false
      else c.isEmpty k := by
  have ends := mem_ends c x v n k
  rw [Bool.eq_iff_iff, Core.isEmpty, Marks.has_iff, ends, Core.isEmpty]
  split_ifs with queued named unnamed unnamed
  · simp [named]
  · simp only [iff_false]
    tauto
  · rw [Marks.has_iff]
    tauto
  · tauto
  · tauto
  · rw [Marks.has_iff]

theorem regionSequence : Claim.RegionSequence := by
  intro s n v i fits
  refine ⟨fun r closed run => ?_, fun x r sel o opened sampled on room run => ?_, fun x issued same => ?_,
    fun busy can => ?_, fun closed can => ?_⟩
  · exact answers_onlyCore rfl (beginRegion_of_closed fits closed run) (wroteSys_advance s _)
  · obtain ⟨t, issues, empty, only⟩ := onlyCore_issueVec opened sampled on room run rfl
    refine ⟨_, congrArg s.runSeq issues, fun k => ?_, onlyCore_noWait only⟩
    refine (congrArg (Marks.has k) empty).trans ?_
    rw [Bool.eq_iff_iff]
    simp only [Core.isEmpty, Core.issued, Marks.has_iff, Marks.mem_addAll, mem_regRange, Bool.or_eq_true,
      decide_eq_true_eq]
    exact or_comm
  · obtain ⟨t, ends, empty, only⟩ := onlyCore_endRegion (i := i) fits issued same
    refine ⟨_, congrArg s.runSeq ends, fun k => ?_, onlyCore_noWait only⟩
    refine (congrArg (Marks.has k) empty).trans ((isEmpty_ends ..).trans ?_)
    simp only [← Nat.add_assoc, Nat.lt_succ_iff]
  · exact answers_entered (t := .apxseq) rfl (beginRegion_of_not_closed fits busy) can
  · exact answers_entered (t := .apxseq) rfl (endRegion_of_closed fits closed) can

/-! ### APXCTL and APXQ (R114, R395) -/

/-- An entry of the partition's table has been changed, and the core goes on. -/
theorem putFit_advance (s : State) (p n : Nat) (f : FitEntry) : let t := (s.putFit p n f).advance
    Sparse.find? n (t.part p).fits = some f ∧ t.me = { s.me with pc := s.me.pc + 1 } ∧ SameMemory s t
      ∧ (∀ k, k ≠ n → Sparse.find? k (t.part p).fits = Sparse.find? k (s.part p).fits)
      ∧ SameSurroundings s t ∧ OtherCoresSame s t := by
  have fits : ((s.putFit p n f).advance.part p).fits = Sparse.set n f (s.part p).fits := by
    have part := State.part_modPart s p p (fun x => x.setFit n f)
    rw [if_pos rfl] at part
    exact congrArg Partition.fits part
  dsimp only
  rw [fits]
  obtain ⟨mem, surroundings, -, others, -, me⟩ := wentTo_advance (s.putFit p n f)
  exact ⟨Sparse.find?_set_same n f _, me, mem, fun k other => Sparse.find?_set_other f _ other, surroundings, others⟩

theorem regionControl : Claim.RegionControl := by
  intro s d i r n f run
  have moves (move : FitEntry → FitEntry) (entry : s.fitOf r i.toNat = some (n, f)) :
      s.moveFit i.toNat move = s.putFit r.part n (move f) := by
    unfold State.moveFit
    simp only [run, entry]
  have starts (entry : s.fitOf r i.toNat = some (n, f)) :
      s.startFit i.toNat = s.putFit r.part n (if f.state = .off then f.enterObserve else f) := by
    rw [State.fitOf] at entry
    unfold State.startFit Partition.ensureFit
    simp only [run, entry]
  have reads : exec (.apxq d i) s = .next (s.writeG d (w64 (s.fitState r i.toNat).code)) := by
    change execApxq d i s = _
    rw [execApxq, run]
  refine ⟨fun entry => ⟨?_, ?_, ?_, ?_, answers_wroteG reads ?_⟩, fun none => answers_wroteG reads ?_⟩
  · exact ⟨_, congrArg (fun t : State => Host.Outcome.next t.advance) (starts entry), putFit_advance s r.part n _⟩
  · exact ⟨_, congrArg (fun t : State => Host.Outcome.next t.advance) (moves _ entry), putFit_advance s r.part n _⟩
  · exact ⟨_, congrArg (fun t : State => Host.Outcome.next t.advance) (moves _ entry), putFit_advance s r.part n _⟩
  · exact ⟨_, congrArg (fun t : State => Host.Outcome.next t.advance) (moves _ entry), putFit_advance s r.part n _⟩
  · rw [State.fitState, entry, w64]
  · rw [State.fitState, none]
    rfl

/-- Settles O21: a region sequence moves the core alone, and an APXCTL operation one entry of the partition's table. -/
theorem regionExecutions : Obligations.RegionExecutions := ⟨regionSequence, regionControl⟩

end Sys2Proof.Machine
end
/-! ## Fields of a number, continuation records, and writes that are performed -/
section
namespace Sys2Proof.Machine

/-! ### Fields of a number (R8) -/

theorem bitAt_eq_testBit (x i : Nat) : bitAt x i = x.testBit i := by rw [bitAt, Nat.testBit_eq_decide_div_mod_eq]

theorem testBit_bitsAt (x lo n i : Nat) : (bitsAt x lo n).testBit i = (decide (i < n) && x.testBit (lo + i)) := by
  rw [bitsAt, Nat.testBit_mod_two_pow, Nat.testBit_div_two_pow, Nat.add_comm]

/-- A field replaced stands between what is above it and what is below it. -/
theorem putBits_eq (x lo n v : Nat) :
    putBits x lo n v = 2 ^ (lo + n) * (x / 2 ^ (lo + n)) + (2 ^ lo * (v % 2 ^ n) + x % 2 ^ lo) := by
  have whole : x = 2 ^ (lo + n) * (x / 2 ^ (lo + n)) + (2 ^ lo * bitsAt x lo n + x % 2 ^ lo) := by
    rw [bitsAt, pow_add, ← Nat.div_div_eq_div_mul, mul_assoc, ← Nat.add_assoc, ← mul_add, Nat.div_add_mod, Nat.div_add_mod]
  rw [putBits, Nat.mul_comm _ (2 ^ lo), Nat.mul_comm _ (2 ^ lo)]
  omega

/-- A field replaced: its bits are the value's, and the others stand. -/
theorem testBit_putBits (x lo n v i : Nat) :
    (putBits x lo n v).testBit i = if lo ≤ i ∧ i < lo + n then v.testBit (i - lo) else x.testBit i := by
  have field : 2 ^ lo * (v % 2 ^ n) + x % 2 ^ lo < 2 ^ (lo + n) := by
    have hv : v % 2 ^ n + 1 ≤ 2 ^ n := Nat.mod_lt _ (Nat.two_pow_pos n)
    have hx : x % 2 ^ lo < 2 ^ lo := Nat.mod_lt _ (Nat.two_pow_pos lo)
    calc 2 ^ lo * (v % 2 ^ n) + x % 2 ^ lo < 2 ^ lo * (v % 2 ^ n + 1) := by rw [mul_add, mul_one]; omega
      _ ≤ 2 ^ (lo + n) := by rw [pow_add]; exact Nat.mul_le_mul_left _ hv
  rw [putBits_eq, Nat.testBit_two_pow_mul_add _ field, Nat.testBit_two_pow_mul_add _ (Nat.mod_lt _ (Nat.two_pow_pos lo)),
    Nat.testBit_mod_two_pow, Nat.testBit_mod_two_pow, Nat.testBit_div_two_pow]
  by_cases below : i < lo
  · simp [below, show i < lo + n by omega, Nat.not_le.2 below]
  · by_cases inside : i < lo + n
    · simp [below, inside, Nat.not_lt.1 below, show i - lo < n by omega]
    · simp [inside, Nat.sub_add_cancel (Nat.not_lt.1 inside)]

theorem bitsAt_putBits_same (x lo n v : Nat) : bitsAt (putBits x lo n v) lo n = v % 2 ^ n := by
  refine Nat.eq_of_testBit_eq fun i => ?_
  rw [testBit_bitsAt, testBit_putBits, Nat.testBit_mod_two_pow]
  by_cases h : i < n <;> simp [h]

theorem bitsAt_putBits_other {x lo n v lo' n' : Nat} (h : lo' + n' ≤ lo ∨ lo + n ≤ lo') :
    bitsAt (putBits x lo n v) lo' n' = bitsAt x lo' n' := by
  refine Nat.eq_of_testBit_eq fun i => ?_
  rw [testBit_bitsAt, testBit_bitsAt, testBit_putBits]
  by_cases inside : i < n'
  · rw [if_neg (by omega)]
  · simp [inside]

theorem bitsAt_mod {x lo n k : Nat} (h : lo + n ≤ k) : bitsAt (x % 2 ^ k) lo n = bitsAt x lo n := by
  refine Nat.eq_of_testBit_eq fun i => ?_
  rw [testBit_bitsAt, testBit_bitsAt, Nat.testBit_mod_two_pow]
  by_cases inside : i < n
  · simp [show lo + i < k by omega]
  · simp [inside]

theorem bitsAt_lt (x lo n : Nat) : bitsAt x lo n < 2 ^ n := Nat.mod_lt _ (Nat.two_pow_pos n)

/-! ### Control words of records (R155, R156) -/

@[simp] theorem length_capBytes (c : Cap) : (capBytes c).length = 16 := length_leBytes _ _

theorem raw_append (s : State) (l n k : Nat) : s.raw l (n + k) = s.raw l n ++ s.raw (l + n) k := by
  rw [State.raw, Mem.raw, upFrom_add, List.map_append]
  rfl

/-- The control word stands 28 bytes into the record. -/
theorem ctl_eq_leNat (s : State) (p a : Nat) : s.ctl p a = leNat (s.raw (hbmLoc p a + 28) 4) := by
  have parts : s.record p a = s.raw (hbmLoc p a) 28 ++ s.raw (hbmLoc p a + 28) 4 ++ s.raw (hbmLoc p a + 32) 32 := by
    rw [State.record, ← raw_append, ← raw_append]
  have mid := sliceB_middle (s.raw (hbmLoc p a) 28) (s.raw (hbmLoc p a + 28) 4) (s.raw (hbmLoc p a + 32) 32)
  rw [length_raw, length_raw, ← parts] at mid
  rw [State.ctl, recCtl, numAt, mid]

theorem record_congr {s t : State} (h : t.mem.cells = s.mem.cells) (p a : Nat) : t.record p a = s.record p a := by
  have bytes : t.mem.byte = s.mem.byte := by
    funext l
    rw [Mem.byte, Mem.byte, h]
  rw [State.record, State.record, State.raw, State.raw, Mem.raw, Mem.raw, bytes]

theorem ctl_congr {s t : State} (h : t.mem.cells = s.mem.cells) (p a : Nat) : t.ctl p a = s.ctl p a :=
  congrArg recCtl (record_congr h p a)

/-- A control word that has just been written reads back. -/
theorem ctl_setCtlBy (s : State) (w : Option Nat) (p a c : Nat) :
    (s.setRecBytesBy w p a 28 (leBytes c 4)).ctl p a = c % 2 ^ 32 := by
  have stands := Mem.raw_poke s.mem (hbmLoc p a + 28) (leBytes c 4)
  rw [length_leBytes] at stands
  rw [ctl_eq_leNat]
  exact (congrArg leNat stands).trans (leNat_leBytes c 4)

/-- The state that a suspension writes (R104). -/
theorem recCtl_suspendedBytes (old : List Byte) (c : Core) (image st : Nat) (resume : Word64) :
    recCtl (suspendedBytes old c image st resume) = putBits (putBits (recCtl old) 0 3 st) 12 1 0 % 2 ^ 32 := by
  have parts := sliceB_middle (capBytes (c.getC 15) ++ leBytes image 4 ++ leBytes (resume.toNat % 2 ^ 20) 4 ++ sliceB 24 4 old)
    (leBytes (putBits (putBits (recCtl old) 0 3 st) 12 1 0) 4)
    (leBytes (c.getG 1).toNat 8 ++ leBytes (c.getG 2).toNat 8 ++ leBytes (c.getG 3).toNat 8 ++ leBytes (c.getG 4).toNat 8)
  simp only [List.length_append, length_capBytes, length_leBytes, length_sliceB, Nat.reduceAdd, ← List.append_assoc] at parts
  rw [recCtl, numAt, suspendedBytes, parts]
  exact leNat_leBytes _ 4

theorem length_suspendedBytes (old : List Byte) (c : Core) (image st : Nat) (resume : Word64) :
    (suspendedBytes old c image st resume).length = 64 := by simp [suspendedBytes]

/-- The device's write into a record leaves every byte outside it. -/
theorem sameBytes_setRecBytesBy (s : State) (w : Option Nat) (p a o : Nat) (bs : List Byte) :
    SameBytes s (s.setRecBytesBy w p a o bs) (fun l => l < hbmLoc p a + o ∨ hbmLoc p a + o + bs.length ≤ l) :=
  SameBytes.of_same (fun l hl => Mem.same_poke s.mem (hbmLoc p a + o) l bs hl)

/-! ### Writes that are performed (R102, R310) -/

theorem performOlder_own {core : Nat} {units : Nat → Bool} {es : List Older} {e : Older} (h : e ∈ performOlder core units es)
    (own : e.core = core) : units e.unit = false ∧ e ∈ es := by
  induction es with
  | nil => cases h
  | cons x es ih =>
    rw [performOlder] at h
    split at h
    · obtain ⟨kept, old⟩ := ih h
      exact ⟨kept, List.mem_cons_of_mem x old⟩
    next stays =>
      rcases List.mem_cons.1 h with rfl | later
      · refine ⟨?_, List.mem_cons_self⟩
        simp only [own, decide_true, Bool.true_and, Bool.or_eq_true, not_or] at stays
        exact Bool.eq_false_iff.2 stays.1
      · obtain ⟨kept, old⟩ := ih later
        exact ⟨kept, List.mem_cons_of_mem x old⟩

theorem mem_performOlder_other {core : Nat} {units : Nat → Bool} {es : List Older} {e : Older} (other : e.core ≠ core) :
    e ∈ performOlder core units es ↔ e ∈ es := by
  induction es with
  | nil => exact Iff.rfl
  | cons x es ih =>
    rw [performOlder]
    split
    next goes =>
      have past : e ≠ x := by
        rintro rfl
        simp [other] at goes
      rw [ih, List.mem_cons, or_iff_right past]
    next => rw [List.mem_cons, List.mem_cons, ih]

/-- The writes of some units of the acting core are performed, and nothing more is (R310). -/
theorem performs_of_older {s t : State} {units : Nat → Bool} (h : t.older = performOlder s.actor.core units s.older) :
    Performs s t (fun u => units u = true) := by
  refine ⟨fun e he own => ?_, fun e other => ?_⟩
  · obtain ⟨kept, old⟩ := performOlder_own (h ▸ he) own
    exact ⟨by simp [kept], old⟩
  · rw [h, mem_performOlder_other other]

end Sys2Proof.Machine
end
/-! ## SPAWN, SUSPEND, YIELD and RETIRE (O22) -/
section
namespace Sys2Proof.Machine

/-! ### The lease and the core that a continuation leaves (R101, R104) -/

/-- A core that gives up its lease. -/
structure LeaseReleased (s t : State) (n : Nat) : Prop where
  cores : t.cores = (s.setCore n { s.core n with sys := { (s.core n).sys with lease := false } }).cores
  mem : t.mem = s.mem
  parts : t.parts = s.parts
  actor : t.actor = s.actor
  cumulus : ∀ k, (t.cluster k).cumulus = (s.cluster k).cumulus

theorem leaseReleased_releaseLease (s : State) (n : Nat) : LeaseReleased s (s.releaseLease n) n := by
  unfold State.releaseLease State.endClaim
  dsimp only
  split
  · exact ⟨rfl, rfl, rfl, rfl, fun _ => rfl⟩
  · refine ⟨rfl, rfl, rfl, rfl, fun k => ?_⟩
    rw [State.cluster_setCluster]
    split
    next same => rw [same]; rfl
    next => rfl

theorem LeaseReleased.core {s t : State} {n : Nat} (h : LeaseReleased s t n) (m : Nat) : t.core m =
    if m = n then { s.core n with sys := { (s.core n).sys with lease := false } } else s.core m := by
  rw [← State.core_setCore, State.core, State.core, h.cores]

/-- What a voluntary suspension does (R104): the core is idle, the record holds its bytes and its state, and nothing else
of the partitions changes. -/
structure Leaves (s t : State) (r : Running) (st : Nat) : Prop where
  me : Latched s.me.idle t.me
  others : OtherCoresLatched s t
  ctl : t.ctl r.part r.record = putBits (putBits (s.ctl r.part r.record) 0 3 st) 12 1 0 % 2 ^ 32
  bytes : SameBytes s t (fun l => l < hbmLoc r.part r.record ∨ hbmLoc r.part r.record + 64 ≤ l)
  parts : t.parts = s.parts
  actor : t.actor = s.actor
  cumulus : ∀ k, (t.cluster k).cumulus = (s.cluster k).cumulus

/-- Bytes put at a record's start, with the tag of its frame (R104, R155). -/
def State.putRecord (s : State) (p a : Nat) (bs : List Byte) (tag : Bool) : State :=
  let t := s.setRecBytes p a 0 bs
  { t with mem := t.mem.setTag (hbmLoc p a) tag }

/-- The record write of a suspension, the lease having been given up in u. -/
theorem State.leaveCore_eq {s u : State} {n : Nat} (h : s.releaseLease n = u) (r : Running) (st : Nat) (resume : Word64) :
    s.leaveCore n r st resume = ((u.putRecord r.part r.record
      (suspendedBytes (u.record r.part r.record) (u.core n) r.image st resume) ((u.core n).getC 15).tag).idleCore n).perform n
        (fun _ => true) := by
  subst h
  rfl

theorem record_putRecord (s : State) (p a : Nat) (bs : List Byte) (tag : Bool) (h : bs.length = 64) :
    (s.putRecord p a bs tag).record p a = bs := by
  have stands := Mem.raw_poke s.mem (hbmLoc p a) bs
  rw [h] at stands
  rw [record_congr (t := s.putRecord p a bs tag) (s := s.setRecBytes p a 0 bs) rfl]
  unfold State.record State.raw State.setRecBytes State.setRecBytesBy
  simp only [State.wake_mem, Nat.add_zero]
  exact stands

theorem bytes_putRecord (s : State) (p a : Nat) (bs : List Byte) (tag : Bool) (h : bs.length = 64) :
    SameBytes s (s.putRecord p a bs tag) (fun l => l < hbmLoc p a ∨ hbmLoc p a + 64 ≤ l) := by
  have bytes := sameBytes_setRecBytesBy s none p a 0 bs
  rw [h, Nat.add_zero] at bytes
  exact fun l hl => bytes l hl

theorem coresLatched_putRecord (s : State) (p a : Nat) (bs : List Byte) (tag : Bool) :
    CoresLatched s (s.putRecord p a bs tag) := fun n => coresLatched_setRecBytesBy s none p a 0 bs n

theorem Latched.idle {c d : Core} (h : Latched c d) : Latched c.idle d.idle := by
  rcases h with rfl | rfl
  · exact .inl rfl
  · exact .inr rfl

theorem core_idleCore (s : State) (n m : Nat) : (s.idleCore n).core m = if m = n then (s.core n).idle else s.core m :=
  State.core_setCore s n m _

theorem leaves_leaveCore (s : State) (r : Running) (st : Nat) (resume : Word64) :
    Leaves s (s.leaveCore s.actor.core r st resume) r st := by
  obtain ⟨u, hu⟩ : ∃ u, s.releaseLease s.actor.core = u := ⟨_, rfl⟩
  have lease := hu ▸ leaseReleased_releaseLease s s.actor.core
  have old : u.record r.part r.record = s.record r.part r.record := by
    rw [State.record, State.record, State.raw, State.raw, lease.mem]
  have length := length_suspendedBytes (u.record r.part r.record) (u.core s.actor.core) r.image st resume
  have ctl := recCtl_suspendedBytes (u.record r.part r.record) (u.core s.actor.core) r.image st resume
  rw [State.leaveCore_eq hu]
  generalize suspendedBytes (u.record r.part r.record) (u.core s.actor.core) r.image st resume = bs at length ctl
  generalize ((u.core s.actor.core).getC 15).tag = tag
  have latched := coresLatched_putRecord u r.part r.record bs tag
  have record := record_putRecord u r.part r.record bs tag length
  have bytes := bytes_putRecord u r.part r.record bs tag length
  have actor : (u.putRecord r.part r.record bs tag).actor = s.actor := lease.actor
  have parts : (u.putRecord r.part r.record bs tag).parts = s.parts := lease.parts
  have clusters : (u.putRecord r.part r.record bs tag).clusters = u.clusters := rfl
  generalize u.putRecord r.part r.record bs tag = v at latched record bytes actor parts clusters
  have core (m : Nat) : ((v.idleCore s.actor.core).perform s.actor.core (fun _ => true)).core m =
      if m = s.actor.core then (v.core s.actor.core).idle else v.core m := core_idleCore v _ m
  constructor
  case me =>
    have idle := latched s.actor.core
    rw [lease.core, if_pos rfl] at idle
    have me : ((v.idleCore s.actor.core).perform s.actor.core (fun _ => true)).me = (v.core s.actor.core).idle :=
      (congrArg (fun x : Actor => State.core _ x.core) actor).trans ((core _).trans (if_pos rfl))
    rw [me]
    exact idle.idle
  case others =>
    intro m other
    have was := latched m
    rw [lease.core, if_neg other] at was
    rw [core, if_neg other]
    exact was
  case ctl => exact (congrArg recCtl record).trans (ctl.trans (by rw [old]; rfl))
  case bytes =>
    intro l hl
    have here := bytes l hl
    rw [lease.mem] at here
    exact here
  case parts => exact parts
  case actor => exact actor
  case cumulus =>
    intro k
    rw [← lease.cumulus k]
    exact congrArg (fun cs => (Sparse.get cs Cluster.init k).cumulus) clusters

theorem Leaves.state {s t : State} {r : Running} {st : Nat} (h : Leaves s t r st) (small : st < 8) :
    ctlState (t.ctl r.part r.record) = st := by
  rw [h.ctl, ctlState, bitsAt_mod (by decide), bitsAt_putBits_other (by decide), bitsAt_putBits_same]
  exact Nat.mod_eq_of_lt small

theorem Leaves.leftCore {s t : State} {r : Running} {st : Nat} (h : Leaves s t r st) (small : st < 8) : LeftCore s t r st :=
  ⟨h.me, h.state small⟩

/-- Changes of partitions, clusters, waiters and the management state show neither in a core nor in a record. -/
theorem leftCore_of_same {s t u : State} {r : Running} {st : Nat} (h : LeftCore s t r st) (cores : u.cores = t.cores)
    (actor : u.actor = t.actor) (mem : u.mem.cells = t.mem.cells) : LeftCore s u r st := by
  have me : u.me = t.me := by rw [State.me, State.me, State.core, State.core, cores, actor]
  obtain ⟨core, ctl⟩ := h
  exact ⟨by rw [me]; exact core, by rw [ctl_congr mem]; exact ctl⟩

theorem suspendAs_of_canSuspend {s : State} {r : Running} (run : s.me.run = some r) (can : s.canSuspend = .ok ()) (st : Nat)
    (resume : Word64) : s.suspendAs st resume = .ok (s.leaveCore s.actor.core r st resume) := by
  rw [State.suspendAs, run]
  simp only [can]

/-! ### SPAWN (R106, R157) -/

theorem execSpawn_of_target {s : State} {a : BitVec 4} {x : Nat} (target : s.spawnTarget (s.c a) = .ok x)
    (done : s.performed s.actor.core = true) : exec (.spawn a) s = s.runSeq
      (((s.perform s.actor.core (· = 0)).spawn (s.c a).cursor.toNat x) >>= fun t => .ok t.advance) := by
  have waits : waitUnless (s.performed s.actor.core) .other = .ok () := if_pos done
  change execSpawn a s = _
  unfold execSpawn
  simp only [target, waits, bind, Except.bind]

/-- A control word that the acting core's sequencer writes: the core itself sees no event (R321). -/
def State.putCtl (s : State) (p a c : Nat) : State := s.setRecBytesBy (some s.actor.core) p a 28 (leBytes c 4)

theorem me_putCtl (s : State) (p a c : Nat) : (s.putCtl p a c).me = s.me := core_wake_writer { s with mem := _ } _ _

theorem bytes_putCtl (s : State) (p a c : Nat) :
    SameBytes s (s.putCtl p a c) (fun l => l < hbmLoc p a + 28 ∨ hbmLoc p a + 32 ≤ l) := by
  have bytes := sameBytes_setRecBytesBy s (some s.actor.core) p a 28 (leBytes c 4)
  rw [length_leBytes] at bytes
  exact bytes

variable {s : State} {p x cur : Nat}

theorem spawn_of_idle (hp : s.party.part = p) (idle : ctlState (s.ctl p x) = 0 ∨ ctlState (s.ctl p x) = 3)
    (tag : s.mem.tagAt (hbmLoc p x) = true) : s.spawn cur x =
      .ok (((s.putCtl p x (spawnedCtl (s.ctl p x) s.party.world s.me.sys.cls)).setRecWorld p x s.party.world).enterPool p x) := by
  subst hp
  unfold State.spawn
  simp only [idle, tag, Bool.true_eq_false, ↓reduceIte]
  rfl

theorem spawn_of_running (hp : s.party.part = p) (running : ctlState (s.ctl p x) = 2) :
    s.spawn cur x = .ok (s.putCtl p x (putBits (s.ctl p x) 11 1 1)) := by
  subst hp
  unfold State.spawn
  simp only [running, OfNat.ofNat_ne_zero, Nat.reduceEqDiff, or_self, ↓reduceIte]
  rfl

theorem spawn_of_waiting (hp : s.party.part = p) (waiting : ctlState (s.ctl p x) = 1 ∨ ctlState (s.ctl p x) = 4) :
    s.spawn cur x = .ok s := by
  subst hp
  unfold State.spawn
  rcases waiting with h | h <;> simp [h]

theorem spawn_of_retired (hp : s.party.part = p) (retired : 5 ≤ ctlState (s.ctl p x)) :
    s.spawn cur x = trapN .contstate cur := by
  subst hp
  unfold State.spawn
  dsimp only
  rw [if_neg (by omega), if_neg (by omega), if_neg (by omega)]

/-- The fields of the control word that SPAWN writes (R106). -/
theorem spawnedCtl_fields {c' : Nat} (c world cls : Nat) (h : c' = spawnedCtl c world cls % 2 ^ 32) :
    ctlState c' = 1 ∧ ctlWorld c' = world % 64 ∧ ctlClass c' ≤ cls := by
  subst h
  have cap : min (ctlClass c) cls % 2 ^ 2 = min (ctlClass c) cls :=
    Nat.mod_eq_of_lt ((Nat.min_le_left _ _).trans_lt (bitsAt_lt c 3 2))
  rw [ctlState, ctlWorld, ctlClass, bitsAt_mod (by decide), bitsAt_mod (by decide), bitsAt_mod (by decide), spawnedCtl,
    bitsAt_putBits_same, bitsAt_putBits_other (lo := 0) (by decide), bitsAt_putBits_other (lo := 3) (by decide),
    bitsAt_putBits_same, bitsAt_putBits_other (lo := 0) (by decide), bitsAt_putBits_same, cap]
  exact ⟨rfl, rfl, Nat.min_le_right _ _⟩

/-- The wake-pending bit as it is written (R157). -/
theorem ctlWake_putBits (c v : Nat) : ctlWake (putBits c 11 1 v % 2 ^ 32) = v.testBit 0 := by
  rw [ctlWake, bitAt_eq_testBit, Nat.testBit_mod_two_pow, testBit_putBits, if_pos (by decide)]
  rfl

theorem pool_enterPool (s : State) (p a : Nat) :
    ∃ e, ((s.enterPool p a).part p).pool = (s.part p).pool ++ [e] ∧ e.record = a := by
  have part := State.part_modPart s p p (fun x => { x with
    pool := x.pool ++ [⟨a, ctlClass (s.ctl p a), ctlClass (s.ctl p a), s.time⟩] })
  rw [if_pos rfl] at part
  exact ⟨_, congrArg Partition.pool part, rfl⟩

theorem me_advance (s : State) : s.advance.me = { s.me with pc := s.me.pc + 1 } := State.me_setMe s _

/-- A step of the acting core to its next word: what the cores have become but for it. -/
theorem core_advance {t : State} {c : Core} (me : t.me = c) :
    t.advance.me = { c with pc := c.pc + 1 } ∧ ∀ m, m ≠ t.actor.core → t.advance.core m = t.core m := by
  subst me
  exact ⟨State.me_setMe t _, fun m other => State.core_setMe t m _ other⟩

/-- The record made runnable, the spawner going on (R106). -/
theorem answers_spawn_idle {s u v t : State} {p x c w : Nat} (hu : u = s.perform s.actor.core (· = 0)) (hv : v = u.putCtl p x c)
    (ht : t = ((v.setRecWorld p x w).enterPool p x).advance) :
    t.ctl p x = c % 2 ^ 32 ∧ (∃ e, (t.part p).pool = (s.part p).pool ++ [e] ∧ e.record = x)
      ∧ SameBytes s t (fun l => l < hbmLoc p x + 28 ∨ hbmLoc p x + 32 ≤ l)
      ∧ t.me = { s.me with pc := s.me.pc + 1 }
      ∧ SameSurroundings { s with older := t.older } t ∧ OtherCoresLatched s t := by
  obtain ⟨me, others⟩ := core_advance (t := (v.setRecWorld p x w).enterPool p x) (c := s.me)
    (by rw [hv]; exact (me_putCtl u p x c).trans (by rw [hu]; rfl))
  have latched : CoresLatched u v := hv ▸ coresLatched_setRecBytesBy u _ p x 28 _
  have bytes : SameBytes u v _ := hv ▸ bytes_putCtl u p x c
  have ctl : v.ctl p x = c % 2 ^ 32 := hv ▸ ctl_setCtlBy u _ p x c
  obtain ⟨e, pool, record⟩ := pool_enterPool (v.setRecWorld p x w) p x
  have before : ((v.setRecWorld p x w).part p).pool = (s.part p).pool := by
    rw [State.setRecWorld, State.part_modPart, if_pos rfl, hv, hu]
    rfl
  rw [before] at pool
  subst ht
  refine ⟨(ctl_congr rfl p x).trans ctl, ⟨e, pool, record⟩, ?_, me, ?_, fun m other => ?_⟩
  · subst hu
    exact fun l hl => bytes l hl
  · subst hv hu
    exact ⟨rfl, rfl, rfl, rfl, rfl, rfl, rfl, rfl, rfl⟩
  · have same := others m (by subst hv hu; exact other)
    have was := latched m
    subst hu
    rw [same]
    exact was

theorem spawnMakesRunnable : Claim.SpawnMakesRunnable := by
  intro s a x target done
  have runs := execSpawn_of_target target done
  have older : Performs s (s.perform s.actor.core (· = 0)) (· = 0) := by
    have performs := performs_of_older (s := s) (t := s.perform s.actor.core (· = 0)) (units := (· = 0)) rfl
    simpa only [decide_eq_true_eq] using performs
  refine ⟨fun idle tag => ?_, fun running => ?_, fun waiting => ?_, fun retired can => ?_⟩
  · have spawned := spawn_of_idle (s := s.perform s.actor.core (· = 0)) (cur := (s.c a).cursor.toNat) rfl idle tag
    rw [spawned] at runs
    obtain ⟨ctl, pool, bytes, me, surroundings, others⟩ := answers_spawn_idle (s := s) rfl rfl rfl
    obtain ⟨state, world, cls⟩ := spawnedCtl_fields _ _ _ ctl
    exact ⟨_, runs, state, world, cls, pool, bytes, me, surroundings, older, others⟩
  · have spawned := spawn_of_running (s := s.perform s.actor.core (· = 0)) (cur := (s.c a).cursor.toNat) rfl running
    rw [spawned] at runs
    obtain ⟨me, -⟩ := core_advance (me_putCtl (s.perform s.actor.core (· = 0)) s.party.part x
      (putBits (s.ctl s.party.part x) 11 1 1))
    refine ⟨_, runs, ?_, rfl, fun l hl => bytes_putCtl (s.perform s.actor.core (· = 0)) s.party.part x _ l hl, me⟩
    have ctl := ctl_setCtlBy (s.perform s.actor.core (· = 0)) (some s.actor.core) s.party.part x
      (putBits (s.ctl s.party.part x) 11 1 1)
    exact (congrArg ctlWake ctl).trans (ctlWake_putBits _ 1)
  · have spawned := spawn_of_waiting (s := s.perform s.actor.core (· = 0)) (cur := (s.c a).cursor.toNat) rfl waiting
    rw [spawned] at runs
    exact ⟨_, runs, onlyCore_noWait (wentTo_advance (s.perform s.actor.core (· = 0))), older⟩
  · have spawned := spawn_of_retired (s := s.perform s.actor.core (· = 0)) (cur := (s.c a).cursor.toNat) rfl retired
    rw [spawned] at runs
    have cursor : BitVec.ofNat 64 (s.c a).cursor.toNat = (s.c a).cursor := by rw [BitVec.ofNat_toNat, BitVec.setWidth_eq]
    exact ⟨_, runs, Eq.mp (congrArg (EnteredHandler s _ 17 · none s.me.pc) cursor)
      (enteredHandler_trapEntry s .contstate _ none can)⟩

/-! ### SUSPEND, YIELD and RETIRE (R104, R105) -/

theorem suspendOrWake_of_quiet {s : State} {r : Running} (run : s.me.run = some r) (can : s.canSuspend = .ok ())
    (wake : ctlWake (s.ctl r.part r.record) = false) :
    s.suspendOrWake = .ok (s.leaveCore s.actor.core r 3 (s.me.pc + 1)) := by
  rw [State.suspendOrWake, run]
  simp only [wake, Bool.false_eq_true, ↓reduceIte]
  exact suspendAs_of_canSuspend run can 3 _

theorem suspendOrWake_of_wake {s : State} {r : Running} (run : s.me.run = some r) (can : s.canSuspend = .ok ())
    (wake : ctlWake (s.ctl r.part r.record) = true) : s.suspendOrWake =
      .ok ((((s.releaseOlder s.actor.core).setCtl r.part r.record (putBits (s.ctl r.part r.record) 11 1 0)).releaseLease
        s.actor.core).advance) := by
  rw [State.suspendOrWake, run]
  simp only [wake, can, bind, Except.bind, ↓reduceIte]

/-- A SUSPEND that goes on: its core has neither lease nor wake-pending bit (R105). -/
theorem wakes_facts {s t : State} {p a c : Nat}
    (ht : t = (((s.releaseOlder s.actor.core).setCtl p a (putBits c 11 1 0)).releaseLease s.actor.core).advance) :
    ctlWake (t.ctl p a) = false ∧ ∃ d, Latched s.me d
      ∧ t.me = { d with sys := { d.sys with lease := false }, pc := d.pc + 1 } := by
  obtain ⟨u, hu⟩ : ∃ u, (s.releaseOlder s.actor.core).setCtl p a (putBits c 11 1 0) = u := ⟨_, rfl⟩
  have ctl : u.ctl p a = putBits c 11 1 0 % 2 ^ 32 := hu ▸ ctl_setCtlBy (s.releaseOlder s.actor.core) none p a _
  have latched : CoresLatched (s.releaseOlder s.actor.core) u := hu ▸ coresLatched_setRecBytesBy _ none p a 28 _
  have actor : u.actor = s.actor := hu ▸ rfl
  have lease := leaseReleased_releaseLease u s.actor.core
  rw [hu] at ht
  generalize u.releaseLease s.actor.core = v at ht lease
  have me : v.me = { u.core s.actor.core with sys := { (u.core s.actor.core).sys with lease := false } } := by
    rw [State.me, lease.actor, actor, lease.core, if_pos rfl]
  obtain ⟨went, -⟩ := core_advance me
  subst ht
  refine ⟨?_, u.core s.actor.core, latched s.actor.core, went⟩
  rw [ctl_congr (t := v.advance) (s := u) (by rw [State.advance_mem, lease.mem]), ctl, ctlWake_putBits]
  rfl

theorem yield_leaves {s : State} {r : Running} (run : s.me.run = some r) (can : s.canSuspend = .ok ()) :
    exec .yield s = .next (((s.leaveCore s.actor.core r 1 (s.me.pc + 1)).enterPool r.part r.record).noWait s.actor.core) := by
  change execYield s = _
  rw [execYield, run]
  simp only [suspendAs_of_canSuspend run can, State.runSeq_ok]

/-! What RETIRE does to the record's objects, groups and launch leaves the cores alone but for their event latches. -/

theorem coresLatched_releaseSync (s : State) (p loc a : Nat) : CoresLatched s (s.releaseSync p loc a) := by
  unfold State.releaseSync
  split
  · exact .refl s
  · exact CoresLatched.foldl (fun t b => coresLatched_makeRunnable t p b) _ (s.modPart p _)

@[simp] theorem State.releaseSync_actor (s : State) (p loc a : Nat) : (s.releaseSync p loc a).actor = s.actor := by
  unfold State.releaseSync
  split
  · rfl
  · exact foldl_keeps State.actor (fun t b _ => t.makeRunnable_actor p b) (s.modPart p _)

/-- The end of a retired record: its objects, groups, launch and context (R105, R136, R160, R161). -/
def State.endRetired (s : State) (r : Running) : State :=
  (((s.releaseAllSyncs r.part r.record).leaveGroups r.part r.record r.groups).endUnit r.part r.record .retired).closeContext r

theorem retire_leaves {s : State} {r : Running} (run : s.me.run = some r) (can : s.canSuspend = .ok ())
    (done : s.allPerformed s.actor.core = true) :
    exec .retire s = .next (((s.leaveCore s.actor.core r 5 s.me.pc).endRetired r).noWait s.actor.core) := by
  have waits : waitUnless (s.allPerformed s.actor.core) .other = .ok () := if_pos done
  change s.runSeq s.retire = _
  rw [State.retire, run]
  simp only [suspendAs_of_canSuspend run can, waits, bind, Except.bind]
  rfl

theorem closeContext_eq (s : State) (r : Running) : ∃ m, s.closeContext r = { s with mgmt := m } := by
  unfold State.closeContext
  split
  · exact ⟨s.mgmt, rfl⟩
  · exact ⟨_, rfl⟩

theorem latched_endRetired (s : State) (r : Running) :
    CoresLatched s (s.endRetired r) ∧ (s.endRetired r).actor = s.actor := by
  obtain ⟨m, closed⟩ := closeContext_eq (((s.releaseAllSyncs r.part r.record).leaveGroups r.part r.record r.groups).endUnit
    r.part r.record .retired) r
  rw [State.endRetired, closed]
  refine ⟨?_, ?_⟩
  · refine CoresLatched.trans ?_ ((coresLatched_leaveGroups _ _ _ _).trans (.of_cores (cores_endUnit ..)))
    exact CoresLatched.foldl (fun t loc => coresLatched_releaseSync t _ loc _) _ s
  · refine (State.endUnit_actor ..).trans ((State.leaveGroups_actor ..).trans ?_)
    exact foldl_keeps State.actor (fun t loc _ => t.releaseSync_actor _ loc _) s

theorem endUnit_mem (s : State) (p a : Nat) (e : UnitEnd) : (s.endUnit p a e).mem = s.mem := by
  unfold State.endUnit
  dsimp only
  split
  · rfl
  · split
    · rfl
    · split
      · split <;> rfl
      · rfl

/-- With no object held and no group joined, nothing of the cores or the memory changes. -/
theorem endRetired_of_alone {s : State} {r : Running} (free : (s.part r.part).heldSyncs r.record = [])
    (alone : ∀ g ∈ r.groups, g = 0xFF) : (s.endRetired r).cores = s.cores ∧ (s.endRetired r).mem = s.mem := by
  obtain ⟨m, closed⟩ := closeContext_eq (((s.releaseAllSyncs r.part r.record).leaveGroups r.part r.record r.groups).endUnit
    r.part r.record .retired) r
  have syncs : s.releaseAllSyncs r.part r.record = s := by rw [State.releaseAllSyncs, free]; rfl
  have groups : s.leaveGroups r.part r.record r.groups = s := by
    refine foldl_keeps (fun t : State => t) (fun t g joined => ?_) s
    rw [if_pos (alone g joined)]
  rw [State.endRetired, closed, syncs, groups]
  exact ⟨cores_endUnit .., endUnit_mem ..⟩

theorem continuationsLeaveTheirCore : Claim.ContinuationsLeaveTheirCore := by
  intro s r run can
  refine ⟨fun wake => ?_, fun wake => ?_, ?_, fun done => ?_⟩
  · obtain ⟨t, ht⟩ : ∃ t, s.leaveCore s.actor.core r 3 (s.me.pc + 1) = t := ⟨_, rfl⟩
    have leaves := ht ▸ leaves_leaveCore s r 3 (s.me.pc + 1)
    have suspends := ht ▸ suspendOrWake_of_quiet run can wake
    exact ⟨_, congrArg s.runSeq suspends, leftCore_of_same (leaves.leftCore (by decide)) rfl rfl rfl, leaves.others,
      leaves.parts, leaves.bytes⟩
  · obtain ⟨t, ht⟩ : ∃ t, (((s.releaseOlder s.actor.core).setCtl r.part r.record (putBits (s.ctl r.part r.record) 11 1
      0)).releaseLease s.actor.core).advance = t := ⟨_, rfl⟩
    have suspends := ht ▸ suspendOrWake_of_wake run can wake
    obtain ⟨ctl, d, latched, me⟩ := wakes_facts ht.symm
    have g := latched.same Core.g rfl
    have c := latched.same Core.c rfl
    have pc := latched.same Core.pc rfl
    have still := latched.run.trans run
    refine ⟨_, congrArg s.runSeq suspends, ctl, ?_⟩
    change t.me.pc = _ ∧ t.me.g = _ ∧ t.me.c = _ ∧ t.me.run = _ ∧ t.me.sys.lease = _
    rw [me]
    exact ⟨congrArg (· + 1) pc, g, c, still, rfl⟩
  · obtain ⟨t, ht⟩ : ∃ t, s.leaveCore s.actor.core r 1 (s.me.pc + 1) = t := ⟨_, rfl⟩
    have leaves := ht ▸ leaves_leaveCore s r 1 (s.me.pc + 1)
    have yields := ht ▸ yield_leaves run can
    obtain ⟨e, pool, record⟩ := pool_enterPool t r.part r.record
    have part : t.part r.part = s.part r.part := by rw [State.part, State.part, leaves.parts]
    rw [part] at pool
    exact ⟨_, yields, leftCore_of_same (leaves.leftCore (by decide)) rfl rfl rfl, ⟨e, pool, record⟩, leaves.bytes⟩
  · obtain ⟨t, ht⟩ : ∃ t, s.leaveCore s.actor.core r 5 s.me.pc = t := ⟨_, rfl⟩
    have leaves := ht ▸ leaves_leaveCore s r 5 s.me.pc
    have retires := ht ▸ retire_leaves run can done
    obtain ⟨latched, actor⟩ := latched_endRetired t r
    have part : t.part r.part = s.part r.part := by rw [State.part, State.part, leaves.parts]
    have me := leaves.me.trans (latched t.actor.core)
    rw [← actor] at me
    refine ⟨_, retires, me.run, me.eng, me.lease, fun free alone => ?_⟩
    rw [← part] at free
    obtain ⟨cores, mem⟩ := endRetired_of_alone free alone
    have left := leftCore_of_same (leaves.leftCore (by decide)) cores actor (congrArg Mem.cells mem)
    exact leftCore_of_same left (State.noWait_cores _ _) (State.noWait_actor _ _) (congrArg Mem.cells (State.noWait_mem _ _))

/-- Settles O22, from the record write of SPAWN and that of a suspension, and what RETIRE then ends. -/
theorem continuationsSpawnAndLeave : Obligations.ContinuationsSpawnAndLeave :=
  ⟨spawnMakesRunnable, continuationsLeaveTheirCore⟩

end Sys2Proof.Machine
end
/-! ## SUBMIT, WAITSEQ, group barriers and ranks (O23) -/
section
namespace Sys2Proof.Machine

variable {s : State} {r : Running}

theorem part_modPart_noWait (t : State) (p core : Nat) (f : Partition → Partition) :
    ((t.modPart p f).noWait core).part p = f (t.part p) := (State.part_modPart t p p f).trans (if_pos rfl)

/-! ### SUBMIT (R107) -/

theorem submitTask_of_place {c : Cap} {pl : Place} (run : s.me.run = some r) (place : s.submitPlace c = .ok pl)
    (can : s.canSuspend = .ok ()) {t : State} (ht : s.leaveCore s.actor.core r 4 (s.me.pc + 1) = t) :
    s.submitTask c = .ok (t.setCluster s.home { t.cluster s.home with cumulus := { (t.cluster s.home).cumulus with
      submits := (t.cluster s.home).cumulus.submits
        ++ [⟨s.actor.core, r.record, r.part, r.world, r.context, r.isSealed, c.cursor, pl, r.launch⟩] } }) := by
  rw [State.submitTask, run]
  simp only [place, suspendAs_of_canSuspend run can, ht, bind, Except.bind]

/-! ### WAITSEQ (R109) -/

theorem Partition.seq_setSeq (p : Partition) (n : Nat) (x : SeqCounter) : (p.setSeq n x).seq n = x :=
  Sparse.get_set_same n x SeqCounter.init p.seqs

theorem Partition.group_setGroup (p : Partition) (g : Nat) (x : Group) : (p.setGroup g x).group g = x :=
  Sparse.get_set_same g x Group.init p.groups

theorem waitSeq_of_below {i target : Nat} (run : s.me.run = some r) (small : i ≤ 63)
    (below : ((s.part r.part).seq (seqIndex r.world r.context i)).done.toNat < target) (can : s.canSuspend = .ok ()) {t : State}
    (ht : s.leaveCore s.actor.core r 4 (s.me.pc + 1) = t) : s.waitSeq i target =
      .ok (t.modPart r.part (fun x => x.setSeq (seqIndex r.world r.context i) { x.seq (seqIndex r.world r.context i) with
        waiting := (x.seq (seqIndex r.world r.context i)).waiting ++ [(r.record, target)] })) := by
  rw [State.waitSeq, run]
  simp only [Nat.not_lt.2 small, below, suspendAs_of_canSuspend run can, ht, ↓reduceIte]

theorem waitSeq_of_reached {i target : Nat} (run : s.me.run = some r) (small : i ≤ 63)
    (reached : target ≤ ((s.part r.part).seq (seqIndex r.world r.context i)).done.toNat) :
    let w := ((s.part r.part).seq (seqIndex r.world r.context i)).takeReport target
    s.waitSeq i target =
      .ok ((s.modPart r.part (fun x => x.setSeq (seqIndex r.world r.context i) w.2)).writeG 1 w.1) := by
  rw [State.waitSeq, run]
  simp only [Nat.not_lt.2 small, Nat.not_lt.2 reached, ↓reduceIte]

/-- One atomic read and clear of a report that is due (R109). -/
theorem takeReport_eq (c : SeqCounter) (target : Nat) :
    let due := c.report.toNat % 256 ≠ 0 ∧ c.report.toNat / 2 ^ 16 ≤ target
    c.takeReport target = (if due then c.report else 0, { c with report := if due then 0 else c.report }) := by
  have code : bitsAt c.report.toNat 0 8 = c.report.toNat % 256 := by simp [bitsAt]
  have number : bitsAt c.report.toNat 16 48 = c.report.toNat / 2 ^ 16 := by
    rw [bitsAt]
    have := c.report.isLt
    omega
  unfold SeqCounter.takeReport
  rw [code, number]
  dsimp only
  split <;> rfl

theorem submitAndWaitSequence : Claim.SubmitAndWaitSequence := by
  intro s a b e r run
  obtain ⟨t, ht⟩ : ∃ t, s.leaveCore s.actor.core r 4 (s.me.pc + 1) = t := ⟨_, rfl⟩
  have leaves := ht ▸ leaves_leaveCore s r 4 (s.me.pc + 1)
  have left := leaves.leftCore (by decide)
  have part : t.part r.part = s.part r.part := by rw [State.part, State.part, leaves.parts]
  refine ⟨fun pl place can => ?_, fun small => ⟨fun below can => ?_, fun reached => ?_⟩⟩
  · refine ⟨_, congrArg s.runSeq (submitTask_of_place run place can ht), leftCore_of_same left rfl rfl rfl, ?_⟩
    change ((t.setCluster s.home _).cluster s.home).cumulus.submits = _
    rw [State.cluster_setCluster, if_pos rfl, leaves.cumulus]
  · refine ⟨_, congrArg s.runSeq (waitSeq_of_below run small below can ht), leftCore_of_same left rfl rfl rfl, ?_⟩
    rw [part_modPart_noWait, Partition.seq_setSeq, part]
  · refine ⟨_, congrArg s.runSeq (waitSeq_of_reached run small reached), ?_⟩
    obtain ⟨i, hi⟩ : ∃ i, seqIndex r.world r.context (s.g a).toNat = i := ⟨_, rfl⟩
    rw [hi, takeReport_eq]
    dsimp only
    obtain ⟨x, hx⟩ : ∃ x : SeqCounter, { (s.part r.part).seq i with
      report := if ((s.part r.part).seq i).report.toNat % 256 ≠ 0 ∧ ((s.part r.part).seq i).report.toNat / 2 ^ 16 ≤ (s.g b).toNat
        then 0 else ((s.part r.part).seq i).report } = x := ⟨_, rfl⟩
    rw [hx]
    obtain ⟨g, memory, surroundings, parts, others, -, me⟩ :=
      WroteG.noWait (wroteG_writeG (s.modPart r.part (fun p => p.setSeq i x)) 1 _)
    refine ⟨fun d => (g d).trans ?_, me, ?_, memory, surroundings, others⟩
    · by_cases one : d = 1
      · rw [if_pos ⟨one, one ▸ by decide⟩, if_pos one]
      · rw [if_neg (fun h => one h.1), if_neg one]
        rfl
    · refine Eq.trans (congrArg (fun ps => (ps.get Partition.init r.part).seq i) parts) ?_
      exact (congrArg (Partition.seq · i) (part_modPart_noWait s r.part 0 (Partition.setSeq · i x))).trans
        (Partition.seq_setSeq _ i x)

/-! ### Groups (R110, R111) -/

/-- The arrival that completes a generation leaves no member behind (R110). -/
theorem arrive_of_completes {g : Group} {a : Nat} (h : g.completes a = true) :
    (g.arrive a).members.all (fun m => Marks.has m (g.arrive a).arrived || Marks.has m (g.arrive a).gone) = true := by
  obtain ⟨first, rest⟩ := Bool.and_eq_true_iff.1 h
  rw [Bool.not_eq_true'] at first
  rw [Group.arrive, first]
  rw [List.all_eq_true] at rest ⊢
  intro m hm
  have member := rest m hm
  simp only [Bool.or_eq_true, decide_eq_true_eq] at member
  simp only [Bool.false_eq_true, ↓reduceIte, Marks.has_add, Bool.or_eq_true, decide_eq_true_eq]
  exact member

@[simp] theorem generation_arrive (g : Group) (a : Nat) : (g.arrive a).generation = g.generation := by
  unfold Group.arrive
  split <;> rfl

@[simp] theorem members_arrive (g : Group) (a : Nat) : (g.arrive a).members = g.members := by
  unfold Group.arrive
  split <;> rfl

theorem groupInSlot_members {k : BitVec 2} {n : Nat} {g : Group} (h : s.groupInSlot r k = .ok (n, g)) :
    g.members ≠ [] ∧ (s.part r.part).group n = g := by
  unfold State.groupInSlot at h
  dsimp only at h
  split at h
  · cases h
  next used =>
    cases h
    exact ⟨fun empty => used (.inr empty), rfl⟩

theorem closeGroup_of_complete {p n : Nat} {x : Group} (hx : (s.part p).group n = x) (members : x.members ≠ [])
    (complete : x.members.all (fun m => Marks.has m x.arrived || Marks.has m x.gone) = true) :
    (((s.closeGroup p n).part p).group n).generation = x.generation + 1 := by
  unfold State.closeGroup
  dsimp only
  rw [hx, if_pos ⟨members, complete⟩, State.part_modPart, if_pos rfl, Partition.group_setGroup]

theorem barrier_of_last {k : BitVec 2} {n : Nat} {g : Group} (run : s.me.run = some r) (slot : s.groupInSlot r k = .ok (n, g))
    (quiet : s.waitRelease = .ok ()) (last : g.completes r.record = true) : s.barrier k =
      .ok (((s.releaseOlder s.actor.core).modPart r.part (fun x => x.setGroup n (g.arrive r.record))).closeGroup r.part n).advance := by
  have closed : require (s.me.sys.region.isClosed || true) .apxseq 0 = .ok () := if_pos (Bool.or_true _)
  rw [State.barrier, run]
  simp only [slot, quiet, last, closed, bind, Except.bind, ↓reduceIte]

theorem barrier_of_early {k : BitVec 2} {n : Nat} {g : Group} (run : s.me.run = some r) (slot : s.groupInSlot r k = .ok (n, g))
    (can : s.canSuspend = .ok ()) (early : g.completes r.record = false) {t : State}
    (ht : s.leaveCore s.actor.core r 4 (s.me.pc + 1) = t) : s.barrier k = .ok (t.modPart r.part (fun x => x.setGroup n
      { g.arrive r.record with waiting := Marks.add r.record (g.arrive r.record).waiting })) := by
  have region : s.me.sys.region.isClosed = true ∧ s.waitRelease = .ok () := by
    unfold State.canSuspend at can
    split at can
    next closed => exact ⟨by rw [closed]; rfl, can⟩
    next => cases can
  have closed : require (s.me.sys.region.isClosed || false) .apxseq 0 = .ok () := if_pos (by rw [region.1]; rfl)
  rw [State.barrier, run]
  simp only [slot, region.2, early, closed, suspendAs_of_canSuspend run can, ht, bind, Except.bind, Bool.false_eq_true,
    ↓reduceIte]

theorem groupBarriers : Claim.GroupBarriers := by
  intro s d k r n g run slot
  obtain ⟨members, group⟩ := groupInSlot_members slot
  refine ⟨?_, ?_, fun quiet last => ?_, fun can early => ?_⟩
  · refine ⟨_, ?_, WroteG.noWait (wroteG_writeG s d (w64 (g.rank r.record)))⟩
    rw [show exec (.grank d k) s = execGrank d k s from rfl, execGrank, run]
    simp only [slot]
    rfl
  · refine ⟨_, ?_, WroteG.noWait (wroteG_writeG s d (w64 g.members.length))⟩
    rw [show exec (.gsize d k) s = execGsize d k s from rfl, execGsize, run]
    simp only [slot]
    rfl
  · refine ⟨_, congrArg s.runSeq (barrier_of_last run slot quiet last), ?_⟩
    obtain ⟨u, hu⟩ : ∃ u, (s.releaseOlder s.actor.core).modPart r.part (fun x => x.setGroup n (g.arrive r.record)) = u :=
      ⟨_, rfl⟩
    have arrived : (u.part r.part).group n = g.arrive r.record := by
      rw [← hu, State.part_modPart, if_pos rfl, Partition.group_setGroup]
    have closed := closeGroup_of_complete arrived (by simpa using members) (arrive_of_completes last)
    rw [generation_arrive] at closed
    have latched : Latched s.me (u.closeGroup r.part n).me := by
      have core := coresLatched_closeGroup u r.part n s.actor.core
      rw [State.me, State.me, State.closeGroup_actor]
      subst hu
      exact core
    obtain ⟨me, -⟩ := core_advance (t := u.closeGroup r.part n) rfl
    rw [hu]
    refine ⟨closed, ?_⟩
    change (u.closeGroup r.part n).advance.me.pc = _ ∧ (u.closeGroup r.part n).advance.me.g = _
      ∧ (u.closeGroup r.part n).advance.me.c = _ ∧ (u.closeGroup r.part n).advance.me.run = _
    rw [me]
    exact ⟨by rw [latched.same Core.pc rfl], latched.same Core.g rfl, latched.same Core.c rfl, latched.run.trans run⟩
  · obtain ⟨t, ht⟩ : ∃ t, s.leaveCore s.actor.core r 4 (s.me.pc + 1) = t := ⟨_, rfl⟩
    have leaves := ht ▸ leaves_leaveCore s r 4 (s.me.pc + 1)
    refine ⟨_, congrArg s.runSeq (barrier_of_early run slot can early ht),
      leftCore_of_same (leaves.leftCore (by decide)) rfl rfl rfl, ?_⟩
    rw [part_modPart_noWait, Partition.group_setGroup]
    exact ⟨generation_arrive g r.record, (Marks.mem_add _ _ _).2 (.inl rfl)⟩

/-- Settles O23, by what each instruction answers: a voluntary suspension, a write of a register, or a group that closes its
generation. -/
theorem groupsAndSequences : Obligations.GroupsAndSequences := ⟨submitAndWaitSequence, groupBarriers⟩

end Sys2Proof.Machine
end
/-! ## A scatter over one frame under two keys (O38) -/
section
namespace Sys2Proof.Machine

/-! ### Translation within a 64 KiB page (R414) -/

theorem div_two_pow_of_page {x y k : Nat} (page : x / 2 ^ 16 = y / 2 ^ 16) (hk : 16 ≤ k) : x / 2 ^ k = y / 2 ^ k := by
  obtain ⟨j, rfl⟩ := Nat.exists_eq_add_of_le hk
  rw [Nat.pow_add, ← Nat.div_div_eq_div_mul, ← Nat.div_div_eq_div_mul, page]

theorem entryOffset_of_page {x y : Nat} (page : x / 2 ^ 16 = y / 2 ^ 16) (L : Nat) : entryOffset x L = entryOffset y L := by
  unfold entryOffset bitsAt
  rw [div_two_pow_of_page page (le_refl 16), div_two_pow_of_page page (by omega : 16 ≤ 21 + 9 * (L - 1))]

theorem mod_pageBytes_add {x o : Nat} (aligned : x % 2 ^ 16 = 0) (ho : o < 2 ^ 16) (L : Nat) :
    (x + o) % pageBytes L = x % pageBytes L + o := by
  unfold pageBytes
  rw [Nat.pow_add, Nat.mod_mul, Nat.mod_mul, show (x + o) / 2 ^ 16 = x / 2 ^ 16 by omega]
  omega

/-- The pages of the second stage decide its walk (R416). -/
theorem walk2_of_page {s : State} {p x y : Nat} (page : x / 2 ^ 16 = y / 2 ^ 16) (L table : Nat) :
    s.walk2 p x L table = s.walk2 p y L table := by
  induction L generalizing table with
  | zero => rw [State.walk2, State.walk2, entryOffset_of_page page]
  | succ L ih => rw [State.walk2, State.walk2, entryOffset_of_page page]; simp only [ih]

theorem translate2_of_page {s : State} {y : Party} {g o l k : Nat} {w sh : Bool} (aligned : g % 2 ^ 16 = 0) (ho : o < 2 ^ 16)
    (image : s.inImage y.part (floorTo (l + o) 16) 16 = false) (base : s.translate2 y g w sh = .ok (.here l k)) :
    s.translate2 y (g + o) w sh = .ok (.here (l + o) k) := by
  unfold State.translate2 at base ⊢
  rw [walk2_of_page (show (g + o) / 2 ^ 16 = g / 2 ^ 16 by omega)]
  split at base
  · cases base
  next small =>
    rw [if_neg (by omega)]
    split at base
    · cases base
    next L page w' world key sh' walked =>
      dsimp only at base ⊢
      generalize (if sh' = true then 2 * pageBytes L else pageBytes L) = room at base ⊢
      generalize page + (if (sh' && Marks.has page (s.part y.part).swapped != sh) = true then pageBytes L else 0) = frame
        at base ⊢
      by_cases inside : s.frameOk y.part page room = false
      · rw [if_pos inside] at base; cases base
      by_cases writable : (w && (!w' || s.inWeights y.part (hbmLoc y.part page) room)) = true
      · rw [if_neg inside, if_pos writable] at base; cases base
      rw [if_neg inside, if_neg writable] at base ⊢
      split at base
      · cases base
      next =>
        cases base
        rw [mod_pageBytes_add aligned ho, show ∀ a b : Nat, hbmLoc y.part (frame + (a + b)) = hbmLoc y.part (frame + a) + b from
          fun a b => by unfold hbmLoc; omega, image, Bool.and_false]
        rfl
    · split at base <;> cases base
    · cases base

theorem read2_of_ok {s : State} {y : Party} {g L x z e : Nat} {w : Bool} (h : s.read2 y g L x w = .ok e) :
    s.read2 y g L z w = .ok e := by
  unfold State.read2 at h ⊢
  split at h
  · cases h
  · split at h
    · cases h
    next sound => rw [if_neg sound]; exact h
  · split at h
    · exact h
    · cases h
    · cases h

theorem walk1_of_page {s : State} {y : Party} {x z : Nat} {w : Bool} (page : z / 2 ^ 16 = x / 2 ^ 16) {L table : Nat}
    {r : Nat × Nat × Bool} (h : s.walk1 y x w L table = .ok r) : s.walk1 y z w L table = .ok r := by
  induction L generalizing table with
  | zero =>
    rw [State.walk1] at h ⊢
    rw [entryOffset_of_page page]
    split at h
    · cases h
    next read =>
      rw [read2_of_ok read]
      dsimp only
      split at h
      · cases h
      · cases h
      · exact h
      · cases h
  | succ L ih =>
    rw [State.walk1] at h ⊢
    rw [entryOffset_of_page page]
    split at h
    · cases h
    next read =>
      rw [read2_of_ok read]
      dsimp only
      split at h
      · cases h
      · exact ih h
      · exact h
      · cases h

theorem guestOf_of_page {s : State} {y : Party} {x o g : Nat} {w : Bool} (aligned : x % 2 ^ 16 = 0) (ho : o < 2 ^ 16)
    (h : s.guestOf y x w = .ok g) : s.guestOf y (x + o) w = .ok (g + o) := by
  unfold State.guestOf at h ⊢
  dsimp only at h ⊢
  rw [div_two_pow_of_page (show (x + o) / 2 ^ 16 = x / 2 ^ 16 by omega) (by omega : 16 ≤ 48)]
  split at h
  · cases h
  next small =>
  split at h
  · cases h
  next valid =>
  split at h
  · cases h
  next read =>
  rw [if_neg small, if_neg valid, read2_of_ok read]
  dsimp only
  split at h
  · cases h
  next present =>
  split at h
  · cases h
  next clean =>
  split at h
  · cases h
  next L page w' walk =>
  rw [if_neg present, if_neg clean, walk1_of_page (by omega) walk]
  dsimp only
  split at h
  · cases h
  next high =>
  split at h
  · cases h
  next writable =>
  cases h
  rw [if_neg (by omega), if_neg writable, mod_pageBytes_add aligned ho, Nat.add_assoc]

/-- An address in a page is translated as the page's first one is, where no admitted image denies it. -/
theorem translate_of_page {s : State} {y : Party} {x o l k : Nat} {w sh : Bool} {g : Nat} (aligned : x % 2 ^ 16 = 0)
    (ho : o < 2 ^ 16) (guest : s.guestOf y x w = .ok g) (guestAligned : g % 2 ^ 16 = 0)
    (base : s.translate2 y g w sh = .ok (.here l k)) (image : s.inImage y.part (floorTo (l + o) 16) 16 = false) :
    s.translate y (x + o) w sh = .ok (.here (l + o) k) := by
  rw [State.translate, guestOf_of_page aligned ho guest]
  dsimp only
  rw [translate2_of_page guestAligned ho image base]

/-! ### The pieces of a run of whole granules and one byte more -/

theorem mapChk_of_ok {α β : Type} {f : α → Chk β} {g : α → β} {l : List α} (h : ∀ x ∈ l, f x = .ok (g x)) :
    mapChk f l = .ok (l.map g) := by
  induction l with
  | nil => rfl
  | cons x l ih => rw [mapChk, h x List.mem_cons_self, ih (fun y hy => h y (List.mem_cons_of_mem x hy))]; rfl

/-- q whole granules from x on. -/
def granuleRun (x : Nat) : Nat → List (Nat × Nat)
  | 0 => []
  | q + 1 => (x, 16) :: granuleRun (x + 16) q

theorem of_mem_granuleRun {x q : Nat} {c : Nat × Nat} (h : c ∈ granuleRun x q) :
    x ≤ c.1 ∧ c.1 + 16 ≤ x + 16 * q ∧ c.2 = 16 := by
  induction q generalizing x with
  | zero => cases h
  | succ q ih =>
    rcases List.mem_cons.1 h with rfl | h
    · exact ⟨le_refl _, by omega, rfl⟩
    · obtain ⟨low, high, len⟩ := ih h
      exact ⟨by omega, by omega, len⟩

theorem pairwise_granuleRun (x q : Nat) : (granuleRun x q).Pairwise (fun c d => c.1 + c.2 ≤ d.1) := by
  induction q generalizing x with
  | zero => exact .nil
  | succ q ih => exact .cons (fun d hd => (of_mem_granuleRun hd).1) (ih (x + 16))

theorem sum_granuleRun (x q : Nat) : ((granuleRun x q).map Prod.snd).sum = 16 * q := by
  induction q generalizing x with
  | zero => rfl
  | succ q ih => rw [granuleRun, List.map_cons, List.sum_cons, ih]; omega

theorem cutFrom_granuleRun {x : Nat} (aligned : x % 16 = 0) (q k : Nat) :
    cutFrom x (16 * q + 1) (q + 1 + k) = granuleRun x q ++ [(x + 16 * q, 1)] := by
  induction q generalizing x with
  | zero =>
    rw [show 0 + 1 + k = k + 1 by omega, cutFrom, if_neg (by omega)]
    have rest : cutFrom (x + 1) 0 k = [] := by cases k <;> rfl
    simp only [aligned]
    simp [granuleRun, rest]
  | succ q ih =>
    rw [show q + 1 + 1 + k = q + 1 + k + 1 by omega, cutFrom, if_neg (by omega)]
    have whole : min (16 * (q + 1) + 1) (16 - x % 16) = 16 := by omega
    simp only [whole]
    rw [show 16 * (q + 1) + 1 - 16 = 16 * q + 1 by omega, ih (by omega), show x + 16 + 16 * q = x + 16 * (q + 1) by omega]
    rfl

/-- Whole granules' bytes from the second byte of a granule on: the rest of it, whole granules, and a byte of the next one. -/
theorem cuts_from_second_byte {x : Nat} (aligned : x % 16 = 0) (q : Nat) :
    cuts (x + 1) (16 * (q + 1)) = (x + 1, 15) :: (granuleRun (x + 16) q ++ [(x + 16 + 16 * q, 1)]) := by
  have first : min (16 * (q + 1)) (16 - (x + 1) % 16) = 15 := by omega
  rw [cuts, show 16 * (q + 1) / 16 + 2 = q + 1 + 1 + 1 by omega, cutFrom, if_neg (by omega)]
  simp only [first]
  rw [show 16 * (q + 1) - 15 = 16 * q + 1 by omega, show q + 2 = q + 1 + 1 from rfl, cutFrom_granuleRun (by omega)]

/-- The piece of a granule run that stands a bytes lower in the memory than in the virtual space, under a key. -/
def pieceBelow (a key : Nat) (who : Asker) (c : Nat × Nat) : Piece := ⟨c.1, c.2, .here (c.1 - a) key, who⟩

/-- Neighbours in the memory under one key are written together, up to a piece under another key. -/
theorem joinLines_granuleRun {a key : Nat} {who : Asker} {z : Piece} {l k : Nat} (place : z.place = .here l k) (keys : key ≠ k)
    {x : Nat} (above : a ≤ x) (n q : Nat) :
    joinLines (pieceBelow a key who (x, n) :: ((granuleRun (x + n) q).map (pieceBelow a key who) ++ [z]))
      = [pieceBelow a key who (x, n + 16 * q), z] := by
  induction q generalizing x n with
  | zero =>
    have apart : sameLine (pieceBelow a key who (x, n)) z = false := by
      unfold sameLine pieceBelow
      rw [place]
      simp [keys]
    simp [granuleRun, joinLines, apart]
  | succ q ih =>
    rw [granuleRun, List.map_cons, List.cons_append, joinLines, ih (by omega)]
    have next : x + n - a = x - a + n := by omega
    have together : sameLine (pieceBelow a key who (x, n)) (pieceBelow a key who (x + n, 16 + 16 * q)) = true := by
      simp [sameLine, pieceBelow, next]
    simp only [together, ↓reduceIte]
    simp only [pieceBelow, Nat.mul_succ]
    rw [show n + (16 + 16 * q) = n + (16 * q + 16) by omega]

/-! ### Memory -/

/-- Two memories hold the same bytes under the same keys. -/
def Mem.Alike (m n : Mem) : Prop := m.cells = n.cells ∧ m.keys = n.keys

theorem Mem.Alike.readUnder {m n : Mem} (h : m.Alike n) (key l len : Nat) : m.readUnder key l len = n.readUnder key l len := by
  refine List.map_congr_left (fun x _ => Mem.byteUnder_congr x (fun y _ => ⟨?_, ?_⟩) key)
  · rw [Mem.byte, Mem.byte, h.1]
  · rw [Mem.keyAt, Mem.keyAt, h.2]

theorem Mem.Alike.putBytes {m n : Mem} (h : m.Alike n) (key l : Nat) (bs : List Byte) :
    (m.putBytes key l bs).Alike (n.putBytes key l bs) := by
  unfold Mem.putBytes
  generalize (upFrom l bs.length).zip bs = qs
  induction qs generalizing m n with
  | nil => exact h
  | cons q qs ih => exact ih ⟨congrArg (Mem.putCell q.1 q.2) h.1, by unfold Mem.putByte; rw [h.2]⟩

theorem Mem.Alike.adopt {m n : Mem} (h : m.Alike n) (key l : Nat) : (m.adopt key l).Alike (n.adopt key l) := by
  have keys : ∀ x, m.keyAt x = n.keyAt x := fun x => by rw [Mem.keyAt, Mem.keyAt, h.2]
  unfold Mem.adopt
  simp only [keys, h.readUnder]
  split
  · exact h
  · exact h.putBytes _ _ _

theorem Mem.Alike.write {m n : Mem} (h : m.Alike n) (key l : Nat) (bs : List Byte) :
    (m.write key l bs).Alike (n.write key l bs) := by
  have edges : (m.adoptEdges key l bs.length).Alike (n.adoptEdges key l bs.length) := by
    unfold Mem.adoptEdges
    split
    · exact h
    · exact (h.adopt key l).adopt key _
  exact edges.putBytes key l bs

/-- Zeros written where there are zeros, all in plaintext, change no byte. -/
theorem Mem.write_zeros_alike {m : Mem} {l n : Nat} (keys : m.keys = [])
    (zeros : ∀ c ∈ m.cells, c.1 < l ∨ l + n ≤ c.1) : (m.write 0 l (List.replicate n 0)).Alike m := by
  have plain : ∀ x, m.keyAt x = 0 := fun x => by rw [Mem.keyAt, keys]; rfl
  have adopt : ∀ x, m.adopt 0 x = m := fun x => by
    unfold Mem.adopt
    simp [plain]
  have edges : m.adoptEdges 0 l (List.replicate n (0 : Byte)).length = m := by
    unfold Mem.adoptEdges
    rw [adopt, adopt, ite_self]
  have put : ∀ qs : List (Nat × Byte), (∀ q ∈ qs, q.2 = 0 ∧ l ≤ q.1 ∧ q.1 < l + n) → qs.foldl (Mem.putByte 0) m = m := by
    intro qs inside
    induction qs with
    | nil => rfl
    | cons q qs ih =>
      obtain ⟨zero, low, high⟩ := inside q List.mem_cons_self
      have absent : Sparse.erase q.1 m.cells = m.cells := List.filter_eq_self.2 (fun c hc => by
        have := zeros c hc
        simp only [bne_iff_ne, ne_eq]
        omega)
      have same : m.putByte 0 q = m := by
        unfold Mem.putByte Mem.putCell
        rw [if_pos (show q.2 = Mem.unlisted from zero), absent, if_pos rfl, keys]
        show { m with keys := [] } = m
        rw [← keys]
      rw [List.foldl_cons, same]
      exact ih (fun p hp => inside p (List.mem_cons_of_mem q hp))
  have written : m.putBytes 0 l (List.replicate n 0) = m := put _ (fun q hq => by
    have range := mem_zip_upFrom l _ q hq
    rw [List.length_replicate] at range
    exact ⟨List.eq_of_mem_replicate (List.of_mem_zip hq).2, range⟩)
  unfold Mem.write
  rw [edges, written]
  exact ⟨rfl, rfl⟩

end Sys2Proof.Machine
end
section
namespace Sys2Proof.Machine

/-! ### The state: two guest pages in one frame, the second under the key of a sealed world -/

/-- A capability over [0x80000000, 0x80020000) with its cursor at the second byte, for stores. -/
def lateCap : Cap := ⟨0x80000001, 0, 0, 2, 3, 0, 0x4000, true⟩

/-- A task of class 15 with 64 rows, whose 64 * 128 FP64 results take 64 KiB. -/
def lateTask : CumTask :=
  { core := 0, part := 0, world := 0, context := 0, act := Cap.null, res := lateCap, hash := 7, weight := 9, cls := 15, rows := 64,
    patience := 0, admitMode := 0, flush := false, rfmt := 11, ctr := 0, seq := 1, born := 0, launch := 0 }

/-- Its member of the pass, which has run all entries but the last. -/
def lateMember : PassMember :=
  { PassMember.fresh lateTask with
    acc := List.replicate 64 (List.replicate 128 0), entries := 128, results := List.replicate 127 0 }

/-- The pass, its array phase over. -/
def latePass : Pass := ⟨[lateMember], 3, [], 0⟩

/-- The entries of the page tables: the guest pages 0x80000000 and 0x80010000 both lie in frame 0x5000000, the second under the
key of world 1 (R413 to R416). -/
def sharedTables : List (Nat × Nat) :=
  [(0x1000, 0x2003), (0x2000, 0x05), (0x2010, 0x6003), (0x6000, 0x7003), (0x7000, 0x05000005), (0x7008, 0x0100000005000005),
   (0x3000, 0x4001), (0x4000, 0x5003), (0x5010, 0x80000005)]

/-- The words of an image whose vector block at offset 0 returns its entry: VMOV sq0, lq0; VEND. -/
def returnsEntry : List Nat := [0x4D49414C, 14, 12, 0, 12, 2, 14, 0, 14, 0, 14, 0, 0x9FCE0008, 0x04000000]

/-- Partition 0 with cluster 0, those tables and that image; world 1 is sealed. -/
def sharedFrame : State :=
  { State.reset with
    mem := (sharedTables.foldl (fun m e => m.poke e.1 (leBytes e.2 8)) Mem.init).poke 0x8000 (imageBytes returnsEntry)
    clusters := [(0, { Cluster.init with cumulus := { Cumulus.init with weight := 1, passes := [latePass] } })]
    parts := [(0, { Partition.init with
      present := true, clust := [0], hbm := [0], images := [(1, ⟨0x8000, 14, 7⟩)]
      worlds := [(0, { World.init with present := true, s2root := 0x1000 }),
        (1, { World.init with present := true, isSealed := true, key := 5 })] })]
    mgmt := { State.reset.mgmt with ready := [0] }
    outer := { Outer.init with
      vfs := [(0, { Vf.init with configured := true, state := 2, ctxtab := 0x3001 })]
      weights := [(0, { ident := 9, part := 0, base := 0x40000000, len := 65536, layout := [12, 15] ++ List.replicate 14 0 })] } }

/-- The lane format of the task: FP32 accumulators. -/
def lateLane : Fmt := (⟨128, 128, 3, 64⟩ : ShapeClass).lane 12

/-- How the last entry's run ends. -/
def lastRun : Except EpiEnd (Core × Vec) := runEpi (sharedFrame.epiWords 0 7) (epiCore lateLane 0)

/-- The core as the run leaves it. -/
def lastCore : Core := match lastRun with | .ok x => x.1 | .error x => x.1

/-- The state in which the results are scattered. -/
def scattering : State := sharedFrame.leaveEpi 0 lastCore

theorem lastRun_ok : lastRun = .ok (lastCore, 0) := by
  have zero : (lastRun.toOption.map Prod.snd) = some 0 := by decide +kernel
  unfold lastCore
  cases h : lastRun with
  | error x => rw [h] at zero; cases zero
  | ok x => rw [h] at zero; exact congrArg (fun v => Except.ok (x.1, v)) (Option.some.inj zero)

theorem sharedFrame_ready :
    sharedFrame.myCluster.cumulus.passes = [latePass] ∧ sharedFrame.mayEpilogue 0 lateTask = true
    ∧ sharedFrame.recordFirst 0 0 0 = false ∧ sharedFrame.passFormat lateTask = 12
    ∧ sharedFrame.scatterPending lateTask = false ∧ ((sharedFrame.part 0).seq (seqIndex 0 0 0)).waiting = [] := by
  decide +kernel

theorem lateMember_entries : (memberEntries lateLane lateMember.acc).length = 128
    ∧ (memberEntries lateLane lateMember.acc)[127]? = some 0 := by decide +kernel

theorem lateMember_bytes : memberBytes lateLane 11 (64 * 128) (lateMember.results ++ [0]) = List.replicate 65536 0 := by
  have lanes : lanesOf lateLane.bits 0 = List.replicate 64 0 := by decide +kernel
  have bytes : leBytes (convert lateLane (fmtOf 11) true false 0) ((fmtOf 11).bits / 8) = List.replicate 8 0 := by decide +kernel
  have results : lateMember.results ++ [0] = List.replicate 128 0 := (List.replicate_succ' (n := 127)).symm
  unfold memberBytes
  rw [results]
  simp only [List.map_replicate, lanes, bytes, List.flatten_replicate_replicate, List.take_replicate]
  rfl

theorem scattering_tables :
    scattering.guestOf lateTask.party 0x80000000 true = .ok 0x80000000
    ∧ scattering.translate2 lateTask.party 0x80000000 true true = .ok (.here 0x5000000 0)
    ∧ scattering.translate lateTask.party 0x80010000 true true = .ok (.here 0x5000000 5)
    ∧ scattering.awaitGen lateTask.party lateCap.base = .ok () ∧ scattering.freshCap lateTask.party lateCap = lateCap
    ∧ capCheck lateCap lateCap.cursor.toNat 65536 permStore = .ok () := by decide +kernel

end Sys2Proof.Machine
end
section
namespace Sys2Proof.Machine
theorem scattering_images (l : Nat) (h : 0x10000 ≤ l) : scattering.inImage 0 (floorTo l 16) 16 = false := by
  have images : (scattering.part 0).images = [(1, ⟨0x8000, 14, 7⟩)] := by decide +kernel
  unfold State.inImage hbmLoc floorTo
  rw [images]
  simp only [List.any_cons, List.any_nil, Bool.or_false, Bool.and_eq_false_iff, decide_eq_false_iff_not]
  omega

theorem windowOf_below {x : Nat} (h : x < 2 ^ 40) : windowOf x = .translated := by
  unfold windowOf
  rw [if_neg (by omega), if_neg (by omega)]

theorem pageCopying_scattering (x : Nat) : scattering.pageCopying lateTask.party x = false := by
  have commands : scattering.outer.commands = [] := by decide +kernel
  unfold State.pageCopying
  rw [commands]
  rfl

theorem placeOf_first_page {x : Nat} (low : 0x80000000 ≤ x) (high : x < 0x80010000) :
    scattering.placeOf 0 lateTask.party x true true = .ok (.here (x - 0x7B000000) 0) := by
  obtain ⟨guest, base, -⟩ := scattering_tables
  obtain ⟨o, rfl⟩ := Nat.exists_eq_add_of_le low
  unfold State.placeOf
  rw [windowOf_below (by omega)]
  dsimp only
  rw [translate_of_page (by rfl) (by omega) guest (by rfl) base (scattering_images _ (by omega))]
  dsimp only
  rw [pageCopying_scattering, show 0x80000000 + o - 0x7B000000 = 0x5000000 + o by omega]
  rfl

theorem placeOf_second_page : scattering.placeOf 0 lateTask.party 0x80010000 true true = .ok (.here 0x5000000 5) := by
  obtain ⟨-, -, place, -⟩ := scattering_tables
  unfold State.placeOf
  rw [windowOf_below (by omega)]
  dsimp only
  rw [place]
  dsimp only
  rw [pageCopying_scattering]
  rfl

/-! ### The scatter -/

/-- Who writes. -/
def lateAsker : Asker := ⟨lateTask.party, some lateCap⟩

/-- The piece of the second page: the first byte of the frame, under the key of world 1. -/
def sealedPiece : Piece := ⟨0x80010000, 1, .here 0x5000000 5, lateAsker⟩

/-- The pieces of the scatter: the frame from its second byte on in plaintext, then its first byte. -/
def latePieces : List Piece :=
  pieceBelow 0x7B000000 0 lateAsker (0x80000001, 15)
    :: ((granuleRun 0x80000010 4095).map (pieceBelow 0x7B000000 0 lateAsker) ++ [sealedPiece])

theorem lateCuts : cuts 0x80000001 65536 = (0x80000001, 15) :: (granuleRun 0x80000010 4095 ++ [(0x80010000, 1)]) :=
  cuts_from_second_byte (x := 0x80000000) (by rfl) 4095

theorem of_mem_lateCuts {c : Nat × Nat} (h : c ∈ cuts 0x80000001 65536) :
    (0x80000000 ≤ c.1 ∧ c.1 < 0x80010000) ∨ c = (0x80010000, 1) := by
  rw [lateCuts] at h
  rcases List.mem_cons.1 h with rfl | h
  · exact .inl (by decide)
  rcases List.mem_append.1 h with h | h
  · obtain ⟨low, high, -⟩ := of_mem_granuleRun h
    exact .inl (by omega)
  · exact .inr (List.mem_singleton.1 h)

/-- The place of a cut of the scatter. -/
def latePlace (x : Nat) : Place := if x < 0x80010000 then .here (x - 0x7B000000) 0 else .here 0x5000000 5

theorem placeOf_lateCut {c : Nat × Nat} (h : c ∈ cuts 0x80000001 65536) :
    scattering.placeOf 0 lateTask.party c.1 true true = .ok (latePlace c.1) := by
  rcases of_mem_lateCuts h with ⟨low, high⟩ | rfl
  · rw [placeOf_first_page low high, latePlace, if_pos high]
  · exact placeOf_second_page

theorem latePieces_eq : latePieces = (cuts 0x80000001 65536).map (fun c => ⟨c.1, c.2, latePlace c.1, lateAsker⟩) := by
  rw [lateCuts, List.map_cons, List.map_append, latePieces]
  refine congrArg₂ _ rfl (congrArg₂ _ (List.map_congr_left (fun c hc => ?_)) rfl)
  obtain ⟨low, high, -⟩ := of_mem_granuleRun hc
  rw [latePlace, if_pos (by omega), pieceBelow]

theorem windowOf_lateCut {c : Nat × Nat} (h : c ∈ cuts 0x80000001 65536) : windowOf c.1 = .translated := by
  rcases of_mem_lateCuts h with ⟨low, high⟩ | rfl
  · exact windowOf_below (by omega)
  · exact windowOf_below (by omega)

theorem checkKind_of_translated {s : State} {who x n info : Nat} {y : Party} {r : Reach} (hbm : r.hbm = true)
    (h : ∀ c ∈ cuts x n, windowOf c.1 = .translated) : s.checkKind who y r x n info = .ok () := by
  have free : (cuts x n).findSome? (fun c => s.bankHeld who c.1) = none := List.findSome?_eq_none_iff.2 (fun c hc => by
    rw [State.bankHeld, h c hc])
  have kinds : (cuts x n).all (fun c => s.kindOk y r c.1) = true := List.all_eq_true.2 (fun c hc => by
    rw [State.kindOk, h c hc]; exact hbm)
  rw [State.checkKind, free]
  exact if_pos kinds

theorem passPieces_late : scattering.passPieces lateTask lateCap 0x80000001 65536 true = .ok latePieces := by
  have through := mapChk_of_ok (f := fun c : Nat × Nat => scattering.placeOf 0 lateTask.party c.1 true true)
    (g := fun c => latePlace c.1) (l := (cuts 0x80000001 65536).filter (fun c => windowOf c.1 = .translated))
    (fun c hc => placeOf_lateCut (List.mem_filter.1 hc).1)
  have kind : scattering.checkKind (waiterOf 0 cumulusEngine) lateTask.party Reach.pass 0x80000001 65536 0x80000001 = .ok () :=
    checkKind_of_translated rfl (fun c hc => windowOf_lateCut hc)
  have pieces : scattering.piecesOf 0 lateTask.party lateCap 0x80000001 65536 true true = .ok latePieces := by
    rw [latePieces_eq, State.piecesOf]
    exact mapChk_of_ok (fun c hc => by rw [placeOf_lateCut hc]; rfl)
  unfold State.passPieces
  rw [show lateTask.core = 0 from rfl]
  dsimp only
  rw [through, kind, pieces]
  rfl

/-- A scatter through a capability that is fresh and grants it falls into the pieces of a pass's write (R267). -/
theorem scatterPieces_of_checks {s : State} {t : CumTask} {n x : Nat} {ps : List Piece} (cursor : t.res.cursor.toNat = x)
    (awaits : s.awaitGen t.party t.res.base = .ok ()) (fresh : s.freshCap t.party t.res = t.res)
    (check : capCheck t.res x n permStore = .ok ()) (pieces : s.passPieces t t.res x n true = .ok ps) :
    s.scatterPieces t n = .ok ps := by
  rw [State.scatterPieces, awaits, fresh]
  simp only [cursor, check, pieces, bind, Except.bind]
  rfl

theorem scatterPieces_late : scattering.scatterPieces lateTask 65536 = .ok latePieces := by
  obtain ⟨-, -, -, awaits, fresh, check⟩ := scattering_tables
  exact scatterPieces_of_checks (by rfl) awaits fresh check passPieces_late

theorem sum_latePieces : (latePieces.map Piece.len).sum = 65536 := by
  have run : (granuleRun 0x80000010 4095).map (Piece.len ∘ pieceBelow 0x7B000000 0 lateAsker)
      = (granuleRun 0x80000010 4095).map Prod.snd := rfl
  rw [latePieces, List.map_cons, List.map_append, List.map_map, run, List.sum_cons, List.sum_append, sum_granuleRun]
  rfl

theorem here_latePieces : ∀ x ∈ latePieces, ∃ l k, x.place = .here l k := by
  rw [latePieces_eq]
  intro x hx
  obtain ⟨c, -, rfl⟩ := List.mem_map.1 hx
  dsimp only
  unfold latePlace
  split <;> exact ⟨_, _, rfl⟩

theorem apart_latePieces : PiecesApart latePieces := by
  have run : ∀ c ∈ granuleRun 0x80000010 4095, 0x80000010 ≤ c.1 := fun c hc => (of_mem_granuleRun hc).1
  unfold PiecesApart latePieces
  rw [List.pairwise_cons, List.pairwise_append, List.pairwise_map]
  refine ⟨fun q hq a j b k ha hb => ?_, ?_, List.pairwise_singleton _ _, fun p hp q hq a j b k ha hb => ?_⟩
  · obtain ⟨ha, -⟩ := Place.here.inj ha
    rcases List.mem_append.1 hq with hq | hq
    · obtain ⟨c, hc, rfl⟩ := List.mem_map.1 hq
      obtain ⟨hb, -⟩ := Place.here.inj hb
      have := run c hc
      refine .inl ?_
      rw [← ha, ← hb]
      show 0x80000001 - 0x7B000000 + 15 ≤ c.1 - 0x7B000000
      omega
    · cases List.mem_singleton.1 hq
      obtain ⟨hb, -⟩ := Place.here.inj hb
      refine .inr ?_
      rw [← ha, ← hb]
      decide
  · refine (pairwise_granuleRun 0x80000010 4095).imp_of_mem (fun {c d} hc hd apart a j b k ha hb => ?_)
    obtain ⟨ha, -⟩ := Place.here.inj ha
    obtain ⟨hb, -⟩ := Place.here.inj hb
    have := run c hc
    refine .inl ?_
    rw [← ha, ← hb]
    show c.1 - 0x7B000000 + c.2 ≤ d.1 - 0x7B000000
    omega
  · obtain ⟨c, hc, rfl⟩ := List.mem_map.1 hp
    cases List.mem_singleton.1 hq
    obtain ⟨ha, -⟩ := Place.here.inj ha
    obtain ⟨hb, -⟩ := Place.here.inj hb
    have := run c hc
    refine .inr ?_
    rw [← ha, ← hb]
    show 0x5000000 + 1 ≤ c.1 - 0x7B000000
    omega

theorem joinLines_latePieces : joinLines latePieces = [pieceBelow 0x7B000000 0 lateAsker (0x80000001, 65535), sealedPiece] :=
  joinLines_granuleRun (z := sealedPiece) rfl (by decide) (by decide) 15 4095

/-! ### What the scatter leaves in memory -/

/-- A write of Cumulus to this module's HBM is a plain one. -/
theorem putHere_cumulus (s : State) (core l k : Nat) (bs : List Byte) :
    s.putHere core cumulusEngine true l k bs = s.storeAt none true l k bs := rfl

theorem mem_storeAt_hbm (s : State) (w : Option Nat) {l : Nat} (k : Nat) (bs : List Byte) (hbm : l < hbmEnd) :
    (s.storeAt w true l k bs).mem = s.mem.write k l bs := by
  unfold State.storeAt
  rw [State.wake_mem]
  exact if_neg (by simpa using hbm)

theorem waiting_advance (c : SeqCounter) (n : Nat) : (c.advance n).waiting = c.waiting := by
  induction n generalizing c with
  | zero => rfl
  | succ n ih =>
    rw [SeqCounter.advance]
    split
    · rw [ih]
    · rfl

/-- A completion for which no record waits writes nothing. -/
theorem mem_completeTask {s : State} {p n : Nat} (number : Nat) (alone : ((s.part p).seq n).waiting = []) :
    (s.completeTask p n number).mem = s.mem := by
  unfold State.completeTask State.wakeSeq
  dsimp only
  rw [State.part_modPart, if_pos rfl, Partition.seq_setSeq, waiting_advance, alone]
  rfl

theorem putPieces_late (s : State) (number : Nat) :
    s.putPieces 0 cumulusEngine true latePieces (List.replicate 65536 0) number
      = (s.storeAt none true 0x5000001 0 (List.replicate 65535 0)).storeAt none true 0x5000000 5 [0] := by
  have first : (List.replicate 65536 (0 : Byte)).take 65535 = List.replicate 65535 0 := by rw [List.take_replicate]; rfl
  have rest : (List.replicate 65536 (0 : Byte)).drop 65535 = [0] := by rw [List.drop_replicate]; rfl
  rw [State.putPieces, joinLines_latePieces, State.putRuns, State.putRuns, State.putRuns,
    show (pieceBelow 0x7B000000 0 lateAsker (0x80000001, 65535)).len = 65535 from rfl, first, rest]
  rfl

theorem scattering_plain : scattering.mem.keys = []
    ∧ ∀ c ∈ scattering.mem.cells, c.1 < 0x5000001 ∨ 0x5000001 + 65535 ≤ c.1 := by decide +kernel

/-- The first write finds zeros in plaintext and changes nothing. -/
theorem mem_scattered (number : Nat) :
    ((scattering.dropAnswers 0 cumulusEngine).putPieces 0 cumulusEngine true latePieces (List.replicate 65536 0) number).mem.Alike
      (scattering.mem.write 5 0x5000000 [0]) := by
  obtain ⟨keys, zeros⟩ := scattering_plain
  rw [putPieces_late, mem_storeAt_hbm _ _ _ _ (by decide), mem_storeAt_hbm _ _ _ _ (by decide), State.dropAnswers_mem]
  exact (Mem.write_zeros_alike keys zeros).write _ _ _

/-- A plaintext block as it reads under a key: deciphered once for its 16 bytes (R194). -/
theorem readUnder_plain_block {m : Mem} {key b : Nat} (aligned : b % 16 = 0) (plain : ∀ x, m.keyAt x = 0) (sealed_ : key ≠ 0)
    (line : ∀ i, i < 16 → tweakOf (b + i) = tweakOf b) :
    m.readUnder key b 16 = xtsBlock true key (tweakOf b) (b % 128 / 16) (m.block b) := by
  refine List.ext_getElem (by rw [Mem.readUnder, List.length_map, length_upFrom, length_xtsBlock]) (fun i h _ => ?_)
  rw [Mem.readUnder, List.length_map, length_upFrom] at h
  have block : m.block (b + i) = m.block b := by
    rw [Mem.block, Mem.block, show floorTo (b + i) 16 = floorTo b 16 by unfold floorTo; omega]
  have byte : m.byteUnder key (b + i) = (xtsBlock true key (tweakOf b) (b % 128 / 16) (m.block b)).getD i 0 := by
    rw [Mem.byteUnder, plain, if_neg (Ne.symm sealed_), Mem.foreignByte, plain, if_pos rfl, if_neg sealed_, line i h, block,
      show (b + i) % 128 / 16 = b % 128 / 16 by omega, show (b + i) % 16 = i by omega]
  have location : (upFrom b 16)[i]'(by rw [length_upFrom]; exact h) = b + i :=
    (List.getElem_eq_iff _).2 (by rw [getElem?_upFrom, if_pos h])
  simp only [Mem.readUnder, List.getElem_map, location, byte]
  rw [List.getD_eq_getElem]

/-- The zeros of the frame's first block as they read under world 1's key. -/
def lateBlock : List Byte := [153, 27, 162, 220, 78, 117, 239, 149, 224, 195, 44, 6, 30, 67, 111, 33]

theorem readUnder_lateBlock : scattering.mem.readUnder 5 0x5000000 16 = lateBlock := by
  obtain ⟨keys, -⟩ := scattering_plain
  have block : scattering.mem.block 0x5000000 = List.replicate 16 0 := by decide +kernel
  rw [readUnder_plain_block (by rfl) (fun x => by rw [Mem.keyAt, keys]; rfl) (by decide) (by decide), block]
  decide +kernel

/-- The second write holds the first block under world 1's key; what the first piece wrote there no longer reads as zeros. -/
theorem first_piece_lost : (scattering.mem.write 5 0x5000000 [0]).readUnder 0 0x5000001 15 ≠ List.replicate 15 0 := by
  obtain ⟨keys, -⟩ := scattering_plain
  have foreign : ¬ (upFrom (floorTo 0x5000000 16) 16).all (fun x => scattering.mem.keyAt x = 5) = true := by
    simp only [Mem.keyAt, keys]
    decide
  have adopted : scattering.mem.adopt 5 0x5000000 = scattering.mem.putBytes 5 0x5000000 lateBlock := by
    rw [Mem.adopt, if_neg foreign, show floorTo 0x5000000 16 = 0x5000000 from rfl, readUnder_lateBlock]
  unfold Mem.write Mem.adoptEdges
  rw [adopted]
  decide +kernel

/-! ### The epilogue run -/

theorem execEpilogueRun_of_turn {s : State} {i j : Nat} {p : Pass} {m : PassMember} {c : ShapeClass}
    (pass : s.myCluster.cumulus.passes.findIdx? (fun p => p.ran) = some i) (hp : s.myCluster.cumulus.passes[i]? = some p)
    (member : p.members.findIdx? (fun m => !m.finished) = some j) (hm : p.members[j]? = some m)
    (cls : shapeClass m.task.cls = some c) (may : s.mayEpilogue s.actor.core m.task = true)
    (turn : s.recordFirst s.actor.core m.task.part p.due = false) :
    exec .epilogueRun s = .next ((s.runMember s.home j c (s.passFormat m.task) m).1.putPass s.home i
      { p with members := listSet (s.runMember s.home j c (s.passFormat m.task) m).2 j p.members, due := s.time }) := by
  rw [show exec .epilogueRun s = execEpilogueRun s from rfl, execEpilogueRun]
  simp only [pass, hp, member, hm, cls, may, turn, Bool.not_false, Bool.and_self, ↓reduceIte]

theorem runMember_of_last {s : State} {k slot fmt : Nat} {c : ShapeClass} {m : PassMember} {e v : Vec} {d : Core}
    (unwritten : m.written = false) (entry : (memberEntries (c.lane fmt) m.acc)[m.results.length]? = some e)
    (run : runEpi (s.epiWords m.task.part m.task.hash) (epiCore (c.lane fmt) e) = .ok (d, v))
    (last : m.results.length + 1 = (memberEntries (c.lane fmt) m.acc).length) :
    s.runMember k slot c fmt m = (s.leaveEpi s.actor.core d).writeMember k slot { m with results := m.results ++ [v] }
      (memberBytes (c.lane fmt) m.task.rfmt (m.task.rows * c.N) (m.results ++ [v])) := by
  rw [State.runMember]
  simp only [unwritten, entry, run, List.length_append, List.length_singleton, last, Bool.false_eq_true, ↓reduceIte]

theorem writeMember_of_pieces {s : State} {k slot : Nat} {m : PassMember} {bs : List Byte} {ps : List Piece}
    (pieces : s.scatterPieces m.task bs.length = .ok ps) {t : State}
    (written : ((s.dropAnswers m.task.core cumulusEngine).putPieces m.task.core cumulusEngine true ps bs m.task.number).noWait
      (waiterOf m.task.core cumulusEngine) = t) (performed : t.scatterPending m.task = false) :
    s.writeMember k slot m bs = (t.finishTask m.task, { m with finished := true }) := by
  rw [State.writeMember]
  simp only [pieces, written, performed, Bool.false_eq_true, ↓reduceIte]

/-- The state once the results are written. -/
def scattered : State :=
  ((scattering.dropAnswers 0 cumulusEngine).putPieces 0 cumulusEngine true latePieces (List.replicate 65536 0)
    lateTask.number).noWait (waiterOf 0 cumulusEngine)

theorem parts_scattered : scattered.parts = scattering.parts := by
  rw [scattered, putPieces_late, State.noWait_parts, State.storeAt_parts, State.storeAt_parts, State.dropAnswers_parts]

theorem outer_scattered : scattered.outer = (scattering.dropAnswers 0 cumulusEngine).outer := by
  rw [scattered, putPieces_late, State.noWait_outer, State.storeAt_outer, State.storeAt_outer]

theorem mem_finished : (scattered.finishTask lateTask).mem.Alike (scattering.mem.write 5 0x5000000 [0]) := by
  have waiting : ((scattering.part 0).seq (seqIndex 0 0 0)).waiting = [] := by decide +kernel
  have parts : scattered.part 0 = scattering.part 0 := by
    rw [State.part, State.part, parts_scattered]
  have alone : ((scattered.part lateTask.part).seq (seqIndex lateTask.world lateTask.context lateTask.ctr)).waiting = [] := by
    rw [show lateTask.part = 0 from rfl, parts]
    exact waiting
  rw [State.finishTask, mem_completeTask _ alone, scattered, State.noWait_mem]
  exact mem_scattered lateTask.number

/-- The run of the last entry and the scatter. -/
theorem runMember_late : (sharedFrame.runMember 0 0 ⟨128, 128, 3, 64⟩ 12 lateMember).1 = scattered.finishTask lateTask := by
  obtain ⟨entries, last⟩ := lateMember_entries
  have performed : scattered.scatterPending lateTask = false := by
    have quiet : (scattering.dropAnswers 0 cumulusEngine).scatterPending lateTask = false := by decide +kernel
    rw [State.scatterPending, outer_scattered]
    exact quiet
  have bytes : memberBytes ((⟨128, 128, 3, 64⟩ : ShapeClass).lane 12) 11 (64 * 128) (lateMember.results ++ [0])
      = List.replicate 65536 0 := lateMember_bytes
  have pieces : scattering.scatterPieces lateTask (List.replicate 65536 (0 : Byte)).length = .ok latePieces := by
    rw [List.length_replicate]
    exact scatterPieces_late
  rw [runMember_of_last (e := 0) (v := 0) (d := lastCore) rfl last lastRun_ok entries.symm]
  change (scattering.writeMember 0 0 { lateMember with results := lateMember.results ++ [0] }
    (memberBytes ((⟨128, 128, 3, 64⟩ : ShapeClass).lane 12) 11 (64 * 128) (lateMember.results ++ [0]))).1 = _
  rw [bytes, writeMember_of_pieces (m := { lateMember with results := lateMember.results ++ [0] }) pieces (t := scattered) rfl
    performed]
  dsimp only
  rw [show lateMember.task = lateTask from rfl]

theorem mem_putPass (s : State) (k i : Nat) (p : Pass) : (s.putPass k i p).mem = s.mem := rfl

theorem epilogue_scatters : ∃ t, exec .epilogueRun sharedFrame = .next t
    ∧ t.mem.Alike (scattering.mem.write 5 0x5000000 [0]) := by
  obtain ⟨passes, may, turn, format, -, -⟩ := sharedFrame_ready
  have done := execEpilogueRun_of_turn (s := sharedFrame) (i := 0) (j := 0) (p := latePass) (m := lateMember)
    (c := ⟨128, 128, 3, 64⟩) (by rw [passes]; rfl) (by rw [passes]; rfl) rfl rfl rfl may turn
  refine ⟨_, done, ?_⟩
  rw [show lateMember.task = lateTask from rfl, format, show sharedFrame.home = 0 from rfl, mem_putPass, runMember_late]
  exact mem_finished

/-- Refutes O38: two guest pages of one frame under two keys. A scatter writes the first 16-byte block of the frame under both,
and the second write holds it under the other key, so that the first piece no longer reads as what was written (R194). -/
theorem not_cumulusAdmitsAndScatters : ¬ Obligations.CumulusAdmitsAndScatters := by
  unfold Obligations.CumulusAdmitsAndScatters
  rintro ⟨-, -, scatters⟩
  obtain ⟨passes, may, turn, format, pending, waiting⟩ := sharedFrame_ready
  obtain ⟨entries, entry⟩ := lateMember_entries
  obtain ⟨t, answers, mem⟩ := epilogue_scatters
  have claim := scatters sharedFrame 0 0 latePass lateMember ⟨128, 128, 3, 64⟩ 0
  rw [show lateMember.task = lateTask from rfl, format] at claim
  obtain ⟨-, claim⟩ := claim (by rw [passes]; rfl) (by rw [passes]; rfl) rfl rfl rfl may rfl entry
  obtain ⟨-, -, claim⟩ := claim turn
  have bytes : memberBytes ((⟨128, 128, 3, 64⟩ : ShapeClass).lane 12) lateTask.rfmt (lateTask.rows * 128) (lateMember.results ++ [0])
      = List.replicate 65536 0 := lateMember_bytes
  have claim := claim lastCore 0 latePieces
  rw [bytes] at claim
  dsimp only at claim
  rw [List.length_replicate] at claim
  obtain ⟨holds, -⟩ := of_answers
    (claim lastRun_ok entries.symm scatterPieces_late sum_latePieces.symm here_latePieces pending waiting) answers
  obtain ⟨first, -⟩ := holds apart_latePieces
  have kept := first 0x5000001 0 rfl
  rw [mem.readUnder] at kept
  refine first_piece_lost (kept.trans ?_)
  rw [List.take_replicate]
  rfl

end Sys2Proof.Machine
end
/-! ## Inspecting, sealing and unsealing capabilities (O9) -/
section
namespace Sys2Proof.Machine

/-- An instruction whose whole effect is to write a value to cd. -/
theorem answers_wroteC {i : Instr} {s : State} {d : BitVec 4} {v w : Cap} (h : exec i s = .next (s.writeC d v))
    (hv : v = w) : Answers i s (fun t => WroteC s t d w) := hv ▸ ⟨_, h, wroteC_writeC s d v⟩

/-- One whose checks yield the value. -/
theorem answers_wroteC_of_ok {i : Instr} {s : State} {d : BitVec 4} {r : Chk State} {v : Cap} (h : exec i s = s.runSeq r)
    (ok : r = .ok (s.writeC d v)) : Answers i s (fun t => WroteC s t d v) :=
  ⟨_, h.trans (congrArg s.runSeq ok), WroteC.noWait (wroteC_writeC s d v)⟩

theorem flagWord_decide (p : Prop) [Decidable p] : flagWord (decide p) = if p then 1 else 0 := by
  by_cases h : p <;> simp [flagWord, h]

/-- The three fields of the word lie side by side (R121, R128). -/
theorem permWord_eq (c : Cap) :
    permWord c = c.perm.setWidth 64 ||| (c.otype.setWidth 64 <<< 16) ||| (c.gen.setWidth 64 <<< 24) := by
  have hp : c.perm.toNat < 2 ^ 16 := by omega
  have ho : c.perm.toNat ||| c.otype.toNat <<< 16 < 2 ^ 24 := Nat.or_lt_two_pow (by omega) (by omega)
  have fields : c.perm.toNat + c.otype.toNat * 2 ^ 16 + c.gen.toNat * 2 ^ 24
      = c.perm.toNat ||| c.otype.toNat <<< 16 ||| c.gen.toNat <<< 24 := by
    rw [Nat.or_comm _ (c.gen.toNat <<< 24), ← Nat.shiftLeft_add_eq_or_of_lt ho, Nat.or_comm c.perm.toNat,
      ← Nat.shiftLeft_add_eq_or_of_lt hp, Nat.shiftLeft_eq, Nat.shiftLeft_eq]
    omega
  refine BitVec.eq_of_toNat_eq ?_
  simp only [permWord, fields, BitVec.toNat_ofNat, BitVec.toNat_or, BitVec.toNat_shiftLeft, BitVec.toNat_setWidth]
  have perm : c.perm.toNat % 2 ^ 64 = c.perm.toNat := Nat.mod_eq_of_lt (by omega)
  have otype : (c.otype.toNat % 2 ^ 64) <<< 16 % 2 ^ 64 = c.otype.toNat <<< 16 := by
    rw [Nat.mod_eq_of_lt (by omega : c.otype.toNat < 2 ^ 64), Nat.mod_eq_of_lt (by omega)]
  have gen : (c.gen.toNat % 2 ^ 64) <<< 24 % 2 ^ 64 = c.gen.toNat <<< 24 := by
    rw [Nat.mod_eq_of_lt (by omega : c.gen.toNat < 2 ^ 64), Nat.mod_eq_of_lt (by omega)]
  rw [perm, otype, gen]
  exact Nat.mod_eq_of_lt (Nat.or_lt_two_pow (by omega) (by omega))

/-- A set of permissions within another loses nothing to it. -/
theorem and_not_eq_zero_iff {w : Nat} (x y : BitVec w) : y &&& ~~~x = 0 ↔ y &&& x = y := by
  have bits (h : ∀ i (hi : i < w), (y[i] && !x[i]) = false ↔ (y[i] && x[i]) = y[i]) : y &&& ~~~x = 0 ↔ y &&& x = y := by
    simp only [BitVec.eq_of_getElem_eq_iff, BitVec.getElem_and, BitVec.getElem_not, BitVec.ofNat_eq_ofNat, BitVec.getElem_zero]
    exact forall₂_congr h
  refine bits (fun i hi => ?_)
  cases y[i] <;> cases x[i] <;> decide

theorem capWithin_eq_decide (x y : Cap) : capWithin x y = decide (x.tag ∧ y.tag ∧ x.otype = 0 ∧ y.otype = 0
    ∧ x.base ≤ y.base ∧ y.top ≤ x.top ∧ y.perm &&& x.perm = y.perm) := by
  rw [Bool.eq_iff_iff, decide_eq_true_eq, ← and_not_eq_zero_iff]
  simp [capWithin, and_assoc]

theorem capabilityInspection : Claim.CapabilityInspection := by
  intro s d e a b
  refine ⟨answers_wroteG rfl rfl, answers_wroteG rfl rfl, answers_wroteG rfl (permWord_eq _), answers_wroteG rfl rfl,
    answers_wroteC rfl rfl, answers_wroteG rfl ?_⟩
  rw [capWithin_eq_decide, flagWord_decide]

section
variable {c k : Cap}

theorem tagAndSeal_of_ok (tag : c.tag = true) (unsealed : c.otype = 0) : tagAndSeal c = .ok () := by
  rw [tagAndSeal, if_neg (by simp [tag]), if_neg (not_not.2 unsealed)]

/-- What R127 asks of a type authority. -/
theorem isTypeAuthority_iff : k.isTypeAuthority = true ↔
    k.tag = true ∧ k.otype = 0 ∧ 1 ≤ k.base ∧ k.top ≤ 0x100 ∧ k.base ≤ k.cursor.toNat ∧ k.cursor.toNat < k.top := by
  simp [Cap.isTypeAuthority, and_assoc]

theorem sealCap_of_authority (tag : c.tag = true) (unsealed : c.otype = 0) (authority : k.isTypeAuthority = true) :
    sealCap c k = .ok { c with otype := k.cursor.setWidth 8 } := by
  obtain ⟨ktag, kunsealed, -⟩ := isTypeAuthority_iff.1 authority
  simp only [sealCap, tagAndSeal_of_ok tag unsealed, tagAndSeal_of_ok ktag kunsealed, authority, if_true, bind, Except.bind]

theorem unsealCap_of_authority (tag : c.tag = true) (sealed_ : c.otype ≠ 0) (authority : k.isTypeAuthority = true)
    (type : k.cursor = c.otype.setWidth 64) : unsealCap c k = .ok { c with otype := 0 } := by
  obtain ⟨ktag, kunsealed, -⟩ := isTypeAuthority_iff.1 authority
  rw [unsealCap, if_neg (by simp [tag]), if_neg sealed_]
  simp only [tagAndSeal_of_ok ktag kunsealed, bind, Except.bind]
  rw [if_pos ⟨authority, type⟩]

/-- An authority's cursor is a type other than 0, and its low byte says which. -/
theorem authority_type (authority : k.isTypeAuthority = true) :
    k.cursor.setWidth 8 ≠ 0 ∧ k.cursor = (k.cursor.setWidth 8).setWidth 64 := by
  obtain ⟨-, -, base, top, lo, hi⟩ := isTypeAuthority_iff.1 authority
  have low : k.cursor.toNat % 2 ^ 8 = k.cursor.toNat := Nat.mod_eq_of_lt (by omega)
  refine ⟨fun zero => ?_, BitVec.eq_of_toNat_eq ?_⟩
  · have := congrArg BitVec.toNat zero
    rw [BitVec.toNat_setWidth, low] at this
    simp only [BitVec.ofNat_eq_ofNat, BitVec.toNat_ofNat] at this
    omega
  · rw [BitVec.toNat_setWidth, BitVec.toNat_setWidth, low]
    omega

end

theorem sealThenUnseal : Claim.SealThenUnseal := by
  intro s d a b
  refine ⟨fun tag unsealed authority => ⟨?_, ?_⟩, fun tag sealed_ authority type => ?_⟩
  · refine answers_wroteC_of_ok rfl ?_
    rw [sealCap_of_authority tag unsealed authority]
  · obtain ⟨nonzero, low⟩ := authority_type authority
    rw [unsealCap_of_authority (c := { s.c a with otype := (s.c b).cursor.setWidth 8 }) tag nonzero authority low, ← unsealed]
  · refine answers_wroteC_of_ok rfl ?_
    rw [unsealCap_of_authority tag sealed_ authority type]

/-- Settles O9: each instruction writes one value, and what CSEAL puts on, CUNSEAL takes off under the same authority. -/
theorem capabilityInspectionAndSealing : Obligations.CapabilityInspectionAndSealing :=
  ⟨capabilityInspection, sealThenUnseal⟩

end Sys2Proof.Machine
end
/-! ## Accesses through an untagged capability (O15) -/
section
namespace Sys2Proof.Machine

variable {s : State} {c : Cap}

theorem readChecks_of_untagged (tag : c.tag = false) (x : Int) (n align q : Nat) (reach : Reach) (perms : Nat) (write : Bool) :
    s.readChecks c x n align q reach perms write = trap .captag (BitVec.ofInt 64 x) := by
  rw [State.readChecks, capCheck_of_untagged tag]
  rfl

theorem gatherCap_of_untagged (tag : c.tag = false) (size perm : Nat) :
    gatherCap c size perm = trap .captag (BitVec.ofInt 64 c.cursor.toNat) := by
  rw [gatherCap, if_pos tag, BitVec.ofInt_natCast, BitVec.ofNat_toNat, BitVec.setWidth_eq]

theorem amo_of_untagged (tag : c.tag = false) (f : AmoFn) (n : Nat) (y cmp : Word64) (scope : Nat) :
    s.amo f c n y cmp scope = trap .captag (BitVec.ofInt 64 c.cursor.toNat) := by
  rw [State.amo, readChecks_of_untagged tag]
  rfl

/-- An instruction that traps with a code other than SWTRAP's, where a handler can run. -/
theorem answers_trapped {i : Instr} {r : Chk State} {t : Trap} {info : Word64} {code : Nat} (he : exec i s = s.runSeq r)
    (hr : r = trap t info) (can : CanTrap s) (other : t ≠ .swtrap) (number : t.code = code) :
    Answers i s (fun u => EnteredHandler s u code info none s.me.pc) := by
  have entered := answers_entered he hr can
  rwa [if_neg other, number] at entered

/-- An instruction whose first check finds no tag. -/
theorem answers_captag {i : Instr} {r : Chk State} {x : Int} (he : exec i s = s.runSeq r)
    (hr : r = trap .captag (BitVec.ofInt 64 x)) (can : CanTrap s) :
    Answers i s (fun t => EnteredHandler s t 8 (BitVec.ofInt 64 x) none s.me.pc) :=
  answers_trapped he hr can (by decide) rfl

/-- Settles O15: the tag is the first check of every access. -/
theorem untaggedAccessTraps : Obligations.UntaggedAccessTraps := by
  unfold Obligations.UntaggedAccessTraps
  intro s d e a z y f k b w m sc c tag can traps
  have amo (fn : AmoFn) : (match s.amo fn (s.c a) (if w = 1 then 4 else 8) (s.g b) (s.g d) sc.toNat with
      | .error e => .error e
      | .ok (v, t) => .ok (t.writeG d v)) = (trap .captag (BitVec.ofInt 64 (s.c a).cursor.toNat) : Chk State) := by
    rw [amo_of_untagged tag]
    rfl
  refine ⟨?lds, ?sts, ?ldc, ?stc, ?ldq, ?stq, ?gather, ?scatter, answers_captag rfl (amo .add) can,
    answers_captag rfl (amo .swap) can, answers_captag rfl (amo .cas) can, answers_captag rfl (amo .min) can,
    answers_captag rfl (amo .max) can, answers_captag rfl (amo .and) can, answers_captag rfl (amo .or) can⟩
  case lds | ldc =>
    refine answers_captag rfl ?_ can
    rw [State.loadBytes, readChecks_of_untagged tag]
    rfl
  case sts =>
    refine answers_captag rfl ?_ can
    rw [capCheck_of_untagged tag]
    rfl
  case stc =>
    refine answers_captag rfl ?_ can
    rw [storeCapCheck, if_pos tag]
    rfl
  case ldq =>
    refine answers_captag rfl ?_ can
    rw [State.loadVec, capCheck_of_untagged tag]
    rfl
  case stq =>
    refine answers_captag rfl ?_ can
    rw [State.storeVec, capCheck_of_untagged tag]
    rfl
  case gather =>
    refine answers_captag rfl ?_ can
    rw [State.gather, gatherCap_of_untagged tag]
    rfl
  case scatter =>
    refine answers_captag rfl ?_ can
    rw [State.scatter, gatherCap_of_untagged tag]
    rfl

end Sys2Proof.Machine
end
/-! ## What an access of the sequencer does beside its bytes (R129 to R136, R422) -/
section
namespace Sys2Proof.Machine

/-- A sequencer instruction that has taken effect. -/
theorem answers_of_ok {i : Instr} {s t : State} {r : Chk State} {P : State → Prop} (he : exec i s = s.runSeq r)
    (hr : r = .ok t) (h : P (t.noWait s.actor.core)) : Answers i s P := ⟨_, he.trans (congrArg s.runSeq hr), h⟩

/-- A state in which only the memory, the cores and what unordered writes have replaced may be other than in another one. -/
def KeepsRest (s t : State) : Prop := ∃ m cs es, t = { s with mem := m, cores := cs, older := es }

theorem KeepsRest.trans {s t u : State} (h : KeepsRest s t) (h' : KeepsRest t u) : KeepsRest s u := by
  obtain ⟨_, _, _, rfl⟩ := h
  obtain ⟨m, cs, es, rfl⟩ := h'
  exact ⟨m, cs, es, rfl⟩

theorem keepsRest_setMe (s : State) (c : Core) : KeepsRest s (s.setMe c) := ⟨_, _, _, rfl⟩

theorem keepsRest_keepOlder (s : State) (n u l k b : Nat) : KeepsRest s (s.keepOlder n u l k b) := by
  unfold State.keepOlder
  split <;> exact ⟨_, _, _, rfl⟩

theorem keepsRest_putLast (s : State) (n : Nat) (fill : Bool) (l k : Nat) (bs : List Byte) :
    KeepsRest s (s.putLast n fill l k bs) := (keepsRest_keepOlder s n 0 l k bs.length).trans ⟨_, _, _, rfl⟩

/-! ### The marks of sync objects, and replies (R136, R422) -/

theorem mem_touchedSyncs {s : State} {ps : List Piece} {o : Nat × SyncObj} :
    o ∈ s.touchedSyncs ps ↔ o ∈ (s.part s.party.part).syncs ∧ TouchesObject ps o.1 = true := List.mem_filter

theorem clearSyncs_eq (s : State) (ps : List Piece) : ∃ x, s.clearSyncs ps = { s with parts := x } := by
  unfold State.clearSyncs
  dsimp only
  split
  · exact ⟨s.parts, rfl⟩
  · exact ⟨_, rfl⟩

theorem part_clearSyncs (s : State) (ps : List Piece) (p : Nat) : (s.clearSyncs ps).part p = if p = s.party.part then
      { s.part p with syncs := (s.part p).syncs.filter (fun o => !TouchesObject ps o.1) } else s.part p := by
  have kept : (s.part s.party.part).syncs.filter (fun o => !((s.touchedSyncs ps).map Prod.fst).contains o.1)
      = (s.part s.party.part).syncs.filter (fun o => !TouchesObject ps o.1) := by
    refine List.filter_congr (fun o ho => congrArg _ (Bool.eq_iff_iff.2 ?_))
    rw [List.contains_iff_mem, List.mem_map]
    constructor
    · rintro ⟨q, hq, same⟩
      exact same ▸ (mem_touchedSyncs.1 hq).2
    · exact fun touched => ⟨o, mem_touchedSyncs.2 ⟨ho, touched⟩, rfl⟩
  unfold State.clearSyncs
  dsimp only
  split
  next none =>
    split
    next same =>
      have all := List.filter_eq_self.2 (fun o (_ : o ∈ (s.part s.party.part).syncs) => (rfl : (!([] : List Nat).contains o.1) = true))
      rw [none, all] at kept
      rw [same, ← kept]
    next => rfl
  next =>
    rw [State.part_modPart]
    split
    next same => rw [kept, same]
    next => rfl

theorem clearSyncs_of_untouched {s : State} {ps : List Piece} (h : s.touchedSyncs ps = []) : s.clearSyncs ps = s := by
  unfold State.clearSyncs
  rw [h]
  rfl

/-- An access that has passed its checks, but for its bytes: the marks it clears are gone, and its replies used up. -/
def State.begun (s : State) (ps : List Piece) : State := (s.clearSyncs ps).dropAnswers s.actor.core 0

theorem begun_eq (s : State) (ps : List Piece) : ∃ x o, s.begun ps = { s with parts := x, outer := o } := by
  obtain ⟨x, h⟩ := clearSyncs_eq s ps
  rw [State.begun, h]
  exact ⟨_, _, rfl⟩

section
variable (s : State) (ps : List Piece)

@[simp] theorem State.begun_mem : (s.begun ps).mem = s.mem := by obtain ⟨x, o, h⟩ := begun_eq s ps; rw [h]
@[simp] theorem State.begun_cores : (s.begun ps).cores = s.cores := by obtain ⟨x, o, h⟩ := begun_eq s ps; rw [h]
@[simp] theorem State.begun_clusters : (s.begun ps).clusters = s.clusters := by obtain ⟨x, o, h⟩ := begun_eq s ps; rw [h]
@[simp] theorem State.begun_actor : (s.begun ps).actor = s.actor := by obtain ⟨x, o, h⟩ := begun_eq s ps; rw [h]
@[simp] theorem State.begun_older : (s.begun ps).older = s.older := by obtain ⟨x, o, h⟩ := begun_eq s ps; rw [h]

theorem begun_nil : s.begun [] = s.dropAnswers s.actor.core 0 := by
  have untouched : s.touchedSyncs [] = [] := List.filter_eq_nil_iff.2 (fun _ _ => Bool.false_ne_true)
  rw [State.begun, clearSyncs_of_untouched untouched]

theorem State.begun_core (n : Nat) : (s.begun ps).core n = s.core n := by rw [State.core, State.core, State.begun_cores]

@[simp] theorem State.begun_me : (s.begun ps).me = s.me := by rw [State.me, State.me, State.begun_core, State.begun_actor]

theorem accessFrame_begun : AccessFrame s (s.begun ps) ps := by
  have part : ∀ p, (s.begun ps).part p = (s.clearSyncs ps).part p := fun _ => rfl
  obtain ⟨x, h⟩ := clearSyncs_eq s ps
  have beside : ∃ x, s.begun ps = { s.dropAnswers s.actor.core 0 with parts := x } := ⟨x, by rw [State.begun, h]; rfl⟩
  obtain ⟨x, h⟩ := beside
  refine ⟨?_, ?_, ?_, ?_, ?_, ?_, fun p => (part p).trans (part_clearSyncs s ps p), ?_, ?_⟩
  case refine_8 => exact fun _ _ => by rw [h]; rfl
  all_goals rw [h]; rfl

end

section
variable {s t u : State} {ps : List Piece}

theorem accessFrame_keepsRest (h : AccessFrame s t ps) (k : KeepsRest t u) : AccessFrame s u ps := by
  obtain ⟨m, cs, es, rfl⟩ := k
  exact h

theorem actor_of_accessFrame (h : AccessFrame s t ps) : t.actor = s.actor := by
  obtain ⟨-, -, -, -, actor, -⟩ := h
  exact actor

theorem accessFrame_noWait (h : AccessFrame s t ps) : AccessFrame s (t.noWait s.actor.core) ps := by
  obtain ⟨h1, h2, h3, h4, h5, h6, h7, h8, hw⟩ := h
  refine ⟨h1, h2, h3, h4, h5, h6, h7, h8, fun w other => ?_⟩
  rw [← hw w other]
  have notMe : w.2 ≠ s.actor.core := other 0
  simp [State.noWait, List.mem_filter, notMe]

theorem loadFrame_setMe (h : LoadFrame s t ps) (c : Core) : LoadFrame s (t.setMe c) ps := by
  obtain ⟨access, older, others⟩ := h
  exact ⟨accessFrame_keepsRest access (keepsRest_setMe t c), older,
    fun n hn => (State.core_setMe t n c (actor_of_accessFrame access ▸ hn)).trans (others n hn)⟩

theorem loadFrame_noWait (h : LoadFrame s t ps) : LoadFrame s (t.noWait s.actor.core) ps := by
  obtain ⟨access, older, others⟩ := h
  exact ⟨accessFrame_noWait access, older, others⟩

theorem storeFrame_setMe (h : StoreFrame s t ps) (c : Core) : StoreFrame s (t.setMe c) ps := by
  obtain ⟨access, others, older⟩ := h
  refine ⟨accessFrame_keepsRest access (keepsRest_setMe t c), fun n hn => ?_, older⟩
  rw [State.core_setMe t n c (actor_of_accessFrame access ▸ hn)]
  exact others n hn

theorem storeFrame_noWait (h : StoreFrame s t ps) : StoreFrame s (t.noWait s.actor.core) ps := by
  obtain ⟨access, others, older⟩ := h
  exact ⟨accessFrame_noWait access, others, older⟩

end

theorem loadFrame_begun (s : State) (ps : List Piece) : LoadFrame s (s.begun ps) ps :=
  ⟨accessFrame_begun s ps, s.begun_older ps, fun n _ => s.begun_core ps n⟩

/-! ### What a load leaves (R131) -/

theorem afterRead_eq (s : State) (q : Nat) (ps : List Piece) : s.afterRead q ps = { s.begun ps with
    mem := if q = 2 then { s.mem with full := Marks.delAll (pieceGranules ps) s.mem.full } else s.mem } := by
  have mem := s.begun_mem ps
  unfold State.afterRead
  rw [← State.begun]
  dsimp only
  split <;> rw [← mem]

section
variable (s : State) (q : Nat) (ps : List Piece)

@[simp] theorem State.afterRead_clusters : (s.afterRead q ps).clusters = s.clusters := by
  rw [afterRead_eq]; exact s.begun_clusters ps

@[simp] theorem State.afterRead_me : (s.afterRead q ps).me = s.me := by rw [afterRead_eq]; exact s.begun_me ps

theorem loadFrame_afterRead : LoadFrame s (s.afterRead q ps) ps := by
  obtain ⟨access, older, others⟩ := loadFrame_begun s ps
  rw [afterRead_eq]
  exact ⟨accessFrame_keepsRest access ⟨_, _, _, rfl⟩, older, others⟩

theorem loadedOnly_afterRead : LoadedOnly s (s.afterRead q ps) ps q := by
  rw [afterRead_eq]
  by_cases take : q = 2
  · simp only [take, if_true]
    refine ⟨SameBytes.of_same (fun _ _ => ⟨rfl, rfl⟩), rfl, rfl, rfl, fun other => absurd rfl other, fun _ g => ?_⟩
    rw [Marks.mem_delAll, and_comm]
  · simp only [take, if_false]
    exact ⟨SameBytes.of_same (fun _ _ => ⟨rfl, rfl⟩), rfl, rfl, rfl, fun _ => rfl, fun taken => absurd taken take⟩

end

/-! ### What a store leaves (R125, R131, R309, R321) -/

/-- A store has been done over pieces, and its core has not gone on yet. -/
structure StoreDone (s t : State) (ps : List Piece) (bs : List Byte) (q : Nat) : Prop where
  stored : Stored s t ps bs
  filled : FilledOnly s t ps q
  me : t.me = s.me
  clusters : t.clusters = s.clusters
  frame : StoreFrame s t ps

theorem sameBytes_congr {s s' t : State} {keep keep' : Nat → Prop} (h : SameBytes s t keep) (mem : s'.mem = s.mem)
    (same : ∀ l, keep' l ↔ keep l) : SameBytes s' t keep' := by
  have equal : keep' = keep := funext (fun l => propext (same l))
  rw [equal, SameBytes, mem]
  exact h

theorem mem_storeAt (s : State) (w : Option Nat) (fill : Bool) (l k : Nat) (bs : List Byte) : (s.storeAt w fill l k bs).mem =
    if fill && hbmEnd ≤ l then (s.mem.write k l bs).fill l bs.length else s.mem.write k l bs := by
  rw [State.storeAt, State.wake_mem]

/-- A write changes bytes, their keys, tags and poison. -/
theorem write_eq (m : Mem) (k l : Nat) (bs : List Byte) : ∃ cs ks ts po,
    m.write k l bs = { m with cells := cs, keys := ks, tags := ts, poison := po } := by
  have put (m : Mem) (a : Nat) (xs : List Byte) : ∃ cs ks, m.putBytes k a xs = { m with cells := cs, keys := ks } := by
    unfold Mem.putBytes
    generalize (upFrom a xs.length).zip xs = qs
    induction qs generalizing m with
    | nil => exact ⟨m.cells, m.keys, rfl⟩
    | cons q qs ih =>
      obtain ⟨cs, ks, h⟩ := ih (m.putByte k q)
      exact ⟨cs, ks, h⟩
  have adopt (m : Mem) (a : Nat) : ∃ cs ks, m.adopt k a = { m with cells := cs, keys := ks } := by
    unfold Mem.adopt
    split
    · exact ⟨m.cells, m.keys, rfl⟩
    · exact put m _ _
  have edges : ∃ cs ks, m.adoptEdges k l bs.length = { m with cells := cs, keys := ks } := by
    unfold Mem.adoptEdges
    split
    · exact ⟨m.cells, m.keys, rfl⟩
    · obtain ⟨cs, ks, first⟩ := adopt m l
      obtain ⟨cs', ks', second⟩ := adopt (m.adopt k l) (l + bs.length - 1)
      exact ⟨cs', ks', by rw [second, first]⟩
  obtain ⟨cs, ks, h⟩ := edges
  obtain ⟨cs', ks', h'⟩ := put (m.adoptEdges k l bs.length) l bs
  rw [Mem.write, h', h]
  exact ⟨cs', ks', _, _, rfl⟩

theorem pend_write (m : Mem) (k l : Nat) (bs : List Byte) : (m.write k l bs).pend = m.pend := by
  obtain ⟨_, _, _, _, h⟩ := write_eq m k l bs
  rw [h]

theorem full_write (m : Mem) (k l : Nat) (bs : List Byte) : (m.write k l bs).full = m.full := by
  obtain ⟨_, _, _, _, h⟩ := write_eq m k l bs
  rw [h]

/-- What a write keeps of what it replaces (R309). -/
def State.replaced (s : State) (core unit l key n : Nat) : List Older :=
  if leavesOlder unit && l < hbmEnd then
    (granules l n).map (fun g => ⟨core, unit, g, key, s.mem.readUnder key (16 * g) 16, s.mem.tagAt (16 * g), true⟩)
  else []

theorem older_keepOlder (s : State) (core unit l key n : Nat) :
    (s.keepOlder core unit l key n).older = s.older ++ s.replaced core unit l key n := by
  unfold State.keepOlder State.replaced
  split
  · rfl
  · exact (List.append_nil _).symm

theorem granule_of_mem_replaced {s : State} {core unit l key n : Nat} {e : Older} (h : e ∈ s.replaced core unit l key n) :
    e.granule ∈ granules l n := by
  unfold State.replaced at h
  split at h
  · obtain ⟨g, hg, rfl⟩ := List.mem_map.1 h
    exact hg
  · cases h

/-- The acting core's own store leaves its latch alone (R321). -/
theorem core_putLast_self (s : State) (n : Nat) (fill : Bool) (l k : Nat) (bs : List Byte) :
    (s.putLast n fill l k bs).core n = s.core n := by
  rw [State.putLast, State.storeAt, core_wake_writer, State.core, State.core]
  exact congrArg (fun cs => Sparse.get cs Core.init n) (s.keepOlder_cores n 0 l k bs.length)

theorem coresLatched_putLast (s : State) (n : Nat) (fill : Bool) (l k : Nat) (bs : List Byte) :
    CoresLatched s (s.putLast n fill l k bs) :=
  (CoresLatched.of_cores (s.keepOlder_cores n 0 l k bs.length)).trans (coresLatched_wake { s.keepOlder n 0 l k bs.length with mem := _ } _ _)

@[simp] theorem pieceGranules_here (va n l key : Nat) (who : Asker) : pieceGranules [⟨va, n, .here l key, who⟩] = granules l n :=
  List.append_nil _

theorem inPieces_here {va n l key : Nat} {who : Asker} {x : Nat} :
    InPieces [⟨va, n, .here l key, who⟩] x ↔ l ≤ x ∧ x < l + n := by
  constructor
  · rintro ⟨p, hp, a, k, place, lo, hi⟩
    obtain rfl := List.mem_singleton.1 hp
    cases place
    exact ⟨lo, hi⟩
  · exact fun ⟨lo, hi⟩ => ⟨_, List.mem_singleton_self _, l, key, rfl, lo, hi⟩

/-- Bytes that the sequencer stores over one piece of this module, after every write made before. -/
theorem storeDone_putLast (s : State) (q va l key : Nat) (who : Asker) {n : Nat} {bs : List Byte} (len : bs.length = n) :
    let p : Piece := ⟨va, n, .here l key, who⟩
    StoreDone s ((s.begun [p]).putLast s.actor.core (q != 0) l key bs) [p] bs q := by
  subst len
  intro p
  have mem := mem_storeAt ((s.begun [p]).keepOlder s.actor.core 0 l key bs.length) (some s.actor.core) (q != 0) l key bs
  have start : ((s.begun [p]).keepOlder s.actor.core 0 l key bs.length).mem = s.mem := by
    rw [State.keepOlder_mem, State.begun_mem]
  rw [start, ← State.putLast] at mem
  constructor
  case stored =>
    refine ⟨fun _ => ⟨fun a k place => ?_, trivial⟩, ?_, fun g => ?_, ?_⟩
    · cases place
      exact (State.readUnder_storeAt _ _ _ _ _ bs).trans (List.take_length ..).symm
    · refine sameBytes_congr (State.sameBytes_storeAt _ _ _ _ _ bs) start.symm (fun x => ?_)
      rw [inPieces_here]
      omega
    · have tags : ((s.begun [p]).putLast s.actor.core (q != 0) l key bs).mem.tags = Marks.delAll (granules l bs.length) s.mem.tags := by
        rw [mem]
        split <;> rfl
      rw [tags, Marks.mem_delAll, pieceGranules_here, and_comm]
    · rw [mem]
      split <;> exact pend_write s.mem key l bs
  case filled =>
    have full := full_write s.mem key l bs
    rw [FilledOnly, mem, pieceGranules_here]
    split
    next fills =>
      refine ⟨?_, fun g hg => ?_, fun g hg => ?_⟩
      · rintro rfl
        exact absurd fills (by simp)
      · exact (Marks.mem_addAll _ _ _).2 (.inr (full ▸ hg))
      · rcases (Marks.mem_addAll _ _ _).1 hg with new | old
        · exact .inr new
        · exact .inl (full ▸ old)
    next => exact ⟨fun _ => full, fun g hg => full ▸ hg, fun g hg => .inl (full ▸ hg)⟩
  case me =>
    have actor : ((s.begun [p]).putLast s.actor.core (q != 0) l key bs).actor = s.actor := by simp
    rw [State.me, actor, core_putLast_self, State.begun_core, State.me]
  case clusters => simp
  case frame =>
    refine ⟨accessFrame_keepsRest (accessFrame_begun s [p]) (keepsRest_putLast _ _ _ _ _ _), fun n _ => ?_, ?_⟩
    · have latched := coresLatched_putLast (s.begun [p]) s.actor.core (q != 0) l key bs n
      rw [State.begun_core] at latched
      exact latched
    · have older : ((s.begun [p]).putLast s.actor.core (q != 0) l key bs).older
          = s.older ++ (s.begun [p]).replaced s.actor.core 0 l key bs.length := by
        rw [State.putLast, State.storeAt_older, older_keepOlder, State.begun_older]
      rw [older, List.filter_append, pieceGranules_here]
      have gone : ((s.begun [p]).replaced s.actor.core 0 l key bs.length).filter (fun e => e.granule ∉ granules l bs.length) = [] :=
        List.filter_eq_nil_iff.2 (fun e he => by simpa using granule_of_mem_replaced he)
      rw [gone, List.append_nil]

end Sys2Proof.Machine
end
/-! ## Loads (O11) -/
section
namespace Sys2Proof.Machine

section
variable {s : State} {c : Cap} {x : Int} {n align q : Nat} {ps : List Piece} {bs : List Byte}

theorem loadBytes_of_ok (checks : s.readChecks c x n align q (Reach.ofQualifier q) permLoad false = .ok ps)
    (read : s.readPieces s.actor.core 0 ps = .ok bs) : s.loadBytes c x n align q =
      .ok (bs, (match ps.head? with | some p => s.tagOf s.actor.core 0 p | none => false), s.afterRead q ps) := by
  simp only [State.loadBytes, checks, read, bind, Except.bind] <;> rfl

end

/-- A load into gd whose checks pass and whose bytes can be read. -/
theorem answers_lds {s : State} {d : BitVec 5} {a : BitVec 4} {z : BitVec 3} {f : BitVec 2} {k : BitVec 11} {ps : List Piece}
    {bs : List Byte} {P : State → Prop}
    (checks : s.readChecks (s.c a) (scaledAddr (s.c a) k (loadSize z.toNat).1) (loadSize z.toNat).1 (loadSize z.toNat).1 f.toNat
      (Reach.ofQualifier f.toNat) permLoad false = .ok ps)
    (read : s.readPieces s.actor.core 0 ps = .ok bs)
    (h : P (((s.afterRead f.toNat ps).writeG d (loadValue (loadSize z.toNat).2 bs)).noWait s.actor.core)) :
    Answers (.lds d a z f k) s P := by
  refine answers_of_ok rfl ?_ h
  rw [loadBytes_of_ok checks read]

/-- A write of gd in a state in which the acting core is as before. -/
theorem wroteG_of_me {s t : State} (me : t.me = s.me) (d : BitVec 5) (v : Word64) :
    (∀ r : BitVec 5, (t.writeG d v).g r = if r = d ∧ r ≠ 0 then v else s.g r)
    ∧ (t.writeG d v).me = { s.me with g := (t.writeG d v).me.g, pc := s.me.pc + 1 } := by
  obtain ⟨regs, -, -, -, -, -, core⟩ := wroteG_writeG t d v
  refine ⟨fun r => (regs r).trans ?_, ?_⟩
  · rw [State.g, State.g, me]
  · rw [me] at core
    exact core

/-- A write of cd in such a state. -/
theorem wroteC_of_me {s t : State} (me : t.me = s.me) (d : BitVec 4) (v : Cap) :
    (∀ r : BitVec 4, (t.writeC d v).c r = if r = d then v else s.c r)
    ∧ (t.writeC d v).me = { s.me with c := (t.writeC d v).me.c, pc := s.me.pc + 1 } := by
  obtain ⟨regs, -, -, -, -, -, core⟩ := wroteC_writeC t d v
  refine ⟨fun r => (regs r).trans ?_, ?_⟩
  · rw [State.c, State.c, me]
  · rw [me] at core
    exact core

theorem loadsWriteTheirRegister : Claim.LoadsWriteTheirRegister := by
  intro s d e a z f k ps bs
  refine ⟨fun checks read => ?_, fun p checks read gen => ?_⟩
  · have me := s.afterRead_me f.toNat ps
    obtain ⟨regs, core⟩ := wroteG_of_me me d (loadValue (loadSize z.toNat).2 bs)
    exact answers_lds checks read ⟨regs, core, loadedOnly_afterRead s f.toNat ps, s.afterRead_clusters f.toNat ps,
      loadFrame_noWait (loadFrame_setMe (loadFrame_afterRead s f.toNat ps) _)⟩
  · have me := s.afterRead_me f.toNat (p :: ps)
    obtain ⟨regs, core⟩ := wroteC_of_me me e
      (s.loadedCap (s.c a) bs (s.tagOf s.actor.core 0 p))
    refine answers_of_ok (t := (s.afterRead f.toNat (p :: ps)).writeC e (s.loadedCap (s.c a) bs (s.tagOf s.actor.core 0 p))) rfl
      ?_ ⟨regs, core, loadedOnly_afterRead s f.toNat (p :: ps), s.afterRead_clusters f.toNat (p :: ps),
        loadFrame_noWait (loadFrame_setMe (loadFrame_afterRead s f.toNat (p :: ps)) _)⟩
    have base : ∀ tag, (capOfBytes bs tag).base = (capOfBytes bs true).base := fun _ => rfl
    simp only [loadBytes_of_ok checks read, bind, Except.bind, base, gen]
    rfl

/-! ### The pieces of an access within one granule -/

theorem cuts_of_one_granule {x n : Nat} (pos : 0 < n) (fits : x % 16 + n ≤ 16) : cuts x n = [(x, n)] := by
  have whole : min n (16 - x % 16) = n := by omega
  have rest : ∀ k, cutFrom (x + n) 0 k = [] := fun k => by cases k <;> rfl
  rw [cuts, cutFrom, if_neg (by omega)]
  simp only [whole, Nat.sub_self, rest]

section
variable {s : State} {core x n off : Nat} {y : Party} {c : Cap}

/-- An aligned access of a divisor of 16 bytes lies in one granule. -/
theorem fits_of_dvd {x n : Nat} (size : n ∣ 16) (aligned : x % n = 0) : x % 16 + n ≤ 16 := by
  have rest : n ∣ 16 - x % 16 := Nat.dvd_sub size ((Nat.dvd_mod_iff size).2 (Nat.dvd_of_mod_eq_zero aligned))
  have := Nat.le_of_dvd (by omega) rest
  omega

theorem piecesOf_of_one_granule {pl : Place} {write shadow : Bool} (pos : 0 < n) (fits : x % 16 + n ≤ 16)
    (place : s.placeOf core y x write shadow = .ok pl) : s.piecesOf core y c x n write shadow = .ok [⟨x, n, pl, y, some c⟩] := by
  rw [State.piecesOf, cuts_of_one_granule pos fits, mapChk, place]
  rfl

theorem windowOf_ownL1 (h : off < 2 ^ 18) : windowOf (0x7F0000000000 + off) = .l1 off := by
  unfold windowOf
  rw [if_pos (by omega), Nat.add_sub_cancel_left, if_pos h]

theorem checkKind_of_l1 {reach : Reach} {info : Nat} (l1 : reach.l1 = true) (window : windowOf x = .l1 off) (pos : 0 < n)
    (fits : x % 16 + n ≤ 16) : s.checkKind core y reach x n info = .ok () := by
  rw [State.checkKind, cuts_of_one_granule pos fits]
  simp only [List.findSome?_cons, List.findSome?_nil, State.bankHeld, window, List.all_cons, List.all_nil,
    State.kindOk, l1, Bool.and_self, if_true]

theorem placeOf_of_l1 {write shadow : Bool} (window : windowOf x = .l1 off) :
    s.placeOf core y x write shadow = .ok (.here (l1Loc core off) 0) := by
  rw [State.placeOf, window]

end

section
variable {s : State} {c : Cap} {x n off : Nat}

/-- A piece of the acting core's own L1. -/
def State.ownPiece (s : State) (c : Cap) (x off n : Nat) : Piece :=
  ⟨x, n, .here (l1Loc s.actor.core off) 0, s.party, some c⟩

theorem touchedSyncs_ownPiece (clear : ∀ o ∈ (s.part s.party.part).syncs,
      o.1 + 64 ≤ l1Loc s.actor.core off ∨ l1Loc s.actor.core off + n ≤ o.1) : s.touchedSyncs [s.ownPiece c x off n] = [] := by
  refine List.filter_eq_nil_iff.2 (fun o ho => ?_)
  have apart := clear o ho
  simp only [State.ownPiece, List.any_cons, List.any_nil, Bool.or_false, Bool.and_eq_true, decide_eq_true_eq]
  omega

/-- The checks of an aligned read of the own L1 without a qualifier (R129, R181). -/
theorem readChecks_ownL1 {perms : Nat} {write : Bool} (cap : capCheck c x n perms = .ok ()) (window : windowOf x = .l1 off)
    (pos : 0 < n) (fits : x % 16 + n ≤ 16) (aligned : x % n = 0)
    (clear : ∀ o ∈ (s.part s.party.part).syncs, o.1 + 64 ≤ l1Loc s.actor.core off ∨ l1Loc s.actor.core off + n ≤ o.1)
    (plain : s.me.sys.pendtrap = false) :
    s.readChecks c x n n 0 Reach.plain perms write = .ok [s.ownPiece c x off n] := by
  have pieces : s.piecesOf s.actor.core s.party c x n write false = .ok [s.ownPiece c x off n] :=
    piecesOf_of_one_granule pos fits (placeOf_of_l1 window)
  have kind : s.checkKind s.actor.core s.party Reach.plain x n x = .ok () := checkKind_of_l1 rfl window pos fits
  have syncs : s.checkSyncs [s.ownPiece c x off n] = .ok () := by
    rw [State.checkSyncs, touchedSyncs_ownPiece clear]
    rfl
  have wait : s.waitFe false 0 [s.ownPiece c x off n] = .ok () := rfl
  have early : s.checkEarly [s.ownPiece c x off n] x = .ok () := by
    rw [State.checkEarly, plain]
    rfl
  simp only [State.readChecks, cap, Int.toNat_natCast, require, aligned, decide_true, if_true, kind, pieces, syncs, wait, early,
    bind, Except.bind]

theorem hbmEnd_le_l1Loc (core off : Nat) : hbmEnd ≤ l1Loc core off :=
  (Nat.le_add_right (2 ^ 52) (core * 2 ^ 20)).trans (Nat.le_add_right _ off)

/-- Nothing unordered is kept of what lies outside the HBM (R305, R309). -/
theorem seesOld_of_far {core unit l key : Nat} (far : hbmEnd ≤ l) : s.seesOld core unit l key = none := if_pos far

/-- A piece of this module without poison, of which the reader sees what stands. -/
theorem readPiece_of_sound {core unit va l key : Nat} {who : Asker} (sound : s.mem.poisonIn l n = none)
    (now : s.seesOld core unit l key = none) :
    s.readPiece core unit ⟨va, n, .here l key, who⟩ = .ok (s.mem.readUnder key l n) := by
  unfold State.readPiece
  simp only [sound, now]

theorem readPieces_of_one {core unit : Nat} {p : Piece} {bs : List Byte} (h : s.readPiece core unit p = .ok bs) :
    s.readPieces core unit [p] = .ok bs := by
  simp only [State.readPieces, mapChk, h, List.flatten_cons, List.flatten_nil, List.append_nil]

theorem readPieces_ownL1 (sound : s.mem.poisonIn (l1Loc s.actor.core off) n = none) :
    s.readPieces s.actor.core 0 [s.ownPiece c x off n] = .ok (s.mem.readUnder 0 (l1Loc s.actor.core off) n) :=
  readPieces_of_one (readPiece_of_sound sound (seesOld_of_far (hbmEnd_le_l1Loc _ _)))

end

/-! ### LDS from the own L1 (R132, R181) -/

theorem loadSize_dvd (z : Nat) : (loadSize z).1 ∣ 8 := by
  unfold loadSize
  repeat' split
  all_goals decide

/-- Extended to 64 bits, a number of 64 bits is itself. -/
theorem sext64_full (x : Nat) : sext64 64 x = BitVec.ofNat 64 x := by
  refine BitVec.eq_of_toNat_eq ?_
  rw [sext64, signedOf, BitVec.toNat_ofInt, BitVec.toNat_ofNat]
  split <;> omega

/-- What LDS extends, by its size code (R63). -/
theorem loadSize_signed {z : BitVec 3} (h : z ≠ 7) (bs : List Byte) (len : bs.length = (loadSize z.toNat).1) :
    loadValue (loadSize z.toNat).2 bs = if z = 4 ∨ z = 5 ∨ z = 6 then sext64 (8 * (loadSize z.toNat).1) (leNat bs)
      else BitVec.ofNat 64 (leNat bs) := by
  rw [loadValue, len]
  have codes : z = 3 ∨ (loadSize z.toNat).2 = decide (z = 4 ∨ z = 5 ∨ z = 6) := by
    clear len
    revert h z
    decide
  rcases codes with rfl | signed
  · exact sext64_full _
  · simp only [signed, decide_eq_true_eq]

theorem ownL1LoadReadsBytes : Claim.OwnL1LoadReadsBytes := by
  intro s d a z k off c n l code tag unsealed grants addr inside aligned lo hi plain clear sound
  have eight : n ∣ 8 := loadSize_dvd z.toNat
  have pos : 0 < n := Nat.pos_of_dvd_of_pos eight (by decide)
  have window := windowOf_ownL1 (by omega : off < 2 ^ 18)
  have whole : (0x7F0000000000 + off) % n = 0 :=
    Nat.mod_eq_zero_of_dvd (Nat.dvd_add (eight.trans (by decide)) (Nat.dvd_of_mod_eq_zero aligned))
  obtain ⟨x, hx⟩ : ∃ x, x = 0x7F0000000000 + off := ⟨_, rfl⟩
  rw [← hx] at window whole lo hi
  have base : scaledAddr c k n = (x : Int) := by
    rw [scaledAddr, addr, hx]
    push_cast
    rfl
  have cap : capCheck c x n permLoad = .ok () :=
    capCheck_eq_ok_iff.2 ⟨tag, unsealed, grants, by exact_mod_cast lo, by exact_mod_cast hi⟩
  have checks := readChecks_ownL1 (write := false) cap window pos (fits_of_dvd (eight.trans (by decide)) whole) whole clear plain
  rw [← base] at checks
  have read := readPieces_ownL1 (c := c) (x := x) sound
  have quiet : s.afterRead 0 [s.ownPiece c x off n] = s.begun [] := by
    rw [State.afterRead, clearSyncs_of_untouched (touchedSyncs_ownPiece clear), begun_nil, if_neg (by decide)]
  have value := loadSize_signed code (s.mem.readUnder 0 l n) (by rw [Mem.readUnder, List.length_map, length_upFrom])
  refine answers_lds (f := 0) checks read ?_
  rw [show (0 : BitVec 2).toNat = 0 from rfl, quiet, value]
  obtain ⟨regs, core⟩ := wroteG_of_me (s.begun_me []) d (if z = 4 ∨ z = 5 ∨ z = 6 then
    sext64 (8 * n) (leNat (s.mem.readUnder 0 l n)) else BitVec.ofNat 64 (leNat (s.mem.readUnder 0 l n)))
  have parts : (s.begun []).parts = s.parts := by rw [begun_nil, State.dropAnswers_parts]
  exact ⟨regs, core, SameMemory.of_mem (s.begun_mem []), s.begun_clusters [], parts,
    loadFrame_noWait (loadFrame_setMe (loadFrame_begun s []) _)⟩

/-- Settles O11: the bytes of an access that its checks let through reach the register, and its frame is that of any access. -/
theorem loadsReadBytes : Obligations.LoadsReadBytes := ⟨ownL1LoadReadsBytes, loadsWriteTheirRegister⟩

end Sys2Proof.Machine
end
/-! ## Whom the acting core acts for, and SCOPEDEMOTED (R320) -/
section
namespace Sys2Proof.Machine

/-- A state in which the acting core acts for the same party, under the same worlds, as in another one. -/
structure SameActor (s t : State) : Prop where
  actor : t.actor = s.actor
  run : t.me.run = s.me.run
  owners : ∀ p, (t.part p).present = (s.part p).present ∧ (t.part p).clust = (s.part p).clust
  worlds : ∀ p, (t.part p).worlds = (s.part p).worlds

section
variable {s t u : State}

theorem SameActor.trans (h : SameActor s t) (h' : SameActor t u) : SameActor s u where
  actor := h'.actor.trans h.actor
  run := h'.run.trans h.run
  owners p := ⟨(h'.owners p).1.trans (h.owners p).1, (h'.owners p).2.trans (h.owners p).2⟩
  worlds p := (h'.worlds p).trans (h.worlds p)

theorem SameActor.record (h : SameActor s t) : t.me.record = s.me.record := by rw [Core.record, Core.record, h.run]

theorem SameActor.party (h : SameActor s t) : t.party = s.party := by
  have owner : t.partOfCore t.actor.core = s.partOfCore s.actor.core := by
    have owns : (fun p => (t.part p).present && (t.part p).clust.contains (clusterOf s.actor.core))
        = (fun p => (s.part p).present && (s.part p).clust.contains (clusterOf s.actor.core)) :=
      funext (fun p => by rw [(h.owners p).1, (h.owners p).2])
    rw [State.partOfCore, State.partOfCore, State.ownerOf, State.ownerOf, h.actor, owns]
  unfold State.party State.partyOf
  have run : (t.core t.actor.core).run = (s.core s.actor.core).run := h.run
  rw [run, owner]

theorem SameActor.tenantLimited (h : SameActor s t) : t.tenantLimited = s.tenantLimited := by
  rw [State.tenantLimited, State.tenantLimited, State.worldOf, State.worldOf, Partition.world, Partition.world, h.party, h.worlds]

/-- A change of the acting core that leaves it running what it runs. -/
theorem sameActor_setMe {c : Core} (run : c.run = s.me.run) : SameActor s (s.setMe c) :=
  ⟨rfl, by rw [State.me_setMe, run], fun _ => ⟨rfl, rfl⟩, fun _ => rfl⟩

/-- An access leaves the worlds as they are. -/
theorem sameActor_of_accessFrame {ps : List Piece} (h : AccessFrame s t ps) (me : t.me = s.me) : SameActor s t := by
  obtain ⟨-, -, -, -, actor, -, parts, -⟩ := h
  refine ⟨actor, by rw [me], fun p => ?_, fun p => ?_⟩
  · rw [parts]
    split <;> exact ⟨rfl, rfl⟩
  · rw [parts]
    split <;> rfl

end

section
variable (s : State) (system : Bool)

theorem demote_eq : ∃ cs, s.demote system = { s with cores := cs } := by
  unfold State.demote
  split
  · exact ⟨_, rfl⟩
  · exact ⟨s.cores, rfl⟩

theorem keepsRest_demote : KeepsRest s (s.demote system) := by
  obtain ⟨cs, h⟩ := demote_eq s system
  exact ⟨s.mem, cs, s.older, h⟩

theorem me_demote : (s.demote system).me = { s.me with sys := { s.me.sys with
    demoted := s.me.sys.demoted || (system && s.tenantLimited) } } := by
  unfold State.demote
  split
  next limited => rw [State.me_setMe, limited, Bool.or_true]
  next free => rw [Bool.eq_false_iff.2 free, Bool.or_false]

theorem core_demote {n : Nat} (other : n ≠ s.actor.core) : (s.demote system).core n = s.core n := by
  unfold State.demote
  split
  · exact State.core_setMe s n _ other
  · rfl

end

end Sys2Proof.Machine
end
/-! ## Stores (O12) -/
section
namespace Sys2Proof.Machine

/-- A check that another one follows passes when both do. -/
theorem chk_bind_eq_ok {α β : Type} {x : Chk α} {f : α → Chk β} {r : β} (h : (x >>= f) = .ok r) :
    ∃ a, x = .ok a ∧ f a = .ok r := by
  cases x with
  | error e => cases h
  | ok a => exact ⟨a, rfl, h⟩

theorem of_require_eq_ok {p : Bool} {t : Trap} {info : Nat} (h : require p t info = .ok ()) : p = true := by
  by_contra fails
  rw [require, if_neg fails] at h
  cases h

theorem plainSize_dvd (z : BitVec 2) : plainSize z.toNat ∣ 16 := by
  revert z
  decide

section
variable {s : State} {c : Cap} {x : Int} {n q : Nat} {ps : List Piece}

/-- A store of 1 to 16 bytes has one piece, for it is aligned (R129). -/
theorem pieces_of_storeChecks (size : n ∣ 16) (h : s.storeChecks c x n n q = .ok ps) :
    ∃ pl, ps = [⟨x.toNat, n, pl, s.party, some c⟩] := by
  rw [State.storeChecks] at h
  obtain ⟨_, aligned, h⟩ := chk_bind_eq_ok h
  obtain ⟨_, -, h⟩ := chk_bind_eq_ok h
  obtain ⟨qs, pieces, h⟩ := chk_bind_eq_ok h
  obtain ⟨_, -, h⟩ := chk_bind_eq_ok h
  obtain ⟨_, -, h⟩ := chk_bind_eq_ok h
  cases h
  have pos : 0 < n := Nat.pos_of_dvd_of_pos size (by decide)
  have fits := fits_of_dvd size (of_decide_eq_true (of_require_eq_ok aligned))
  rw [State.piecesOf, cuts_of_one_granule pos fits, mapChk] at pieces
  cases place : s.placeOf s.actor.core s.party x.toNat true false with
  | error e =>
    rw [place] at pieces
    cases pieces
  | ok pl =>
    rw [place] at pieces
    cases pieces
    exact ⟨pl, rfl⟩

/-- Where nothing of another unit is unordered in a granule, no write of this unit to it is (R309). -/
theorem unordered_eq_false {core unit l : Nat}
    (h : ∀ e ∈ s.older, e.core = core → e.granule = l / 16 → e.unit = unit) : s.unordered core unit l = false := by
  unfold State.unordered
  rw [Bool.and_eq_false_iff]
  right
  split
  next e newest =>
    have kept := List.mem_filter.1 (List.mem_of_getLast? newest)
    simp only [Bool.and_eq_true, decide_eq_true_eq] at kept
    simp [h e kept.1 kept.2.1 kept.2.2]
  next => rfl

/-- The sequencer's write over one piece of this module, where no other unit's write to it is unordered. -/
theorem putPieces_of_one {t : State} {core va l key n : Nat} {who : Asker} {fill : Bool} {bs : List Byte} (len : bs.length = n)
    (ordered : ∀ e ∈ t.older, e.core = core → e.granule ∈ granules l n → e.unit = 0) :
    t.putPieces core 0 fill [⟨va, n, .here l key, who⟩] bs = t.putLast core fill l key bs := by
  subst len
  have plain : (granules l bs.length).any (fun g => t.unordered core 0 (16 * g)) = false := by
    rw [List.any_eq_false]
    intro g hg
    rw [Bool.not_eq_true, unordered_eq_false]
    intro e he own at'
    exact ordered e he own (by rwa [at', Nat.mul_div_cancel_left g (by decide)])
  simp only [State.putPieces, joinLines, State.putRuns, State.putPiece, List.take_length]
  exact State.putHere_ordered t core 0 fill l key bs plain

/-- A write over pieces of this module waits for no other one (R422). -/
theorem awaitWrite_of_here {va l key n : Nat} {who : Asker} {bs : List Byte} :
    s.awaitWrite s.actor.core 0 0 [⟨va, n, .here l key, who⟩] bs = .ok () := rfl

theorem storeBytes_of_here {va l key : Nat} {who : Asker} {bs : List Byte} (len : bs.length = n)
    (ordered : NothingUnordered s 0 [⟨va, n, .here l key, who⟩]) :
    s.storeBytes q [⟨va, n, .here l key, who⟩] bs
      = .ok ((s.begun [⟨va, n, .here l key, who⟩]).putLast s.actor.core (q != 0) l key bs) := by
  have plain : ∀ e ∈ (s.begun [⟨va, n, .here l key, who⟩]).older, e.core = s.actor.core → e.granule ∈ granules l n → e.unit = 0 := by
    intro e he _ at'
    rw [State.begun_older] at he
    exact (ordered e he ((pieceGranules_here va n l key who).symm ▸ at')).2
  rw [State.storeBytes, awaitWrite_of_here, ← State.begun, ← putPieces_of_one len plain]
  rfl

end

/-- A store that has been done, its core gone on to the next word. -/
theorem storeDone_advance {s t : State} {ps : List Piece} {bs : List Byte} {q : Nat} (h : StoreDone s t ps bs q) :
    (t.advance.noWait s.actor.core).me = { s.me with pc := s.me.pc + 1 }
    ∧ StoreFrame s (t.advance.noWait s.actor.core) ps := by
  refine ⟨(State.me_setMe t _).trans ?_, storeFrame_noWait (storeFrame_setMe h.frame _)⟩
  rw [h.me]

/-- STS that its capability and its other checks let through (R129). -/
theorem exec_sts_of_checks {s : State} {g : BitVec 5} {a : BitVec 4} {z f : BitVec 2} {k : BitVec 11} {ps : List Piece}
    (cap : capCheck (s.c a) (scaledAddr (s.c a) k (plainSize z.toNat)) (plainSize z.toNat) permStore = .ok ())
    (checks : s.storeChecks (s.c a) (scaledAddr (s.c a) k (plainSize z.toNat)) (plainSize z.toNat) (plainSize z.toNat) f.toNat
      = .ok ps) : exec (.sts g a z f k) s
      = s.runSeq (s.storeBytes f.toNat ps (leBytes (s.g g).toNat (plainSize z.toNat)) >>= fun t => .ok t.advance) := by
  refine congrArg s.runSeq ?_
  simp only [cap, checks, bind, Except.bind]

/-- STS to a place on this module. -/
theorem answers_sts {s : State} {g : BitVec 5} {a : BitVec 4} {z f : BitVec 2} {k : BitVec 11} {p : Piece} {l key : Nat}
    {P : State → Prop} (cap : capCheck (s.c a) (scaledAddr (s.c a) k (plainSize z.toNat)) (plainSize z.toNat) permStore = .ok ())
    (checks : s.storeChecks (s.c a) (scaledAddr (s.c a) k (plainSize z.toNat)) (plainSize z.toNat) (plainSize z.toNat) f.toNat
      = .ok [p])
    (place : p.place = .here l key) (ordered : NothingUnordered s 0 [p])
    (h : P ((((s.begun [p]).putLast s.actor.core (f.toNat != 0) l key (leBytes (s.g g).toNat (plainSize z.toNat))).advance).noWait
      s.actor.core)) : Answers (.sts g a z f k) s P := by
  obtain ⟨pl, one⟩ := pieces_of_storeChecks (plainSize_dvd z) checks
  obtain rfl := List.singleton_inj.1 one
  obtain rfl : pl = .here l key := place
  refine answers_of_ok (exec_sts_of_checks cap checks) ?_ h
  rw [storeBytes_of_here (length_leBytes _ _) ordered]
  rfl

/-! ### STC (R125, R132) -/

theorem mem_setTag {m : Mem} {l g : Nat} {tag : Bool} :
    g ∈ (m.setTag l tag).tags ↔ if g = l / 16 then tag = true else g ∈ m.tags := by
  unfold Mem.setTag
  cases tag
  · rw [if_neg Bool.false_ne_true, Marks.mem_del]
    split
    next same => simp [same]
    next other => simp [other]
  · rw [if_pos rfl, Marks.mem_add]
    split
    next same => simp [same]
    next other => simp [other]

theorem granule_mem_granules {l n : Nat} (pos : 0 < n) : l / 16 ∈ granules l n := by
  rw [granules, if_neg (by omega), mem_upFrom]
  omega

/-- The tag that a capability store gives its granule changes nothing else. -/
theorem sameBytes_setTag {s t : State} {keep : Nat → Prop} (l : Nat) (tag : Bool) (h : SameBytes s t keep) :
    SameBytes s { t with mem := t.mem.setTag l tag } keep := h

theorem localStoresWriteOnlyTheirBytes : Claim.LocalStoresWriteOnlyTheirBytes := by
  intro s g e a z f k ps
  refine ⟨fun cap checks here ordered => ?_, fun va l key cap checks => ?_⟩
  · obtain ⟨pl, rfl⟩ := pieces_of_storeChecks (plainSize_dvd z) checks
    obtain ⟨l, key, place⟩ := here _ (List.mem_singleton_self _)
    obtain rfl : pl = .here l key := place
    have done := storeDone_putLast s f.toNat (scaledAddr (s.c a) k (plainSize z.toNat)).toNat l key ⟨s.party, some (s.c a)⟩
      (length_leBytes (s.g g).toNat (plainSize z.toNat))
    obtain ⟨me, frame⟩ := storeDone_advance done
    exact answers_sts cap checks rfl ordered ⟨done.stored, done.filled, me, done.clusters, frame⟩
  · have done := storeDone_putLast s f.toNat va l key ⟨s.party, some (s.c a)⟩ (length_capBytes (s.c e))
    obtain ⟨p, hp⟩ : ∃ p : Piece, p = ⟨va, 16, .here l key, s.party, some (s.c a)⟩ := ⟨_, rfl⟩
    rw [← hp] at checks
    rw [← hp] at done
    dsimp only at done
    obtain ⟨u, hu⟩ : ∃ u, u = (s.begun [p]).putLast s.actor.core (f.toNat != 0) l key (capBytes (s.c e)) := ⟨_, rfl⟩
    rw [← hu] at done
    have written : s.putCap f.toNat [p] (s.c e) = .ok { u with mem := u.mem.setTag l (s.c e).tag } := by
      rw [hu, hp]
      rfl
    obtain ⟨hold, bytes, tags, -⟩ := done.stored
    have granules_p : pieceGranules [p] = granules l 16 := by rw [hp, pieceGranules_here]
    have frame : StoreFrame s { u with mem := u.mem.setTag l (s.c e).tag } [p] := by
      obtain ⟨access, others, older⟩ := done.frame
      exact ⟨accessFrame_keepsRest access ⟨_, _, _, rfl⟩, others, older⟩
    rw [← hp]
    refine answers_of_ok (t := State.advance { u with mem := u.mem.setTag l (s.c e).tag }) rfl ?_
      ⟨?_, ?_, ?_, fun x far => ?_, ?_, (State.me_setMe _ _).trans ?_, done.clusters,
        storeFrame_noWait (storeFrame_setMe frame _)⟩
    · simp only [cap, checks, written, bind, Except.bind]
    · have apart : PiecesApart [p] := List.pairwise_singleton _ p
      have first := (hold apart).1 l key (by rw [hp])
      rw [hp, ← length_capBytes (s.c e), List.take_length, length_capBytes] at first
      exact first
    · refine sameBytes_congr bytes rfl (fun x => ?_)
      rw [hp, inPieces_here]
      omega
    · exact mem_setTag.trans (by rw [if_pos rfl])
    · refine mem_setTag.trans ?_
      have other : x ≠ l / 16 := fun same => far (same ▸ granule_mem_granules (by decide))
      rw [if_neg other, tags, granules_p]
      simp [far]
    · exact done.filled
    · exact congrArg (fun c : Core => { c with pc := c.pc + 1 }) done.me

/-! ### Stores to another module (R172, R422) -/

section
variable {s : State} {req q : Forward}

/-- What R422 makes of an instruction's one write to another module: a request, a wait, MEMERR, or nothing more. -/
theorem awaitStores_of_unsent (first : req.nth = 0) (unsent : s.sent req = none) : s.awaitStores [req] = .error (.forward [req]) := by
  have one : numbered 0 [req] = [req] := by rw [numbered, ← first]; rfl
  have missing : s.sendable [] [req] = [req] := by simp [State.sendable, unsent]
  unfold State.awaitStores
  simp only [one, missing]

theorem awaitStores_of_sent (first : req.nth = 0) (sent : s.sent req = some q) : s.awaitStores [req] =
    match q.reply with
    | none => waitFor .other
    | some none => trapN .memerr (floorTo req.va.toNat 64)
    | some (some _) => .ok () := by
  have one : numbered 0 [req] = [req] := by rw [numbered, ← first]; rfl
  have missing : s.sendable [] [req] = [] := by simp [State.sendable, sent]
  unfold State.awaitStores
  simp only [one, missing, List.map_cons, List.map_nil, List.any_cons, List.any_nil, List.find?_cons, List.find?_nil, sent,
    Option.bind_some]
  rcases q.reply with _ | _ | r <;> rfl

end

/-- The sequencer's write over one piece of another module is a request there, and writes nothing here. -/
theorem storeBytes_of_away {s : State} {q va n m x page : Nat} {who : Asker} {bs : List Byte} (len : bs.length = n) :
    s.storeBytes q [⟨va, n, .away m x page, who⟩] bs
      = s.awaitStores [s.request s.actor.core 0 0 m x (BitVec.ofNat 64 va) (.store bs []) page who]
        >>= fun _ => .ok (s.begun [⟨va, n, .away m x page, who⟩]) := by
  have all : bs.take n = bs := List.take_of_length_le (le_of_eq len)
  have await : s.awaitWrite s.actor.core 0 0 [⟨va, n, .away m x page, who⟩] bs
      = s.awaitStores [s.request s.actor.core 0 0 m x (BitVec.ofNat 64 va) (.store bs []) page who] := by
    simp only [State.awaitWrite, joinLines, State.storeRequests, all, List.append_nil]
  rw [State.storeBytes, await]
  rfl

theorem onlyCore_refl (s : State) : OnlyCore s s s.me :=
  ⟨SameMemory.of_mem rfl, ⟨rfl, rfl, rfl, rfl, rfl, rfl, rfl, rfl, rfl⟩, rfl, fun _ _ => rfl, fun _ _ => Iff.rfl, rfl⟩

theorem remoteStoreIsForwarded : Claim.RemoteStoreIsForwarded := by
  intro s g a z f k va m x page n p req sent cap checks
  have runs (r : Chk Unit) (h : s.awaitStores [req] = r) : exec (.sts g a z f k) s
      = s.runSeq (r >>= fun _ => .ok (s.begun [p]).advance) := by
    rw [exec_sts_of_checks cap checks, storeBytes_of_away (length_leBytes _ _), h]
    cases r <;> rfl
  refine ⟨fun unsent => ?_, fun q there unanswered => ?_, fun q r there answered => ?_, fun q there refused can => ?_⟩
  · have posted : s.post [req] = s.sendForward req := by
      rw [State.post, State.sent, show s.outer.forwards.find? req.same = none from unsent, if_neg (by decide), State.post]
    refine ⟨s.post [req], runs _ (awaitStores_of_unsent rfl unsent), ?_⟩
    rw [posted]
    rfl
  · have waits : s.awaitStores [req] = waitFor .other := by rw [awaitStores_of_sent rfl there, unanswered]
    exact ⟨_, runs _ waits, onlyCore_queueUp .other (onlyCore_refl s)⟩
  · have done : s.awaitStores [req] = .ok () := by rw [awaitStores_of_sent rfl there, answered]
    refine answers_of_ok (runs _ done) rfl ⟨SameMemory.of_mem (s.begun_mem [p]), (State.me_setMe _ _).trans ?_,
      s.begun_clusters [p], loadFrame_noWait (loadFrame_setMe (loadFrame_begun s [p]) _)⟩
    rw [State.begun_me]
  · have refuses : s.awaitStores [req] = trapN .memerr (floorTo req.va.toNat 64) := by rw [awaitStores_of_sent rfl there, refused]
    exact answers_trapped (t := .memerr) (runs _ refuses) rfl can (by decide) rfl

/-- Settles O12: a store of at most 16 bytes has one piece, which is written here or is a request elsewhere. -/
theorem storesWriteOnlyTheirBytes : Obligations.StoresWriteOnlyTheirBytes :=
  ⟨localStoresWriteOnlyTheirBytes, remoteStoreIsForwarded⟩

end Sys2Proof.Machine
end
/-! ## Atomics (O14) -/
section
namespace Sys2Proof.Machine

section
variable {s t : State} {ps : List Piece}

theorem storeFrame_demote (system : Bool) (h : StoreFrame s t ps) : StoreFrame s (t.demote system) ps := by
  unfold State.demote
  split
  · exact storeFrame_setMe h _
  · exact h

/-- EVWATCH and SCOPEDEMOTED as an atomic leaves them (R320, R322). -/
theorem me_watch_demote (me : t.me = s.me) (limited : t.tenantLimited = s.tenantLimited) (x : Nat) (system : Bool) :
    ((t.watch x).demote system).me = { s.me with sys := { s.me.sys with
      evwatch := BitVec.ofNat 64 (x / 16 * 16 + 1), demoted := s.me.sys.demoted || (system && s.tenantLimited) } } := by
  have watched : (t.watch x).me = { s.me with sys := { s.me.sys with evwatch := BitVec.ofNat 64 (x / 16 * 16 + 1) } } := by
    rw [State.watch, State.me_setMe, me]
  have same : (t.watch x).tenantLimited = s.tenantLimited := by
    rw [← limited]
    exact (sameActor_setMe (c := { t.me with sys := { t.me.sys with evwatch := BitVec.ofNat 64 (x / 16 * 16 + 1) } }) rfl).tenantLimited
  rw [me_demote, watched, same]

end

section
variable {s : State} {c : Cap} {n va l key scope : Nat} {who : Asker} {y cmp : Word64} {fn : AmoFn}

/-- What an atomic on this module answers: the old value, and the store of the new one after every write before it. -/
theorem amo_of_here
    (checks : s.readChecks c c.cursor.toNat n n 0 Reach.amo (permLoad + permStore) true = .ok [⟨va, n, .here l key, who⟩])
    (sound : s.mem.poisonIn l n = none) : s.amo fn c n y cmp scope =
      let old := leNat (s.mem.readUnder key l n)
      .ok (sext64 (8 * n) old, (((s.begun [⟨va, n, .here l key, who⟩]).putLast s.actor.core false l key
        (leBytes (amoNew fn n old (y.toNat % 2 ^ (8 * n)) (cmp.toNat % 2 ^ (8 * n))) n)).watch c.cursor.toNat).demote (scope = 5)) := by
  have now : { s with older := [] }.seesOld s.actor.core 0 l key = none := ite_self _
  have read : { s with older := [] }.readPieces s.actor.core 0 [⟨va, n, .here l key, who⟩] = .ok (s.mem.readUnder key l n) :=
    readPieces_of_one (readPiece_of_sound sound now)
  simp only [State.amo, checks, read, bind, Except.bind]
  rfl

/-- An atomic instruction, whose new value is what its function makes of the old one and its operands. -/
theorem answers_amo {i : Instr} {d : BitVec 5} {a : BitVec 4} {b : BitVec 5} {w : BitVec 1} {sc : BitVec 3}
    (size : (if w = 1 then 4 else 8) = n) (he : exec i s = s.runAmo fn d a b w sc)
    (checks : s.readChecks (s.c a) (s.c a).cursor.toNat n n 0 Reach.amo (permLoad + permStore) true = .ok [⟨va, n, .here l key, who⟩])
    (sound : s.mem.poisonIn l n = none) :
    let old := leNat (s.mem.readUnder key l n)
    Answers i s (fun t => AmoDone s t d [⟨va, n, .here l key, who⟩] n (s.c a).cursor.toNat sc (sext64 (8 * n) old)
      (amoNew fn n old ((s.g b).toNat % 2 ^ (8 * n)) ((s.g d).toNat % 2 ^ (8 * n)))) := by
  intro old
  generalize hv : amoNew fn n old ((s.g b).toNat % 2 ^ (8 * n)) ((s.g d).toNat % 2 ^ (8 * n)) = new
  have done : StoreDone s ((s.begun [⟨va, n, .here l key, who⟩]).putLast s.actor.core false l key (leBytes new n))
    [⟨va, n, .here l key, who⟩] (leBytes new n) 0 := storeDone_putLast s 0 va l key who (length_leBytes new n)
  have result := amo_of_here (fn := fn) (y := s.g b) (cmp := s.g d) (scope := sc.toNat) checks sound
  simp only [hv, old] at result
  generalize (s.begun [⟨va, n, .here l key, who⟩]).putLast s.actor.core false l key (leBytes new n) = t at result done
  have me := me_watch_demote done.me (sameActor_of_accessFrame done.frame.1 done.me).tenantLimited (s.c a).cursor.toNat
    (decide (sc.toNat = 5))
  have system : decide (sc.toNat = 5) = decide (sc = 5) := decide_eq_decide.2 (BitVec.toNat_inj (y := 5))
  have frame := storeFrame_demote (decide (sc.toNat = 5)) (storeFrame_setMe done.frame
    { t.me with sys := { t.me.sys with evwatch := BitVec.ofNat 64 ((s.c a).cursor.toNat / 16 * 16 + 1) } })
  rw [← State.watch] at frame
  obtain ⟨cs, demoted⟩ := demote_eq (t.watch (s.c a).cursor.toNat) (decide (sc.toNat = 5))
  rw [demoted] at result me frame
  rw [system] at me
  obtain ⟨regs, -, -, -, -, -, core⟩ := wroteG_writeG { t.watch (s.c a).cursor.toNat with cores := cs } d (sext64 (8 * n) old)
  refine answers_of_ok (t := State.writeG { t.watch (s.c a).cursor.toNat with cores := cs } d (sext64 (8 * n) old)) he
    (by rw [size, result]) ⟨fun r => (regs r).trans ?_, done.stored, done.filled,
    storeFrame_noWait (storeFrame_setMe frame _), done.clusters, core.trans ?_⟩
  · rw [State.g, State.g, me]
    rfl
  · rw [me]
    rfl

end

/-- Settles O14: one store of what the function makes of the old value, for each of the seven functions. -/
theorem atomicResults : Obligations.AtomicResults := by
  unfold Obligations.AtomicResults
  intro s d a b w sc l key n x ps old y e becomes checks sound
  have done (fn : AmoFn) (i : Instr) (he : exec i s = s.runAmo fn d a b w sc) : becomes i (amoNew fn n old y e) :=
    answers_amo rfl he checks sound
  exact ⟨done .add _ rfl, done .swap _ rfl, done .cas _ rfl, done .min _ rfl, done .max _ rfl, done .and _ rfl, done .or _ rfl⟩

end Sys2Proof.Machine
end
/-! ## Sync objects, FENCE, scopes, unordered writes (O16) -/
section
namespace Sys2Proof.Machine

/-! ### The device's write of a sync object (R136, R321) -/

/-- Nothing has changed but the object at l of the acting partition and what unordered writes have replaced. -/
structure ObjectOnly (s u : State) (l : Nat) : Prop where
  eq : ∃ x es, u = { s with parts := x, older := es }
  party : u.party = s.party
  others : ∀ q, q ≠ s.party.part → u.part q = s.part q
  own : ∃ y, u.part s.party.part = { s.part s.party.part with syncs := y }
  syncs : ∀ x, x ≠ l → Sparse.find? x (u.part s.party.part).syncs = Sparse.find? x (s.part s.party.part).syncs

/-- The object at l has been written, and its core has not gone on yet. -/
structure ObjectPut (s t : State) (l : Nat) (o : SyncObj) : Prop where
  object : Sparse.find? l (t.part s.party.part).syncs = some o
  me : t.me = { s.me with sys := { s.me.sys with demoted := t.me.sys.demoted, event := t.me.sys.event } }
  bytes : SameBytes s t (fun x => x < l ∨ l + 64 ≤ x)
  syncs : ∀ x, x ≠ l → Sparse.find? x (t.part s.party.part).syncs = Sparse.find? x (s.part s.party.part).syncs
  others : ∀ q, q ≠ s.party.part → t.part q = s.part q
  own : ∃ y, t.part s.party.part = { s.part s.party.part with syncs := y }
  clusters : t.clusters = s.clusters
  mgmt : t.mgmt = s.mgmt
  outer : t.outer = s.outer
  latched : OtherCoresLatched s t
  actor : t.actor = s.actor

section
variable {s t u : State} {l : Nat} {o : SyncObj}

theorem objectOnly_refl (s : State) (l : Nat) : ObjectOnly s s l :=
  ⟨⟨s.parts, s.older, rfl⟩, rfl, fun _ _ => rfl, ⟨_, rfl⟩, fun _ _ => rfl⟩

theorem part_putSync (s : State) (l : Nat) (o : SyncObj) (q : Nat) : (s.putSync l o).part q =
    if q = s.party.part then { s.part q with syncs := Sparse.set l o (s.part q).syncs } else s.part q := by
  refine (State.part_modPart s s.party.part q (fun x => { x with syncs := Sparse.set l o x.syncs })).trans ?_
  split
  next same => rw [same]
  next => rfl

theorem objectPut_putSync (h : ObjectOnly s u l) : ObjectPut s (u.putSync l o) l o := by
  obtain ⟨eq, party, others, ⟨y, own⟩, syncs⟩ := h
  obtain ⟨x, es, hu⟩ := eq
  have part := part_putSync u l o
  rw [party] at part
  have written : ∃ b : State, b.cores = s.cores ∧ b.actor = s.actor
      ∧ u.putSync l o = (b.wake (some s.actor.core) (granules l 64)).drew 1 := by
    subst hu
    exact ⟨{ State.modPart { s with parts := x, older := es } _ _ with mem := _ }, rfl, rfl, rfl⟩
  obtain ⟨b, cores, actor, put⟩ := written
  have core (n : Nat) : b.core n = s.core n := by rw [State.core, State.core, cores]
  have bs : (sliceB 0 64 (Config.syncBytes l u.draws)).length = 64 := length_sliceB _ _ _
  constructor
  case object => rw [part, if_pos rfl, Sparse.find?_set_same]
  case me =>
    have me : (u.putSync l o).me = s.me := by
      rw [put]
      exact (congrArg (fun a : Actor => State.core _ a.core) actor).trans ((core_wake_writer b _ _).trans (core _))
    rw [me]
  case bytes =>
    subst hu
    refine SameBytes.of_same (fun y hy => ?_)
    exact Mem.same_poke s.mem l y _ (by rw [bs]; exact hy)
  case syncs =>
    intro y hy
    rw [part, if_pos rfl, Sparse.find?_set_other _ _ hy, syncs y hy]
  case others =>
    intro q hq
    rw [part, if_neg hq, others q hq]
  case own => exact ⟨Sparse.set l o y, by rw [part, if_pos rfl, own]⟩
  case clusters => subst hu; rfl
  case mgmt => subst hu; rfl
  case outer => subst hu; rfl
  case latched =>
    intro n _
    have latched := coresLatched_wake b (some s.actor.core) (granules l 64) n
    rw [core] at latched
    rw [put]
    exact latched
  case actor => subst hu; rfl

theorem ObjectPut.demote (h : ObjectPut s t l o) (system : Bool) : ObjectPut s (t.demote system) l o := by
  have me := me_demote t system
  have core (n : Nat) (other : n ≠ s.actor.core) : (t.demote system).core n = t.core n := core_demote t system (h.actor ▸ other)
  obtain ⟨cs, demoted⟩ := demote_eq t system
  constructor
  case me => rw [me, h.me]
  case latched =>
    intro n other
    rw [core n other]
    exact h.latched n other
  all_goals rw [demoted]
  exacts [h.object, h.bytes, h.syncs, h.others, h.own, h.clusters, h.mgmt, h.outer, h.actor]

/-- The core goes on after an object's write. -/
theorem ObjectPut.advance (h : ObjectPut s t l o) :
    Sparse.find? l ((t.advance.noWait s.actor.core).part s.party.part).syncs = some o
    ∧ ObjectFrame s (t.advance.noWait s.actor.core) s.party.part l := by
  refine ⟨h.object, (State.me_setMe t _).trans ?_, h.bytes, h.syncs, h.others, h.clusters, h.mgmt, h.outer, fun n other => ?_⟩
  · have went : (t.advance.noWait s.actor.core).me = { t.me with pc := t.me.pc + 1 } := State.me_setMe t _
    rw [went, h.me]
  · have core : (t.advance.noWait s.actor.core).core n = t.core n := State.core_setMe t n _ (h.actor ▸ other)
    rw [core]
    exact h.latched n other

theorem answers_object {i : Instr} {r : Chk State} (he : exec i s = s.runSeq r) (hr : r = .ok t.advance) (h : ObjectPut s t l o) :
    Answers i s (fun t => Sparse.find? l (t.part s.party.part).syncs = some o ∧ ObjectFrame s t s.party.part l) :=
  answers_of_ok he hr h.advance

/-! ### SYNCINIT and ACQ (R138) -/

section
variable {c : Cap}

theorem syncInit_of_free (names : NamesObject s c l)
    (free : Sparse.find? l (s.part s.party.part).syncs = none ∨ SyncIs s l ⟨.free, [], []⟩) :
    s.syncInit c = .ok (s.putSync l SyncObj.fresh) := by
  obtain ⟨cap, loc⟩ := names
  simp only [State.syncInit, cap, loc, bind, Except.bind]
  rcases free with none | fresh
  · simp only [none]
  · rw [SyncIs] at fresh
    simp only [fresh]
    rfl

/-- ACQ up to the grant: the object is there, the continuation does not hold it and may hold one more (R137, R138). -/
theorem acquire_of_checks {exclusive : Bool} (names : NamesObject s c l) (there : SyncIs s l o) (free : o.heldBy s.me.record = false)
    (few : ((s.part s.party.part).heldSyncs s.me.record).length < 8) : s.acquire exclusive c =
      if o.grants exclusive then .ok ((s.putSync l (o.hold exclusive s.me.record)).demote true).advance
      else s.canSuspend >>= fun _ =>
        ((s.putSync l { o with waiting := o.waiting ++ [(s.me.record, exclusive)] }).demote true).suspendAs 4 (s.me.pc + 1) := by
  obtain ⟨cap, loc⟩ := names
  rw [SyncIs] at there
  have object : s.objectAt l = .ok o := by simp only [State.objectAt, there]
  have record : s.myRecord = s.me.record := rfl
  simp only [State.acquire, cap, loc, object, record, free, few, require, Bool.not_false, decide_true, if_true, bind, Except.bind]

theorem acquire_of_grants {exclusive : Bool} (names : NamesObject s c l) (there : SyncIs s l o) (free : o.heldBy s.me.record = false)
    (few : ((s.part s.party.part).heldSyncs s.me.record).length < 8) (grants : o.grants exclusive = true) :
    s.acquire exclusive c = .ok ((s.putSync l (o.hold exclusive s.me.record)).demote true).advance := by
  rw [acquire_of_checks names there free few, if_pos grants]

end

/-- What a suspension waits for reads the acting core, the clusters and the requests to other modules (R104). -/
theorem canSuspend_congr (actor : t.actor = s.actor) (eng : t.me.eng = s.me.eng) (run : t.me.run = s.me.run)
    (region : t.me.sys.region = s.me.sys.region) (clusters : t.clusters = s.clusters) (outer : t.outer = s.outer) :
    t.canSuspend = s.canSuspend := by
  have eng : (t.core s.actor.core).eng = (s.core s.actor.core).eng := by rw [State.me, State.me, actor] at eng; exact eng
  have run : (t.core s.actor.core).run = (s.core s.actor.core).run := by rw [State.me, State.me, actor] at run; exact run
  have cluster (k : Nat) : t.cluster k = s.cluster k := by rw [State.cluster, State.cluster, clusters]
  have quiet : t.quiet s.actor.core = s.quiet s.actor.core := by
    unfold State.quiet
    rw [eng, cluster]
  have performed : t.performed s.actor.core = s.performed s.actor.core := by
    unfold State.performed State.ownForward State.ownerNow
    rw [outer, run]
  unfold State.canSuspend State.waitRelease
  rw [region, actor, quiet, performed]

/-- A contended ACQ joins the object's queue, and its continuation leaves the core waiting (R104, R138). -/
theorem answers_contended {c : Cap} {i : Instr} {exclusive : Bool} {r : Running} (he : exec i s = s.runSeq (s.acquire exclusive c))
    (names : NamesObject s c l) (there : SyncIs s l o) (free : o.heldBy s.me.record = false)
    (few : ((s.part s.party.part).heldSyncs s.me.record).length < 8) (grants : o.grants exclusive = false)
    (run : s.me.run = some r) (can : s.canSuspend = .ok ()) :
    Answers i s (fun t => (t.me.run = none ∧ t.me.eng = CoreEng.init ∧ ctlState (t.ctl r.part r.record) = 4)
      ∧ Sparse.find? l (t.part s.party.part).syncs = some { o with waiting := o.waiting ++ [(s.me.record, exclusive)] }) := by
  have put := (objectPut_putSync (o := { o with waiting := o.waiting ++ [(s.me.record, exclusive)] }) (objectOnly_refl s l)).demote true
  have checks := acquire_of_checks (exclusive := exclusive) names there free few
  rw [if_neg (by rw [grants]; decide), can] at checks
  generalize (s.putSync l { o with waiting := o.waiting ++ [(s.me.record, exclusive)] }).demote true = t at put checks
  have run' : t.me.run = some r := by rw [put.me]; exact run
  have can' : t.canSuspend = .ok () := by
    rw [← can]
    exact canSuspend_congr put.actor (by rw [put.me]) (by rw [put.me]) (by rw [put.me]) put.clusters put.outer
  have leaves := leaves_leaveCore t r 4 (s.me.pc + 1)
  refine answers_of_ok he (checks.trans (suspendAs_of_canSuspend run' can' 4 _)) ⟨⟨leaves.me.run, leaves.me.eng, ?_⟩, ?_⟩
  · exact leaves.state (by decide)
  · rw [← put.object]
    exact congrArg (fun ps => Sparse.find? l (Sparse.get ps Partition.init s.party.part).syncs) leaves.parts

end

theorem syncObjectsAreAcquired : Claim.SyncObjectsAreAcquired := by
  intro s a l names p r
  refine ⟨fun free => ?_, fun o there notHeld few => ⟨fun free => ⟨?_, ?_⟩, fun hs shared alone => ?_, fun h run held running can => ⟨?_, ?_⟩⟩⟩
  · exact answers_object rfl (by rw [syncInit_of_free names free]; rfl) (objectPut_putSync (objectOnly_refl s l))
  · have grants : o.grants true = true := by rw [SyncObj.grants, free]
    have holds : o.hold true r = { o with mode := .exclusive r } := by rw [SyncObj.hold, free]; rfl
    have granted := acquire_of_grants names there notHeld few grants
    rw [holds] at granted
    exact answers_object rfl granted ((objectPut_putSync (objectOnly_refl s l)).demote true)
  · have grants : o.grants false = true := by rw [SyncObj.grants, free]
    have holds : o.hold false r = { o with mode := .shared [r] } := by rw [SyncObj.hold, free]; rfl
    have granted := acquire_of_grants names there notHeld few grants
    rw [holds] at granted
    exact answers_object rfl granted ((objectPut_putSync (objectOnly_refl s l)).demote true)
  · have grants : o.grants false = true := by rw [SyncObj.grants, shared, alone]; rfl
    have holds : o.hold false r = { o with mode := .shared (Marks.add r hs) } := by rw [SyncObj.hold, shared]
    have granted := acquire_of_grants names there notHeld few grants
    rw [holds] at granted
    exact answers_object rfl granted ((objectPut_putSync (objectOnly_refl s l)).demote true)
  · exact answers_contended rfl names there notHeld few (by rw [SyncObj.grants, held]) running can
  · exact answers_contended rfl names there notHeld few (by rw [SyncObj.grants, held]) running can

end Sys2Proof.Machine
end
section
namespace Sys2Proof.Machine

/-! ### REL and FENCE (R138, R140) -/

section
variable {s : State} {l a p : Nat} {o : SyncObj}

/-- An object whose only holder leaves it, where nobody waits, is free. -/
theorem grant_drop_of_alone (holder : o.mode = .exclusive a ∨ o.mode = .shared [a]) (alone : o.waiting = []) :
    (o.drop a).grant = ({ o with mode := .free }, []) := by
  have dropped : o.drop a = { o with mode := .free } := by
    rcases holder with exclusive | shared
    · rw [SyncObj.drop, exclusive]
      exact if_pos rfl
    · have none : Marks.del a [a] = [] := by simp [Marks.del]
      rw [SyncObj.drop, shared]
      simp only [none, if_true]
  rw [dropped, SyncObj.grant]
  simp only [alone, grantHead, if_true]

theorem releaseSync_of_alone (there : Sparse.find? l (s.part p).syncs = some o)
    (holder : o.mode = .exclusive a ∨ o.mode = .shared [a]) (alone : o.waiting = []) : s.releaseSync p l a =
      s.modPart p (fun x => { x with syncs := Sparse.set l { o with mode := .free } x.syncs }) := by
  rw [State.releaseSync, there]
  simp only [grant_drop_of_alone holder alone]
  rfl

theorem heldBy_of_holder (holder : o.mode = .exclusive a ∨ o.mode = .shared [a]) : o.heldBy a = true := by
  rcases holder with exclusive | shared
  · rw [SyncObj.heldBy, exclusive]
    exact decide_eq_true rfl
  · rw [SyncObj.heldBy, shared]
    exact (Marks.has_iff a [a]).2 (List.mem_singleton_self a)

/-- The release of an object by its only holder, where nobody waits, marks it free (R138). -/
theorem doRelease_of_alone (there : SyncIs s l o) (holder : o.mode = .exclusive s.me.record ∨ o.mode = .shared [s.me.record])
    (alone : o.waiting = []) : ∃ u, ObjectOnly s u l ∧ s.doRelease l = (u.putSync l { o with mode := .free }).demote true := by
  have released := releaseSync_of_alone there holder alone
  have part (q : Nat) := State.part_modPart s s.party.part q
    (fun x => { x with syncs := Sparse.set l { o with mode := .free } x.syncs })
  generalize hu : s.modPart s.party.part (fun x => { x with syncs := Sparse.set l { o with mode := .free } x.syncs }) = u
    at released part
  have actor : SameActor s u := by
    refine ⟨by rw [← hu]; rfl, by rw [← hu]; rfl, fun q => ?_, fun q => ?_⟩
    · rw [part]
      split
      next same => rw [same]; exact ⟨rfl, rfl⟩
      next => exact ⟨rfl, rfl⟩
    · rw [part]
      split
      next same => rw [same]
      next => rfl
  refine ⟨u, ⟨⟨u.parts, s.older, by rw [← hu]; rfl⟩, actor.party, fun q hq => by rw [part, if_neg hq],
    ⟨_, (part _).trans (if_pos rfl)⟩, fun x hx => ?_⟩, ?_⟩
  · rw [part, if_pos rfl, Sparse.find?_set_other _ _ hx]
  · have marked : Sparse.find? l (u.part s.party.part).syncs = some { o with mode := .free } := by
      rw [part, if_pos rfl, Sparse.find?_set_same]
    unfold State.doRelease State.myRecord
    simp only [released, marked]

theorem objectOnly_perform {u : State} (units : Nat → Bool) (h : ObjectOnly (s.perform s.actor.core units) u l) : ObjectOnly s u l := by
  obtain ⟨⟨x, es, eq⟩, party, others, own, syncs⟩ := h
  exact ⟨⟨x, es, eq⟩, party, others, own, syncs⟩

theorem release_of_checks {c : Cap} (done : s.performed s.actor.core = true) (names : NamesObject s c l) (there : SyncIs s l o)
    (held : o.heldBy s.me.record = true) : s.release c = .ok ((s.perform s.actor.core (· = 0)).doRelease l) := by
  obtain ⟨cap, loc⟩ := names
  rw [SyncIs] at there
  have object : s.objectAt l = .ok o := by simp only [State.objectAt, there]
  have record : s.myRecord = s.me.record := rfl
  simp only [State.release, cap, loc, object, record, held, done, require, waitUnless, if_true, bind, Except.bind]

end

theorem onlyCore_demote (s : State) (system : Bool) : OnlyCore s (s.demote system) { s.me with sys := { s.me.sys with
    demoted := s.me.sys.demoted || (system && s.tenantLimited) } } := by
  rw [← me_demote]
  unfold State.demote
  split
  · exact Eq.mp (congrArg (OnlyCore s _) (State.me_setMe s _).symm) (onlyCore_setMe s _)
  · exact onlyCore_refl s

theorem releaseAndFence : Claim.ReleaseAndFence := by
  intro s a l o sel p r done
  refine ⟨fun names there holder alone => ?_, ?_⟩
  · obtain ⟨u, only, released⟩ := doRelease_of_alone (s := s.perform s.actor.core (· = 0)) there holder alone
    have checks := release_of_checks done names there (heldBy_of_holder holder)
    exact answers_object rfl (by rw [checks, released]) ((objectPut_putSync (objectOnly_perform _ only)).demote true)
  · have code : decide (sel.toNat = 5) = decide (sel = 5) := decide_eq_decide.2 (BitVec.toNat_inj (y := 5))
    have wrote := onlyCore_noWait (onlyCore_advance (onlyCore_demote (s.perform s.actor.core (· = 0)) (decide (sel.toNat = 5))))
    have older : ((s.perform s.actor.core (· = 0)).demote (decide (sel.toNat = 5))).older
        = performOlder s.actor.core (· = 0) s.older := by
      obtain ⟨cs, h⟩ := demote_eq (s.perform s.actor.core (· = 0)) (decide (sel.toNat = 5))
      rw [h]
      rfl
    generalize ht : (s.perform s.actor.core (· = 0)).demote (decide (sel.toNat = 5)) = t at wrote older
    rw [code] at wrote
    have performs : Performs s (t.advance.noWait s.actor.core) (fun u => decide (u = 0) = true) := performs_of_older older
    simp only [decide_eq_true_eq] at performs
    refine answers_of_ok rfl ((if_pos done).trans (by rw [ht])) ⟨performs, ?_⟩
    have before : { s with older := t.older } = s.perform s.actor.core (· = 0) := by rw [older]; rfl
    exact before ▸ wrote

/-! ### Scopes (R308) -/

section
variable {s : State} {core p : Nat} {o : Observer}

/-- Among the parties of the owning partition, each code holds those of the one before it. -/
theorem inScope_succ (owner : s.ownerOf (clusterOf core) = some p) (party : s.observerPart o = some p) {i : Nat} (small : i < 5)
    (h : s.inScope core i o = true) : s.inScope core (i + 1) o = true := by
  match i, h with
  | 0, h =>
    obtain rfl : o = .core core := of_decide_eq_true h
    exact decide_eq_true rfl
  | 1, h =>
    have cluster : o.cluster? = some (clusterOf core) := of_decide_eq_true h
    exact decide_eq_true (by rw [cluster]; rfl)
  | 2, h =>
    have die : o.cluster?.map dieOf = some (dieOf (clusterOf core)) := of_decide_eq_true h
    cases o with
    | core n => rfl
    | units k => rfl
    | away q => cases die
    | pod => cases die
    | host => cases die
    | complex n => cases die
  | 3, _ =>
    simp only [State.inScope, owner, party, Option.isSome_some, decide_true, Bool.and_self]
  | 4, _ => rfl
  | i + 5, _ => omega

theorem scopesNest : Claim.ScopesNest := by
  intro s core p o owner
  refine ⟨fun _ => rfl, fun n => ?_, fun n => ?_, fun _ => ⟨rfl, rfl, rfl⟩, fun q => ?_, fun code small => ?_, fun _ => rfl,
    fun party i j le top h => ?_⟩
  · simp [State.inScope, Observer.cluster?]
  · simp [State.inScope, Observer.cluster?]
  · simp [State.inScope, State.observerPart, owner]
  · match code with
    | 0 => exact ⟨rfl, rfl⟩
    | 1 => exact ⟨rfl, rfl⟩
    | 2 => exact ⟨rfl, rfl⟩
    | 3 => exact ⟨rfl, rfl⟩
    | 4 => simp [State.inScope, State.observerPart, owner]
    | code + 5 => omega
  · induction j, le using Nat.le_induction with
    | base => exact h
    | succ j _ ih => exact inScope_succ owner party (by omega) (ih (by omega))

end

/-! ### Unordered writes (R309) -/

section
variable {s : State} {core unit l key : Nat}

/-- What a read may see beside what stands: another unit's unordered write of its core, or a copy of another core. -/
def MaySee (core unit l key : Nat) (e : Older) : Prop :=
  e.granule = l / 16 ∧ e.key = key ∧ (e.core = core → e.unit ≠ unit ∧ e.own = true) ∧ (e.core ≠ core → 16 ≤ e.unit)

theorem of_mem_olderThan {e : Older} (h : e ∈ s.olderThan core unit l key) : e ∈ s.older ∧ MaySee core unit l key e := by
  refine List.foldlRecOn s.older _ (motive := fun acc => ∀ x ∈ acc, x ∈ s.older ∧ MaySee core unit l key x)
    (fun x none => absurd none List.not_mem_nil) (fun acc seen e old => ?_) e h
  split
  next granule =>
    split
    next => exact fun x none => absurd none List.not_mem_nil
    next ownWrite =>
      split
      next visible =>
        refine List.forall_mem_cons.2 ⟨⟨old, granule, ?_⟩, seen⟩
        simp only [Bool.and_eq_true, Bool.or_eq_true, decide_eq_true_eq, bne_iff_ne, ne_eq] at visible ownWrite
        obtain ⟨same, sees⟩ := visible
        exact ⟨same, fun own => by tauto, fun other => by tauto⟩
      next => exact seen
  next => exact seen

theorem of_seesOld {e : Older} (h : s.seesOld core unit l key = some e) :
    l < hbmEnd ∧ e ∈ s.older ∧ MaySee core unit l key e := by
  unfold State.seesOld at h
  split at h
  · cases h
  next near =>
    split at h
    · cases h
    · exact ⟨not_le.1 near, of_mem_olderThan (List.mem_of_getElem? h)⟩

/-- A part of a granule is cut from the whole. -/
theorem readUnder_eq_sliceB {m : Mem} {n : Nat} (fits : l % 16 + n ≤ 16) :
    m.readUnder key l n = sliceB (l % 16) n (m.readUnder key (16 * (l / 16)) 16) := by
  have before : 16 * (l / 16) + l % 16 = l := Nat.div_add_mod l 16
  have whole : m.readUnder key (16 * (l / 16)) 16 = m.readUnder key (16 * (l / 16)) (l % 16) ++ m.readUnder key l n
      ++ m.readUnder key (l + n) (16 - (l % 16 + n)) := by
    unfold Mem.readUnder
    rw [← List.map_append, ← List.map_append]
    congr 1
    rw [← before, Nat.mul_add_div (by decide), Nat.mul_add_mod, Nat.mod_mod, Nat.mod_div_self, Nat.add_zero, ← upFrom_add,
      Nat.add_assoc, ← upFrom_add]
    congr 1
    omega
  have cut := sliceB_middle (m.readUnder key (16 * (l / 16)) (l % 16)) (m.readUnder key l n)
    (m.readUnder key (l + n) (16 - (l % 16 + n)))
  rw [← whole] at cut
  simpa only [Mem.readUnder, List.length_map, length_upFrom] using cut.symm

/-- A read within a granule returns what stands, or what it may see of the granule whole. -/
theorem readPiece_within_granule {p : Piece} (place : p.place = .here l key) (fits : l % 16 + p.len ≤ 16)
    (sound : s.mem.poisonIn l p.len = none) : ∃ bs, s.readPiece core unit p = .ok (sliceB (l % 16) p.len bs)
      ∧ (bs = s.mem.readUnder key (16 * (l / 16)) 16
        ∨ ∃ e ∈ s.older, l < hbmEnd ∧ e.bytes = bs ∧ MaySee core unit l key e) := by
  obtain ⟨va, n, pl, who⟩ := p
  obtain rfl : pl = .here l key := place
  cases sees : s.seesOld core unit l key with
  | none => exact ⟨_, (readPiece_of_sound sound sees).trans (congrArg _ (readUnder_eq_sliceB fits)), .inl rfl⟩
  | some e =>
    obtain ⟨near, old, may⟩ := of_seesOld sees
    refine ⟨e.bytes, ?_, .inr ⟨e, old, near, rfl, may⟩⟩
    unfold State.readPiece
    simp only [sound, sees]

theorem granules_of_one {n : Nat} (pos : 0 < n) (fits : l % 16 + n ≤ 16) : granules l n = [l / 16] := by
  rw [granules, if_neg (by omega), show (l + n - 1) / 16 + 1 - l / 16 = 1 by omega]
  rfl

theorem unordered_granule : s.unordered core unit (16 * (l / 16)) = s.unordered core unit l := by
  have end_ : decide (16 * (l / 16) < hbmEnd) = decide (l < hbmEnd) := by
    unfold hbmEnd
    exact decide_eq_decide.2 (by omega)
  unfold State.unordered
  rw [Nat.mul_div_cancel_left _ (by decide), end_]

/-- A write within a granule stands there, or comes before another unit's unordered one and changes nothing that stands. -/
theorem putHere_within_granule {fill : Bool} {bs : List Byte} (some_ : bs ≠ []) (fits : l % 16 + bs.length ≤ 16) :
    (s.putHere core unit fill l key bs).mem.readUnder key l bs.length = bs
      ∨ (s.unordered core unit l = true ∧ (s.putHere core unit fill l key bs).mem = s.mem) := by
  have pos : 0 < bs.length := List.length_pos_iff.2 some_
  unfold State.putHere
  dsimp only
  split
  next =>
    rw [cuts_of_one_granule pos fits, List.foldl_cons, List.foldl_nil]
    dsimp only
    rw [Nat.sub_self, sliceB_whole]
    split
    next before => exact .inr ⟨((Bool.and_eq_true _ _).mp before).1, rfl⟩
    next => exact .inl (State.readUnder_storeAt _ _ _ _ _ bs)
  next => exact .inl (State.readUnder_storeAt _ _ _ _ _ bs)

end

theorem unorderedAccessesKeepGranulesWhole : Claim.UnorderedAccessesKeepGranulesWhole := by
  refine ⟨?_, fun s core unit l key p place fits sound => ?_, fun s core unit l key fill bs some_ fits => ?_⟩
  · intro s g a z f k va l key n x p cap checks ordered near
    refine answers_sts cap checks rfl ordered ?_
    have older : ((s.begun [p]).putLast s.actor.core (f.toNat != 0) l key (leBytes (s.g g).toNat n)).older
        = s.older ++ (s.begun [p]).replaced s.actor.core 0 l key n := by
      rw [State.putLast, State.storeAt_older, older_keepOlder, State.begun_older, length_leBytes]
    refine older.trans ?_
    rw [State.replaced, if_pos (by simpa [leavesOlder] using near), State.begun_mem]
  · obtain ⟨bs, read, now | ⟨e, old, near, bytes, granule, under, own, other⟩⟩ :=
      readPiece_within_granule (core := core) (unit := unit) place fits sound
    · exact ⟨bs, read, .inl now⟩
    · exact ⟨bs, read, .inr ⟨e, old, near, granule, under, bytes, own, other⟩⟩
  · exact putHere_within_granule some_ fits

/-- Settles O16: the object's write is the device's one change, a release by the only holder leaves it free, each scope code
holds the one before it, and a granule is read and written whole. -/
theorem syncObjectsAndFence : Obligations.SyncObjectsAndFence :=
  ⟨syncObjectsAreAcquired, releaseAndFence, scopesNest, unorderedAccessesKeepGranulesWhole⟩

end Sys2Proof.Machine
end
/-! ## Derived capabilities, channels (O10, O19): the wait for a table entry of another module -/
section
namespace Sys2Proof.Machine

/-! ### A generation whose table entry another module holds (R416, R422) -/

/-- Requests to other modules change no core. -/
theorem me_post (s : State) (fs : List Forward) : (s.post fs).me = s.me := by
  induction fs generalizing s with
  | nil => rfl
  | cons f fs ih =>
    unfold State.post
    split
    · exact ih s
    · exact ih (s.sendForward f)

/-- The walk of an address needs a table entry that another module holds. -/
def State.farEntry (s : State) (va : Nat) : Bool :=
  match s.translate s.party va false false with | .error f => f.remote.isSome | .ok _ => false

theorem awaitGen_of_farEntry {s : State} {va : Nat} (window : windowOf va = .translated) (far : s.farEntry va = true) :
    ∃ f, s.awaitGen s.party va = .error (.xlate f) ∧ f.remote.isSome = true := by
  unfold State.farEntry at far
  unfold State.awaitGen
  rw [window]
  cases walk : s.translate s.party va false false with
  | ok p => rw [walk] at far; cases far
  | error f => rw [walk] at far; exact ⟨f, if_pos far, far⟩

/-- An instruction that waits for a table entry of another module sends a request and stays where it is. -/
theorem answers_of_farEntry {i : Instr} {s : State} {f : XFault} (runs : exec i s = s.runSeq (.error (.xlate f)))
    (remote : f.remote.isSome = true) : Answers i s (fun t => t.me = s.me) := by
  obtain ⟨e, far⟩ := Option.isSome_iff_exists.1 remote
  refine ⟨_, runs, ?_⟩
  change (s.walkEnds _ _ _ _).me = _
  unfold State.walkEnds
  rw [far]
  exact me_post _ _

/-- Core 0 with a capability for all of memory in c0, of partition 0, whose first-stage table lies on a page of another
module; a buffer at address 0 waits in its channel 0. -/
def farTable : State :=
  { State.reset with
    mem := { State.reset.mem with cells := [(0, 0x03), (1, 0x10), (0x1000, 0x09)] }
    cores := [(0, { Core.init with c := [(0, { Cap.null with tag := true, e := 63 })] })]
    parts := [(0, { Partition.init with
      hbm := [0], channels := [(0, { Channel.init with word := 0x100, isOpen := true, queue := [Cap.null] })] })]
    outer := { Outer.init with vfs := [(0, { Vf.init with ctxtab := 1 })] } }

theorem farTable_far : farTable.farEntry 0 = true := by decide +kernel

theorem farTable_derives : deriveCap (farTable.c 0) (farTable.g 0).toNat = .ok { Cap.null with tag := true } := by
  decide +kernel

/-- At address 0 it waits for the table entry. -/
theorem farTable_waits : ∃ f, farTable.awaitGen farTable.party 0 = .error (.xlate f) ∧ f.remote.isSome = true :=
  awaitGen_of_farEntry (by decide) farTable_far

theorem cderive_waits : Answers (.cderive 0 0 0) farTable (fun t => t.me = farTable.me) := by
  obtain ⟨f, waits, remote⟩ := farTable_waits
  have runs : exec (.cderive 0 0 0) farTable = farTable.runSeq (do
      let c ← deriveCap (farTable.c 0) (farTable.g 0).toNat
      farTable.awaitGen farTable.party c.base
      .ok (farTable.writeC 0 { c with gen := farTable.genAt farTable.party c.base })) := rfl
  rw [farTable_derives] at runs
  refine answers_of_farEntry (runs.trans ?_) remote
  change farTable.runSeq (farTable.awaitGen farTable.party 0 >>= _) = _
  rw [waits]
  rfl

theorem farTable_buffer : (farTable.chan 0).ready = true ∧ farTable.myDie = (farTable.chan 0).rdie
    ∧ (farTable.chan 0).queue = [Cap.null] := by decide +kernel

theorem mbrecv_waits : Answers (.mbrecv 0 0) farTable (fun t => t.me = farTable.me) := by
  obtain ⟨f, waits, remote⟩ := farTable_waits
  obtain ⟨ready, die, queue⟩ := farTable_buffer
  have receive : farTable.receiveBuffer 0 = .error (.xlate f) := by
    unfold State.receiveBuffer
    simp only [ready, die, queue, require, if_true]
    change (farTable.awaitGen farTable.party 0 >>= _) = _
    rw [waits]
    rfl
  refine answers_of_farEntry ?_ remote
  change farTable.runSeq (match farTable.receiveBuffer 0 with | .error e => .error e | .ok (v, t) => .ok (t.writeC 0 v)) = _
  rw [receive]

/-- The core does not stay at offset 0 and go on to offset 1. -/
theorem farTable_stays_not_goesOn {t : State} {c : Core} (stays : t.me = farTable.me) (goesOn : t.me = c)
    (next : c.pc = farTable.me.pc + 1) : False := by
  have pc : farTable.me.pc = farTable.me.pc + 1 := by rw [← next, ← goesOn, stays]
  exact absurd pc (by decide)

/-- Refutes O10: CDERIVE looks a generation up, and where the walk for it needs a table entry that another module holds, it
asks for the entry and stays where it is (R416, R422); the statement has it write its destination at once. -/
theorem not_capabilityDerivation : ¬ Obligations.CapabilityDerivation := by
  unfold Obligations.CapabilityDerivation
  rintro ⟨-, derives⟩
  obtain ⟨answers, -⟩ := derives farTable 0 0 0 _ farTable_derives
  obtain ⟨t, runs, stays⟩ := cderive_waits
  obtain ⟨-, -, -, -, -, -, goesOn⟩ := of_answers answers runs
  exact farTable_stays_not_goesOn stays goesOn rfl

/-- Refutes O19: MBRECV looks up the generation of the buffer it takes, and where the walk for it needs a table entry that
another module holds, it asks for the entry and takes nothing (R416, R422); the statement has it take the buffer at once. -/
theorem not_ringsAndChannelsMove : ¬ Obligations.RingsAndChannelsMove := by
  unfold Obligations.RingsAndChannelsMove
  rintro ⟨-, moves⟩
  obtain ⟨-, -, -, receives, -⟩ := moves farTable 0 0 0 0
  obtain ⟨ready, die, queue⟩ := farTable_buffer
  obtain ⟨t, runs, stays⟩ := mbrecv_waits
  obtain ⟨-, -, goesOn, -⟩ := of_answers (receives Cap.null [] ready die queue) runs
  exact farTable_stays_not_goesOn stays goesOn rfl

end Sys2Proof.Machine
end
/-! ## Queue transfers (O13): a scatter over one frame under two keys -/
section
namespace Sys2Proof.Machine

/-! ### SCATTER whose checks pass (R134) -/

/-- What a SCATTER leaves before its lanes are written. -/
def State.scatterBegun (s : State) (q m : Nat) (ps : List Piece) : State :=
  (((s.clearSyncs ps).dropAnswers s.actor.core 0).popIndex m).popStore q

theorem exec_scatter_of_checks {s : State} {q : BitVec 2} {a : BitVec 4} {m : BitVec 1} {z : BitVec 2} {ix : List Int}
    {rest : List (List Int)} {v : Vec} {l : List Vec} {pss : List (List Piece)}
    (cap : gatherCap (s.c a) (plainSize z.toNat) permStore = .ok ()) (index : s.me.indexQ m.toNat = ix :: rest)
    (store : s.me.storeQ q.toNat = v :: l) (pieces : s.gatherPieces (s.c a) (plainSize z.toNat) ix true = .ok pss)
    (here : s.laneRequests (plainSize z.toNat) pss (vecBytes v) = []) :
    exec (.scatter q a m z) s = s.runSeq
      (.ok ((s.scatterBegun q.toNat m.toNat pss.flatten).scatterLanes (plainSize z.toNat) pss (vecBytes v)).advance) := by
  have scatters : s.scatter q.toNat (s.c a) m.toNat (plainSize z.toNat)
      = .ok ((s.scatterBegun q.toNat m.toNat pss.flatten).scatterLanes (plainSize z.toNat) pss (vecBytes v)) := by
    unfold State.scatter State.indexHead State.storeHead
    simp only [cap, index, store, bind, Except.bind, pieces, here]
    rfl
  rw [show exec (.scatter q a m z) s = execScatter q a m z s from rfl, execScatter, scatters]

/-! ### The state -/

/-- Core 0 of `sharedFrame`, about to scatter zeros to the second byte of the shared frame in plaintext and to its first byte
under the key of world 1. -/
def sharedLanes : State :=
  { sharedFrame with
    cores := [(0, { Core.init with c := [(0, lateCap)], iq := [(0, [[0, 65535]])], sq := [(0, [0])] })] }

/-- The pieces of its two lanes. -/
def sharedLanePieces : List (List Piece) :=
  let who : Asker := ⟨⟨0, 0, 0⟩, some lateCap⟩
  [[⟨0x80000001, 1, .here 0x5000001 0, who⟩], [⟨0x80010000, 1, .here 0x5000000 5, who⟩]]

theorem sharedLanes_checks : gatherCap (sharedLanes.c 0) 1 permStore = .ok ()
    ∧ sharedLanes.gatherPieces (sharedLanes.c 0) 1 [0, 65535] true = .ok sharedLanePieces := by decide +kernel

theorem sharedLanes_plain : sharedLanes.mem.keys = []
    ∧ (∀ c ∈ sharedLanes.mem.cells, c.1 < 0x5000001 ∨ 0x5000001 + 1 ≤ c.1)
    ∧ sharedLanes.mem.block 0x5000000 = List.replicate 16 0 := by decide +kernel

theorem scatterBegun_mem (s : State) (q m : Nat) (ps : List Piece) : (s.scatterBegun q m ps).mem = s.mem := by
  obtain ⟨x, clear⟩ := clearSyncs_eq s ps
  rw [State.scatterBegun, clear]
  rfl

theorem scatterBegun_older (s : State) (q m : Nat) (ps : List Piece) : (s.scatterBegun q m ps).older = s.older := by
  obtain ⟨x, clear⟩ := clearSyncs_eq s ps
  rw [State.scatterBegun, clear]
  rfl

theorem mem_putLast (s : State) (core : Nat) {l : Nat} (key : Nat) (bs : List Byte) :
    (s.putLast core false l key bs).mem = s.mem.write key l bs := by
  rw [State.putLast, mem_storeAt, State.keepOlder_mem]
  rfl

/-- A zero block in plaintext to which a byte is written under world 1's key is held under it whole (R194). -/
theorem adopt_zero_block {m : Mem} (keys : m.keys = []) (block : m.block 0x5000000 = List.replicate 16 0) :
    m.adopt 5 0x5000000 = m.putBytes 5 0x5000000 lateBlock := by
  have reads : m.readUnder 5 0x5000000 16 = lateBlock := by
    rw [readUnder_plain_block (by rfl) (fun x => by rw [Mem.keyAt, keys]; rfl) (by decide) (by decide), block]
    decide +kernel
  have foreign : ¬ (upFrom (floorTo 0x5000000 16) 16).all (fun x => m.keyAt x = 5) = true := by
    simp only [Mem.keyAt, keys]
    decide
  rw [Mem.adopt, if_neg foreign, show floorTo 0x5000000 16 = 0x5000000 from rfl, reads]

/-- What the first lane wrote no longer reads as zero once the second has written. -/
theorem first_lane_lost : (sharedLanes.mem.write 5 0x5000000 [0]).readUnder 0 0x5000001 1 ≠ [0] := by
  obtain ⟨keys, -, block⟩ := sharedLanes_plain
  unfold Mem.write Mem.adoptEdges
  rw [adopt_zero_block keys block]
  decide +kernel

/-! ### The scatter -/

theorem vecBytes_zero : vecBytes 0 = List.replicate 256 0 := by decide +kernel

theorem laneRequests_shared (s : State) (bs : List Byte) : s.laneRequests 1 sharedLanePieces bs = [] := rfl

theorem here_sharedLanePieces : ∀ ps ∈ sharedLanePieces, ∀ p ∈ ps, ∃ l key, p.place = .here l key := by
  intro ps hps p hp
  rcases List.mem_pair.1 hps with rfl | rfl <;> cases List.mem_singleton.1 hp <;> exact ⟨_, _, rfl⟩

theorem apart_sharedLanePieces : PiecesApart sharedLanePieces.flatten := by
  refine List.pairwise_pair.2 (fun a j b k ha hb => .inr ?_)
  obtain ⟨rfl, -⟩ := Place.here.inj ha
  obtain ⟨rfl, -⟩ := Place.here.inj hb
  decide

theorem unit_of_mem_replaced {s : State} {core unit l key n : Nat} {e : Older} (h : e ∈ s.replaced core unit l key n) :
    e.unit = unit := by
  unfold State.replaced at h
  split at h
  · obtain ⟨g, -, rfl⟩ := List.mem_map.1 h
    rfl
  · cases h

theorem older_putLast (s : State) (core : Nat) (fill : Bool) (l key : Nat) (bs : List Byte) :
    (s.putLast core fill l key bs).older = s.older ++ s.replaced core 0 l key bs.length := by
  rw [State.putLast, State.storeAt_older, older_keepOlder]

/-- The two lanes are written one after the other. -/
theorem scatterLanes_shared {s : State} (core : s.actor.core = 0) (ordered : s.older = []) :
    s.scatterLanes 1 sharedLanePieces (vecBytes 0)
      = (s.putLast 0 false 0x5000001 0 [0]).putLast 0 false 0x5000000 5 [0] := by
  have first : s.putPieces 0 0 false [⟨0x80000001, 1, .here 0x5000001 0, ⟨⟨0, 0, 0⟩, some lateCap⟩⟩] [0]
      = s.putLast 0 false 0x5000001 0 [0] := putPieces_of_one rfl (by rw [ordered]; rintro e ⟨⟩)
  have second : (s.putLast 0 false 0x5000001 0 [0]).putPieces 0 0 false
      [⟨0x80010000, 1, .here 0x5000000 5, ⟨⟨0, 0, 0⟩, some lateCap⟩⟩] [0] = _ := putPieces_of_one rfl (fun e he _ _ => by
    rw [older_putLast, ordered, List.nil_append] at he
    exact unit_of_mem_replaced he)
  rw [vecBytes_zero, sharedLanePieces, State.scatterLanes, State.scatterLanes, State.scatterLanes, core, List.take_replicate,
    List.drop_replicate, List.take_replicate, show List.replicate (min 1 256) (0 : Byte) = [0] from rfl, first,
    State.putLast_actor, core, show List.replicate (min 1 (256 - 1)) (0 : Byte) = [0] from rfl, second]

/-- The first lane's write changes no byte; the second one's holds the block under its key. -/
theorem scatter_shared : ∃ t, exec (.scatter 0 0 0 0) sharedLanes = .next t
    ∧ t.mem.Alike (sharedLanes.mem.write 5 0x5000000 [0]) := by
  obtain ⟨cap, pieces⟩ := sharedLanes_checks
  obtain ⟨keys, zeros, -⟩ := sharedLanes_plain
  have runs := exec_scatter_of_checks (q := 0) (m := 0) (z := 0) (ix := [0, 65535]) (rest := []) (v := 0) (l := []) cap rfl rfl
    pieces (laneRequests_shared _ _)
  rw [show plainSize (0 : BitVec 2).toNat = 1 from rfl, scatterLanes_shared (by rfl) (by rw [scatterBegun_older]; rfl)] at runs
  refine ⟨_, runs, ?_⟩
  rw [State.noWait_mem, State.advance_mem, mem_putLast, mem_putLast, scatterBegun_mem]
  exact (Mem.write_zeros_alike (n := 1) keys zeros).write _ _ _

/-- Refutes O13: two guest pages of one frame under two keys. A SCATTER writes two bytes of one 16-byte block, the second under
the other key, which then holds the whole block, so that the first lane no longer reads as what was written (R194). -/
theorem not_vectorQueueTransfers : ¬ Obligations.VectorQueueTransfers := by
  unfold Obligations.VectorQueueTransfers
  rintro ⟨-, moves, -⟩
  obtain ⟨cap, pieces⟩ := sharedLanes_checks
  obtain ⟨-, scatters, -⟩ := moves sharedLanes 0 0 0 0 [0, 65535] [] sharedLanePieces rfl
  obtain ⟨t, runs, mem⟩ := scatter_shared
  obtain ⟨-, -, -, holds, -⟩ := of_answers (scatters 0 [] cap rfl pieces here_sharedLanePieces (by rintro e ⟨⟩)) runs
  obtain ⟨first, -⟩ := holds apart_sharedLanePieces
  have kept := first 0x5000001 0 rfl
  rw [mem.readUnder, vecBytes_zero] at kept
  exact first_lane_lost kept

end Sys2Proof.Machine
end
/-! ## BIND, UNBIND, PUBLISH, REVOKE, SWEEPQ (O17) -/
section
namespace Sys2Proof.Machine

/-! ### BIND and UNBIND (R139) -/

section
variable {s : State} {ca cb : Cap} {l : Nat} {o : SyncObj}

theorem bindRegion_of_checks (checks : s.bindChecks ca cb = .ok (l, o)) (room : o.regions.length < 8)
    (fresh : (s.part s.party.part).bindsOver (s.party.region ca) = false) :
    s.bindRegion ca cb = .ok (s.putSync l { o with regions := o.regions ++ [s.party.region ca] }) := by
  simp only [State.bindRegion, checks, room, fresh, require, decide_true, Bool.not_false, if_true, bind, Except.bind]

theorem unbindRegion_of_checks (checks : s.bindChecks ca cb = .ok (l, o)) (bound : s.party.region ca ∈ o.regions) :
    s.unbindRegion ca cb = .ok (s.putSync l { o with regions := o.regions.filter (· != s.party.region ca) }) := by
  simp only [State.unbindRegion, checks, List.contains_iff_mem.2 bound, require, if_true, bind, Except.bind]

end

/-! ### The exchange of frames (R141) -/

/-- Two frame pairs that share no byte. -/
def PairsApart (x y : Nat × Nat) : Prop := x.1 + 2 * x.2 ≤ y.1 ∨ y.1 + 2 * y.2 ≤ x.1

section
variable {p l : Nat} {ps : List (Nat × Nat)} {q : Nat × Nat}

theorem exchanged_of_mem (apart : ps.Pairwise PairsApart) (hq : q ∈ ps) (low : hbmLoc p q.1 ≤ l)
    (high : l < hbmLoc p (q.1 + 2 * q.2)) :
    exchanged p ps l = if l < hbmLoc p (q.1 + q.2) then l + q.2 else l - q.2 := by
  unfold exchanged
  cases found : ps.find? (fun q => hbmLoc p q.1 ≤ l && l < hbmLoc p (q.1 + 2 * q.2)) with
  | none =>
    have outside := List.find?_eq_none.1 found q hq
    simp [low, high] at outside
  | some r =>
    have inside := List.find?_some found
    simp only [Bool.and_eq_true, decide_eq_true_eq] at inside
    have same : r = q := by
      by_contra other
      have symmetric : Std.Symm PairsApart := ⟨fun _ _ => Or.symm⟩
      have apart := apart.forall (List.mem_of_find?_eq_some found) hq other
      unfold PairsApart at apart
      unfold hbmLoc at inside low high
      omega
    rw [same]

/-- What is exchanged twice is where it was. -/
theorem exchanged_exchanged (apart : ps.Pairwise PairsApart) (l : Nat) : exchanged p ps (exchanged p ps l) = l := by
  cases found : ps.find? (fun q => hbmLoc p q.1 ≤ l && l < hbmLoc p (q.1 + 2 * q.2)) with
  | none =>
    have fixed : exchanged p ps l = l := by unfold exchanged; rw [found]
    rw [fixed, fixed]
  | some q =>
    have hq := List.mem_of_find?_eq_some found
    have inside := List.find?_some found
    simp only [Bool.and_eq_true, decide_eq_true_eq] at inside
    obtain ⟨low, high⟩ := inside
    rw [exchanged_of_mem apart hq low high]
    unfold hbmLoc at low high ⊢
    split
    next first =>
      rw [exchanged_of_mem apart hq (by unfold hbmLoc; omega) (by unfold hbmLoc; omega), if_neg (by unfold hbmLoc; omega)]
      omega
    next second =>
      rw [exchanged_of_mem apart hq (by unfold hbmLoc; omega) (by unfold hbmLoc; omega), if_pos (by unfold hbmLoc; omega)]
      omega

theorem exchanged_injective (apart : ps.Pairwise PairsApart) : Function.Injective (exchanged p ps) :=
  Function.LeftInverse.injective (exchanged_exchanged apart)

/-- A frame is swapped afterwards where it was not before, if its pair is among those exchanged (R141). -/
theorem mem_flipAll {fs : List Nat} (once : fs.Nodup) (f : Nat) (m : Marks) :
    f ∈ flipAll fs m ↔ (f ∈ fs ∧ f ∉ m) ∨ (f ∉ fs ∧ f ∈ m) := by
  unfold flipAll
  induction fs generalizing m with
  | nil => simp
  | cons g fs ih =>
    obtain ⟨fresh, once⟩ := List.nodup_cons.1 once
    have flip : f ∈ (if Marks.has g m then Marks.del g m else Marks.add g m) ↔ if f = g then f ∉ m else f ∈ m := by
      by_cases has : Marks.has g m = true
      · rw [if_pos has, Marks.mem_del]
        split
        next same => simp [same, (Marks.has_iff g m).1 has]
        next other => simp [other]
      · rw [if_neg has, Marks.mem_add]
        split
        next same => simp [same, (Marks.has_iff g m).not.1 has]
        next other => simp [other]
    rw [List.foldl_cons, ih once, flip, List.mem_cons]
    by_cases same : f = g
    · subst same
      simp [fresh]
    · simp [same]

/-- Bindings whose numbers an injection changes. -/
theorem find?_rekey {α : Type} {f : Nat → Nat} (once : Function.Injective f) (l : Sparse α) (x : Nat) :
    Sparse.find? (f x) (l.foldr (fun q t => Sparse.set (f q.1) q.2 t) []) = Sparse.find? x l := by
  induction l with
  | nil => rfl
  | cons q l ih =>
    rw [List.foldr_cons, Sparse.find?_set, ih, Sparse.find?]
    simp only [once.eq_iff, eq_comm]

end

section
variable (s : State) (p : Nat) (ps : List (Nat × Nat))

theorem core_swapPairs (n : Nat) : (s.swapPairs p ps).core n = (s.core n).moveHolds (exchanged p ps) := by
  have moved := get_map_of_rel (R := fun c d : Core => d = c.moveHolds (exchanged p ps)) (n := n) (d := Core.init)
    (f := fun q => (q.1, q.2.moveHolds (exchanged p ps))) rfl (fun _ => ⟨rfl, fun _ => rfl⟩) s.cores
  exact moved

theorem me_swapPairs : (s.swapPairs p ps).me = s.me.moveHolds (exchanged p ps) := core_swapPairs s p ps s.actor.core

theorem part_moveFlights (f : Nat → Nat) (q : Nat) :
    ∃ areas, (s.moveFlights p f).part q = if q = p then { s.part p with areas := areas } else s.part q := by
  unfold State.moveFlights
  exact ⟨_, State.part_modPart s p q (fun x => { x with areas := _ })⟩

theorem part_swapPairs (q : Nat) : ∃ areas, (s.swapPairs p ps).part q = if q = p then { s.part p with
    swapped := flipAll (ps.map Prod.fst) (s.part p).swapped
    syncs := (s.part p).syncs.foldr (fun o t => Sparse.set (exchanged p ps o.1) o.2 t) []
    areas := areas } else s.part q := by
  have marked (r : Nat) := State.part_modPart s p r (fun x => { x with
    swapped := flipAll (ps.map Prod.fst) x.swapped
    syncs := x.syncs.foldr (fun o t => Sparse.set (exchanged p ps o.1) o.2 t) [] })
  unfold State.swapPairs
  obtain ⟨areas, moved⟩ := part_moveFlights (s.modPart p _) p (exchanged p ps) q
  refine ⟨areas, moved.trans ?_⟩
  rw [marked, marked, if_pos rfl]
  split <;> rfl

theorem sameActor_swapPairs : SameActor s (s.swapPairs p ps) := by
  refine ⟨rfl, ?_, fun q => ?_, fun q => ?_⟩
  · rw [me_swapPairs]; rfl
  · obtain ⟨areas, part⟩ := part_swapPairs s p ps q
    rw [part]
    split
    next same => subst same; exact ⟨rfl, rfl⟩
    next => exact ⟨rfl, rfl⟩
  · obtain ⟨areas, part⟩ := part_swapPairs s p ps q
    rw [part]
    split
    next same => subst same; rfl
    next => rfl

end

/-- A shadowed pair has frames of a page's size (R414). -/
theorem pos_of_shadowPair {s : State} {y : Party} {va : Nat} {q : Nat × Nat} (h : s.shadowPair y va = some q) : 0 < q.2 := by
  unfold State.shadowPair at h
  split at h
  · split at h
    · cases h
    · split at h
      · obtain rfl := Option.some.inj h
        exact Nat.two_pow_pos _
      · cases h
  · cases h

theorem pos_of_pairsOf {s : State} {ca : Cap} {ps : List (Nat × Nat)} (h : s.pairsOf ca = some ps) : ∀ q ∈ ps, 0 < q.2 := by
  unfold State.pairsOf at h
  dsimp only at h
  split at h
  · cases h
  · obtain rfl := Option.some.inj h
    intro q hq
    obtain ⟨r, hr, rfl⟩ := List.mem_filterMap.1 hq
    obtain ⟨va, -, found⟩ := List.mem_map.1 hr
    exact pos_of_shadowPair found

/-- Frame pairs that share no byte have frames of their own. -/
theorem nodup_frames {ps : List (Nat × Nat)} (apart : ps.Pairwise PairsApart) (pos : ∀ q ∈ ps, 0 < q.2) :
    (ps.map Prod.fst).Nodup := by
  refine List.pairwise_map.2 (apart.imp_of_mem (fun {x y} hx hy h => ?_))
  have := pos x hx
  have := pos y hy
  unfold PairsApart at h
  omega

/-! ### PUBLISH (R139, R141) -/

section
variable {s : State} {ca cb : Cap} {l : Nat} {o : SyncObj} {ps : List (Nat × Nat)}

theorem publish_of_checks (names : NamesObject s cb l) (region : regionCap ca permPublish = .ok ()) (there : SyncIs s l o)
    (held : o.mode = .exclusive s.me.record) (bound : ∃ w ∈ o.regions, w.covers (s.party.region ca) = true)
    (pairs : s.pairsOf ca = some ps) (arrays : s.arraysQuiet s.actor.core = true)
    (copies : s.copiesInto s.actor.core ca.base ca.top = false) (performed : s.performed s.actor.core = true)
    (awaits : checkAll (s.awaitGen s.party) (pagesOf ca.base ca.top) = .ok ()) :
    s.publish ca cb = .ok (((s.perform s.actor.core (fun _ => true)).swapPairs s.party.part ps.dedup).doRelease
      (exchanged s.party.part ps.dedup l)) := by
  obtain ⟨cap, loc⟩ := names
  rw [SyncIs] at there
  have object : s.exclusiveObject l = .ok o := by
    simp only [State.exclusiveObject, State.objectAt, there, State.myRecord, held, require, decide_true, if_true, bind,
      Except.bind]
  simp only [State.publish, cap, region, loc, object, List.any_eq_true.2 bound, awaits, pairs, arrays, copies, performed, require,
    waitUnless, Bool.not_false, Bool.and_self, if_true, bind, Except.bind]

/-- The release of the object at its new place, after the exchange (R138, R141). -/
theorem publish_releases (apart : ps.Pairwise PairsApart) (there : SyncIs s l o) (held : o.mode = .exclusive s.me.record)
    (alone : o.waiting = []) : ∃ t,
      (s.swapPairs s.party.part ps).doRelease (exchanged s.party.part ps l) = t
      ∧ ObjectPut (s.swapPairs s.party.part ps) t (exchanged s.party.part ps l) { o with mode := .free } := by
  have actor := sameActor_swapPairs s s.party.part ps
  obtain ⟨areas, part⟩ := part_swapPairs s s.party.part ps s.party.part
  rw [if_pos rfl] at part
  have moved : SyncIs (s.swapPairs s.party.part ps) (exchanged s.party.part ps l) o := by
    rw [SyncIs, actor.party, part, find?_rekey (exchanged_injective apart)]
    exact there
  obtain ⟨u, only, released⟩ := doRelease_of_alone moved (.inl (by rw [actor.record]; exact held)) alone
  exact ⟨_, released, (objectPut_putSync only).demote true⟩

/-- What the exchange and the release of the object leave. -/
structure Published (s t : State) (ps : List (Nat × Nat)) (l : Nat) (o : SyncObj) : Prop where
  swapped : ∀ f, f ∈ (t.part s.party.part).swapped
    ↔ (f ∈ ps.map Prod.fst ∧ f ∉ (s.part s.party.part).swapped) ∨ (f ∉ ps.map Prod.fst ∧ f ∈ (s.part s.party.part).swapped)
  object : Sparse.find? (exchanged s.party.part ps l) (t.part s.party.part).syncs = some { o with mode := .free }
  syncs : ∀ x, x ≠ l → Sparse.find? (exchanged s.party.part ps x) (t.part s.party.part).syncs
    = Sparse.find? x (s.part s.party.part).syncs
  bytes : SameBytes s t (fun x => x < exchanged s.party.part ps l ∨ exchanged s.party.part ps l + 64 ≤ x)
  regs : t.me.g = s.me.g ∧ t.me.c = s.me.c ∧ t.me.pc = s.me.pc + 1
  others : ∀ n, n ≠ s.party.part → t.part n = s.part n
  mgmt : t.mgmt = s.mgmt
  outer : t.outer = s.outer

theorem published_doRelease (apart : ps.Pairwise PairsApart) (pos : ∀ q ∈ ps, 0 < q.2) (there : SyncIs s l o)
    (held : o.mode = .exclusive s.me.record) (alone : o.waiting = []) :
    Published s (((s.swapPairs s.party.part ps).doRelease (exchanged s.party.part ps l)).advance.noWait s.actor.core) ps l o := by
  obtain ⟨t, released, put⟩ := publish_releases apart there held alone
  have party : (s.swapPairs s.party.part ps).party = s.party := (sameActor_swapPairs s s.party.part ps).party
  obtain ⟨areas, part⟩ := part_swapPairs s s.party.part ps s.party.part
  rw [if_pos rfl] at part
  obtain ⟨object, me, bytes, syncs, others, -, mgmt, outer, -⟩ := put.advance
  obtain ⟨y, own⟩ := put.own
  rw [party] at object syncs others own
  rw [part] at syncs own
  rw [me_swapPairs] at me
  rw [released]
  constructor
  case swapped =>
    intro f
    have swapped : (t.part s.party.part).swapped = flipAll (ps.map Prod.fst) (s.part s.party.part).swapped := by rw [own]
    exact (show f ∈ (t.part s.party.part).swapped ↔ _ by rw [swapped]).trans (mem_flipAll (nodup_frames apart pos) f _)
  case object => exact object
  case syncs =>
    intro x hx
    exact (syncs _ ((exchanged_injective apart).ne hx)).trans (find?_rekey (exchanged_injective apart) _ x)
  case bytes => exact sameBytes_congr bytes rfl (fun _ => Iff.rfl)
  case regs => exact ⟨(congrArg Core.g me).trans rfl, (congrArg Core.c me).trans rfl, (congrArg Core.pc me).trans rfl⟩
  case others =>
    intro n hn
    obtain ⟨areas, part⟩ := part_swapPairs s s.party.part ps n
    rw [if_neg hn] at part
    exact (others n hn).trans part
  case mgmt => exact mgmt
  case outer => exact outer

end

theorem regionsAreBoundAndPublished : Claim.RegionsAreBoundAndPublished := by
  intro s a b l o p r lo hi q
  refine ⟨fun checks => ⟨fun room fresh => ?_, fun bound => ?_⟩,
    fun ps cap region loc there held alone bound pairs apart arrays copies performed awaits => ?_⟩
  · exact answers_object rfl (by rw [bindRegion_of_checks checks room fresh]; rfl) (objectPut_putSync (objectOnly_refl s l))
  · exact answers_object rfl (by rw [unbindRegion_of_checks checks bound]; rfl) (objectPut_putSync (objectOnly_refl s l))
  · intro frames at'
    have bound : ∃ w ∈ o.regions, w.covers (s.party.region (s.c a)) = true := by
      obtain ⟨w, hw, world, context, low, high⟩ := bound
      exact ⟨w, hw, by simp [Region.covers, world, context, low, high, Party.region, q, lo, hi]⟩
    have checks := publish_of_checks ⟨cap, loc⟩ region there held bound pairs arrays copies performed awaits
    have pos : ∀ q ∈ ps.dedup, 0 < q.2 := fun q hq => pos_of_pairsOf pairs q (List.mem_dedup.1 hq)
    have published := published_doRelease (s := s.perform s.actor.core (fun _ => true)) apart pos there held alone
    have frame (f : Nat) : f ∈ ps.dedup.map Prod.fst ↔ f ∈ frames := by simp [frames]
    have swapped := published.swapped
    simp only [frame] at swapped
    refine answers_of_ok (t := State.advance _) rfl (by rw [checks]) ?_
    exact ⟨swapped, published.object, published.syncs, sameBytes_congr published.bytes rfl (fun _ => Iff.rfl), published.regs.1,
      published.regs.2.1, published.regs.2.2, published.others, published.mgmt, published.outer⟩

/-! ### REVOKE (R147, R148) -/

theorem mem_ownGranules {gs : List Granule} {n : Nat} : n ∈ ownGranules gs ↔ Granule.own n ∈ gs := by
  rw [ownGranules, List.mem_dedup, List.mem_filterMap]
  constructor
  · rintro ⟨g, hg, h⟩
    cases g with
    | own m => cases h; exact hg
    | away m g => cases h
  · exact fun h => ⟨_, h, rfl⟩

theorem nodup_ownGranules (gs : List Granule) : (ownGranules gs).Nodup := List.nodup_dedup _

theorem mem_awayGranules {gs : List Granule} {m n : Nat} : (m, n) ∈ awayGranules gs ↔ Granule.away m n ∈ gs := by
  rw [awayGranules, List.mem_dedup, List.mem_filterMap]
  constructor
  · rintro ⟨g, hg, h⟩
    cases g with
    | own m => cases h
    | away m g => cases h; exact hg
  · exact fun h => ⟨_, h, rfl⟩

theorem get_bumpGens {gs : List Nat} (once : gs.Nodup) (t : Sparse (BitVec 8)) (g : Nat) :
    Sparse.get (bumpGens gs t) 0 g = Sparse.get t 0 g + (if g ∈ gs then 1 else 0) := by
  unfold bumpGens
  induction gs generalizing t with
  | nil => simp
  | cons x gs ih =>
    obtain ⟨fresh, once⟩ := List.nodup_cons.1 once
    rw [List.foldl_cons, ih once, Sparse.get_set]
    by_cases same : g = x
    · subst same
      simp [fresh]
    · simp [same]

/-- The holders learn of the REVOKE by outputs; nothing else but their counts changes. -/
theorem tellHolders_eq (s : State) (gs : List (Nat × Nat)) : ∃ os r,
    s.tellHolders gs = { s with outer := { s.outer with outputs := s.outer.outputs ++ os, remoteRevokes := r } }
    ∧ ∀ g ∈ gs, Output.revoke g.1 g.2 ∈ os := by
  unfold State.tellHolders
  induction gs generalizing s with
  | nil => exact ⟨[], s.outer.remoteRevokes, by rw [List.append_nil]; rfl, fun g hg => nomatch hg⟩
  | cons g gs ih =>
    rw [List.foldl_cons]
    obtain ⟨os, r, rest, told⟩ := ih _
    refine ⟨.revoke g.1 g.2 :: os, r, ?_, fun x hx => ?_⟩
    · rw [rest]
      simp [State.say]
    · rcases List.mem_cons.1 hx with rfl | hx
      · exact List.mem_cons_self
      · exact List.mem_cons_of_mem _ (told x hx)

theorem purge_keeps (s : State) (p : Nat) : (s.purge p).me.g = s.me.g ∧ (s.purge p).me.pc = s.me.pc := by
  unfold State.purge State.me State.core
  dsimp only
  exact get_map_of_rel (R := fun c d : Core => d.g = c.g ∧ d.pc = c.pc) (n := s.actor.core) (d := Core.init) ⟨rfl, rfl⟩
    (fun q => by split <;> exact ⟨rfl, fun _ => ⟨rfl, rfl⟩⟩) s.cores

theorem listDrop_of_none {α : Type} {n : Nat} {l : List α} (h : l[n]? = none) : listDrop n l = l := by
  induction l generalizing n with
  | nil => cases n <;> rfl
  | cons x l ih =>
    cases n with
    | zero => cases h
    | succ n => rw [listDrop, ih (by simpa using h)]

section
variable {s : State} {c : Cap} {gs : List Granule}

/-- A partition in which a REVOKE of granules has begun (R148). -/
def Partition.revoking (x : Partition) (y : Party) (gs : List Granule) : Partition :=
  { x with gens := bumpGens (ownGranules gs) x.gens
           sweeps := x.sweeps ++ [⟨y.world, y.context, ownGranules gs, awayGranules gs⟩] }

theorem revoke_of_checks (check : capCheck c c.base c.span (permStore + permStoreCap) = .ok ()) (base : c.base % 4096 = 0)
    (top : c.top % 4096 = 0) (bounds : c.base < c.top) (window : touchesWindow c.base c.top = false)
    (granules : s.granulesOf c.base c.top = .ok gs)
    (settled : ∀ w ∈ (s.part s.party.part).sweeps, (∀ g ∈ ownGranules gs, g ∉ w.granules) ∧ ∀ g ∈ awayGranules gs, g ∉ w.away) :
    s.revoke c = .ok (((s.modPart s.party.part (fun x => x.revoking s.party gs)).tellHolders (awayGranules gs)).purge
      s.party.part) := by
  have settled : (s.part s.party.part).sweeps.all (fun w => (ownGranules gs).all (fun g => !w.granules.contains g)
      && (awayGranules gs).all (fun g => !w.away.contains g)) = true := by
    refine List.all_eq_true.2 (fun w hw => ?_)
    obtain ⟨own, away⟩ := settled w hw
    simp only [Bool.and_eq_true, List.all_eq_true, Bool.not_eq_true', List.contains_eq_mem, decide_eq_false_iff_not]
    exact ⟨own, away⟩
  simp only [State.revoke, check, base, top, bounds, window, granules, settled, require, waitUnless, decide_true, Bool.and_self,
    Bool.not_false, if_true, bind, Except.bind]
  rfl

end

theorem revoke_advances (s : State) (p : Nat) (gs : List Granule) :
    let t := (((s.modPart p (fun x => x.revoking s.party gs)).tellHolders (awayGranules gs)).purge p).advance.noWait s.actor.core
    (∀ g, Sparse.get (t.part p).gens 0 g = Sparse.get (s.part p).gens 0 g + (if Granule.own g ∈ gs then 1 else 0))
    ∧ (∀ m g, Granule.away m g ∈ gs → Output.revoke m g ∈ t.outer.outputs)
    ∧ (t.part p).sweeps.length = (s.part p).sweeps.length + 1 ∧ t.me.g = s.me.g ∧ t.me.pc = s.me.pc + 1
    ∧ SameMemory s t ∧ t.mgmt = s.mgmt
    ∧ t.outer = { s.outer with outputs := t.outer.outputs, remoteRevokes := t.outer.remoteRevokes } := by
  obtain ⟨os, r, told, outputs⟩ := tellHolders_eq (s.modPart p (fun x => x.revoking s.party gs)) (awayGranules gs)
  rw [told]
  intro t
  obtain ⟨g, pc⟩ := purge_keeps { s.modPart p (fun x => x.revoking s.party gs) with
    outer := { s.outer with outputs := s.outer.outputs ++ os, remoteRevokes := r } } p
  have went : t.me = _ := State.me_setMe (State.purge _ p) _
  have part : t.part p = (s.part p).revoking s.party gs :=
    (State.part_modPart s p p (fun x => x.revoking s.party gs)).trans (if_pos rfl)
  refine ⟨fun n => ?_, fun m n h => ?_, ?_, ?_, ?_, SameMemory.of_mem rfl, rfl, rfl⟩
  · have gens : (t.part p).gens = bumpGens (ownGranules gs) (s.part p).gens := by rw [part]; rfl
    rw [gens, get_bumpGens (nodup_ownGranules gs)]
    simp only [mem_ownGranules]
  · exact List.mem_append_right _ (outputs _ (mem_awayGranules.2 h))
  · rw [part, Partition.revoking, List.length_append, List.length_singleton]
  · rw [went]
    exact g
  · rw [went]
    exact congrArg (· + 1) pc

/-- A completed sweep clears tags and is no longer among those under way (R148). -/
theorem revokeSweepComplete_answers (s : State) (n : Nat) : Answers (.revokeSweepComplete n) s (fun t =>
    (t.part s.actor.part).sweeps = listDrop n (s.part s.actor.part).sweeps
    ∧ (∀ g, g ∈ t.mem.tags → g ∈ s.mem.tags) ∧ SameBytes s t (fun _ => True) ∧ t.cores = s.cores) := by
  refine ⟨_, rfl, ?_⟩
  cases sweep : (s.part s.actor.part).sweeps[n]? with
  | none =>
    dsimp only
    exact ⟨(listDrop_of_none sweep).symm, fun _ h => h, SameBytes.refl s _, rfl⟩
  | some w =>
    dsimp only
    refine ⟨?_, fun g h => List.mem_of_mem_filter h, SameBytes.of_same (fun l _ => ⟨rfl, rfl⟩), rfl⟩
    rw [State.part_modPart, if_pos rfl]
    rfl

theorem revocationAdvancesGenerations : Claim.RevocationAdvancesGenerations := by
  intro s a d n c p
  refine ⟨fun gs check base top bounds window granules settled => ?_, answers_wroteG rfl rfl, revokeSweepComplete_answers s n⟩
  have checks := revoke_of_checks check base top bounds window granules settled
  exact answers_of_ok (t := State.advance _) rfl (by rw [checks]) (revoke_advances s p gs)

/-- Settles O17: the objects' regions, the exchange of frame pairs, which is its own inverse, and the generations that a
REVOKE advances. -/
theorem regionsArePublishedAndRevoked : Obligations.RegionsArePublishedAndRevoked :=
  ⟨regionsAreBoundAndPublished, revocationAdvancesGenerations⟩

end Sys2Proof.Machine
end
/-! ## What the writes and the settling of a forced suspension leave alone (O37) -/
section
namespace Sys2Proof.Machine

/-! ### Cores that have seen an event they watch for (R321, R322) -/

/-- A core is as before, or it watches a granule and its event latch has been set. -/
def Woken (c d : Core) : Prop := d = c ∨ (c.sys.evwatch.toNat % 2 = 1 ∧ d = c.latch)

/-- Every core is as before, or has seen an event that it watches for. -/
def CoresWoken (s t : State) : Prop := ∀ n, Woken (s.core n) (t.core n)

theorem Woken.latched {c d : Core} (h : Woken c d) : Latched c d := h.imp id And.right

theorem Woken.trans {c d e : Core} (h : Woken c d) (h' : Woken d e) : Woken c e := by
  rcases h with rfl | ⟨watches, rfl⟩
  · exact h'
  · exact .inr ⟨watches, h'.elim id And.right⟩

/-- A core that watches nothing sees no event. -/
theorem Woken.eq_of_unwatched {c d : Core} (h : Woken c d) (none : c.sys.evwatch = 0) : d = c := by
  rcases h with same | ⟨watches, -⟩
  · exact same
  · rw [none] at watches
    cases watches

theorem CoresWoken.of_cores {s t : State} (h : t.cores = s.cores) : CoresWoken s t := fun n =>
  .inl (congrArg (fun cs => Sparse.get cs Core.init n) h)

theorem coresWoken_wake (s : State) (w : Option Nat) (gs : List Nat) : CoresWoken s (s.wake w gs) := by
  intro n
  refine get_map_of_rel (R := Woken) (.inl rfl) (fun p => ?_) s.cores
  split
  next watched =>
    have watches : p.2.sys.evwatch.toNat % 2 = 1 := by
      unfold State.watched at watched
      by_contra even
      rw [if_pos (by omega)] at watched
      cases watched
    split
    · exact ⟨rfl, fun _ => .inr ⟨watches, rfl⟩⟩
    · exact ⟨rfl, fun _ => .inl rfl⟩
  next => exact ⟨rfl, fun _ => .inl rfl⟩

/-! ### Writes (R308, R321, R422) -/

/-- What writes of memory leave alone: clusters, partitions, whose turn it is, and every core but for an event it sees. -/
structure Written (s t : State) : Prop where
  cores : CoresWoken s t
  clusters : t.clusters = s.clusters
  parts : t.parts = s.parts
  actor : t.actor = s.actor

theorem Written.of_same {s t : State} (cores : t.cores = s.cores) (clusters : t.clusters = s.clusters)
    (parts : t.parts = s.parts) (actor : t.actor = s.actor) : Written s t := ⟨.of_cores cores, clusters, parts, actor⟩

theorem Written.refl (s : State) : Written s s := .of_same rfl rfl rfl rfl

theorem Written.trans {s t u : State} (h : Written s t) (h' : Written t u) : Written s u :=
  ⟨fun n => (h.cores n).trans (h'.cores n), h'.clusters.trans h.clusters, h'.parts.trans h.parts, h'.actor.trans h.actor⟩

theorem Written.foldl {α : Type} {f : State → α → State} (h : ∀ t x, Written t (f t x)) (l : List α) (s : State) :
    Written s (l.foldl f s) := by
  induction l generalizing s with
  | nil => exact .refl s
  | cons x l ih => exact (h s x).trans (ih _)

theorem written_storeAt (s : State) (w : Option Nat) (fill : Bool) (l k : Nat) (bs : List Byte) :
    Written s (s.storeAt w fill l k bs) := ⟨coresWoken_wake { s with mem := _ } _ _, rfl, rfl, rfl⟩

theorem written_poke (s : State) (l : Nat) (bs : List Byte) : Written s (s.poke l bs) :=
  ⟨coresWoken_wake { s with mem := _ } _ _, rfl, rfl, rfl⟩

theorem written_setRecBytes (s : State) (p a o : Nat) (bs : List Byte) : Written s (s.setRecBytes p a o bs) :=
  ⟨coresWoken_wake { s with mem := _ } _ _, rfl, rfl, rfl⟩

theorem written_keepOlder (s : State) (n u l k b : Nat) : Written s (s.keepOlder n u l k b) := by
  obtain ⟨clusters, parts, actor⟩ : (s.keepOlder n u l k b).clusters = s.clusters ∧ (s.keepOlder n u l k b).parts = s.parts
      ∧ (s.keepOlder n u l k b).actor = s.actor := ⟨by simp, by simp, by simp⟩
  exact .of_same (s.keepOlder_cores n u l k b) clusters parts actor

theorem written_putHere (s : State) (n u : Nat) (fill : Bool) (l k : Nat) (bs : List Byte) :
    Written s (s.putHere n u fill l k bs) := by
  unfold State.putHere
  dsimp only
  split
  · refine .foldl (fun t c => ?_) _ s
    split
    · exact .of_same rfl rfl rfl rfl
    · exact (written_keepOlder t ..).trans (written_storeAt _ ..)
  · exact (written_keepOlder s ..).trans (written_storeAt _ ..)

theorem written_putPiece (s : State) (n e w u : Nat) (fill : Bool) (p : Piece) (bs : List Byte) :
    Written s (s.putPiece n e fill p bs w u) := by
  unfold State.putPiece
  split
  · exact written_putHere s ..
  · split
    · exact .refl s
    · exact .of_same rfl rfl rfl rfl

theorem written_putPieces (s : State) (n e w u : Nat) (fill : Bool) (ps : List Piece) (bs : List Byte) :
    Written s (s.putPieces n e fill ps bs w u) := by
  unfold State.putPieces
  induction joinLines ps generalizing s bs with
  | nil => exact .refl s
  | cons p ps ih => exact (written_putPiece s ..).trans (ih _ _)

theorem written_engineWrite (s : State) (n e w : Nat) (ps : List Piece) (bs : List Byte) (u : Nat) :
    Written s (s.engineWrite n e w ps bs u) := (written_putPieces s ..).trans (.of_same rfl rfl rfl rfl)

theorem written_clearMarks (s : State) (n : Nat) (r : Option (Nat × Nat)) : Written s (s.clearMarks n r) := by
  unfold State.clearMarks State.unmarkPending
  split
  · dsimp only
    split
    · exact .of_same rfl rfl rfl rfl
    · exact .refl s
  · exact .refl s

/-! ### Traffic that a suspension finishes (R167, R287, R342) -/

/-- What a core's continuation is and holds in its registers. -/
def Core.regs (c : Core) : Option Running × Sparse Word64 × Sparse Cap × Word64 := (c.run, c.g, c.c, c.pc)

/-- Where a cluster stands in its rotation (R372). -/
def Cluster.clock (c : Cluster) : Nat × Nat := (c.frame, c.frameStart)

/-- What a change of one core leaves alone: the other cores but for an event they see, the rotations, whose turn it is. -/
structure Beside (n : Nat) (s t : State) : Prop where
  others : ∀ m, m ≠ n → Woken (s.core m) (t.core m)
  clock : ∀ k, (t.cluster k).clock = (s.cluster k).clock
  actor : t.actor = s.actor

theorem Beside.refl (n : Nat) (s : State) : Beside n s s := ⟨fun _ _ => .inl rfl, fun _ => rfl, rfl⟩

theorem Beside.trans {n : Nat} {s t u : State} (h : Beside n s t) (h' : Beside n t u) : Beside n s u :=
  ⟨fun m other => (h.others m other).trans (h'.others m other), fun k => (h'.clock k).trans (h.clock k),
    h'.actor.trans h.actor⟩

theorem Written.beside {s t : State} (h : Written s t) (n : Nat) : Beside n s t :=
  ⟨fun m _ => h.cores m, fun k => congrArg (fun cs => (Sparse.get cs Cluster.init k).clock) h.clusters, h.actor⟩

theorem beside_setCore (s : State) (n : Nat) (c : Core) : Beside n s (s.setCore n c) :=
  ⟨fun m other => .inl ((s.core_setCore n m c).trans (if_neg other)), fun _ => rfl, rfl⟩

theorem beside_setCluster {s : State} {k : Nat} {c : Cluster} (h : c.clock = (s.cluster k).clock) (n : Nat) :
    Beside n s (s.setCluster k c) := by
  refine ⟨fun _ _ => .inl rfl, fun j => ?_, rfl⟩
  rw [State.cluster_setCluster]
  split
  next same => rw [same, h]
  next => rfl

/-- What work of a core that is finished leaves alone: its continuation and registers too, and the partitions. -/
structure Settles (n : Nat) (s t : State) : Prop extends Beside n s t where
  regs : (t.core n).regs = (s.core n).regs
  parts : t.parts = s.parts

theorem Settles.refl (n : Nat) (s : State) : Settles n s s := ⟨.refl n s, rfl, rfl⟩

theorem Settles.trans {n : Nat} {s t u : State} (h : Settles n s t) (h' : Settles n t u) : Settles n s u :=
  ⟨h.toBeside.trans h'.toBeside, h'.regs.trans h.regs, h'.parts.trans h.parts⟩

theorem Settles.foldl {α : Type} {n : Nat} {f : State → α → State} {l : List α} (h : ∀ t, ∀ x ∈ l, Settles n t (f t x))
    (s : State) : Settles n s (l.foldl f s) := by
  induction l generalizing s with
  | nil => exact .refl n s
  | cons x l ih => exact (h s x List.mem_cons_self).trans (ih (fun t y hy => h t y (List.mem_cons_of_mem x hy)) _)

theorem Written.settles {s t : State} (h : Written s t) (n : Nat) : Settles n s t :=
  ⟨h.beside n, (h.cores n).latched.same Core.regs rfl, h.parts⟩

theorem settles_setCore {s : State} {n : Nat} {c : Core} (h : c.regs = (s.core n).regs) : Settles n s (s.setCore n c) :=
  ⟨beside_setCore s n c, by rw [State.core_setCore_same, h], rfl⟩

theorem settles_setCluster {s : State} {k : Nat} {c : Cluster} (h : c.clock = (s.cluster k).clock) (n : Nat) :
    Settles n s (s.setCluster k c) := ⟨beside_setCluster h n, rfl, rfl⟩

theorem settles_settleMatrix (s : State) (n : Nat) : Settles n s (s.settleMatrix n) := by
  have landed (t : State) (f : MatFlight) : Settles n t (t.landMatrix (clusterOf n) f) := by
    unfold State.landMatrix
    split
    · exact settles_setCluster (by rfl) n
    · exact ((written_engineWrite t ..).trans (written_clearMarks _ ..)).settles n
  exact (Settles.foldl (fun t f _ => landed t f) s).trans (settles_setCluster (by rfl) n)

theorem StratRun.core_land (u : StratRun) (w : StratTraffic) : (u.land w).core = u.core := by
  cases w with
  | merge rs => rfl
  | query rows pos => rfl
  | table es base => rfl
  | block n k => rfl
  | store bs => rfl

theorem settles_landStrat (s : State) (u : StratRun) (f : StratFlight) : Settles u.core s (s.landStrat u f) := by
  have written : Written s (match f.what with | .store bs => s.engineWrite u.core 4 f.word f.pieces bs | _ => s) := by
    split
    · exact written_engineWrite s ..
    · exact .refl s
  exact (written.settles u.core).trans (settles_setCore (by rfl))

theorem settles_settleFlight (s : State) (u : StratRun) (f : StratFlight) :
    Settles u.core s (s.settleFlight u f).1 ∧ (s.settleFlight u f).2.core = u.core := by
  unfold State.settleFlight
  split
  · exact ⟨.refl _ s, rfl⟩
  · exact ⟨settles_landStrat s u f, u.core_land f.what⟩

theorem settles_flights {n : Nat} (fs : List StratFlight) {r : State × StratRun} (own : r.2.core = n) :
    Settles n r.1 (fs.foldl (fun r f => r.1.settleFlight r.2 f) r).1 := by
  induction fs generalizing r with
  | nil => exact .refl n r.1
  | cons f fs ih =>
    obtain ⟨settles, core⟩ := settles_settleFlight r.1 r.2 f
    rw [own] at settles core
    exact settles.trans (ih core)

theorem settles_settleStrat (s : State) (n : Nat) : Settles n s (s.settleStrat n) := by
  unfold State.settleStrat
  dsimp only
  split
  · exact .refl n s
  next u _ =>
    split
    next own =>
      refine (settles_flights u.traffic (r := (s, { u with traffic := [], wants := false, held := none })) own).trans ?_
      exact settles_setCluster (by rfl) n
    · exact .refl n s

/-- What is given up of what a core has under way changes nothing but the requests. -/
theorem settles_dropReads (s : State) (n m : Nat) : Settles n s (s.dropReads m) := ⟨⟨fun _ _ => .inl rfl, fun _ => rfl, rfl⟩, rfl, rfl⟩

theorem Core.regs_settle (c : Core) : c.settle.regs = c.regs := by
  have completed (d : Core) (f : VecFlight) : (d.complete f).regs = d.regs := by
    unfold Core.complete
    cases f.dest <;> cases f.post <;> rfl
  have loaded (d : Core) : (d.eng.loads.foldl (fun d l => d.setLoadQ l.queue (d.loadQ l.queue ++ [l.data])) d).regs = d.regs :=
    foldl_keeps Core.regs (fun (d : Core) (l : LoadFlight) _ => show (d.setLoadQ l.queue _).regs = d.regs from rfl) d
  exact (loaded _).trans (foldl_keeps Core.regs (fun d f _ => completed d f) c)

end Sys2Proof.Machine
end
/-! ## Forced suspension (O37, R167, R375) -/
section
namespace Sys2Proof.Machine

/-! ### The save (R168, R377) -/

/-- The area of a save holds the continuation and its registers. -/
structure SavedFrom (x : Saved) (r : Running) (c : Core) (kind : Nat) : Prop where
  record : x.record = r.record
  world : x.world = r.world
  context : x.context = r.context
  kind : x.kind = kind
  regs : x.core.regs = c.regs

/-- A partition whose area i holds a save of the next epoch (R378). -/
def Partition.withSave (p : Partition) (i : Nat) (x : Saved) : Partition :=
  { p with areas := Sparse.set i ⟨(Sparse.get p.areas Area.init i).epoch + 1, some x⟩ p.areas }

theorem save_of_free {s : State} {n i : Nat} {r : Running} (run : (s.core n).run = some r)
    (free : (s.part r.part).freeArea = some i) (kind : Nat) (faulted : Bool) : ∃ x c bs,
      s.save n kind faulted = (((s.setPart r.part ((s.part r.part).withSave i x)).setCluster (clusterOf n) c).poke
        (hbmLoc r.part ((s.part r.part).handle i)) bs, (s.part r.part).handle i)
      ∧ SavedFrom x r (s.core n) kind ∧ c.clock = (s.cluster (clusterOf n)).clock := by
  unfold State.save
  rw [run]
  dsimp only
  rw [free]
  exact ⟨_, _, _, rfl, ⟨rfl, rfl, rfl, rfl, Core.regs_settle _⟩, rfl⟩

/-- A save in a state: the area, and nothing else of the partitions. -/
theorem save_facts {s : State} {n i : Nat} {r : Running} (run : (s.core n).run = some r)
    (free : (s.part r.part).freeArea = some i) (kind : Nat) (faulted : Bool) :
    Beside n s (s.save n kind faulted).1 ∧ (s.save n kind faulted).2 = (s.part r.part).handle i
    ∧ ∃ x, SavedFrom x r (s.core n) kind ∧ (s.save n kind faulted).1.part r.part = (s.part r.part).withSave i x := by
  obtain ⟨x, c, bs, saves, saved, clock⟩ := save_of_free run free kind faulted
  rw [saves]
  refine ⟨?_, rfl, x, saved, ?_⟩
  · have kept : Beside n s (s.setPart r.part ((s.part r.part).withSave i x)) := ⟨fun _ _ => .inl rfl, fun _ => rfl, rfl⟩
    exact (kept.trans (beside_setCluster (by exact clock) n)).trans ((written_poke _ _ bs).beside n)
  · exact (s.part_setPart r.part r.part _).trans (if_pos rfl)

/-! ### The record (R104, R155) -/

/-- The first argument stands 32 bytes into the record. -/
theorem recArg_zero (s : State) (p a : Nat) :
    recArg (s.record p a) 0 = BitVec.ofNat 64 (leNat (s.raw (hbmLoc p a + 32) 8)) := by
  have parts : s.record p a = s.raw (hbmLoc p a) 32 ++ s.raw (hbmLoc p a + 32) 8 ++ s.raw (hbmLoc p a + 40) 24 := by
    rw [State.record, ← raw_append, ← raw_append]
  have mid := sliceB_middle (s.raw (hbmLoc p a) 32) (s.raw (hbmLoc p a + 32) 8) (s.raw (hbmLoc p a + 40) 24)
  rw [length_raw, length_raw, ← parts] at mid
  rw [recArg, numAt, mid]

/-- The record of a continuation that is taken from its core: its control word, and the handle of its save in its first
argument (R167). -/
def State.putForced (s : State) (p a c h : Nat) : State :=
  (s.setCtl p a c).setRecBytes p a 32 (leBytes h 8 ++ List.replicate 24 0)

theorem written_putForced (s : State) (p a c h : Nat) : Written s (s.putForced p a c h) :=
  (written_setRecBytes s ..).trans (written_setRecBytes _ ..)

theorem ctl_putForced (s : State) (p a c h : Nat) : (s.putForced p a c h).ctl p a = c % 2 ^ 32 := by
  have before := ctl_setCtlBy s none p a c
  rw [ctl_eq_leNat] at before ⊢
  have outside := State.raw_poke_outside (s.setCtl p a c) (a := hbmLoc p a + 28) (n := 4) (l := hbmLoc p a + 32)
    (bs := leBytes h 8 ++ List.replicate 24 0) (.inl (by omega))
  exact (congrArg leNat outside).trans before

theorem recArg_putForced (s : State) (p a c h : Nat) :
    recArg ((s.putForced p a c h).record p a) 0 = BitVec.ofNat 64 h := by
  have stands := State.raw_poke (s.setCtl p a c) (hbmLoc p a + 32) (leBytes h 8 ++ List.replicate 24 0)
  have whole : (leBytes h 8 ++ List.replicate 24 (0 : Byte)).length = 8 + 24 := by simp
  rw [whole, raw_append] at stands
  have first : (s.putForced p a c h).raw (hbmLoc p a + 32) 8 = leBytes h 8 := (List.append_inj stands (by simp)).1
  rw [recArg_zero, first, leNat_leBytes]
  apply BitVec.eq_of_toNat_eq
  simp

/-! ### The continuation taken from its core (R167) -/

/-- A core that its continuation leaves with its words finished, none of which waits or is unordered any more. -/
def State.leftIdle (s : State) (n : Nat) : State :=
  ((s.setCore n (s.core n).settle.idle).noWaits n).perform n (fun _ => true)

theorem core_leftIdle (s : State) (n : Nat) : (s.leftIdle n).core n = (s.core n).settle.idle :=
  s.core_setCore_same n (s.core n).settle.idle

theorem beside_leftIdle (s : State) (n : Nat) : Beside n s (s.leftIdle n) :=
  (beside_setCore s n _).trans ⟨fun _ _ => .inl rfl, fun _ => rfl, rfl⟩

/-- The words are finished in u, and the save is v. -/
theorem forceOut_eq {s u : State} {v : State × Nat} {n kind st : Nat} {r : Running} (run : (s.core n).run = some r)
    (hu : (((s.setCore n (s.core n).latch).settleMatrix n).settleStrat n).dropReads n = u)
    (hv : u.save n kind (st = 6) = v) : s.forceOut n kind st =
      (v.1.putForced r.part r.record (putBits (putBits (v.1.ctl r.part r.record) 0 3 st) 12 1 1) v.2).leftIdle n := by
  unfold State.forceOut
  rw [run]
  dsimp only
  rw [hu, hv]
  unfold State.leftIdle State.putForced
  rfl

/-- A core's continuation has been taken from it: the core is idle, its state stands in area i, the record has its state,
full state and the handle. -/
structure ForcedOut (s t : State) (n i : Nat) (r : Running) (kind st : Nat) : Prop extends Beside n s t where
  idle : ∃ c : Core, t.core n = c.idle
  saved : ∃ x, SavedFrom x r (s.core n) kind ∧ t.part r.part = (s.part r.part).withSave i x
  ctl : ∃ c, t.ctl r.part r.record = putBits (putBits c 0 3 st) 12 1 1 % 2 ^ 32
  handle : recArg (t.record r.part r.record) 0 = BitVec.ofNat 64 ((s.part r.part).handle i)

theorem forcedOut_forceOut {s : State} {n i : Nat} {r : Running} (run : (s.core n).run = some r)
    (free : (s.part r.part).freeArea = some i) (kind st : Nat) : ForcedOut s (s.forceOut n kind st) n i r kind st := by
  obtain ⟨u, hu⟩ : ∃ u, (((s.setCore n (s.core n).latch).settleMatrix n).settleStrat n).dropReads n = u := ⟨_, rfl⟩
  obtain ⟨v, hv⟩ : ∃ v, u.save n kind (st = 6) = v := ⟨_, rfl⟩
  have settles : Settles n s u := hu ▸ ((((settles_setCore (by rfl)).trans (settles_settleMatrix _ n)).trans
    (settles_settleStrat _ n)).trans (settles_dropReads _ n n))
  have part : u.part r.part = s.part r.part := congrArg (fun ps => Sparse.get ps Partition.init r.part) settles.parts
  have still : (u.core n).run = some r := (congrArg Prod.fst settles.regs).trans run
  obtain ⟨beside, handle, x, saved, area⟩ := hv ▸ save_facts still (by rw [part]; exact free) kind (decide (st = 6))
  rw [part] at handle area
  rw [forceOut_eq run hu hv]
  generalize v.1.ctl r.part r.record = c
  have written := written_putForced v.1 r.part r.record (putBits (putBits c 0 3 st) 12 1 1) v.2
  have ctl := ctl_putForced v.1 r.part r.record (putBits (putBits c 0 3 st) 12 1 1) v.2
  have arg := recArg_putForced v.1 r.part r.record (putBits (putBits c 0 3 st) 12 1 1) v.2
  generalize v.1.putForced r.part r.record (putBits (putBits c 0 3 st) 12 1 1) v.2 = w at written ctl arg
  constructor
  case toBeside => exact ((settles.toBeside.trans beside).trans (written.beside n)).trans (beside_leftIdle w n)
  case idle => exact ⟨(w.core n).settle, core_leftIdle w n⟩
  case saved =>
    refine ⟨x, ⟨saved.record, saved.world, saved.context, saved.kind, saved.regs.trans settles.regs⟩, ?_⟩
    exact (congrArg (fun ps => Sparse.get ps Partition.init r.part) written.parts).trans area
  case ctl => exact ⟨_, (ctl_congr (t := w.leftIdle n) (s := w) rfl _ _).trans ctl⟩
  case handle =>
    rw [record_congr (t := w.leftIdle n) (s := w) rfl, arg, handle]

end Sys2Proof.Machine
end
section
namespace Sys2Proof.Machine

/-! ### The suspension, and the edge of a frame (R167, R375) -/

/-- A forced suspension takes the continuation from its core, where there is one, an area is free, and nothing must go on;
else nothing happens. -/
theorem forceSuspend_cases (s : State) (n kind : Nat) : s.forceSuspend n kind = s ∨ ∃ i r,
    ForcedOut s (s.forceOut n kind 1) n i r kind 1
    ∧ s.forceSuspend n kind = (s.forceOut n kind 1).enterPool r.part r.record := by
  unfold State.forceSuspend
  split
  · exact .inl rfl
  next r run =>
    split
    · exact .inl rfl
    next can =>
      have free : (s.part r.part).freeArea.isSome = true := by
        simp only [State.canSave, run, Bool.or_eq_true, Bool.not_eq_true', not_or, Bool.not_eq_false] at can
        exact can.1
      obtain ⟨i, free⟩ := Option.isSome_iff_exists.1 free
      exact .inr ⟨i, r, forcedOut_forceOut run free kind 1, rfl⟩

theorem beside_enterPool (s : State) (n p a : Nat) : Beside n s (s.enterPool p a) := ⟨fun _ _ => .inl rfl, fun _ => rfl, rfl⟩

theorem beside_forceSuspend (s : State) (n kind : Nat) : Beside n s (s.forceSuspend n kind) := by
  rcases forceSuspend_cases s n kind with same | ⟨i, r, forced, suspended⟩
  · rw [same]
    exact .refl n s
  · rw [suspended]
    exact forced.toBeside.trans (beside_enterPool _ n _ _)

/-- A control word with its state and its full-state bit written (R156). -/
theorem ctl_fields {c st v : Nat} (small : st < 8) :
    ctlState (putBits (putBits c 0 3 st) 12 1 v % 2 ^ 32) = st
      ∧ ctlFull (putBits (putBits c 0 3 st) 12 1 v % 2 ^ 32) = v.testBit 0 := by
  refine ⟨?_, ?_⟩
  · rw [ctlState, bitsAt_mod (by decide), bitsAt_putBits_other (by decide), bitsAt_putBits_same]
    exact Nat.mod_eq_of_lt small
  · rw [ctlFull, bitAt_eq_testBit, Nat.testBit_mod_two_pow, testBit_putBits, if_pos (by decide)]
    rfl

theorem part_enterPool (s : State) (p a : Nat) :
    (s.enterPool p a).part p = { s.part p with pool := ((s.enterPool p a).part p).pool } := by
  have part := State.part_modPart s p p (fun x => { x with
    pool := x.pool ++ [⟨a, ctlClass (s.ctl p a), ctlClass (s.ctl p a), s.time⟩] })
  rw [if_pos rfl] at part
  rw [State.enterPool]
  dsimp only
  rw [part]

/-- The management's request suspends the continuation of the acting core (R167). -/
theorem forcedSuspend_saves {s : State} {r : Running} {i : Nat} (run : s.me.run = some r)
    (free : (s.part r.part).freeArea = some i) (may : s.mustGoOn s.actor.core = false) : ∃ t,
      exec .forcedSuspend s = .next (t.enterPool r.part r.record) ∧ ForcedOut s t s.actor.core i r 3 1 := by
  have run' : (s.core s.actor.core).run = some r := run
  refine ⟨_, ?_, forcedOut_forceOut run' free 3 1⟩
  change Host.Outcome.next (s.forceSuspend s.actor.core 3) = _
  have can : s.canSave s.actor.core = true := by
    unfold State.canSave
    rw [run']
    dsimp only
    rw [free]
    rfl
  unfold State.forceSuspend
  rw [run']
  simp only [can, may, Bool.not_true, Bool.or_self, Bool.false_eq_true, ↓reduceIte]

theorem forcedSuspend_waits {s : State} {r : Running} (run : s.me.run = some r) (must : s.mustGoOn s.actor.core = true) :
    exec .forcedSuspend s = .next s := by
  change Host.Outcome.next (s.forceSuspend s.actor.core 3) = _
  unfold State.forceSuspend
  rw [show (s.core s.actor.core).run = some r from run]
  simp only [must, Bool.or_true, ↓reduceIte]

theorem edgeCore_facts (s : State) (n : Nat) : Beside n s (s.edgeCore n) ∧ (s.edgeCore n).core n = Core.init := by
  have cleared (t : State) : Beside n t (t.clearCore n) :=
    ⟨fun m other => .inl ((State.core_setCore (t.clearL1 n) n m Core.init).trans (if_neg other)), fun _ => rfl, rfl⟩
  exact ⟨(beside_forceSuspend s n 1).trans (cleared _), State.core_setCore_same _ n Core.init⟩

/-- The cores that change owner at an edge are clear after it, and the others go on (R375). -/
theorem edgeCores_facts (ns : List Nat) (s : State) :
    (∀ n ∈ ns, (ns.foldl State.edgeCore s).core n = Core.init)
    ∧ (∀ n, n ∉ ns → Woken (s.core n) ((ns.foldl State.edgeCore s).core n))
    ∧ (∀ k, ((ns.foldl State.edgeCore s).cluster k).clock = (s.cluster k).clock)
    ∧ (ns.foldl State.edgeCore s).actor = s.actor := by
  induction ns generalizing s with
  | nil => exact ⟨fun _ h => (List.not_mem_nil h).elim, fun _ _ => .inl rfl, fun _ => rfl, rfl⟩
  | cons m ns ih =>
    obtain ⟨first, clear⟩ := edgeCore_facts s m
    obtain ⟨cleared, others, clock, actor⟩ := ih (s.edgeCore m)
    refine ⟨fun n hn => ?_, fun n hn => ?_, fun k => (clock k).trans (first.clock k), actor.trans first.actor⟩
    · by_cases later : n ∈ ns
      · exact cleared n later
      · obtain rfl : n = m := (List.mem_cons.1 hn).resolve_right later
        have stays := others n later
        rw [clear] at stays
        exact stays.eq_of_unwatched rfl
    · rw [List.mem_cons, not_or] at hn
      exact (first.others n hn.1).trans (others n hn.2)

theorem frameEdge_crosses {s : State} (ended : (s.cluster s.home).frameOver s.time = true)
    (save : s.canSaveAll (s.partOfCore (8 * s.home)) ((s.cluster s.home).edgeCores s.home) = true) :
    exec .frameEdge s = .next (s.crossEdge s.home) := by
  change execFrameEdge s = _
  simp only [execFrameEdge, ended, save, Bool.not_true, Bool.false_eq_true, or_self, ↓reduceIte]

theorem forcedSuspensionSaves : Claim.ForcedSuspensionSaves := by
  refine ⟨fun s r i => ?_, fun s => ?_⟩
  · intro p run free
    refine ⟨fun must => ⟨s, forcedSuspend_waits run must, rfl⟩, fun may => ?_⟩
    obtain ⟨t, suspends, forced⟩ := forcedSuspend_saves run free may
    obtain ⟨c, idle⟩ := forced.idle
    obtain ⟨x, saved, area⟩ := forced.saved
    obtain ⟨d, ctl⟩ := forced.ctl
    obtain ⟨state, full⟩ := ctl_fields (c := d) (st := 1) (v := 1) (by decide)
    rw [← ctl] at state full
    have me : (t.enterPool r.part r.record).me = c.idle := by
      rw [← idle, ← forced.actor]
      rfl
    obtain ⟨e, pool, entry⟩ := pool_enterPool t r.part r.record
    have areas : ((t.enterPool r.part r.record).part r.part).areas = ((s.part r.part).withSave i x).areas := by
      rw [part_enterPool, ← area]
    obtain ⟨run', g, caps, pc⟩ : x.core.run = s.me.run ∧ x.core.g = s.me.g ∧ x.core.c = s.me.c ∧ x.core.pc = s.me.pc := by
      have regs := saved.regs
      simp only [Core.regs, Prod.mk.injEq] at regs
      exact regs
    refine ⟨_, suspends, ?_, ?_, ?_, ⟨?_, e, ?_, entry⟩, ?_, ?_, ⟨x, ?_, saved.record, saved.world, saved.context, saved.kind, g,
      caps, pc⟩, fun j other => ?_⟩
    · rw [me]; rfl
    · rw [me]; rfl
    · rw [me]; rfl
    · exact (congrArg ctlState (ctl_congr rfl _ _)).trans state
    · rw [pool]; simp
    · exact (congrArg ctlFull (ctl_congr rfl _ _)).trans full
    · exact (congrArg (recArg · 0) (record_congr rfl _ _)).trans forced.handle
    · rw [areas]; exact Sparse.find?_set_same i _ _
    · rw [areas]; exact Sparse.find?_set_other _ _ other
  · intro k c e ended save
    have edge : exec .frameEdge s = .next (s.crossEdge k) := frameEdge_crosses (decide_eq_true ended) save
    obtain ⟨cleared, others, clock, actor⟩ := edgeCores_facts e (s.setCluster k { c with
      frame := c.nextFrame c.frame, frameStart := c.frameStart + 2 ^ (c.frameEntry c.frame).lexp })
    have rotated := clock k
    rw [State.cluster_setCluster, if_pos rfl, Cluster.clock, Cluster.clock, Prod.mk.injEq] at rotated
    have home : (s.crossEdge k).myCluster = (s.crossEdge k).cluster k := by
      rw [State.myCluster, State.home, show (s.crossEdge k).actor = s.actor from actor]
      rfl
    refine ⟨_, edge, ?_, ?_, cleared, fun n stays => (others n stays).latched⟩
    · rw [home]; exact rotated.1
    · rw [home]; exact rotated.2

end Sys2Proof.Machine
end
section
namespace Sys2Proof.Machine

/-! ### Ageing and owed traps (R164, R179) -/

/-- A control word in which a trap code stands (R179). -/
theorem owed_fields {c code : Nat} (small : code < 256) :
    ctlDef (putBits c 24 8 code % 2 ^ 32) = code ∧ ctlState (putBits c 24 8 code % 2 ^ 32) = ctlState c := by
  refine ⟨?_, ?_⟩
  · rw [ctlDef, bitsAt_mod (by decide), bitsAt_putBits_same]
    exact Nat.mod_eq_of_lt small
  · rw [ctlState, bitsAt_mod (by decide), bitsAt_putBits_other (by decide), ctlState]

/-- A control word that the device has put into a record, and what a change of its partition leaves of it. -/
theorem putCtl_modPart_facts (s : State) (p a c : Nat) (f : Partition → Partition) :
    ((s.setCtl p a c).modPart p f).ctl p a = c % 2 ^ 32 ∧ ((s.setCtl p a c).modPart p f).part p = f (s.part p)
      ∧ SameBytes s ((s.setCtl p a c).modPart p f) (fun l => l < hbmLoc p a + 28 ∨ hbmLoc p a + 32 ≤ l) := by
  have bytes := sameBytes_setRecBytesBy s none p a 28 (leBytes c 4)
  rw [length_leBytes] at bytes
  exact ⟨(ctl_congr rfl p a).trans (ctl_setCtlBy s none p a c), (State.part_modPart _ p p f).trans (if_pos rfl), bytes⟩

theorem waitingRecordsAgeAndOwe : Claim.WaitingRecordsAgeAndOwe := by
  refine ⟨fun s a => ?_, fun s a va => ?_⟩
  · intro q
    have part := State.part_modPart s q q (fun p =>
      { p with pool := p.pool.map (fun e => if e.record = a then e.aged p.age s.time else e) })
    rw [if_pos rfl] at part
    refine ⟨_, rfl, congrArg Partition.pool part, ?_, SameMemory.of_mem rfl, rfl, rfl⟩
    dsimp only
    rw [part]
  · intro q st unit low high
    obtain ⟨ctl, part, bytes⟩ := putCtl_modPart_facts s q a (putBits (s.ctl q a) 24 8 26)
      (fun x => { x with owed := Sparse.set a (BitVec.ofNat 64 (unitAddr va.toNat)) x.owed })
    obtain ⟨code, state⟩ := owed_fields (c := s.ctl q a) (code := 26) (by decide)
    have address : unitAddr va.toNat = va.toNat / unit * unit := by
      unfold unitAddr floorTo
      by_cases translated : windowOf va.toNat = .translated
      · simp only [unit, translated, if_true]
      · simp only [unit, translated, if_false]
    have owes : exec (.deferredMemerr ⟨a, va⟩) s = .next ((s.setCtl q a (putBits (s.ctl q a) 24 8 26)).modPart q
        (fun x => { x with owed := Sparse.set a (BitVec.ofNat 64 (unitAddr va.toNat)) x.owed })) := by
      change Host.Outcome.next (if st = 0 ∨ 5 ≤ st then s else s.oweMemerr q a (BitVec.ofNat 64 (unitAddr va.toNat))) = _
      rw [if_neg (by omega)]
      rfl
    rw [← ctl] at code state
    refine ⟨_, owes, code, state, ?_, ?_, bytes⟩
    · rw [part, address]
      exact Sparse.find?_set_same a _ _
    · rw [part]

end Sys2Proof.Machine
end
/-! ## Pickup (O37, R163, R164, R380) -/
section
namespace Sys2Proof.Machine

/-! ### What a change of ready pools leaves of the translation of addresses (R413 to R417) -/

/-- Two states differ in the ready pools of their partitions at most. -/
structure PoolsApart (s t : State) : Prop where
  rest : t = { s with parts := t.parts }
  parts : ∀ p, t.part p = { s.part p with pool := (t.part p).pool }

theorem poolsApart_modPart (s : State) (p : Nat) (f : List PoolEntry → List PoolEntry) :
    PoolsApart s (s.modPart p (fun x => { x with pool := f x.pool })) := by
  refine ⟨rfl, fun q => ?_⟩
  rw [State.part_modPart]
  split
  next same => rw [same]
  next => rfl

section
variable {s t : State} (h : PoolsApart s t)
include h

theorem PoolsApart.mem : t.mem = s.mem := by rw [h.rest]
theorem PoolsApart.outer : t.outer = s.outer := by rw [h.rest]
theorem PoolsApart.mgmt : t.mgmt = s.mgmt := by rw [h.rest]
theorem PoolsApart.draws : t.draws = s.draws := by rw [h.rest]
theorem PoolsApart.cores : t.cores = s.cores := by rw [h.rest]
theorem PoolsApart.clusters : t.clusters = s.clusters := by rw [h.rest]
theorem PoolsApart.actor : t.actor = s.actor := by rw [h.rest]

/-- What does not look at the pool of a partition is the same of both. -/
theorem PoolsApart.view {α : Type} (view : Partition → α) (hv : ∀ x l, view { x with pool := l } = view x) (p : Nat) :
    view (t.part p) = view (s.part p) := by rw [h.parts p, hv]

theorem PoolsApart.worlds (p w : Nat) : (t.part p).world w = (s.part p).world w := h.view (·.world w) (fun _ _ => rfl) p

theorem PoolsApart.worldOf (y : Party) : t.worldOf y = s.worldOf y := h.worlds y.part y.world

theorem PoolsApart.frameOk (p a n : Nat) : t.frameOk p a n = s.frameOk p a n := by
  unfold State.frameOk
  rw [h.outer, h.view Partition.memSize (fun _ _ => rfl)]
  simp only [h.view (fun x => x.frameAddr _) (fun _ _ => rfl)]

theorem PoolsApart.raw (l n : Nat) : t.raw l n = s.raw l n := by rw [State.raw, State.raw, h.mem]

theorem PoolsApart.walk2 (p g L table : Nat) : t.walk2 p g L table = s.walk2 p g L table := by
  have outside (L e : Nat) : t.leafOutside p L e = s.leafOutside p L e := by
    simp only [State.leafOutside, h.frameOk]
  induction L generalizing table with
  | zero => rw [State.walk2, State.walk2]; simp only [h.frameOk, h.mem, h.raw, outside]
  | succ L ih => rw [State.walk2, State.walk2]; simp only [h.frameOk, h.mem, h.raw, outside, ih]

theorem PoolsApart.pageKey (p w : Nat) (k : Bool) : t.pageKey p w k = s.pageKey p w k := by
  simp only [State.pageKey, State.weightKey, State.secret, State.keyOf, h.mgmt, h.worlds]

theorem PoolsApart.translate2 (y : Party) (g : Nat) (w z : Bool) : t.translate2 y g w z = s.translate2 y g w z := by
  have image (l n : Nat) : t.inImage y.part l n = s.inImage y.part l n :=
    h.view (fun x => x.images.any _) (fun _ _ => rfl) y.part
  have weights (l n : Nat) : t.inWeights y.part l n = s.inWeights y.part l n := by
    rw [State.inWeights, State.inWeights, h.outer]
  have swapped := h.view Partition.swapped (fun _ _ => rfl) y.part
  simp only [State.translate2, h.worldOf, h.walk2, h.frameOk, h.pageKey, image, weights, swapped]

theorem PoolsApart.read2 (y : Party) (g L va : Nat) (w : Bool) : t.read2 y g L va w = s.read2 y g L va w := by
  simp only [State.read2, State.farLine, h.translate2, h.mem, h.outer]

theorem PoolsApart.walk1 (y : Party) (va : Nat) (w : Bool) (L table : Nat) :
    t.walk1 y va w L table = s.walk1 y va w L table := by
  induction L generalizing table with
  | zero => rw [State.walk1, State.walk1]; simp only [h.read2]
  | succ L ih => rw [State.walk1, State.walk1]; simp only [h.read2, ih]

theorem PoolsApart.translate (y : Party) (va : Nat) (w z : Bool) : t.translate y va w z = s.translate y va w z := by
  have vf (v : Nat) : t.vf v = s.vf v := by rw [State.vf, State.vf, h.outer]
  have guest : t.guestOf y va w = s.guestOf y va w := by
    simp only [State.guestOf, h.worldOf, h.read2, h.walk1, vf]
  simp only [State.translate, guest, h.translate2]

theorem PoolsApart.freshCap (y : Party) (c : Cap) : t.freshCap y c = s.freshCap y c := by
  have gens := h.view Partition.gens (fun _ _ => rfl) y.part
  have gen (va : Nat) : t.genAt y va = s.genAt y va := by simp only [State.genAt, h.translate, h.outer, gens]
  have far (va : Nat) : t.farStale y va = s.farStale y va := by simp only [State.farStale, h.translate, h.draws]
  rw [State.freshCap, State.freshCap, gen, far]

/-! ### What a pickup reads (R155, R163, R380) -/

theorem PoolsApart.record (p a : Nat) : t.record p a = s.record p a := h.raw _ _

theorem PoolsApart.runningOf (p a : Nat) : t.runningOf p a = s.runningOf p a := by
  have world : t.recWorld p a = s.recWorld p a := by
    simp only [State.recWorld, State.ctl, h.record, h.view Partition.recWorlds (fun _ _ => rfl)]
  have owner := h.view Partition.owner (fun _ _ => rfl) p
  simp only [State.runningOf, world, owner, h.record]

theorem PoolsApart.frameCap (r : Running) : t.frameCap r = s.frameCap r := by
  rw [State.frameCap, State.frameCap, h.freshCap, h.record, h.mem]

theorem PoolsApart.areaFor (p a : Nat) : t.areaFor p a = s.areaFor p a := by
  simp only [State.areaFor, h.record, h.view (fun x => x.areaOf _) (fun _ _ => rfl), h.view Partition.areas (fun _ _ => rfl)]

theorem PoolsApart.restorable (r : Running) (i : Nat) (x : Saved) : t.restorable r i x = s.restorable r i x := by
  have key : t.saveKey r.part r.world r.context = s.saveKey r.part r.world r.context := by
    rw [State.saveKey, State.saveKey, State.secret, State.secret, h.mgmt]
  simp only [State.restorable, key, h.mem, h.raw, h.view (fun x => x.handle _) (fun _ _ => rfl),
    h.view Partition.areas (fun _ _ => rfl)]

end

/-! ### The record that is taken up (R163) -/

/-- The entries of a record leave its partition's pool. -/
def State.dequeue (s : State) (p a : Nat) : State :=
  s.modPart p (fun x => { x with pool := x.pool.filter (fun q => q.record != a) })

theorem part_dequeue (s : State) (p a : Nat) :
    (s.dequeue p a).part p = { s.part p with pool := (s.part p).pool.filter (fun q => q.record != a) } :=
  (s.part_modPart p p _).trans (if_pos rfl)

theorem poolsApart_dequeue (s : State) (p a : Nat) : PoolsApart s (s.dequeue p a) :=
  poolsApart_modPart s p (fun l => l.filter (fun q => q.record != a))

theorem retryAborts_of_quiet {s : State} (quiet : ∀ f ∈ s.outer.vfs, f.2.state ≠ 3) : s.retryAborts = s :=
  foldl_keeps (fun t : State => t) (fun _ f hf => if_neg (quiet f hf)) s

theorem exec_pickup {s : State} {p : Nat} {e : PoolEntry} (idle : s.me.run = none) (owner : s.ownerOf s.home = some p)
    (going : (s.part p).held = false) (best : s.bestEntry s.actor.core p = some e) :
    exec .pickup s = .next ((s.dequeue p e.record).takeUp s.actor.core p e.record).retryAborts := by
  have idle : (s.core s.actor.core).run = none := idle
  have owner : s.ownerOf (clusterOf s.actor.core) = some p := owner
  change execPickup s = _
  unfold execPickup
  dsimp only
  rw [idle, owner]
  dsimp only
  rw [going, best]
  rfl

/-- A record that can run: its world has its key, its bytes are sound, its image is admitted, and it owes no trap (R163,
R198, R380). -/
structure CanRun (s : State) (p a : Nat) : Prop where
  keyed : ((s.part p).world (s.runningOf p a).world).wiped = false
  sound : s.mem.poisonIn (hbmLoc p a) 64 = none
  admitted : (Sparse.find? (s.runningOf p a).image (s.part p).images).isSome = true
  owes : ctlDef (s.ctl p a) = 0

theorem CanRun.poolsApart {s t : State} {p a : Nat} (h : CanRun s p a) (apart : PoolsApart s t) : CanRun t p a := by
  obtain ⟨keyed, sound, admitted, owes⟩ := h
  refine ⟨?_, ?_, ?_, ?_⟩
  · rw [apart.runningOf, apart.worlds]; exact keyed
  · rw [apart.mem]; exact sound
  · rw [apart.runningOf, apart.view Partition.images (fun _ _ => rfl)]; exact admitted
  · rw [State.ctl, apart.record]; exact owes

theorem raiseOwed_zero (s : State) (n : Nat) (r : Running) : s.raiseOwed n r 0 = s := if_pos rfl

theorem takeUp_of_fresh {s : State} {p a : Nat} (can : CanRun s p a) (fresh : ctlFull (s.ctl p a) = false) (n : Nat) :
    s.takeUp n p a = (((s.clearL1 n).setCore n (s.freshCore (s.runningOf p a))).markRunning (s.runningOf p a)).finishWaitSeq n
      (s.runningOf p a) := by
  obtain ⟨keyed, sound, admitted, owes⟩ := can
  unfold State.takeUp
  simp only [keyed, sound, fresh, owes, Option.isNone_eq_false_iff.2 admitted, Option.isSome_none, Bool.false_eq_true, ↓reduceIte,
    raiseOwed_zero]

theorem takeUp_of_saved {s : State} {p a i : Nat} {x : Saved} (can : CanRun s p a) (full : ctlFull (s.ctl p a) = true)
    (area : s.areaFor p a = some (i, x)) (good : s.restorable (s.runningOf p a) i x = true) (n : Nat) :
    s.takeUp n p a = (s.restore n (s.runningOf p a) i x).markRunning (s.runningOf p a) := by
  obtain ⟨keyed, sound, admitted, owes⟩ := can
  unfold State.takeUp
  simp only [keyed, sound, full, owes, area, good, Option.isNone_eq_false_iff.2 admitted, Option.isSome_none, Bool.false_eq_true,
    ↓reduceIte, raiseOwed_zero]

/-- The record is running, without full state (R163). -/
theorem markRunning_facts (s : State) (r : Running) : Written s (s.markRunning r)
    ∧ ctlState ((s.markRunning r).ctl r.part r.record) = 2 ∧ ctlFull ((s.markRunning r).ctl r.part r.record) = false := by
  have ctl := ctl_setCtlBy s none r.part r.record (putBits (putBits (s.ctl r.part r.record) 0 3 2) 12 1 0)
  obtain ⟨state, full⟩ := ctl_fields (c := s.ctl r.part r.record) (st := 2) (v := 0) (by decide)
  exact ⟨written_setRecBytes s .., (congrArg ctlState ctl).trans state, (congrArg ctlFull ctl).trans full⟩

/-! ### Without full state (R163, R182) -/

/-- The core of a pickup without full state is as after reset, but for its continuation, class, pc, frame and arguments. -/
theorem freshCore_eq (s : State) (r : Running) : ∃ g, s.freshCore r = { Core.init with
    run := some r, pc := BitVec.ofNat 64 (recResume (s.record r.part r.record)), sys := { CoreSys.init with cls := r.cls }
    c := [(15, s.frameCap r)], g := g } := ⟨_, rfl⟩

theorem getG_freshCore (s : State) (r : Running) (i : Nat) : (s.freshCore r).getG i =
    if 0 < i ∧ i ≤ 4 then recArg (s.record r.part r.record) (i - 1) else 0 := by
  unfold State.freshCore
  simp only [upFrom, List.foldl_cons, List.foldl_nil, Core.getG_setG, Nat.zero_add, Nat.reduceAdd]
  have initial : ∀ c : Core, c.g = [] → c.getG i = 0 := fun c hc => by
    rw [Core.getG, hc]
    split <;> rfl
  rw [initial _ rfl]
  by_cases inside : 0 < i ∧ i ≤ 4
  · obtain rfl | rfl | rfl | rfl : i = 1 ∨ i = 2 ∨ i = 3 ∨ i = 4 := by omega
    · rfl
    · rfl
    · rfl
    · rfl
  · rw [if_neg inside, if_neg (by omega), if_neg (by omega), if_neg (by omega), if_neg (by omega)]

/-- The state in which a record without full state is running on a core, before a WAITSEQ ends. -/
def State.startFresh (s : State) (n : Nat) (r : Running) : State :=
  ((s.clearL1 n).setCore n (s.freshCore r)).markRunning r

theorem startFresh_facts (s : State) (n : Nat) (r : Running) : let t := s.startFresh n r
    t.core n = s.freshCore r ∧ t.parts = s.parts ∧ t.outer = s.outer ∧ t.actor = s.actor
      ∧ ctlState (t.ctl r.part r.record) = 2 ∧ ctlFull (t.ctl r.part r.record) = false := by
  obtain ⟨written, state, full⟩ := markRunning_facts ((s.clearL1 n).setCore n (s.freshCore r)) r
  have woken := written.cores n
  rw [State.core_setCore_same] at woken
  exact ⟨woken.eq_of_unwatched rfl, rfl, rfl, rfl, state, full⟩

theorem l1_startFresh {s : State} {n : Nat} {r : Running} (hbm : hbmLoc r.part r.record + 64 ≤ hbmEnd) {l : Nat}
    (low : l1Loc n 0 ≤ l) (high : l < l1Loc n 0 + 2 ^ 18) : (s.startFresh n r).mem.byte l = 0 := by
  have outside : l < hbmLoc r.part r.record + 28 ∨ hbmLoc r.part r.record + 28 + 4 ≤ l := by
    unfold l1Loc at low
    unfold hbmEnd at hbm
    omega
  refine (Mem.byte_poke_outside (s.mem.wipe (l1Loc n 0) (2 ^ 18)) _ l (leBytes _ 4) (by rw [length_leBytes]; exact outside)).trans ?_
  rw [Mem.byte_wipe, if_pos ⟨low, high⟩]

theorem finishWaitSeq_of_none {s : State} {n : Nat} {r : Running}
    (none : ∀ q ∈ (s.part r.part).seqs, q.2.waiting.any (fun w => w.1 = r.record) = false) : s.finishWaitSeq n r = s := by
  unfold State.finishWaitSeq
  rw [List.find?_eq_none.2 (fun q hq => by rw [none q hq]; exact Bool.false_ne_true)]

theorem report_forgetWaits (x : Partition) (a n : Nat) : ((x.forgetWaits a).seq n).report = (x.seq n).report :=
  get_map_of_rel (R := fun c d : SeqCounter => d.report = c.report) (d := SeqCounter.init)
    (f := fun q => (q.1, { q.2 with waiting := q.2.waiting.filter (fun w => w.1 != a) })) rfl
    (fun _ => ⟨rfl, fun _ => rfl⟩) x.seqs

/-- A WAITSEQ that ends: its report is in g1, and no counter waits for the record any more (R109). -/
theorem finishWaitSeq_facts {s : State} {n : Nat} {r : Running} {q : Nat × SeqCounter} {w : Nat × Nat}
    (found : List.find? (fun (q : Nat × SeqCounter) => q.2.waiting.any (fun w => w.1 = r.record)) (s.part r.part).seqs = some q)
    (waits : q.2.waiting.find? (fun w => w.1 = r.record) = some w) : let t := s.finishWaitSeq n r
    t.core n = (s.core n).setG 1 (q.2.takeReport w.2).1
      ∧ ((t.part r.part).seq q.1).report = (q.2.takeReport w.2).2.report
      ∧ (∀ c ∈ (t.part r.part).seqs, c.2.waiting.any (fun w => w.1 = r.record) = false)
      ∧ t.outer = s.outer ∧ t.actor = s.actor := by
  unfold State.finishWaitSeq
  rw [found]
  dsimp only
  rw [waits]
  dsimp only [Option.map_some, Option.getD_some]
  have part := s.part_modPart r.part r.part (fun x => (x.setSeq q.1 (q.2.takeReport w.2).2).forgetWaits r.record)
  rw [if_pos rfl] at part
  refine ⟨State.core_setCore_same _ n _, ?_, ?_, rfl, rfl⟩
  · refine (congrArg (fun x => (Partition.seq x q.1).report) part).trans ?_
    rw [report_forgetWaits, Partition.seq, Partition.setSeq, Sparse.get_set_same]
  · intro c hc
    have hc := (congrArg Partition.seqs part) ▸ hc
    obtain ⟨d, -, rfl⟩ := List.mem_map.1 hc
    exact List.any_eq_false.2 (fun w hw => by simpa using (List.mem_filter.1 hw).2)

/-! ### With full state (R163, R380) -/

/-- A restored continuation: its core, and its area, which is free again. -/
theorem restore_facts (s : State) (n i : Nat) (r : Running) (x : Saved) : let t := s.restore n r i x
    t.core n = s.restoredCore r x ∧ t.outer = s.outer ∧ t.actor = s.actor
      ∧ t.part r.part = { s.part r.part with areas := Sparse.set i ⟨x.epoch, none⟩ (s.part r.part).areas } := by
  obtain ⟨u, hu⟩ : ∃ u, ((s.restoreL1 n ⟨r.part, r.world, r.context⟩ x).setCore n (s.restoredCore r x)).resumeStrat n
      ⟨r.part, r.world, r.context⟩ x = u := ⟨_, rfl⟩
  have resumed : u.cores = (s.setCore n (s.restoredCore r x)).cores ∧ u.outer = s.outer ∧ u.actor = s.actor ∧ u.parts = s.parts := by
    subst hu
    unfold State.resumeStrat
    split
    · exact ⟨rfl, rfl, rfl, rfl⟩
    · exact ⟨rfl, rfl, rfl, rfl⟩
  obtain ⟨cores, outer, actor, parts⟩ := resumed
  have core : u.core n = s.restoredCore r x := by
    rw [← s.core_setCore_same n (s.restoredCore r x), State.core, cores]
    rfl
  have part : u.part r.part = s.part r.part := congrArg (fun ps => Sparse.get ps Partition.init r.part) parts
  have area := (u.part_modPart r.part r.part (fun p => { p with areas := Sparse.set i ⟨x.epoch, none⟩ p.areas })).trans (if_pos rfl)
  rw [part] at area
  unfold State.restore
  dsimp only
  rw [hu]
  split
  · exact ⟨core, outer, actor, area⟩
  · exact ⟨core, outer, actor, area⟩

/-! ### The three pickups -/

/-- The dispatcher takes up an entry for the acting core (R163, R164, R434). -/
structure TakesUp (s : State) (p : Nat) (e : PoolEntry) : Prop where
  idle : s.me.run = none
  owner : s.ownerOf s.home = some p
  going : (s.part p).held = false
  best : s.bestEntry s.actor.core p = some e
  can : CanRun s p e.record
  quiet : ∀ f ∈ s.outer.vfs, f.2.state ≠ 3

section
variable {s : State} {p : Nat} {e : PoolEntry} (h : TakesUp s p e)
include h

theorem TakesUp.fresh (fresh : ctlFull (s.ctl p e.record) = false) : exec .pickup s =
    .next (((s.dequeue p e.record).startFresh s.actor.core (s.runningOf p e.record)).finishWaitSeq s.actor.core
      (s.runningOf p e.record)).retryAborts := by
  have apart := poolsApart_dequeue s p e.record
  have ctl : (s.dequeue p e.record).ctl p e.record = s.ctl p e.record := congrArg recCtl (apart.record p e.record)
  rw [exec_pickup h.idle h.owner h.going h.best, takeUp_of_fresh (h.can.poolsApart apart) (by rw [ctl]; exact fresh),
    apart.runningOf]
  rfl

theorem TakesUp.saved {i : Nat} {x : Saved} (full : ctlFull (s.ctl p e.record) = true)
    (area : s.areaFor p e.record = some (i, x)) (good : s.restorable (s.runningOf p e.record) i x = true) :
    exec .pickup s = .next (((s.dequeue p e.record).restore s.actor.core (s.runningOf p e.record) i x).markRunning
      (s.runningOf p e.record)).retryAborts := by
  have apart := poolsApart_dequeue s p e.record
  have ctl : (s.dequeue p e.record).ctl p e.record = s.ctl p e.record := congrArg recCtl (apart.record p e.record)
  have running := apart.runningOf p e.record
  rw [exec_pickup h.idle h.owner h.going h.best, takeUp_of_saved (h.can.poolsApart apart) (by rw [ctl]; exact full)
    (by rw [apart.areaFor]; exact area) (by rw [running, apart.restorable]; exact good), running]

end

theorem mem_pool_dequeue {s : State} {p a : Nat} {x : PoolEntry} (h : x ∈ ((s.dequeue p a).part p).pool) : x.record ≠ a := by
  rw [congrArg Partition.pool (part_dequeue s p a)] at h
  simpa using (List.mem_filter.1 h).2

theorem recordsArePickedUp : Claim.RecordsArePickedUp := by
  intro s e p n r b idle owner going best keyed admitted owes hbm sound quiet waits
  have takes : TakesUp s p e := ⟨idle, owner, going, best, ⟨keyed, sound, admitted, owes⟩, quiet⟩
  have apart := poolsApart_dequeue s p e.record
  have left : ∀ x ∈ ((s.dequeue p e.record).part p).pool, x.record ≠ e.record := fun x => mem_pool_dequeue
  have seqs : ((s.dequeue p e.record).part p).seqs = (s.part p).seqs := apart.view Partition.seqs (fun _ _ => rfl) p
  obtain ⟨t, ht⟩ : ∃ t, s.dequeue p e.record = t := ⟨_, rfl⟩
  rw [ht] at apart left seqs
  have frame := apart.frameCap r
  have bytes : t.record r.part r.record = b := apart.record p e.record
  have quiet : ∀ f ∈ t.outer.vfs, f.2.state ≠ 3 := by rw [apart.outer]; exact quiet
  refine ⟨fun fresh alone => ?_, fun q w fresh found waiting => ?_, fun i x full area good => ?_⟩
  · have runs := takes.fresh fresh
    rw [ht] at runs
    obtain ⟨core, parts, outer, actor, state, notFull⟩ := startFresh_facts t n r
    have zero := fun l => l1_startFresh (s := t) (n := n) (r := r) hbm (l := l)
    have clusters : (t.startFresh n r).clusters = s.clusters := apart.clusters
    have mgmt : (t.startFresh n r).mgmt = s.mgmt := apart.mgmt
    generalize hu : t.startFresh n r = u at core parts outer actor state notFull zero clusters mgmt
    have part : u.part p = t.part p := congrArg (fun ps => Sparse.get ps Partition.init p) parts
    have waitless : u.finishWaitSeq n r = u := finishWaitSeq_of_none (fun q hq => alone q (by
      rw [← seqs, ← part]; exact hq))
    have ended : (u.finishWaitSeq n r).retryAborts = u := by
      rw [waitless, retryAborts_of_quiet (by rw [outer]; exact quiet)]
    obtain ⟨g, registers⟩ := freshCore_eq t r
    have me : u.me = t.freshCore r := by rw [State.me, actor, apart.actor]; exact core
    have args (i : Nat) := getG_freshCore t r i
    rw [← me, bytes] at args
    rw [← me, frame, bytes] at registers
    refine ⟨u, runs.trans (congrArg Host.Outcome.next (by rw [← ended, ← hu])), ?_⟩
    refine ⟨?_, ?_, ?_, fun i hi => ?_, fun i hi => ?_, fun i hi => ?_, ?_, ?_, ?_, ?_, ?_, ?_, ?_, ?_, fun l => zero l, state, notFull,
      ?_, clusters, mgmt⟩
    · rw [registers]
    · rw [registers]
    · rw [registers]; rfl
    · rw [args, if_pos (by omega)]; rfl
    · rw [args, if_neg (by omega)]
    · rw [registers]
      simp [Core.getC, Sparse.get, Sparse.find?, Ne.symm hi]
    · rw [registers]; rfl
    · rw [registers]; rfl
    · rw [registers]; rfl
    · rw [registers]; rfl
    · rw [registers]; rfl
    · rw [registers]; rfl
    · rw [registers]; rfl
    · rw [registers]
    · rw [part]; exact left
  · have runs := takes.fresh fresh
    rw [ht] at runs
    obtain ⟨core, parts, outer, actor, state, notFull⟩ := startFresh_facts t n r
    generalize hu : t.startFresh n r = u at core parts outer actor state notFull
    have part : u.part p = t.part p := congrArg (fun ps => Sparse.get ps Partition.init p) parts
    obtain ⟨ended, report, alone, outer', actor'⟩ := finishWaitSeq_facts (s := u) (n := n) (r := r) (q := q) (w := w)
      (by rw [← found, ← seqs, ← part]; rfl) waiting
    have quiets : (u.finishWaitSeq n r).retryAborts = u.finishWaitSeq n r :=
      retryAborts_of_quiet (by rw [outer', outer]; exact quiet)
    have me : (u.finishWaitSeq n r).me = (t.freshCore r).setG 1 (q.2.takeReport w.2).1 := by
      rw [State.me, actor', actor, apart.actor, ← core]; exact ended
    refine ⟨_, runs.trans (congrArg Host.Outcome.next (by rw [← quiets, ← hu])), ?_, ?_, report, alone⟩
    · rw [me]
      rfl
    · rw [me, Core.getG_setG, if_pos ⟨rfl, Nat.one_ne_zero⟩]
  · have runs := takes.saved full area good
    rw [ht] at runs
    obtain ⟨core, outer, actor, area⟩ := restore_facts t n i r x
    obtain ⟨written, state, notFull⟩ := markRunning_facts (t.restore n r i x) r
    have outer' : ((t.restore n r i x).markRunning r).outer = t.outer := outer
    generalize (t.restore n r i x).markRunning r = u at runs written state notFull outer'
    have quiets : u.retryAborts = u := retryAborts_of_quiet (by rw [outer']; exact quiet)
    have latched : Latched (t.restoredCore r x) u.me := by
      have at' := (written.cores n).latched
      rw [core] at at'
      rw [State.me, written.actor, actor, apart.actor]
      exact at'
    have part : u.part p = _ := (congrArg (fun ps => Sparse.get ps Partition.init p) written.parts).trans area
    refine ⟨u, runs.trans (congrArg Host.Outcome.next quiets), latched.run, latched.same Core.pc rfl, latched.same Core.g rfl,
      latched.same Core.v rfl, latched.same Core.lq rfl, latched.same Core.sq rfl, latched.same Core.iq rfl,
      latched.same Core.cq rfl, latched.same (fun c => c.sys.fullst) rfl, ?_, state, notFull, ?_⟩
    · rw [part]
      exact congrArg Area.saved (Sparse.get_set_same i _ _ _)
    · rw [part]
      exact left

/-- Settles O37: a pickup makes the core anew or restores it, and a forced suspension finishes the core's words, saves it and
leaves it idle. -/
theorem recordsRunAndAreSuspended : Obligations.RecordsRunAndAreSuspended :=
  ⟨recordsArePickedUp, waitingRecordsAgeAndOwe, forcedSuspensionSaves⟩

end Sys2Proof.Machine
end
/-! ## Where the records of a launch go (O53, R155, R158, R159) -/
section
namespace Sys2Proof.Machine

/-! ### Pages are mapped whole (R414, R415) -/

theorem mod_pageBytes_mod (x L : Nat) : x % pageBytes L % 2 ^ 16 = x % 2 ^ 16 := by
  unfold pageBytes
  rw [Nat.pow_add, Nat.mod_mul_right_mod]

theorem pageBytes_mod (L : Nat) : pageBytes L % 2 ^ 16 = 0 := by
  unfold pageBytes
  rw [Nat.pow_add, Nat.mul_mod_right]

theorem checkEntry_leaf {L e page : Nat} {w : Bool} (h : checkEntry false L e = .ok (.leaf page w)) : page % 2 ^ 16 = 0 := by
  unfold checkEntry at h
  split_ifs at h <;> cases h
  exact Nat.mul_mod_left _ _

theorem checkEntry_leafOf {L e page world : Nat} {w k sh : Bool} (h : checkEntry true L e = .ok (.leafOf page w world k sh)) :
    page % 2 ^ 16 = 0 := by
  unfold checkEntry at h
  split_ifs at h <;> cases h
  exact Nat.mul_mod_left _ _

/-- The leaf that a walk of the second stage ends at. -/
theorem walk2_leafOf {s : State} {p g L table K page world : Nat} {w k sh : Bool}
    (h : s.walk2 p g L table = .ok (K, .leafOf page w world k sh)) : page % 2 ^ 16 = 0 := by
  induction L generalizing table with
  | zero =>
    rw [State.walk2] at h
    split at h
    · cases h
    split at h
    · cases h
    dsimp only at h
    split at h
    · cases h
    · cases h
    next leaf => cases h; exact checkEntry_leafOf leaf
  | succ L ih =>
    rw [State.walk2] at h
    split at h
    · cases h
    split at h
    · cases h
    dsimp only at h
    split at h
    · cases h
    · exact ih h
    next leaf => cases h; exact checkEntry_leafOf leaf

/-- The leaf that a walk of the first stage ends at. -/
theorem walk1_leaf {s : State} {y : Party} {va L table K page : Nat} {write w : Bool}
    (h : s.walk1 y va write L table = .ok (K, page, w)) : page % 2 ^ 16 = 0 := by
  induction L generalizing table with
  | zero =>
    rw [State.walk1] at h
    split at h
    · cases h
    split at h
    · cases h
    · cases h
    next leaf => cases h; exact checkEntry_leaf leaf
    · cases h
  | succ L ih =>
    rw [State.walk1] at h
    split at h
    · cases h
    split at h
    · cases h
    · exact ih h
    next leaf => cases h; exact checkEntry_leaf leaf
    · cases h

theorem guestOf_aligned {s : State} {y : Party} {va g : Nat} {write : Bool} (h : s.guestOf y va write = .ok g) :
    g % 2 ^ 16 = va % 2 ^ 16 := by
  unfold State.guestOf at h
  dsimp only at h
  split at h
  · cases h
  split at h
  · cases h
  split at h
  · cases h
  split at h
  · cases h
  split at h
  · cases h
  split at h
  · cases h
  next L page w walked =>
  split at h
  · cases h
  split at h
  · cases h
  cases h
  have leaf := walk1_leaf walked
  have offset := mod_pageBytes_mod va L
  omega

theorem translate2_aligned {s : State} {y : Party} {g l k : Nat} {write shadow : Bool}
    (h : s.translate2 y g write shadow = .ok (.here l k)) : l % 2 ^ 16 = g % 2 ^ 16 := by
  unfold State.translate2 at h
  split at h
  · cases h
  split at h
  · cases h
  next L page w world key sh walked =>
    dsimp only at h
    generalize (if sh = true then 2 * pageBytes L else pageBytes L) = room at h
    have second : (if (sh && Marks.has page (s.part y.part).swapped != shadow) = true then pageBytes L else 0) % 2 ^ 16 = 0 := by
      split
      · exact pageBytes_mod L
      · rfl
    generalize (if (sh && Marks.has page (s.part y.part).swapped != shadow) = true then pageBytes L else 0) = frame at h second
    split at h
    · cases h
    split at h
    · cases h
    split at h
    · cases h
    cases h
    have leaf := walk2_leafOf walked
    have offset := mod_pageBytes_mod g L
    unfold hbmLoc
    omega
  · split at h
    · cases h
    · cases h
  · cases h

/-- An address keeps its place within 64 KiB. -/
theorem translate_aligned {s : State} {y : Party} {va l k : Nat} {write shadow : Bool}
    (h : s.translate y va write shadow = .ok (.here l k)) : l % 2 ^ 16 = va % 2 ^ 16 := by
  unfold State.translate at h
  split at h
  · cases h
  next g guest =>
    split at h
    · cases h
    next placed =>
      cases h
      rw [translate2_aligned placed, guestOf_aligned guest]

theorem recordPlace_aligned {s : State} {y : Party} {b : LaunchBlock} {i : Nat} {x : Nat × Nat}
    (h : s.recordPlace y b i = some x) (aligned : b.recs.cursor.toNat % 64 = 0) : x.1 % 64 = 0 := by
  unfold State.recordPlace State.plainPlace at h
  split at h
  next l k placed =>
    split at placed
    · split at placed
      next found =>
        cases placed
        have same := translate_aligned found
        unfold recordAt at h
        dsimp only at h
        split at h
        next inside =>
          cases h
          dsimp only
          unfold hbmLoc
          omega
        · cases h
      · cases placed
    · cases placed
  · cases h

/-! ### What a traversal of a list gives, one by one -/

theorem forall₂_of_mapM {α β : Type} {f : α → Option β} {l : List α} {r : List β} (h : l.mapM f = some r) :
    List.Forall₂ (fun x y => f x = some y) l r := by
  induction l generalizing r with
  | nil => cases h; exact .nil
  | cons x l ih =>
    rw [List.mapM_cons] at h
    simp only [bind, Option.bind_eq_some_iff, pure, Option.some.injEq] at h
    obtain ⟨y, hy, ys, hys, rfl⟩ := h
    exact .cons hy (ih hys)

theorem forall₂_of_mapChk {α β : Type} {f : α → Chk β} {l : List α} {r : List β} (h : mapChk f l = .ok r) :
    List.Forall₂ (fun x y => f x = .ok y) l r := by
  induction l generalizing r with
  | nil => cases h; exact .nil
  | cons x l ih =>
    rw [mapChk] at h
    split at h
    · cases h
    next y hy =>
      split at h
      · cases h
      next ys hys =>
        cases h
        exact .cons hy (ih hys)

theorem exists_of_mem_right {α β : Type} {R : α → β → Prop} {l : List α} {r : List β} (h : List.Forall₂ R l r) {y : β}
    (hy : y ∈ r) : ∃ x ∈ l, R x y := by
  induction h with
  | nil => cases hy
  | cons head _ ih =>
    rcases List.mem_cons.1 hy with rfl | later
    · exact ⟨_, List.mem_cons_self, head⟩
    · obtain ⟨x, hx, rel⟩ := ih later
      exact ⟨x, List.mem_cons_of_mem _ hx, rel⟩

/-! ### The bytes of a membership (R158) -/

theorem length_readPiece {s : State} {core e u : Nat} {p : Piece} {bs : List Byte} (h : s.readPiece core e p u = .ok bs) :
    bs.length = p.len := by
  unfold State.readPiece at h
  split at h
  · split at h
    · cases h
    · split at h
      · cases h; exact length_sliceB _ _ _
      · cases h; rw [Mem.readUnder, List.length_map, length_upFrom]
  · split at h
    · cases h
    · split at h
      · cases h
      · cases h
      · cases h; exact length_sliceB _ _ _

theorem length_readPieces {s : State} {core e u : Nat} {ps : List Piece} {bs : List Byte}
    (h : s.readPieces core e ps u = .ok bs) : bs.length = (ps.map Piece.len).sum := by
  unfold State.readPieces at h
  split at h
  · cases h
  next bss read =>
    cases h
    have each := forall₂_of_mapChk read
    clear read
    induction each with
    | nil => rfl
    | cons head _ ih => rw [List.flatten_cons, List.length_append, length_readPiece head, ih, List.map_cons, List.sum_cons]

theorem sum_cutFrom {x n k : Nat} (room : n = 0 ∨ n + x % 16 ≤ 16 * k) : ((cutFrom x n k).map Prod.snd).sum = n := by
  induction k generalizing x n with
  | zero =>
    rw [cutFrom]
    simp
    omega
  | succ k ih =>
    rw [cutFrom]
    split
    next none => rw [none]; rfl
    next =>
      dsimp only
      rw [List.map_cons, List.sum_cons, ih (by omega)]
      omega

theorem length_membership {s : State} {y : Party} {b : LaunchBlock} {gs : List (List Nat)} (h : s.membership y b = some gs) :
    gs.length = b.N ∧ ∀ g ∈ gs, g.length = 4 := by
  unfold State.membership at h
  split at h
  · have each := forall₂_of_mapM h
    refine ⟨by rw [← each.length_eq, length_upFrom], fun g hg => ?_⟩
    obtain ⟨i, -, read⟩ := exists_of_mem_right each hg
    split at read
    next ps pieces =>
      split at read
      next bs bytes =>
        cases read
        have cut := forall₂_of_mapM pieces
        have lens : ps.map Piece.len = (cuts (b.memb.cursor.toNat + 4 * i) 4).map Prod.snd := by
          refine (List.forall₂_eq_eq_eq ▸ List.forall₂_map_left_iff.2 (List.forall₂_map_right_iff.2 (cut.imp ?_)) :
            List.map Prod.snd _ = List.map Piece.len _).symm
          intro c p placed
          obtain ⟨pl, -, rfl⟩ := Option.map_eq_some_iff.1 placed
          rfl
        rw [List.length_map, length_readPieces bytes, lens, cuts, sum_cutFrom (by omega)]
      · cases read
    · cases read
  · cases h
    refine ⟨List.length_replicate .., fun g hg => ?_⟩
    rw [List.eq_of_mem_replicate hg, recGroups, List.length_map, length_sliceB]

/-! ### The traversal stays within the shape (R159) -/

theorem mem_rowMajor {X Y z : Nat} {p : Nat × Nat} (h : p ∈ rowMajor X Y z) : p.1 < X ∧ p.2 < Y := by
  unfold rowMajor at h
  obtain ⟨_, hs, hp⟩ := List.mem_flatten.1 h
  obtain ⟨x0, -, rfl⟩ := List.mem_map.1 hs
  obtain ⟨_, hr, hp⟩ := List.mem_flatten.1 hp
  obtain ⟨y, hy, rfl⟩ := List.mem_map.1 hr
  obtain ⟨x, hx, rfl⟩ := List.mem_map.1 hp
  rw [mem_upFrom] at hx hy
  exact ⟨by omega, by omega⟩

theorem mem_planeOrder {X Y order z : Nat} {p : Nat × Nat} (h : p ∈ planeOrder X Y order z) : p.1 < X ∧ p.2 < Y := by
  unfold planeOrder at h
  dsimp only at h
  split at h
  · exact mem_rowMajor h
  · obtain ⟨q, hq, rfl⟩ := List.mem_map.1 h
    exact (mem_rowMajor hq).symm
  · simpa using (List.mem_filter.1 h).2
  · simpa using (List.mem_filter.1 h).2

/-- Every unit has a linear index below the number of units. -/
theorem linear_lt {b : LaunchBlock} {u : Nat × Nat × Nat} (h : u ∈ b.units) : b.linear u < b.N := by
  unfold LaunchBlock.units at h
  obtain ⟨_, hr, hu⟩ := List.mem_flatten.1 h
  obtain ⟨z, hz, rfl⟩ := List.mem_map.1 hr
  obtain ⟨p, hp, rfl⟩ := List.mem_map.1 hu
  obtain ⟨hx, hy⟩ := mem_planeOrder hp
  rw [mem_upFrom, Nat.zero_add] at hz
  have row : p.2 + b.Y * z + 1 ≤ b.Y * b.Z := by
    calc p.2 + b.Y * z + 1 ≤ b.Y * (z + 1) := by rw [Nat.mul_succ]; omega
      _ ≤ b.Y * b.Z := Nat.mul_le_mul_left _ (by omega)
  calc p.1 + b.X * (p.2 + b.Y * z) < b.X * (p.2 + b.Y * z + 1) := by rw [Nat.mul_succ]; omega
    _ ≤ b.X * (b.Y * b.Z) := Nat.mul_le_mul_left _ row
    _ = b.N := by rw [LaunchBlock.N, Nat.mul_assoc]

end Sys2Proof.Machine
end
/-! ## Chains of launches (O53) -/
section
namespace Sys2Proof.Machine

/-! ### A record as it is stored (R155, R194) -/

/-- Bytes that are written under a key stand as they are: the cells hold plaintext, the key beside (R194). -/
theorem Mem.raw_putBytes (m : Mem) (k l : Nat) (bs : List Byte) : (m.putBytes k l bs).raw l bs.length = bs := by
  induction bs generalizing m l with
  | nil => rfl
  | cons b bs ih =>
    have hput : m.putBytes k l (b :: bs) = (m.putByte k (l, b)).putBytes k (l + 1) bs := rfl
    have hhead : (m.putBytes k l (b :: bs)).byte l = b := by
      rw [hput, (Mem.same_putBytes _ k (l + 1) l bs (.inl (Nat.lt_succ_self l))).1, Mem.byte_putByte, if_pos rfl]
    rw [Mem.raw, List.length_cons, upFrom, List.map_cons, hhead, hput]
    exact congrArg _ (ih _ _)

/-- A write leaves the bytes of every 16-byte block that it does not touch. -/
theorem Mem.byte_write_apart (m : Mem) (k l x : Nat) (bs : List Byte) (h : x / 16 < l / 16 ∨ (l + bs.length - 1) / 16 < x / 16) :
    (m.write k l bs).byte x = m.byte x := by
  have edges : (m.adoptEdges k l bs.length).byte x = m.byte x := by
    unfold Mem.adoptEdges
    split
    · rfl
    · rcases Mem.adopt_cases (m.adopt k l) k (l + bs.length - 1) x with ⟨same, -⟩ | ⟨touched, -⟩
      · rw [same]
        rcases Mem.adopt_cases m k l x with ⟨same, -⟩ | ⟨touched, -⟩
        · exact same
        · omega
      · omega
  exact ((Mem.same_putBytes (m.adoptEdges k l bs.length) k l x bs (by omega)).1).trans edges

/-- What is written stands where it is written. -/
theorem Mem.raw_write (m : Mem) (k l : Nat) (bs : List Byte) : (m.write k l bs).raw l bs.length = bs :=
  Mem.raw_putBytes (m.adoptEdges k l bs.length) k l bs

/-- A record of 64 bytes is stored at its place. -/
theorem record_storeAt (s : State) {p a k : Nat} {bs : List Byte} (length : bs.length = 64) :
    (s.storeAt none false (hbmLoc p a) k bs).record p a = bs := by
  rw [State.record, State.raw, mem_storeAt, Bool.false_and, if_neg Bool.false_ne_true, ← length]
  exact Mem.raw_write _ _ _ _

/-- Every record that does not overlap it is as it was. -/
theorem record_storeAt_other (s : State) {p a b k : Nat} {bs : List Byte} (length : bs.length = 64) (ha : a % 64 = 0)
    (hb : b % 64 = 0) (other : b ≠ a) : (s.storeAt none false (hbmLoc p a) k bs).record p b = s.record p b := by
  refine List.map_congr_left (fun x hx => ?_)
  rw [mem_upFrom] at hx
  rw [mem_storeAt]
  refine Mem.byte_write_apart s.mem k _ x bs ?_
  unfold hbmLoc at hx ⊢
  omega

/-! ### A unit's record (R156, R158) -/

/-- The control word of a new unit's record says that it is runnable. -/
theorem ctlState_unit (c w : Nat) :
    ctlState (putBits (putBits (putBits (putBits (putBits c 0 3 1) 5 6 w) 11 1 0) 12 1 0) 24 8 0 % 2 ^ 32) = 1 := by
  rw [ctlState, bitsAt_mod (by decide), bitsAt_putBits_other (by decide), bitsAt_putBits_other (by decide),
    bitsAt_putBits_other (by decide), bitsAt_putBits_other (by decide), bitsAt_putBits_same]
  rfl

theorem unitRecord_facts (s : State) {p : LaunchPlan} {u : Nat × Nat × Nat}
    (groups : (p.groups.getD (p.block.linear u) []).length = 4) :
    (s.unitRecord p u).1.length = 64 ∧ ctlState (recCtl (s.unitRecord p u).1) = 1 := by
  unfold State.unitRecord
  dsimp only
  generalize (s.unitFrame p.party p.block (p.block.linear u)).getD Cap.null = f
  generalize hargs : (if p.block.index then sliceB 32 16 p.block.template ++ leBytes u.2.2 8
    ++ leBytes (u.2.1 * 2 ^ 32 + u.1) 8 else sliceB 32 32 p.block.template) = args
  have length : args.length = 32 := by
    rw [← hargs]
    split
    · simp
    · simp
  have parts := sliceB_middle (capBytes f ++ leBytes p.image 4 ++ sliceB 20 4 p.block.template
    ++ (p.groups.getD (p.block.linear u) []).map (BitVec.ofNat 8))
    (leBytes (putBits (putBits (putBits (putBits (putBits (recCtl p.block.template) 0 3 1) 5 6 p.party.world) 11 1 0) 12 1 0)
      24 8 0) 4) args
  simp only [List.length_append, length_capBytes, length_leBytes, length_sliceB, List.length_map, groups, Nat.reduceAdd] at parts
  refine ⟨?_, ?_⟩
  · simp only [List.length_append, length_capBytes, length_leBytes, length_sliceB, List.length_map, groups, length]
  · rw [recCtl, numAt, parts, leNat_leBytes]
    exact ctlState_unit _ _

/-- The record address of a unit. -/
def LaunchPlan.recordOf (p : LaunchPlan) (u : Nat × Nat × Nat) : Nat := (p.places.getD (p.block.linear u) (0, 0)).1

/-- Where every unit of a plan is to go: a record of the partition on a 64-byte boundary, with four groups. -/
structure WellPlaced (p : LaunchPlan) (part : Nat) : Prop where
  part : p.party.part = part
  place : ∀ u ∈ p.block.units, p.recordOf u % 64 = 0
  groups : ∀ u ∈ p.block.units, (p.groups.getD (p.block.linear u) []).length = 4

/-- What making units leaves: the outside of the module, and records that are runnable. -/
structure MakesUnits (part : Nat) (s t : State) : Prop where
  outer : t.outer = s.outer
  runnable : ∀ a, a % 64 = 0 → Runnable s part a → Runnable t part a

theorem MakesUnits.refl (part : Nat) (s : State) : MakesUnits part s s := ⟨rfl, fun _ _ h => h⟩

theorem MakesUnits.trans {part : Nat} {s t u : State} (h : MakesUnits part s t) (h' : MakesUnits part t u) :
    MakesUnits part s u :=
  ⟨h'.outer.trans h.outer, fun a aligned r => h'.runnable a aligned (h.runnable a aligned r)⟩

/-- A run of steps each of which makes a record runnable, and none of which undoes another. -/
theorem makesUnits_foldl {α : Type} {part : Nat} {f : State → α → State} {made : α → Nat → Prop} {l : List α}
    (h : ∀ t, ∀ x ∈ l, MakesUnits part t (f t x) ∧ ∀ a, made x a → a % 64 = 0 ∧ Runnable (f t x) part a) (s : State) :
    MakesUnits part s (l.foldl f s) ∧ ∀ x ∈ l, ∀ a, made x a → Runnable (l.foldl f s) part a := by
  induction l generalizing s with
  | nil => exact ⟨.refl part s, fun x hx => (List.not_mem_nil hx).elim⟩
  | cons x l ih =>
    obtain ⟨first, here⟩ := h s x List.mem_cons_self
    obtain ⟨rest, later⟩ := ih (fun t z hz => h t z (List.mem_cons_of_mem x hz)) (f s x)
    refine ⟨first.trans rest, fun z hz a hza => ?_⟩
    rcases List.mem_cons.1 hz with rfl | hz
    · obtain ⟨aligned, runs⟩ := here a hza
      exact rest.runnable a aligned runs
    · exact later z hz a hza

/-- The bytes of a unit's record are stored. -/
def State.storeUnit (p : LaunchPlan) (s : State) (u : Nat × Nat × Nat) : State :=
  s.storeAt none false (hbmLoc p.party.part (p.recordOf u)) (p.places.getD (p.block.linear u) (0, 0)).2 (s.unitRecord p u).1

/-- The record of a unit gets its tag, its world and its owner. -/
def State.ownUnit (s : State) (p : LaunchPlan) (a : Nat) (tag : Bool) : State :=
  let t := { s with mem := s.mem.setTag (hbmLoc p.party.part a) tag }.setRecWorld p.party.part a p.party.world
  t.modPart p.party.part (fun x => { x with owner := Sparse.set a p.number x.owner, owed := Sparse.erase a x.owed })

theorem createUnit_eq (p : LaunchPlan) (s : State) (u : Nat × Nat × Nat) : s.createUnit p u =
    ((s.storeUnit p u).ownUnit p (p.recordOf u) (s.unitRecord p u).2).enterPool p.party.part (p.recordOf u) := rfl

theorem pool_ownUnit (s : State) (p : LaunchPlan) (a : Nat) (tag : Bool) :
    ((s.ownUnit p a tag).part p.party.part).pool = (s.part p.party.part).pool := by
  rw [State.ownUnit, State.part_modPart, if_pos rfl, State.setRecWorld, State.part_modPart, if_pos rfl]
  rfl

/-- Giving a record its owner, and its place in the pool, changes no byte and nothing outside the module. -/
theorem ownUnit_beside (s : State) (p : LaunchPlan) (a : Nat) (tag : Bool) :
    let t := (s.ownUnit p a tag).enterPool p.party.part a
    t.outer = s.outer ∧ t.mem.cells = s.mem.cells := ⟨rfl, rfl⟩

/-- Making a unit stores its record and changes no other byte, and adds its entry to the pool. -/
theorem createUnit_effect (p : LaunchPlan) (s : State) (u : Nat × Nat × Nat) : let t := s.createUnit p u
    t.outer = s.outer ∧ t.mem.cells = (s.storeUnit p u).mem.cells
      ∧ ∃ e, (t.part p.party.part).pool = (s.part p.party.part).pool ++ [e] ∧ e.record = p.recordOf u := by
  obtain ⟨e, pool, record⟩ :=
    pool_enterPool ((s.storeUnit p u).ownUnit p (p.recordOf u) (s.unitRecord p u).2) p.party.part (p.recordOf u)
  rw [pool_ownUnit, ← createUnit_eq] at pool
  obtain ⟨outer, cells⟩ := ownUnit_beside (s.storeUnit p u) p (p.recordOf u) (s.unitRecord p u).2
  rw [← createUnit_eq] at outer cells
  exact ⟨outer, cells, e, pool, record⟩

theorem createUnit_facts {p : LaunchPlan} {part : Nat} (placed : WellPlaced p part) {u : Nat × Nat × Nat}
    (hu : u ∈ p.block.units) (s : State) :
    MakesUnits part s (s.createUnit p u) ∧ Runnable (s.createUnit p u) part (p.recordOf u) := by
  obtain ⟨outer, cells, e, pool, entered⟩ := createUnit_effect p s u
  have records := record_congr cells part
  rw [placed.part] at pool
  obtain ⟨length, runnable⟩ := unitRecord_facts s (placed.groups u hu)
  have made : Runnable (s.createUnit p u) part (p.recordOf u) := by
    refine ⟨?_, e, ?_, entered⟩
    · rw [State.ctl, records, State.storeUnit, placed.part, record_storeAt s length]
      exact runnable
    · rw [pool]
      exact List.mem_concat_self
  refine ⟨⟨outer, fun a aligned runs => ?_⟩, made⟩
  by_cases same : a = p.recordOf u
  · exact same ▸ made
  · obtain ⟨state, f, hf, record⟩ := runs
    refine ⟨?_, f, ?_, record⟩
    · rw [State.ctl, records, State.storeUnit, placed.part, record_storeAt_other s length (placed.place u hu) aligned same]
      exact state
    · rw [pool]
      exact List.mem_append_left _ hf

/-- Every unit of a launch is made. -/
theorem createLaunch_facts {p : LaunchPlan} {part : Nat} (placed : WellPlaced p part) (s : State) :
    MakesUnits part s (s.createLaunch p) ∧ ∀ u ∈ p.block.units, Runnable (s.createLaunch p) part (p.recordOf u) := by
  have step (t : State) (u : Nat × Nat × Nat) (hu : u ∈ p.block.units) : MakesUnits part t (t.createUnit p u)
      ∧ ∀ a, a = p.recordOf u → a % 64 = 0 ∧ Runnable (t.createUnit p u) part a := by
    obtain ⟨makes, runs⟩ := createUnit_facts placed hu t
    exact ⟨makes, fun a same => same ▸ ⟨placed.place u hu, runs⟩⟩
  obtain ⟨makes, runs⟩ := makesUnits_foldl step s
  exact ⟨makes, fun u hu => runs u hu _ rfl⟩

/-- Every unit of every launch of a chain is made. -/
theorem createLaunches_facts {ps : List LaunchPlan} {part : Nat} (placed : ∀ p ∈ ps, WellPlaced p part) (s : State) :
    MakesUnits part s (ps.foldl State.createLaunch s)
      ∧ ∀ p ∈ ps, ∀ u ∈ p.block.units, Runnable (ps.foldl State.createLaunch s) part (p.recordOf u) := by
  have step (t : State) (p : LaunchPlan) (hp : p ∈ ps) : MakesUnits part t (t.createLaunch p)
      ∧ ∀ a, (∃ u ∈ p.block.units, a = p.recordOf u) → a % 64 = 0 ∧ Runnable (t.createLaunch p) part a := by
    obtain ⟨makes, runs⟩ := createLaunch_facts (placed p hp) t
    refine ⟨makes, ?_⟩
    rintro a ⟨u, hu, rfl⟩
    exact ⟨(placed p hp).place u hu, runs u hu⟩
  obtain ⟨makes, runs⟩ := makesUnits_foldl step s
  exact ⟨makes, fun p hp u hu => runs p hp _ ⟨u, hu, rfl⟩⟩

/-! ### What the checks of a chain reserve (R160 to R162) -/

/-- What is accepted has passed the check before it. -/
theorem ok_of_checked {ε α : Type} {c : Prop} [Decidable c] {e : ε} {r : α} {k : Except ε α}
    (h : (if c then .error e else k) = .ok r) : k = .ok r := by
  split at h
  · cases h
  · exact h

/-- A launch that passes the checks names records on 64-byte boundaries, and four groups for each unit. -/
theorem checkLaunch_placed {s : State} {y : Party} {b : LaunchBlock} {im : Nat} {ps : List (Nat × Nat)} {gs : List (List Nat)}
    (h : s.checkLaunch y b = .ok (im, ps, gs)) (n : Nat) : WellPlaced ⟨b, b.party y, im, n, ps, gs⟩ y.part := by
  have read : s.badCap (b.party y) b = false ∧ (upFrom 0 b.N).mapM (s.recordPlace (b.party y) b) = some ps
      ∧ s.membership (b.party y) b = some gs := by
    unfold State.checkLaunch at h
    dsimp only at h
    split at h
    · cases h
    next good =>
      split at h
      next found places members =>
        cases ok_of_checked (ok_of_checked (ok_of_checked (ok_of_checked (ok_of_checked (ok_of_checked (ok_of_checked h))))))
        exact ⟨Bool.eq_false_iff.2 good, places, members⟩
      · cases h
  obtain ⟨good, places, members⟩ := read
  have aligned : b.recs.cursor.toNat % 64 = 0 := by
    rw [State.badCap, LaunchBlock.badCaps] at good
    simp only [Bool.or_eq_false_iff, decide_eq_false_iff_not, Decidable.not_not] at good
    exact good.1.1.1.2
  obtain ⟨count, four⟩ := length_membership members
  refine ⟨rfl, fun u hu => ?_, fun u hu => ?_⟩
  · rw [LaunchPlan.recordOf]
    rcases Nat.lt_or_ge (b.linear u) ps.length with inside | beyond
    · rw [List.getD_eq_getElem _ _ inside]
      obtain ⟨i, -, place⟩ := exists_of_mem_right (forall₂_of_mapM places) (List.getElem_mem inside)
      exact recordPlace_aligned place aligned
    · rw [List.getD_eq_default _ _ beyond]
      rfl
  · have inside : b.linear u < gs.length := count ▸ linear_lt hu
    rw [List.getD_eq_getElem _ _ inside]
    exact four _ (List.getElem_mem inside)

theorem outer_reserve (s : State) (y : Party) (b : LaunchBlock) (chain im : Nat) (ps : List (Nat × Nat)) (gs : List (List Nat)) :
    (s.reserve y b chain im ps gs).1.outer = s.outer := by
  unfold State.reserve
  dsimp only
  split
  · rfl
  · rfl

/-- Reserving for a chain changes nothing outside the module, and places every unit. -/
theorem reserveAll_placed {y : Party} {n : Nat} {bs : List (Option LaunchBlock)} {s u : State} {i : Nat} {ps : List LaunchPlan}
    (h : s.reserveAll y n i bs = .ok (u, ps)) : u.outer = s.outer ∧ ∀ p ∈ ps, WellPlaced p y.part := by
  induction bs generalizing s i ps with
  | nil =>
    cases h
    exact ⟨rfl, fun p hp => (List.not_mem_nil hp).elim⟩
  | cons b bs ih =>
    cases b with
    | none => cases h
    | some b =>
      rw [State.reserveAll] at h
      split at h
      · cases h
      next r checked =>
        dsimp only at h
        split at h
        · cases h
        next t reserved =>
          cases h
          obtain ⟨outer, placed⟩ := ih reserved
          refine ⟨outer.trans (outer_reserve s y b n _ _ _), fun p hp => ?_⟩
          rcases List.mem_cons.1 hp with rfl | hp
          · exact checkLaunch_placed checked _
          · exact placed p hp

end Sys2Proof.Machine
end
/-! ## A chain at the head of its queue (O53) -/
section
namespace Sys2Proof.Machine

/-! ### The queue at its head (R438, R440, R449) -/

/-- A queue has become x, whatever else but the functions has changed before. -/
theorem queueBecomes_modQueue {s t : State} (same : t.outer.vfs = s.outer.vfs) (v q : Nat) {f : Queue → Queue} {x : Queue}
    (h : f ((s.vf v).queue q) = x) : QueueBecomes s (t.modQueue v q f) v q x := by
  have kept : t.vf = s.vf := by
    funext w
    rw [State.vf, State.vf, same]
  have now : (t.modQueue v q f).vf v = (s.vf v).setQueue q x := by
    rw [State.modQueue, State.vf_setVf, if_pos rfl, kept, h]
  refine ⟨?_, fun r hr => ?_, ?_, fun w hw => ?_⟩
  · rw [now, Vf.queue_setQueue, if_pos rfl]
  · rw [now, Vf.queue_setQueue, if_neg hr]
  · rw [now]
    rfl
  · rw [State.modQueue, State.vf_setVf, if_neg hw, kept]

/-- The event of its op takes the command at the head. -/
theorem take_of_head {s : State} {op : Nat} {c : List Byte} {y : Party} (head : HeadCommand s op c y)
    (f : Nat → Nat → Party → List Byte → State) : s.take op f = f s.actor.vf s.actor.queue y c := by
  obtain ⟨takes, runs, rfl, formed, ops, world, context⟩ := head
  have party : (⟨y.part, y.world, 0⟩ : Party) = y := by rw [← context]
  unfold theQueue at takes formed ops ⊢
  rw [State.take, if_neg (by rw [takes]; decide), if_neg (by rw [runs]; decide), if_neg (not_not_intro runs), formed,
    if_neg Bool.false_ne_true, if_neg (not_not_intro ops), world, ← party]

/-- Marking pages dirty changes neither functions nor partitions (R449). -/
theorem markDirty_beside (v x n : Nat) (s : State) (q : Nat × Queue) :
    (s.markDirty v x n q).outer = s.outer ∧ (s.markDirty v x n q).parts = s.parts := by
  have one (t : State) (i : Nat) : (t.setDirty v q.2.dbase.toNat i).outer = t.outer
      ∧ (t.setDirty v q.2.dbase.toNat i).parts = t.parts := ⟨rfl, rfl⟩
  rw [State.markDirty]
  exact ⟨foldl_keeps State.outer (fun t i _ => (one t i).1) s, foldl_keeps State.parts (fun t i _ => (one t i).2) s⟩

theorem dmaWrite_beside (s : State) (v x : Nat) (bs : List Byte) :
    (s.dmaWrite v x bs).outer = s.outer ∧ (s.dmaWrite v x bs).parts = s.parts := by
  rw [State.dmaWrite]
  exact ⟨foldl_keeps State.outer (fun t q _ => (markDirty_beside v x bs.length t q).1) s,
    foldl_keeps State.parts (fun t q _ => (markDirty_beside v x bs.length t q).2) s⟩

theorem length_completion (value : Word64) (tag : BitVec 32) (status extra : Nat) :
    (completion value tag status extra).length = 16 := by
  simp only [completion, List.length_append, length_leBytes]

/-- A completion that is written when it is asked for. -/
theorem completed_dmaWrite (s : State) (v : Nat) (sig : Bool) (iova value : Word64) (tag : BitVec 32) (status extra : Nat) :
    Completed (if sig then s.dmaWrite v iova.toNat (completion value tag status extra) else s) v sig iova
      (completion value tag status extra) := by
  intro asked
  rw [if_pos asked]
  have stands := State.raw_poke ((s.vf v).queues.foldl (State.markDirty v iova.toNat (completion value tag status extra).length) s)
    (hostLoc v iova.toNat) (completion value tag status extra)
  rw [length_completion] at stands
  rw [State.dmaWrite, length_completion]
  exact stands

theorem complete_beside (s : State) (v q : Nat) (c : List Byte) (value : Word64) (status extra : Nat) :
    (s.complete v q c value status extra).outer = s.outer ∧ (s.complete v q c value status extra).parts = s.parts := by
  unfold State.complete
  split
  · exact dmaWrite_beside _ _ _ _
  · exact ⟨rfl, rfl⟩

theorem complete_quiet (s : State) (v q : Nat) {c : List Byte} (quiet : cmdSig c = false) (value : Word64) (status extra : Nat) :
    s.complete v q c value status extra = s := by
  rw [State.complete, quiet, if_neg Bool.false_ne_true]

/-! ### LAUNCH (R162, R442) -/

/-- The queue past a chain of n commands; a STOP that waited for the boundary takes effect (R442). -/
def Queue.pastChain (x : Queue) (n : Nat) : Queue :=
  { x with head := x.head + BitVec.ofNat 32 n, stopping := false
           state := if x.stopping && x.state = 1 then 2 else x.state }

/-- HEAD has passed a chain, and what was read on other modules for its checks is used up (R422, R442). -/
def State.pastChain (s : State) (v q n : Nat) : State := (s.passChain v q n).dropAnswers deviceCore launchEngine

theorem pastChain_queue {s t : State} (same : t.outer.vfs = s.outer.vfs) (v q n : Nat) :
    QueueBecomes s (t.pastChain v q n) v q (((s.vf v).queue q).pastChain n) :=
  queueBecomes_modQueue (t := { t with outer := { t.outer with forwards := t.outer.forwards.filter (fun f =>
    !(f.core = deviceCore && f.engine = launchEngine && f.reply.isSome)) } }) same v q (f := fun f => f.pastChain n) rfl

/-- A chain that the checks refuse. -/
def State.refuseChain (s : State) (v q : Nat) (cs : List (List Byte)) (st i : Nat) : State :=
  (s.complete v q (cs.getLastD []) (cmdValue (cs.getLastD [])) st i).pastChain v q cs.length

/-- The device keeps a chain. -/
def State.keepChain (s : State) (n : Nat) (c : Chain) : State :=
  { s with outer := { s.outer with chains := Sparse.set n c s.outer.chains, nextChain := n + 1 } }

/-- A chain that is accepted, in the state that has its groups and rings. -/
def State.acceptChain (u : State) (n v q : Nat) (cs : List (List Byte)) (ps : List LaunchPlan) : State :=
  ((ps.foldl State.createLaunch u).keepChain n (chainOf v q (cs.getLastD []) ps)).pastChain v q cs.length

section
variable {s : State} {v q : Nat} {y : Party} {cs : List (List Byte)} {bs : List (Option LaunchBlock)}
  (read : s.readChain y cs = .ok bs)
include read

theorem launchChain_of_refused {st i : Nat} (refused : s.reserveAll y s.outer.nextChain 0 bs = .error (st, i)) :
    s.launchChain v q y cs = s.refuseChain v q cs st i := by
  rw [State.launchChain, read]
  dsimp only
  rw [refused]
  rfl

theorem launchChain_of_accepted {u : State} {ps : List LaunchPlan}
    (accepted : s.reserveAll y s.outer.nextChain 0 bs = .ok (u, ps)) :
    s.launchChain v q y cs = u.acceptChain s.outer.nextChain v q cs ps := by
  rw [State.launchChain, read]
  dsimp only
  rw [accepted]
  rfl

end

theorem exec_launch_malformed {s : State} {c : List Byte} {y : Party} (head : HeadCommand s 1 c y)
    (none : s.chainAt s.actor.vf s.actor.queue 4 (theQueue s).head = none) :
    exec .launch s = .next (s.modQueue s.actor.vf s.actor.queue
      (fun f => { f with state := 3, err := 9, stopping := false })) := by
  change execLaunch s = _
  rw [execLaunch, take_of_head head]
  unfold theQueue at none
  rw [none]

theorem exec_launch_chain {s : State} {c : List Byte} {y : Party} {cs : List (List Byte)} (head : HeadCommand s 1 c y)
    (chain : s.chainAt s.actor.vf s.actor.queue 4 (theQueue s).head = some cs) :
    exec .launch s = .next (s.launchChain s.actor.vf s.actor.queue y cs) := by
  change execLaunch s = _
  rw [execLaunch, take_of_head head]
  unfold theQueue at chain
  rw [chain]

/-- A refused chain: its completion, its queue, and nothing else. -/
theorem refuseChain_facts (s : State) (v q : Nat) (cs : List (List Byte)) (st i : Nat) :
    let t := s.refuseChain v q cs st i
    let last := cs.getLastD []
    Completed t v (cmdSig last) (cmdIova last) (completion (cmdValue last) (cmdTag last) st i)
      ∧ QueueBecomes s t v q (((s.vf v).queue q).pastChain cs.length) ∧ QuietWithoutSig s t last ∧ t.parts = s.parts := by
  intro t last
  obtain ⟨outer, parts⟩ := complete_beside s v q last (cmdValue last) st i
  refine ⟨completed_dmaWrite s v (cmdSig last) (cmdIova last) (cmdValue last) (cmdTag last) st i,
    pastChain_queue (congrArg Outer.vfs outer) v q cs.length, fun quiet => ?_, parts⟩
  have same : (s.complete v q last (cmdValue last) st i).mem = s.mem := by rw [complete_quiet s v q quiet]
  exact (SameMemory.of_mem (t := t) same).1

/-- An accepted chain: it is kept, its queue passes it, and its units are runnable. -/
theorem acceptChain_facts {s u : State} {y : Party} {bs : List (Option LaunchBlock)} {ps : List LaunchPlan} {n : Nat}
    (accepted : s.reserveAll y n 0 bs = .ok (u, ps)) (v q : Nat) (cs : List (List Byte)) :
    let t := u.acceptChain n v q cs ps
    Sparse.find? n t.outer.chains = some (chainOf v q (cs.getLastD []) ps) ∧ t.outer.nextChain = n + 1
      ∧ QueueBecomes s t v q (((s.vf v).queue q).pastChain cs.length)
      ∧ ∀ p ∈ ps, ∀ w ∈ p.block.units, Runnable t y.part (p.recordOf w) := by
  intro t
  obtain ⟨outer, placed⟩ := reserveAll_placed accepted
  obtain ⟨makes, runs⟩ := createLaunches_facts placed u
  have vfs : (ps.foldl State.createLaunch u).outer.vfs = s.outer.vfs := congrArg Outer.vfs (makes.outer.trans outer)
  exact ⟨Sparse.find?_set_same n _ _, rfl,
    pastChain_queue (t := (ps.foldl State.createLaunch u).keepChain n (chainOf v q (cs.getLastD []) ps)) vfs v q cs.length, runs⟩

/-! ### LAUNCH_COMPLETION (R442, R443) -/

/-- The chain that has ended is kept no more, and its completion is written when it asks for one. -/
def State.endChain (s : State) (n : Nat) (c : Chain) (st : Nat) : State :=
  let t := { s with outer := { s.outer with chains := Sparse.erase n s.outer.chains } }
  if c.sig then t.dmaWrite c.vf c.iova.toNat (completion c.value c.tag st 0) else t

theorem endChain_facts (s : State) (n : Nat) (c : Chain) (st : Nat) : let t := s.endChain n c st
    Sparse.find? n t.outer.chains = none ∧ Completed t c.vf c.sig c.iova (completion c.value c.tag st 0)
      ∧ (c.sig = false → SameBytes s t (fun _ => True)) := by
  intro t
  have erased : t.outer.chains = Sparse.erase n s.outer.chains := by
    change (State.endChain s n c st).outer.chains = _
    unfold State.endChain
    dsimp only
    split
    · rw [(dmaWrite_beside _ _ _ _).1]
    · rfl
  refine ⟨?_, completed_dmaWrite _ c.vf c.sig c.iova c.value c.tag st 0, fun quiet => ?_⟩
  · rw [erased]
    exact Sparse.find?_erase_same n _
  · have same : t.mem = s.mem := by
      change (State.endChain s n c st).mem = _
      rw [State.endChain, quiet]
      rfl
    exact (SameMemory.of_mem same).1

section
variable {s : State} {n : Nat} {c : Chain} (kept : Sparse.find? n s.outer.chains = some c)
include kept

theorem exec_launchCompletion_ended (ended : ∀ l ∈ s.launchesOf c, l.records = [])
    (done : ∀ l ∈ c.launches, s.storesDone l.1 = true ∧ s.tasksDone l.1 l.2 = true) :
    exec (.launchCompletion n) s = .next (s.endChain n c
      ((s.launchesOf c).foldl (fun (e : UnitEnd) (l : Launch) => e.worse l.ended) .retired).status) := by
  have units : (s.launchesOf c).all (fun l => l.records.isEmpty) = true :=
    List.all_eq_true.2 (fun l hl => by rw [ended l hl]; rfl)
  have writes : c.launches.all (fun l => s.storesDone l.1 && s.tasksDone l.1 l.2) = true :=
    List.all_eq_true.2 (fun l hl => Bool.and_eq_true_iff.2 (done l hl))
  change execLaunchCompletion n s = _
  rw [execLaunchCompletion, kept]
  dsimp only
  rw [units, writes]
  rfl

theorem exec_launchCompletion_waits
    (waits : (∃ l ∈ s.launchesOf c, l.records ≠ []) ∨ ∃ l ∈ c.launches, s.tasksDone l.1 l.2 = false) :
    exec (.launchCompletion n) s = .next s := by
  have unfinished : ¬ ((s.launchesOf c).all (fun l => l.records.isEmpty)
      && c.launches.all (fun l => s.storesDone l.1 && s.tasksDone l.1 l.2)) = true := by
    rw [Bool.and_eq_true_iff, List.all_eq_true, List.all_eq_true]
    rintro ⟨units, writes⟩
    rcases waits with ⟨l, hl, live⟩ | ⟨l, hl, running⟩
    · exact live (List.isEmpty_iff.1 (units l hl))
    · exact Bool.false_ne_true (running.symm.trans (Bool.and_eq_true_iff.1 (writes l hl)).2)
  change execLaunchCompletion n s = _
  rw [execLaunchCompletion, kept]
  dsimp only
  rw [if_neg unfinished]

end

/-- Settles O53: what the checks of a launch admit places every unit's record on a 64-byte boundary, so making one unit
leaves the records of the others as they stand; a chain that is refused, or has ended, writes its completion alone. -/
theorem chainsLaunchWhole : Obligations.ChainsLaunchWhole := by
  constructor
  · intro s c y v q x head
    refine ⟨fun malformed => ?_, ?_⟩
    · exact ⟨_, exec_launch_malformed head malformed, SameMemory.of_mem rfl, queueBecomes_modQueue rfl v q rfl⟩
    intro cs bs chain read last n passed
    refine ⟨fun st i refused => ?_, fun u ps accepted => ?_⟩
    · exact ⟨_, (exec_launch_chain head chain).trans (congrArg _ (launchChain_of_refused read refused)),
        refuseChain_facts s v q cs st i⟩
    · exact ⟨_, (exec_launch_chain head chain).trans (congrArg _ (launchChain_of_accepted read accepted)),
        acceptChain_facts accepted v q cs⟩
  · intro s n c kept ls st
    refine ⟨fun ended done => ?_, fun waits => ?_⟩
    · exact ⟨_, exec_launchCompletion_ended kept ended done, endChain_facts s n c st⟩
    · exact ⟨s, exec_launchCompletion_waits kept waits, rfl⟩

end Sys2Proof.Machine
end
/-! ## Switches of banks, and soft errors (O40) -/
section
namespace Sys2Proof.Machine

variable {s : State}

/-! ### A write of MODE (R189) -/

theorem Cluster.bank_setBank (c : Cluster) (b n : Nat) (x : Bank) :
    (c.setBank b x).bank n = if n = b then x else c.bank n := Sparse.get_set b n x Bank.init c.banks

/-- A change of the home cluster leaves everything beside it as before. -/
theorem homeFrame_setMyCluster (s : State) (c : Cluster) : HomeFrame s (s.setMyCluster c) :=
  ⟨SameMemory.of_mem rfl, rfl, rfl, fun _ _ => rfl, rfl,
    fun k other => (State.cluster_setCluster s s.home k c).trans (if_neg other), rfl, rfl⟩

theorem exec_bankModeSwitch_starts {b : BitVec 4} {m : BitVec 2} (writable : m ≠ 3)
    (changes : m.toNat ≠ (s.myCluster.bank b.toNat).mode) (idle : (s.myCluster.bank b.toNat).switching = none)
    (authority : (s.worldOf s.party).l2auth = true) :
    exec (.bankModeSwitch b m) s = .next (s.setMyCluster (s.myCluster.setBank b.toNat
      { s.myCluster.bank b.toNat with switching := some (m.toNat, s.party.world) })) := by
  have below : ¬ 3 ≤ m.toNat := by
    have differs : m.toNat ≠ 3 := fun e => writable (BitVec.eq_of_toNat_eq e)
    omega
  refine congrArg Host.Outcome.next (if_neg ?_)
  rintro (reserved | same | busy | unauthorised)
  · exact below reserved
  · exact changes same
  · exact Bool.false_ne_true ((congrArg Option.isSome idle).symm.trans busy)
  · exact Bool.false_ne_true (unauthorised.symm.trans authority)

theorem exec_bankModeSwitch_discarded (b : BitVec 4) (m : BitVec 2) (authority : (s.worldOf s.party).l2auth = false) :
    exec (.bankModeSwitch b m) s = .next s :=
  congrArg Host.Outcome.next (if_pos (.inr (.inr (.inr authority))))

/-! ### The end of a switch (R192, R193) -/

/-- Granules that lie whole in wiped memory have lost their tags. -/
theorem Mem.untagged_wipe (m : Mem) {l n x : Nat} (low : l % 16 = 0) (high : n % 16 = 0) (inside : l ≤ x ∧ x < l + n) :
    x / 16 ∉ (m.wipe l n).tags := fun tagged =>
  ((Marks.mem_delRange (l / 16) ((l + n) / 16) (x / 16) m.tags).1 tagged).1 (by omega)

theorem bankLoc_aligned (k b : Nat) : bankLoc k b 0 % 16 = 0 := by
  unfold bankLoc
  omega

theorem bankSize_aligned (k : Nat) : bankSize k % 16 = 0 := by
  unfold bankSize
  split <;> rfl

theorem core_staleBank (s : State) (k b n : Nat) :
    (s.staleBank k b).core n = { s.core n with eng := (s.core n).eng.staleBank k b } := by
  refine get_map_of_rel (R := fun c d => d = { c with eng := c.eng.staleBank k b }) ?_ (fun q => ?_) s.cores
  · rfl
  · exact ⟨rfl, fun _ => rfl⟩

theorem part_staleBank (s : State) (k b p : Nat) :
    (s.staleBank k b).part p = { s.part p with areas := ((s.staleBank k b).part p).areas } := by
  refine get_map_of_rel (R := fun x y => y = { x with areas := y.areas }) ?_ (fun q => ?_) s.parts
  · rfl
  · exact ⟨rfl, fun _ => rfl⟩

/-- The device once a bank of the home cluster is empty, zero and x. -/
def State.resetBank (s : State) (b : Nat) (x : Bank) : State :=
  (({ s with mem := s.mem.wipe (bankLoc s.home b 0) (bankSize s.home) }).setMyCluster
    (s.myCluster.setBank b x)).staleBank s.home b

theorem myCluster_resetBank (s : State) (b : Nat) (x : Bank) : (s.resetBank b x).myCluster = s.myCluster.setBank b x :=
  State.myCluster_setMyCluster _ _

theorem exec_bankSwitchComplete {b : BitVec 4} {mode world : Nat}
    (switching : (s.myCluster.bank b.toNat).switching = some (mode, world)) (free : s.switchWaits s.home b.toNat = false) :
    exec (.bankSwitchComplete b) s = .next (s.resetBank b.toNat ⟨mode, if mode = 0 then 0 else world, none, []⟩) := by
  change execBankSwitchComplete b s = _
  rw [execBankSwitchComplete]
  change ((s.cluster s.home).bank b.toNat).switching = _ at switching
  dsimp only
  rw [switching]
  dsimp only
  rw [free, if_neg Bool.false_ne_true]
  rfl

/-! ### Soft errors (R198) -/

theorem exec_uncorrectableSoftError {u : PoisonUnit} (sound : poisonSound u = true) :
    exec (.uncorrectableSoftError u) s = .next { s with mem :=
      { s.mem with poison := Marks.addAll (unitsOf u) s.mem.poison, tags := Marks.delAll (tagOfUnit u) s.mem.tags } } :=
  congrArg Host.Outcome.next (if_pos sound)

/-- A switch moves the bank from one mode to the next, and a soft error the marks of its unit alone. -/
theorem banksSwitchAndFail : Claim.BanksSwitchAndFail := by
  constructor
  · intro s b m x
    refine ⟨fun writable changes idle authority => ?_, fun authority => ?_, fun mode world switching free => ?_⟩
    · refine ⟨_, exec_bankModeSwitch_starts writable changes idle authority, ?_, fun n other => ?_,
        homeFrame_setMyCluster s _, rfl⟩
      · rw [State.myCluster_setMyCluster, Cluster.bank_setBank, if_pos rfl]
      · rw [State.myCluster_setMyCluster, Cluster.bank_setBank, if_neg other]
    · exact ⟨s, exec_bankModeSwitch_discarded b m authority, rfl⟩
    · refine ⟨_, exec_bankSwitchComplete switching free, ?_, fun l lo hi => ⟨?_, ?_⟩, ?_, fun n => ?_, fun p => ?_⟩
      · rw [myCluster_resetBank, Cluster.bank_setBank, if_pos rfl]
      · exact (Mem.byte_wipe _ _ _ _).trans (if_pos ⟨lo, hi⟩)
      · exact Mem.untagged_wipe _ (bankLoc_aligned _ _) (bankSize_aligned _) ⟨lo, hi⟩
      · exact SameBytes.of_same (fun l outside => Mem.same_wipe _ _ _ l outside)
      · exact core_staleBank _ _ _ n
      · exact part_staleBank _ _ _ p
  · intro s u sound
    refine ⟨_, exec_uncorrectableSoftError sound, fun x => ?_, fun g => ?_, rfl⟩
    · rw [Marks.mem_addAll, or_comm]
      cases u <;> simp [unitsOf, floorTo]
    · rw [Marks.mem_delAll, and_comm]
      cases u <;> simp [tagOfUnit]

end Sys2Proof.Machine
end
/-! ## The weight table (O40) -/
section
namespace Sys2Proof.Machine

variable {s : State}

/-! ### Registration (R263, R270, R271) -/

/-- Bytes that are held under another key from now on read under it as they stood. -/
theorem Mem.byteUnder_rekey_raw (m : Mem) {key l n x : Nat} (inside : l ≤ x ∧ x < l + n) :
    (m.rekey key l (m.raw l n)).byteUnder key x = m.byte x := by
  have reads := Mem.readUnder_putBytes m key l (m.raw l n)
  rw [Mem.raw, List.length_map, length_upFrom] at reads
  exact List.map_inj_left.1 reads x ((mem_upFrom l n x).2 inside)

theorem Mem.same_rekey_raw (m : Mem) {key l n x : Nat} (outside : x < l ∨ l + n ≤ x) :
    (m.rekey key l (m.raw l n)).byte x = m.byte x ∧ (m.rekey key l (m.raw l n)).keyAt x = m.keyAt x :=
  Mem.same_putBytes m key l x (m.raw l n) (by rwa [Mem.raw, List.length_map, length_upFrom])

theorem class_of_layoutOk {layout : List Byte} (ok : layoutOk layout = true) :
    ∃ c, shapeClass (numAt 1 1 layout) = some c ∧ inGroup c.group (numAt 0 1 layout) = true := by
  have grouped := (Bool.and_eq_true_iff.1 ok).2
  split at grouped
  next c known => exact ⟨c, known, grouped⟩
  next => cases grouped

theorem exec_weightRegionRegistration {base len n : Nat} {layout : List Byte} (ok : layoutOk layout = true)
    (nonempty : 0 < len) (frame : s.frameOk s.actor.part base len = true) (present : (s.part s.actor.part).present = true)
    (free : s.freeWeight = some n) :
    let l := hbmLoc s.actor.part base
    let w : Weight := { ident := weightIdent (s.mem.raw l len) layout, part := s.actor.part, base := base, len := len,
                        layout := layout }
    exec (.weightRegionRegistration base len layout) s = .next { s with
      mem := s.mem.rekey (s.weightKey s.actor.part) l (s.mem.raw l len)
      outer := { s.outer with weights := Sparse.set n w s.outer.weights } } := by
  have admitted : ¬ ((!layoutOk layout) = true ∨ len = 0 ∨ s.frameOk s.actor.part base len = false
      ∨ (s.part s.actor.part).present = false) := by
    rw [ok, frame, present]
    simp [nonempty.ne']
  change execWeightRegionRegistration base len layout s = _
  rw [execWeightRegionRegistration]
  dsimp only
  rw [if_neg admitted, free]

/-! ### Removal (R273) -/

/-- Has some pass of a Cumulus fetched a weight and not retired? -/
def Cumulus.fetched (u : Cumulus) (ident : BitVec 64) : Bool :=
  u.passes.any (fun q => q.members.length < q.next && q.names ident)

theorem State.weightBusy_eq (s : State) (p : Nat) (ident : BitVec 64) :
    s.weightBusy p ident = (s.part p).clust.any (fun k => (s.cluster k).cumulus.fetched ident) := rfl

/-- A pass that has just been formed has fetched nothing. -/
theorem fetched_form (u : Cumulus) (l : HoldList) (ident : BitVec 64) : (u.form l).fetched ident = u.fetched ident := by
  simp [Cumulus.fetched, Cumulus.form, passOf]

theorem fetched_formAll (u : Cumulus) (p : HoldList → Bool) (ident : BitVec 64) :
    (u.formAll p).fetched ident = u.fetched ident :=
  foldl_keeps (fun u => u.fetched ident) (fun u l _ => fetched_form u l ident) u

theorem mem_lists_foldl_form {u : Cumulus} {ls : List HoldList} {l : HoldList} (kept : l ∈ (ls.foldl Cumulus.form u).lists) :
    l ∈ u.lists ∧ l ∉ ls := by
  induction ls generalizing u with
  | nil => exact ⟨kept, List.not_mem_nil⟩
  | cons m ls ih =>
    obtain ⟨stays, apart⟩ := ih kept
    obtain ⟨held, other⟩ := List.mem_filter.1 stays
    exact ⟨held, List.not_mem_cons_of_ne_of_not_mem (bne_iff_ne.1 other) apart⟩

/-- No list of a kind is left once all of them have formed their passes. -/
theorem not_of_mem_formAll {u : Cumulus} {p : HoldList → Bool} {l : HoldList} (kept : l ∈ (u.formAll p).lists) :
    p l = false := by
  obtain ⟨held, unformed⟩ := mem_lists_foldl_form kept
  exact Bool.eq_false_iff.2 (fun named => unformed (List.mem_filter.2 ⟨held, named⟩))

theorem State.cluster_modCumulus (s : State) (k n : Nat) (f : Cumulus → Cumulus) :
    (s.modCumulus k f).cluster n = if n = k then { s.cluster k with cumulus := f (s.cluster k).cumulus } else s.cluster n :=
  State.cluster_setCluster s k n _

theorem modCumuli_keeps {γ : Type} {g : State → γ} {f : Cumulus → Cumulus} (h : ∀ t k, g (t.modCumulus k f) = g t)
    (s : State) (p : Nat) : g (s.modCumuli p f) = g s :=
  foldl_keeps g (fun t k _ => h t k) s

/-- What a change of a Cumulus leaves of it stands in every cluster after a change of a partition's. -/
theorem cumulus_modCumuli_keeps {γ : Type} {g : Cumulus → γ} {f : Cumulus → Cumulus} (h : ∀ u, g (f u) = g u) (s : State)
    (p k : Nat) : g ((s.modCumuli p f).cluster k).cumulus = g (s.cluster k).cumulus := by
  refine modCumuli_keeps (g := fun t => g (t.cluster k).cumulus) (fun t n => ?_) s p
  rw [State.cluster_modCumulus]
  split
  next here => rw [here, h]
  next => rfl

/-- What a change of a Cumulus brings about stands in each cluster of a partition after a change of them all. -/
theorem cumulus_modCumuli_has {P : Cumulus → Prop} {f : Cumulus → Cumulus} (h : ∀ u, P (f u)) {p k : Nat}
    (member : k ∈ (s.part p).clust) : P ((s.modCumuli p f).cluster k).cumulus := by
  rw [State.modCumuli]
  generalize (s.part p).clust = clust at member
  induction clust using List.reverseRecOn with
  | nil => cases member
  | append_singleton ks n ih =>
    rw [List.foldl_append, List.foldl_cons, List.foldl_nil, State.cluster_modCumulus]
    split
    next => exact h _
    next other => exact ih ((List.mem_append.1 member).resolve_right (fun last => other (List.mem_singleton.1 last)))

/-- Forming passes makes no weight busy: a pass counts once it has fetched its weight. -/
theorem weightBusy_formAll (s : State) (p : Nat) (kind : HoldList → Bool) (ident : BitVec 64) :
    (s.modCumuli p (fun u => u.formAll kind)).weightBusy p ident = s.weightBusy p ident := by
  have parts : (s.modCumuli p (fun u => u.formAll kind)).parts = s.parts := modCumuli_keeps (fun _ _ => rfl) s p
  rw [State.weightBusy_eq, State.weightBusy_eq, State.part, parts]
  exact congrArg _ (funext (fun k =>
    cumulus_modCumuli_keeps (g := fun u => u.fetched ident) (fun u => fetched_formAll u kind ident) s p k))

theorem exec_weightRemoval {ident : BitVec 64} {n : Nat} {w : Weight} (named : s.weightOf s.actor.part ident = some (n, w))
    (idle : s.weightBusy s.actor.part ident = false) :
    let t := s.modCumuli s.actor.part (fun u => u.formAll (HoldList.names ident))
    exec (.weightRemoval ident) s
      = .next { t with outer := { t.outer with weights := Sparse.erase n t.outer.weights } } := by
  change execWeightRemoval ident s = _
  rw [execWeightRemoval]
  dsimp only
  rw [named]
  dsimp only
  rw [weightBusy_formAll, idle, if_neg Bool.false_ne_true]

/-- A registration rekeys the region's bytes, a removal forms the passes of its lists, an advertisement changes what lies
outside alone. -/
theorem weightsComeAndGo : Claim.WeightsComeAndGo := by
  refine ⟨?registration, ?removal, ?advertisement⟩
  case registration =>
    intro s base len n layout p l ok nonempty frame present free
    refine ⟨_, exec_weightRegionRegistration ok nonempty frame present free, fun x lo hi => ?_, ?_, rfl, rfl, ?_,
      class_of_layoutOk ok, fun m other => ?_⟩
    · exact Mem.byteUnder_rekey_raw s.mem ⟨lo, hi⟩
    · exact SameBytes.of_same (fun x outside => Mem.same_rekey_raw s.mem outside)
    · exact Sparse.find?_set_same n _ _
    · exact Sparse.find?_set_other _ _ other
  case removal =>
    intro s ident n w p named idle
    refine ⟨_, exec_weightRemoval named idle, Sparse.find?_erase_same n _,
      SameMemory.of_mem (modCumuli_keeps (g := State.mem) (fun _ _ => rfl) s p),
      modCumuli_keeps (g := State.cores) (fun _ _ => rfl) s p,
      modCumuli_keeps (g := State.parts) (fun _ _ => rfl) s p, fun k member => ?_⟩
    exact cumulus_modCumuli_has (P := fun u => ∀ l ∈ u.lists, l.weight ≠ ident)
      (fun u l kept => of_decide_eq_false (not_of_mem_formAll kept)) member
  case advertisement =>
    intro s
    refine ⟨_, rfl, fun x => ?_, rfl, rfl⟩
    exact (Marks.mem_addAll s.idents x []).trans (or_iff_left List.not_mem_nil)

/-- Settles O40: a switch ends with the bank wiped and in its new mode, a soft error adds marks, and a weight region's entry
stands from its registration to its removal. -/
theorem banksAndWeightsChange : Obligations.BanksAndWeightsChange := ⟨banksSwitchAndFail, weightsComeAndGo⟩

end Sys2Proof.Machine
end
/-! ## Words of the vector engine: how one is taken, is held back, and starts -/
section
namespace Sys2Proof.Machine

/-! ### Waits and held traps of an engine of the acting core -/

/-- A wait for nothing that has a queue of waiters changes nothing that the frame speaks of. -/
theorem onlyCore_engineWait_other (s : State) (e : Nat) :
    OnlyCore s (s.engineWait .other (waiterOf s.actor.core e)) s.me := onlyCore_noWaiter e (onlyCore_refl s)

/-- A trap of an engine of the acting core is held, the engine stands still, and its reads elsewhere are given up. -/
theorem onlyCore_holdTrap (s : State) (e : Nat) (t : Trap) (info : Word64) (lane : Option Nat) (word : Nat) :
    OnlyCore (s.dropLoads s.actor.core e) (s.holdTrap s.actor.core e t info lane word) { s.me with eng := { s.me.eng with
      heldTraps := holdInOrder ⟨e, t.code, info, lane, word, s.time⟩ s.me.eng.heldTraps
      stopped := Marks.add e s.me.eng.stopped } } :=
  onlyCore_dropLoads _ e (onlyCore_noWaiter e (onlyCore_setMe s _))

/-! ### The head block takes a word (R73, R201) -/

section
variable {s : State} {b : Block} {rest : List Block} {sel : BitVec 4} {f : Block → List Block → Chk State}

theorem takeVec_of_on (head : s.me.eng.vecQ = b :: rest) (free : b.region = none) (on : selOn sel b.sample = true) :
    s.takeVec sel f = s.runWord s.actor.core 1 b.next (f b rest) := by
  simp only [State.takeVec, head, free, on, if_true]

theorem takeVec_of_off (head : s.me.eng.vecQ = b :: rest) (free : b.region = none) (off : selOn sel b.sample = false) :
    s.takeVec sel f = .next (s.setMe (s.me.nextVec b rest none)) := by
  simp only [State.takeVec, head, free, off, Bool.false_eq_true, if_false]

end

/-- Outside a region the engine goes to the next word of its block, whatever the word writes. -/
theorem nextVec_of_free {b : Block} (free : b.region = none) (c : Core) (rest : List Block) (wrote : Option Nat) :
    c.nextVec b rest wrote = { c with eng := { c.eng with vecQ := { b with next := b.next + 1 } :: rest } } := by
  obtain ⟨_, _, _, _, _, _, _⟩ := b
  cases free
  rfl

/-- A word of the table runs as its entry says. -/
theorem exec_of_vopOf {i : Instr} {sel : BitVec 4} {op : VOp} (word : vopOf i = some (sel, op)) (s : State) :
    exec i s = s.runVec sel op := by
  unfold vopOf at word
  split at word
  case h_37 => cases word
  all_goals
    cases word
    rfl

/-! ### The checks of a word in their order (R212) -/

section
variable {c : Core} {op : VOp}

theorem checkVec_of_group {n : Nat} (group : op.group = some n) : c.checkVec op = trapN .argrange n := by
  rw [Core.checkVec, group]
  rfl

theorem checkVec_of_format (group : op.group = none) (refused : op.accepts c.sys.vshape = false) :
    c.checkVec op = trapN .argrange c.sys.vshape := by
  rw [Core.checkVec, group, refused]
  rfl

theorem checkVec_of_accepted (group : op.group = none) (accepted : op.accepts c.sys.vshape = true) :
    c.checkVec op = (checkAll c.testSrc op.srcs >>= fun _ =>
      waitUnless (c.targetReady op.target && (!op.posts || c.countRoom)) .other) := by
  rw [Core.checkVec, group, accepted]
  rfl

theorem testSrc_of_ready {r : Nat × Bool} (ready : c.srcReady r.1 = true) : c.testSrc r = .ok () := if_pos ready

/-- Sources that are there pass; the check goes on with those after them. -/
theorem checkAll_testSrc_append {before : List (Nat × Bool)} (ready : ∀ q ∈ before, c.srcReady q.1 = true)
    (after : List (Nat × Bool)) : checkAll c.testSrc (before ++ after) = checkAll c.testSrc after := by
  induction before with
  | nil => rfl
  | cons r before ih =>
    rw [List.cons_append, checkAll, testSrc_of_ready (ready r List.mem_cons_self)]
    exact ih (fun q hq => ready q (List.mem_cons_of_mem r hq))

theorem checkAll_testSrc_of_ready {srcs : List (Nat × Bool)} (ready : ∀ q ∈ srcs, c.srcReady q.1 = true) :
    checkAll c.testSrc srcs = .ok () := by
  have all := checkAll_testSrc_append ready []
  rwa [List.append_nil] at all

end

/-! ### A word starts (R201) -/

theorem loadQ_popSrc (c : Core) (n q : Nat) :
    (c.popSrc n).loadQ q = if n = q + 56 then (c.loadQ q).tail else c.loadQ q := by
  unfold Core.popSrc
  split
  next queue =>
    rw [Core.setLoadQ, Core.loadQ, Sparse.get_set]
    by_cases same : q = n - 56
    · rw [if_pos same, if_pos (by omega), same]
    · rw [if_neg same, if_neg (by omega)]
      rfl
  next => rw [if_neg (by omega)]

/-- Reading sources changes nothing but the load queues. -/
theorem popSrcs_eq (rs : List (Nat × Bool)) (c : Core) :
    ∃ lq, rs.foldl (fun d r => d.popSrc r.1) c = { c with lq := lq } := by
  induction rs generalizing c with
  | nil => exact ⟨c.lq, rfl⟩
  | cons r rs ih =>
    obtain ⟨first, pop⟩ : ∃ lq, c.popSrc r.1 = { c with lq := lq } := by
      unfold Core.popSrc
      split
      · exact ⟨_, rfl⟩
      · exact ⟨c.lq, rfl⟩
    obtain ⟨lq, later⟩ := ih (c.popSrc r.1)
    exact ⟨lq, by rw [List.foldl_cons, later, pop]⟩

/-- Each load queue that is named, once, has lost its oldest entry. -/
theorem loadQ_popSrcs {rs : List (Nat × Bool)} (once : ((rs.map Prod.fst).filter (fun n => 56 ≤ n)).Nodup) (c : Core)
    (q : Nat) :
    (rs.foldl (fun d r => d.popSrc r.1) c).loadQ q
      = if q + 56 ∈ rs.map Prod.fst then (c.loadQ q).tail else c.loadQ q := by
  induction rs generalizing c with
  | nil => rfl
  | cons r rs ih =>
    rw [List.map_cons, List.filter_cons] at once
    have rest : ((rs.map Prod.fst).filter (fun n => 56 ≤ n)).Nodup := by
      split at once
      · exact once.of_cons
      · exact once
    rw [List.foldl_cons, ih rest, loadQ_popSrc]
    by_cases named : r.1 = q + 56
    · have absent : q + 56 ∉ rs.map Prod.fst := by
        intro again
        rw [if_pos (by simpa using (by omega : 56 ≤ r.1)), named] at once
        exact once.notMem (List.mem_filter.2 ⟨again, by simp⟩)
      rw [if_neg absent, if_pos named, if_pos (by rw [List.map_cons, named]; exact List.mem_cons_self)]
    · simp only [if_neg named, List.map_cons, List.mem_cons, Ne.symm named, false_or]

/-- The flight that a word starts with. -/
def VOp.flight (op : VOp) (c : Core) : VecFlight :=
  let o := op.run c.sys.vshape (op.srcs.map (fun r => c.srcVal r.1))
  ⟨op.target.dest o, o.value, o.post⟩

theorem vecStarted_startVec {s : State} {b : Block} {op : VOp} (rest : List Block) (free : b.region = none)
    (once : ((op.srcs.map Prod.fst).filter (fun n => 56 ≤ n)).Nodup) :
    VecStarted s ((s.setMe (s.me.startVec b rest op)).noWait (waiterOf s.actor.core 1)) b rest (op.srcs.map Prod.fst)
      op.target.reg? (op.flight s.me) := by
  obtain ⟨lq, popped⟩ := popSrcs_eq op.srcs s.me
  have queues := loadQ_popSrcs once s.me
  have me : ((s.setMe (s.me.startVec b rest op)).noWait (waiterOf s.actor.core 1)).me = s.me.startVec b rest op :=
    State.me_setMe s _
  have started : s.me.startVec b rest op = { s.me with
      lq := lq, vEmpty := match op.target.reg? with | some n => Marks.add n s.me.vEmpty | none => s.me.vEmpty
      eng := { s.me.eng with
        vecQ := { b with next := b.next + 1 } :: rest, vecFlight := s.me.eng.vecFlight ++ [op.flight s.me] } } := by
    rw [Core.startVec, popped]
    cases op.target.reg? <;> exact nextVec_of_free free _ rest _
  refine ⟨?_, fun n => ?_, fun q => ?_⟩
  · rw [me, started]
    exact onlyCore_noWaiter 1 (onlyCore_setMe s _)
  · rw [me, started]
    cases op.target.reg? with
    | none => simp [Core.isEmpty]
    | some m => simp [Core.isEmpty, Marks.has_add, Bool.or_comm, eq_comm]
  · rw [← queues q, popped, me, started]
    rfl

section
variable {s : State} {b : Block} {rest : List Block} {i : Instr} {sel : BitVec 4} {op : VOp}

/-- A word whose checks pass starts. -/
theorem answers_vecStarted (word : vopOf i = some (sel, op)) (group : op.group = none)
    (accepted : op.accepts s.me.sys.vshape = true) (room : op.posts = false ∨ s.me.countRoom = true)
    (ready : VecReady s b rest sel (op.srcs.map Prod.fst) op.target) :
    Answers i s (fun t => VecStarted s t b rest (op.srcs.map Prod.fst) op.target.reg? (op.flight s.me)) := by
  obtain ⟨head, free, on, there, once, target⟩ := ready
  have sources : ∀ q ∈ op.srcs, s.me.srcReady q.1 = true := fun q hq => there q.1 (List.mem_map_of_mem hq)
  have passes : s.me.checkVec op = .ok () := by
    have push : (!op.posts || s.me.countRoom) = true := by rcases room with h | h <;> simp [h]
    rw [checkVec_of_accepted group accepted, checkAll_testSrc_of_ready sources, target, push]
    rfl
  refine ⟨_, ?_, vecStarted_startVec rest free once⟩
  rw [exec_of_vopOf word, State.runVec, takeVec_of_on head free on, passes]
  rfl

/-- A word with port vd that pushes no count starts with its result on the way to vd. -/
theorem answers_vecWrote {d : BitVec 6} {v : Vec} (word : vopOf i = some (sel, op)) (group : op.group = none)
    (accepted : op.accepts s.me.sys.vshape = true) (quiet : op.posts = false) (port : op.target = .port d.toNat)
    (gives : op.run s.me.sys.vshape (op.srcs.map (fun r => s.me.srcVal r.1)) = .vec v)
    (ready : VecReady s b rest sel (op.srcs.map Prod.fst) (.port d.toNat)) :
    Answers i s (fun t => VecWrote s t b rest (op.srcs.map Prod.fst) d v) := by
  obtain ⟨t, runs, started⟩ := answers_vecStarted word group accepted (.inl quiet) (port ▸ ready)
  refine ⟨t, runs, ?_⟩
  rw [VOp.flight, gives, port] at started
  simp only [VTarget.reg?, VTarget.dest] at started
  unfold VecWrote
  split
  next store => rwa [if_pos store, if_pos store] at started
  next register => rwa [if_neg register, if_neg register] at started

end

section
variable {s : State} {blk : Block} {rest : List Block} {i : Instr} {sel : BitVec 4} {accepts : Nat → Bool} {d a b : BitVec 6}
  {x y : BitVec 1}

theorem answers_vop1 {f : Nat → Vec → Vec} (word : vopOf i = some (sel, vop1 accepts d a x f))
    (accepted : accepts s.me.sys.vshape = true) (ready : VecReady s blk rest sel [a.toNat] (.port d.toNat)) :
    Answers i s (fun t => VecWrote s t blk rest [a.toNat] d (f s.me.sys.vshape (s.me.srcVal a.toNat))) :=
  answers_vecWrote word rfl accepted rfl rfl rfl ready

theorem answers_vop2 {f : Nat → Vec → Vec → Vec} (word : vopOf i = some (sel, vop2 accepts d a b x y f))
    (accepted : accepts s.me.sys.vshape = true) (ready : VecReady s blk rest sel [a.toNat, b.toNat] (.port d.toNat)) :
    Answers i s (fun t => VecWrote s t blk rest [a.toNat, b.toNat] d
      (f s.me.sys.vshape (s.me.srcVal a.toNat) (s.me.srcVal b.toNat))) :=
  answers_vecWrote word rfl accepted rfl rfl rfl ready

theorem answers_vop3 {f : Nat → Vec → Vec → Vec → Vec} (word : vopOf i = some (sel, vop3 accepts d a b x y f))
    (accepted : accepts s.me.sys.vshape = true)
    (ready : VecReady s blk rest sel [a.toNat, b.toNat, d.toNat] (.port d.toNat)) :
    Answers i s (fun t => VecWrote s t blk rest [a.toNat, b.toNat, d.toNat] d
      (f s.me.sys.vshape (s.me.srcVal d.toNat) (s.me.srcVal a.toNat) (s.me.srcVal b.toNat))) :=
  answers_vecWrote word rfl accepted rfl rfl rfl ready

end

end Sys2Proof.Machine
end
/-! ## Lanes of registers -/
section
namespace Sys2Proof.Machine

theorem laneAt_lt (w : Nat) (v : Vec) (i : Nat) : laneAt w v i < 2 ^ w := Nat.mod_lt _ (Nat.two_pow_pos w)

theorem lanesOf_eq (w : Nat) (v : Vec) : lanesOf w v = (List.range (2048 / w)).map (laneAt w v) := by
  rw [lanesOf, upFrom_zero_eq_range]
  rfl

@[simp] theorem length_lanesOf (w : Nat) (v : Vec) : (lanesOf w v).length = 2048 / w := by
  rw [lanesOf_eq, List.length_map, List.length_range]

theorem getElem?_lanesOf {w i : Nat} (v : Vec) (inside : i < 2048 / w) : (lanesOf w v)[i]? = some (laneAt w v i) := by
  rw [lanesOf_eq, List.getElem?_map, List.getElem?_range inside]
  rfl

/-- Every width of a format divides a register into whole lanes, an even number of at most 256. -/
theorem bits_fmtOf (c : Nat) : (fmtOf c).bits ∈ [8, 16, 32, 64] := by
  unfold fmtOf
  split <;> decide

theorem lane_inside {w k : Nat} (inside : k < 2048 / w) : w * k + w ≤ 2048 := by
  calc w * k + w = w * (k + 1) := by ring
    _ ≤ w * (2048 / w) := Nat.mul_le_mul_left w inside
    _ ≤ 2048 := Nat.mul_div_le 2048 w

/-! ### A register packed from lanes -/

theorem field_packNat (w : Nat) (l : List Nat) (k : Nat) : bitsAt (packNat w l) (w * k) w = l.getD k 0 % 2 ^ w := by
  induction l generalizing k with
  | nil => simp [packNat, bitsAt]
  | cons x l ih =>
    have unfolded : packNat w (x :: l) = x % 2 ^ w + 2 ^ w * packNat w l := rfl
    cases k with
    | zero => simp [bitsAt, unfolded]
    | succ k =>
      have high : (x % 2 ^ w + 2 ^ w * packNat w l) / 2 ^ w = packNat w l := by
        rw [Nat.add_mul_div_left _ _ (Nat.two_pow_pos w), Nat.div_eq_of_lt (Nat.mod_lt _ (Nat.two_pow_pos w)), Nat.zero_add]
      rw [List.getD_cons_succ, ← ih k, bitsAt, unfolded, Nat.mul_succ, Nat.add_comm (w * k), pow_add,
        ← Nat.div_div_eq_div_mul, high]
      rfl

theorem packNat_lt (w : Nat) (l : List Nat) : packNat w l < 2 ^ (w * l.length) := by
  induction l with
  | nil => exact Nat.one_pos
  | cons x l ih =>
    have low : x % 2 ^ w + 1 ≤ 2 ^ w := Nat.mod_lt x (Nat.two_pow_pos w)
    calc x % 2 ^ w + 2 ^ w * packNat w l < 2 ^ w * (packNat w l + 1) := by rw [mul_add, mul_one]; omega
      _ ≤ 2 ^ w * 2 ^ (w * l.length) := Nat.mul_le_mul_left _ ih
      _ = 2 ^ (w * (x :: l).length) := by rw [← pow_add, List.length_cons, Nat.mul_succ, Nat.add_comm]

/-- A lane of a number of 2,048 bits. -/
theorem laneAt_ofNat {w k : Nat} (x : Nat) (inside : w * k + w ≤ 2048) :
    laneAt w (BitVec.ofNat 2048 x) k = bitsAt x (w * k) w := by
  have whole : laneAt w (BitVec.ofNat 2048 x) k = bitsAt (x % 2 ^ 2048) (w * k) w := by
    rw [← BitVec.toNat_ofNat]
    rfl
  rw [whole, bitsAt_mod inside]

theorem laneAt_packLanes {w k : Nat} (l : List Nat) (inside : k < 2048 / w) :
    laneAt w (packLanes w l) k = l.getD k 0 % 2 ^ w := by
  rw [packLanes, laneAt_ofNat _ (lane_inside inside), field_packNat]

/-! ### Words on one, two and three registers, lane by lane -/

section
variable {w k : Nat} (inside : k < 2048 / w)
include inside

theorem laneAt_packLanes_map (f : Nat → Nat) (v : Vec) :
    laneAt w (packLanes w ((lanesOf w v).map f)) k = f (laneAt w v k) % 2 ^ w := by
  rw [laneAt_packLanes _ inside, List.getD_eq_getElem?_getD, List.getElem?_map, getElem?_lanesOf v inside]
  rfl

theorem laneAt_mapLanes (f : Nat → Nat) (v : Vec) : laneAt w (mapLanes w f v) k = f (laneAt w v k) % 2 ^ w :=
  laneAt_packLanes_map inside f v

theorem laneAt_zipLanes (f : Nat → Nat → Nat) (u v : Vec) :
    laneAt w (zipLanes w f u v) k = f (laneAt w u k) (laneAt w v k) % 2 ^ w := by
  rw [zipLanes, laneAt_packLanes _ inside, List.getD_eq_getElem?_getD, List.getElem?_zipWith, getElem?_lanesOf u inside,
    getElem?_lanesOf v inside]
  rfl

theorem laneAt_zip3Lanes (f : Nat → Nat → Nat → Nat) (t u v : Vec) :
    laneAt w (zip3Lanes w f t u v) k = f (laneAt w t k) (laneAt w u k) (laneAt w v k) % 2 ^ w := by
  rw [zip3Lanes, laneAt_packLanes _ inside, List.getD_eq_getElem?_getD, List.getElem?_zipWith, List.getElem?_zipWith,
    getElem?_lanesOf t inside, getElem?_lanesOf u inside, getElem?_lanesOf v inside]
  rfl

theorem laneAt_replicate (z : Nat) : laneAt w (packLanes w (List.replicate (2048 / w) z)) k = z % 2 ^ w := by
  rw [laneAt_packLanes _ inside, List.getD_eq_getElem?_getD, List.getElem?_replicate, if_pos inside]
  rfl

/-- One value alone goes to lane 0. -/
theorem laneAt_singleton (z : Nat) : laneAt w (packLanes w [z]) k = if k = 0 then z % 2 ^ w else 0 := by
  rw [laneAt_packLanes _ inside]
  cases k with
  | zero => rfl
  | succ k => simp

end

/-! ### Lanes of integers -/

theorem wrapInt_lt (w : Nat) (x : ℤ) : wrapInt w x < 2 ^ w := by
  have pos : (0 : ℤ) < 2 ^ w := by positivity
  have low := Int.emod_nonneg x pos.ne'
  have high := Int.emod_lt_of_pos x pos
  rw [wrapInt, ← Int.ofNat_lt, Int.toNat_of_nonneg low]
  exact_mod_cast high

@[simp] theorem wrapInt_mod (w : Nat) (x : ℤ) : wrapInt w x % 2 ^ w = wrapInt w x := Nat.mod_eq_of_lt (wrapInt_lt w x)

theorem wrapInt_natCast (w x : Nat) : wrapInt w (x : ℤ) = x % 2 ^ w := by
  rw [wrapInt, ← Int.toNat_natCast (x % 2 ^ w)]
  push_cast
  rfl

theorem wrapInt_signedOf (w x : Nat) : wrapInt w (signedOf w x) = x % 2 ^ w := by
  unfold signedOf
  split
  · rw [← Nat.cast_ofNat, ← Nat.cast_pow, ← Int.natCast_mod, wrapInt_natCast, Nat.mod_mod]
  · rw [wrapInt, Int.sub_emod, Int.emod_self, sub_zero, Int.emod_emod_of_dvd _ dvd_rfl, ← wrapInt]
    rw [← Nat.cast_ofNat, ← Nat.cast_pow, ← Int.natCast_mod, wrapInt_natCast, Nat.mod_mod]

/-- A lane of an integer format is the code of its own value. -/
theorem wrapInt_int {f : Fmt} (integer : f.isInt = true) (x : Nat) : wrapInt f.bits (f.int x) = x % 2 ^ f.bits := by
  cases f with
  | sint w => exact wrapInt_signedOf w x
  | uint w => exact (wrapInt_natCast w _).trans (Nat.mod_mod _ _)
  | _ => cases integer

theorem isInt_fmtOf {c : Nat} (small : c ≤ 7) : (fmtOf c).isInt = true := by
  have all : ∀ c, c < 8 → (fmtOf c).isInt = true := by decide
  exact all c (by omega)

end Sys2Proof.Machine
end
/-! ## Words that compute lane by lane -/
section
namespace Sys2Proof.Machine

variable {s : State} {blk : Block} {rest : List Block} {i : Instr} {sel : BitVec 4} {accepts : Nat → Bool} {d a b : BitVec 6}
  {x y : BitVec 1}

/-- A word on one register writes what its function makes of the register. -/
theorem vecLanesBy_vop1 {f : Nat → Vec → Vec} {w : Nat} {P : Nat → Nat → Prop}
    (word : vopOf i = some (sel, vop1 accepts d a x f)) (accepted : accepts s.me.sys.vshape = true)
    (ready : VecReady s blk rest sel [a.toNat] (.port d.toNat))
    (holds : ∀ k, k < 2048 / w → P k (laneAt w (f s.me.sys.vshape (s.me.srcVal a.toNat)) k)) :
    VecLanesBy i s blk rest [a.toNat] d w P := ⟨_, answers_vop1 word accepted ready, holds⟩

theorem vecLanesBy_vop2 {f : Nat → Vec → Vec → Vec} {w : Nat} {P : Nat → Nat → Prop}
    (word : vopOf i = some (sel, vop2 accepts d a b x y f)) (accepted : accepts s.me.sys.vshape = true)
    (ready : VecReady s blk rest sel [a.toNat, b.toNat] (.port d.toNat))
    (holds : ∀ k, k < 2048 / w → P k (laneAt w (f s.me.sys.vshape (s.me.srcVal a.toNat) (s.me.srcVal b.toNat)) k)) :
    VecLanesBy i s blk rest [a.toNat, b.toNat] d w P := ⟨_, answers_vop2 word accepted ready, holds⟩

theorem vecLanesBy_vop3 {f : Nat → Vec → Vec → Vec → Vec} {w : Nat} {P : Nat → Nat → Prop}
    (word : vopOf i = some (sel, vop3 accepts d a b x y f)) (accepted : accepts s.me.sys.vshape = true)
    (ready : VecReady s blk rest sel [a.toNat, b.toNat, d.toNat] (.port d.toNat))
    (holds : ∀ k, k < 2048 / w → P k (laneAt w (f s.me.sys.vshape (s.me.srcVal d.toNat) (s.me.srcVal a.toNat)
      (s.me.srcVal b.toNat)) k)) :
    VecLanesBy i s blk rest [a.toNat, b.toNat, d.toNat] d w P := ⟨_, answers_vop3 word accepted ready, holds⟩

/-- Lanes that are a function's values are lanes related to them by equality. -/
theorem vecLanes_of_by {srcs : List Nat} {w : Nat} {lane : Nat → Nat}
    (h : VecLanesBy i s blk rest srcs d w (fun k z => z = lane k % 2 ^ w)) : VecLanes i s blk rest srcs d w lane := h

end Sys2Proof.Machine
end
/-! ## Vector arithmetic under integer formats (O24) -/
section
namespace Sys2Proof.Machine

/-! ### The lane functions under an integer format (R208, R215, R216) -/

section
variable {f : Fmt} (integer : f.isInt = true)
include integer

theorem arithLane_of_isInt (o : Arith) (v : Bool) (x y : Nat) :
    arithLane o f v x y = intResult f v (o.int (f.int x) (f.int y)) := by
  cases f with
  | flt => cases integer
  | _ => rfl

theorem fmaLane_of_isInt (v : Bool) (d x y : Nat) : fmaLane f v d x y
    = wrapInt f.bits (if v then f.int d - f.int x * f.int y else f.int d + f.int x * f.int y) := by
  cases f with
  | flt => cases integer
  | _ => rfl

theorem absLane_of_isInt (v : Bool) (x : Nat) :
    absLane f v x = intResult f v (if f.int x < 0 then -(f.int x) else f.int x) := by
  cases f with
  | flt => cases integer
  | _ => rfl

theorem negLane_of_isInt (v : Bool) (x : Nat) : negLane f v x = intResult f v (-(f.int x)) := by
  cases f with
  | flt => cases integer
  | _ => rfl

theorem laneOrder_of_isInt (x y : Nat) : laneOrder f x y = some (f.int x - f.int y) := by
  cases f with
  | flt => cases integer
  | _ => rfl

theorem minMaxLane_of_isInt (max num : Bool) (x y : Nat) :
    minMaxLane f max num x y = if decide (f.int x ≤ f.int y) != max then x else y := by
  cases f with
  | flt => cases integer
  | _ => rfl

theorem minLane_of_isInt (num : Bool) (x y : Nat) :
    minMaxLane f false num x y % 2 ^ f.bits = wrapInt f.bits (min (f.int x) (f.int y)) := by
  rw [minMaxLane_of_isInt integer]
  by_cases low : f.int x ≤ f.int y
  · rw [min_eq_left low, wrapInt_int integer, decide_eq_true low]
    rfl
  · rw [min_eq_right (le_of_not_ge low), wrapInt_int integer, decide_eq_false low]
    rfl

theorem maxLane_of_isInt (num : Bool) (x y : Nat) :
    minMaxLane f true num x y % 2 ^ f.bits = wrapInt f.bits (max (f.int x) (f.int y)) := by
  rw [minMaxLane_of_isInt integer]
  by_cases low : f.int x ≤ f.int y
  · rw [max_eq_right low, wrapInt_int integer, decide_eq_true low]
    rfl
  · rw [max_eq_left (le_of_not_ge low), wrapInt_int integer, decide_eq_false low]
    rfl

end

/-- The relations of VCMP on the order of two integers. -/
theorem relHolds_sub (m : BitVec 2) (x y : ℤ) : relHolds m.toNat (some (x - y)) = true
    ↔ (m = 0 ∧ x = y) ∨ (m = 1 ∧ x ≠ y) ∨ (m = 2 ∧ x < y) ∨ (m = 3 ∧ x ≤ y) := by
  have cases : m = 0 ∨ m = 1 ∨ m = 2 ∨ m = 3 := by
    revert m
    decide
  rcases cases with rfl | rfl | rfl | rfl <;> simp [relHolds, sub_eq_zero]

/-- The one value of a reduction, by its variant. -/
theorem redValue_of_isInt {f : Fmt} (integer : f.isInt = true) (m : BitVec 2) (xs : List Nat) : let L := xs.map f.int
    redValue f m.toNat xs = if m = 0 then wrapInt f.bits L.sum else if m = 1 then wrapInt f.bits (L.foldl max (L.headD 0))
      else if m = 2 then wrapInt f.bits (L.foldl min (L.headD 0)) else wrapInt f.bits (L.map (fun z => z * z)).sum := by
  have cases : m = 0 ∨ m = 1 ∨ m = 2 ∨ m = 3 := by
    revert m
    decide
  cases f with
  | sint => rcases cases with rfl | rfl | rfl | rfl <;> rfl
  | uint => rcases cases with rfl | rfl | rfl | rfl <;> rfl
  | _ => cases integer

/-- VRED's lanes under an integer format (R215). -/
theorem laneAt_redVec_of_isInt {f : Fmt} (integer : f.isInt = true) (m : BitVec 2) (v : Vec) {k : Nat}
    (inside : k < 2048 / f.bits) : let A := fun i => f.int (laneAt f.bits v i); let L := (List.range (2048 / f.bits)).map A
    laneAt f.bits (redVec f m.toNat v) k = if k ≠ 0 then 0 else if m = 0 then wrapInt f.bits L.sum
      else if m = 1 then wrapInt f.bits (L.foldl max (A 0)) else if m = 2 then wrapInt f.bits (L.foldl min (A 0))
      else wrapInt f.bits (L.map (fun z => z * z)).sum := by
  intro A L
  have lanes : (lanesOf f.bits v).map f.int = L := by
    rw [lanesOf_eq, List.map_map]
    rfl
  have head : L.headD 0 = A 0 := by
    obtain ⟨n, succ⟩ : ∃ n, 2048 / f.bits = n + 1 := ⟨2048 / f.bits - 1, by omega⟩
    simp only [L, succ, List.range_succ_eq_map]
    rfl
  have value := redValue_of_isInt integer m (lanesOf f.bits v)
  simp only [lanes, head] at value
  rw [redVec, laneAt_singleton inside, value]
  by_cases first : k = 0
  · rw [if_pos first, if_neg (not_not.2 first)]
    split_ifs <;> exact wrapInt_mod _ _
  · rw [if_neg first, if_pos first]

/-- Settles O24: each word's lane function under an integer format is the rule's, and a lane is the code of its value. -/
theorem vectorIntegerLanes : Obligations.VectorIntegerLanes := by
  intro s blk rest d a b sel x y v m c f w A B D fix small
  have integer : f.isInt = true := isInt_fmtOf small
  have arith : fmtArith c = true := decide_eq_true (by omega)
  have result (z : ℤ) : intResult f (decide (v = 1)) z = fix z := by simp [intResult, fix, w]
  refine ⟨fun ready => ⟨?add, ?sub, fun known => ?mul, ?min, ?max, ?cmp⟩, fun ready _ => ?fma,
    fun ready => ⟨?abs, ?neg, ?red⟩⟩
  case add =>
    exact vecLanes_of_by (vecLanesBy_vop2 rfl arith ready fun k inside => by
      rw [laneAt_zipLanes inside, arithLane_of_isInt integer, result]; rfl)
  case sub =>
    exact vecLanes_of_by (vecLanesBy_vop2 rfl arith ready fun k inside => by
      rw [laneAt_zipLanes inside, arithLane_of_isInt integer, result]; rfl)
  case mul =>
    have accepted : (if m = 2 then fmtInt else fmtArith) c = true := by
      split
      · exact decide_eq_true small
      · exact arith
    refine vecLanes_of_by (vecLanesBy_vop2 rfl accepted ready fun k inside => ?_)
    rw [laneAt_zipLanes inside]
    by_cases high : m = 2
    · rw [if_pos high, if_pos high]
      rfl
    · rw [if_neg high, if_neg high, arithLane_of_isInt integer]
      simp [intResult, Arith.int, A, B, f, w, c]
  case min =>
    exact vecLanes_of_by (vecLanesBy_vop2 rfl arith ready fun k inside => by
      rw [laneAt_zipLanes inside, minLane_of_isInt integer, wrapInt_mod])
  case max =>
    exact vecLanes_of_by (vecLanesBy_vop2 rfl arith ready fun k inside => by
      rw [laneAt_zipLanes inside, maxLane_of_isInt integer, wrapInt_mod])
  case cmp =>
    refine vecLanes_of_by (vecLanesBy_vop2 rfl arith ready fun k inside => ?_)
    rw [cmpVec, laneAt_zipLanes inside, laneOrder_of_isInt integer]
    simp only [relHolds_sub]
    rfl
  case fma =>
    exact vecLanes_of_by (vecLanesBy_vop3 rfl arith ready fun k inside => by
      rw [laneAt_zip3Lanes inside, fmaLane_of_isInt integer]; simp [A, B, D, f, w, c])
  case abs =>
    exact vecLanes_of_by (vecLanesBy_vop1 rfl arith ready fun k inside => by
      rw [laneAt_mapLanes inside, absLane_of_isInt integer, result])
  case neg =>
    exact vecLanes_of_by (vecLanesBy_vop1 rfl arith ready fun k inside => by
      rw [laneAt_mapLanes inside, negLane_of_isInt integer, result])
  case red =>
    refine vecLanes_of_by (vecLanesBy_vop1 rfl arith ready fun k inside => ?_)
    exact (Nat.mod_eq_of_lt (laneAt_lt _ _ k)).symm.trans (congrArg (· % 2 ^ w) (laneAt_redVec_of_isInt integer m _ inside))

end Sys2Proof.Machine
end
/-! ## Bitwise, shifting, selecting and permuting vector words (O26) -/
section
namespace Sys2Proof.Machine

theorem getD_lanesOf (w : Nat) (v : Vec) (j z : Nat) :
    (lanesOf w v).getD j z = if j < 2048 / w then laneAt w v j else z := by
  rw [List.getD_eq_getElem?_getD]
  split
  next inside => rw [getElem?_lanesOf v inside]; rfl
  next outside => rw [List.getElem?_eq_none (by rw [length_lanesOf]; omega)]; rfl

/-! ### VSHUF's orders (R218) -/

section
variable {α : Type}

theorem getElem?_interleave {xs ys : List α} (even : xs.length = ys.length) (i : Nat) :
    (interleave xs ys)[i]? = if i % 2 = 0 then xs[i / 2]? else ys[i / 2]? := by
  induction xs generalizing ys i with
  | nil =>
    obtain rfl := List.length_eq_zero_iff.1 even.symm
    simp [interleave]
  | cons x xs ih =>
    obtain ⟨y, ys, rfl⟩ := List.exists_cons_of_length_eq_add_one even.symm
    match i with
    | 0 => rfl
    | 1 => rfl
    | i + 2 =>
      rw [show (i + 2) % 2 = i % 2 by omega, show (i + 2) / 2 = i / 2 + 1 by omega, List.getElem?_cons_succ,
        List.getElem?_cons_succ, ← ih (Nat.succ.inj even)]
      rfl

theorem getElem?_evens (l : List α) (i : Nat) : (evens l)[i]? = l[2 * i]? := by
  induction l using evens.induct generalizing i with
  | case1 => rfl
  | case2 x => cases i <;> simp [evens, Nat.mul_succ]
  | case3 x y l ih =>
    cases i with
    | zero => rfl
    | succ i => exact ih i

theorem length_evens (l : List α) : (evens l).length = (l.length + 1) / 2 := by
  induction l using evens.induct with
  | case1 => simp [evens]
  | case2 x => simp [evens]
  | case3 x y l ih => simp only [evens, List.length_cons, ih]; omega

end

theorem even_lanes (c : Nat) : 2048 / (fmtOf c).bits = 2 * (2048 / (fmtOf c).bits / 2) := by
  have widths := bits_fmtOf c
  simp only [List.mem_cons, List.not_mem_nil, or_false] at widths
  rcases widths with h | h | h | h <;> rw [h]

section
variable {w : Nat} (whole : 2048 / w = 2 * (2048 / w / 2)) (u v : Vec) {i : Nat} (inside : i < 2048 / w)
include inside

theorem laneAt_packLanes_of_getElem? {l : List Nat} {z : Nat} (h : l[i]? = some z) :
    laneAt w (packLanes w l) i = z % 2 ^ w := by
  rw [laneAt_packLanes l inside, List.getD_eq_getElem?_getD, h]
  rfl

include whole

theorem laneAt_shufVec_lo : laneAt w (shufVec w 0 u v) i =
    (if i % 2 = 0 then laneAt w u (i / 2) else laneAt w v (i / 2)) % 2 ^ w := by
  have half : i / 2 < 2048 / w / 2 := by omega
  refine laneAt_packLanes_of_getElem? inside
    (l := interleave ((lanesOf w u).take (2048 / w / 2)) ((lanesOf w v).take (2048 / w / 2))) ?_
  rw [getElem?_interleave (by rw [List.length_take, List.length_take, length_lanesOf, length_lanesOf]),
    List.getElem?_take_of_lt half, List.getElem?_take_of_lt half, getElem?_lanesOf u (by omega), getElem?_lanesOf v (by omega)]
  exact (apply_ite some _ _ _).symm

theorem laneAt_shufVec_hi : laneAt w (shufVec w 1 u v) i = (if i % 2 = 0 then laneAt w u (2048 / w / 2 + i / 2)
    else laneAt w v (2048 / w / 2 + i / 2)) % 2 ^ w := by
  refine laneAt_packLanes_of_getElem? inside
    (l := interleave ((lanesOf w u).drop (2048 / w / 2)) ((lanesOf w v).drop (2048 / w / 2))) ?_
  rw [getElem?_interleave (by rw [List.length_drop, List.length_drop, length_lanesOf, length_lanesOf]),
    List.getElem?_drop, List.getElem?_drop, getElem?_lanesOf u (by omega), getElem?_lanesOf v (by omega)]
  exact (apply_ite some _ _ _).symm

theorem laneAt_shufVec_even : laneAt w (shufVec w 2 u v) i = (if i < 2048 / w / 2 then laneAt w u (2 * i)
    else laneAt w v (2 * (i - 2048 / w / 2))) % 2 ^ w := by
  have half : (2048 / w + 1) / 2 = 2048 / w / 2 := by omega
  refine laneAt_packLanes_of_getElem? inside (l := evens (lanesOf w u) ++ evens (lanesOf w v)) ?_
  rw [List.getElem?_append, length_evens, length_lanesOf, getElem?_evens, getElem?_evens, half]
  split
  · rw [getElem?_lanesOf u (by omega)]
  · rw [getElem?_lanesOf v (by omega)]

theorem laneAt_shufVec_odd : laneAt w (shufVec w 3 u v) i = (if i < 2048 / w / 2 then laneAt w u (2 * i + 1)
    else laneAt w v (2 * (i - 2048 / w / 2) + 1)) % 2 ^ w := by
  have half : (2048 / w - 1 + 1) / 2 = 2048 / w / 2 := by omega
  refine laneAt_packLanes_of_getElem? inside (l := evens (lanesOf w u).tail ++ evens (lanesOf w v).tail) ?_
  rw [List.getElem?_append, length_evens, List.length_tail, length_lanesOf, getElem?_evens, getElem?_evens,
    List.getElem?_tail, List.getElem?_tail, half]
  split
  · rw [getElem?_lanesOf u (by omega)]
  · rw [getElem?_lanesOf v (by omega)]

end

/-! ### The words -/

theorem onesOf_eq_countP_testBit (x n : Nat) : onesOf x n = (List.range n).countP (fun j => x.testBit j) := by
  simp only [onesOf_eq_countP, bitAt_eq_testBit]

theorem vectorBitsAndShifts : Claim.VectorBitsAndShifts := by
  intro s blk rest d a b sel x y w A B
  refine ⟨fun ready => ⟨?and, ?or, ?xor, ?shl, ?shr, ?sar⟩, fun ready => ⟨?not, ?mov, ?ones, ?all⟩⟩
  case and => exact answers_vop2 (f := fun _ v u => v &&& u) rfl rfl ready
  case or => exact answers_vop2 (f := fun _ v u => v ||| u) rfl rfl ready
  case xor => exact answers_vop2 (f := fun _ v u => v ^^^ u) rfl rfl ready
  case not => exact answers_vop1 (f := fun _ v => ~~~v) rfl rfl ready
  case mov => exact answers_vop1 (f := fun _ v => v) rfl rfl ready
  case shl => exact vecLanes_of_by (vecLanesBy_vop2 rfl rfl ready fun k inside => laneAt_zipLanes inside _ _ _)
  case shr => exact vecLanes_of_by (vecLanesBy_vop2 rfl rfl ready fun k inside => laneAt_zipLanes inside _ _ _)
  case sar => exact vecLanes_of_by (vecLanesBy_vop2 rfl rfl ready fun k inside => laneAt_zipLanes inside _ _ _)
  case ones =>
    refine vecLanes_of_by (vecLanesBy_vop1 rfl rfl ready fun k inside => ?_)
    exact (laneAt_mapLanes inside _ _).trans (congrArg (· % 2 ^ w) (onesOf_eq_countP_testBit _ w))
  case all =>
    have count : BitVec.ofNat 2048 ((List.range 2048).countP (fun j => A.getLsbD j)) = popcVec w 1 A :=
      congrArg (BitVec.ofNat 2048) (onesOf_eq_countP_testBit A.toNat 2048).symm
    rw [count]
    exact answers_vop1 (f := fun c => popcVec (fmtOf c).bits 1) (accepts := fmtAny) rfl rfl ready

theorem vectorPermutes : Claim.VectorPermutes := by
  intro s blk rest d a b sel x y m w n A B D pick
  have picked (j : Nat) : (lanesOf w (s.me.srcVal a.toNat)).getD j (sentinel w) = pick j := getD_lanesOf w _ j _
  refine ⟨fun ready => ⟨?perm, ?bcast, ?shuf⟩, fun ready _ => ?sel, fun ready => ?splat, fun ready small => ?iota⟩
  case perm =>
    exact vecLanes_of_by (vecLanesBy_vop2 rfl rfl ready fun k inside => by
      rw [permVec, laneAt_packLanes_map inside, picked])
  case bcast =>
    exact vecLanes_of_by (vecLanesBy_vop2 rfl rfl ready fun k inside => by
      rw [bcastVec, laneAt_replicate inside, picked]; rfl)
  case shuf =>
    refine vecLanes_of_by (vecLanesBy_vop2 rfl rfl ready fun k inside => ?_)
    have whole := even_lanes s.me.sys.vshape
    have variants : m = 0 ∨ m = 1 ∨ m = 2 ∨ m = 3 := by
      revert m
      decide
    rcases variants with rfl | rfl | rfl | rfl
    · exact laneAt_shufVec_lo whole _ _ inside
    · exact laneAt_shufVec_hi whole _ _ inside
    · exact laneAt_shufVec_even whole _ _ inside
    · exact laneAt_shufVec_odd whole _ _ inside
  case sel => exact vecLanes_of_by (vecLanesBy_vop3 rfl rfl ready fun k inside => laneAt_zip3Lanes inside _ _ _ _)
  case splat => exact vecLanes_of_by (vecLanesBy_vop1 rfl rfl ready fun k inside => laneAt_replicate inside _)
  case iota =>
    refine ⟨_, answers_vecWrote (op := vopViota d) rfl rfl (decide_eq_true small) rfl rfl rfl ready, fun k inside => ?_⟩
    rw [iotaVec, laneAt_packLanes _ inside, List.getD_eq_getElem?_getD, getElem?_upFrom, if_pos inside, Nat.zero_add,
      Nat.mod_mod]
    rfl

/-- Settles O26: a bitwise word is the register's own operation, and each other word is read off lane by lane. -/
theorem vectorBitsAndPermutes : Obligations.VectorBitsAndPermutes := ⟨vectorBitsAndShifts, vectorPermutes⟩

end Sys2Proof.Machine
end
/-! ## VPART, VPUSHIX, VPUSHC, VSHAPE and VEND (O28) -/
section
namespace Sys2Proof.Machine

/-! ### VPART (R221) -/

section
variable (w : Nat) (four : Bool) (v : Vec)

/-- The lane numbers with an outcome. -/
def outcomeLanes (k : Nat) : List Nat := (List.range (2048 / w)).filter (fun i => partOutcome four (laneAt w v i) = k)

theorem partLanes_eq (k : Nat) : partLanes ((lanesOf w v).map (partOutcome four)) k = outcomeLanes w four v k := by
  rw [partLanes, upFrom_zero_eq_range, List.length_map, length_lanesOf]
  refine List.filter_congr fun i inside => ?_
  rw [List.getD_eq_getElem?_getD, List.getElem?_map, getElem?_lanesOf v (List.mem_range.1 inside)]
  rfl

/-- Two-way, a lane has outcome 0 or 1. -/
theorem outcomeLanes_of_two {k : Nat} (high : 2 ≤ k) : outcomeLanes w false v k = [] := by
  refine List.filter_eq_nil_iff.2 fun i _ => ?_
  rw [partOutcome, if_neg Bool.false_ne_true, decide_eq_true_eq]
  split <;> omega

/-- The lists of all outcomes, one after another, and their counts, whether two or four are told apart. -/
theorem partVec_eq : partVec w four v =
    (let ix := ((List.range 4).map (outcomeLanes w four v)).flatten
     packLanes 16 (ix ++ List.replicate (128 - ix.length) 0x8000),
     BitVec.ofNat 64 (packNat 16 ((List.range 4).map (fun k => (outcomeLanes w four v k).length)))) := by
  have lists (n : Nat) : (upFrom 0 n).map (partLanes ((lanesOf w v).map (partOutcome four)))
      = (List.range n).map (outcomeLanes w four v) := by
    rw [upFrom_zero_eq_range]
    exact List.map_congr_left fun k _ => partLanes_eq w four v k
  cases four with
  | true => simp only [partVec, if_true, lists, List.map_map, Function.comp_def]
  | false =>
    have none : outcomeLanes w false v 2 = [] ∧ outcomeLanes w false v 3 = [] :=
      ⟨outcomeLanes_of_two w v le_rfl, outcomeLanes_of_two w v (by omega)⟩
    simp only [partVec, Bool.false_eq_true, if_false, lists, List.range_succ, List.range_zero,
      List.nil_append, List.map_append, List.map_cons, List.map_nil, none, List.flatten_append, List.flatten_cons,
      List.flatten_nil, List.append_nil, List.length_nil]
    rfl

theorem outcomeLanes_lt {k i : Nat} (h : i ∈ outcomeLanes w four v k) : i < 2 ^ 16 := by
  have inside := List.mem_range.1 (List.mem_of_mem_filter h)
  have := Nat.div_le_self 2048 w
  omega

theorem length_outcomeLanes_lt (k : Nat) : (outcomeLanes w four v k).length < 2 ^ 16 := by
  have most := List.length_filter_le (fun i => decide (partOutcome four (laneAt w v i) = k)) (List.range (2048 / w))
  rw [List.length_range] at most
  have := Nat.div_le_self 2048 w
  exact lt_of_le_of_lt most (by omega)

theorem laneAt_partVec {j : Nat} (inside : j < 128) : laneAt 16 (partVec w four v).1 j
    = (((List.range 4).map (outcomeLanes w four v)).flatten).getD j 0x8000 := by
  have small : ∀ i ∈ ((List.range 4).map (outcomeLanes w four v)).flatten, i < 2 ^ 16 := by
    intro i h
    obtain ⟨l, hl, hi⟩ := List.mem_flatten.1 h
    obtain ⟨k, -, rfl⟩ := List.mem_map.1 hl
    exact outcomeLanes_lt w four v hi
  rw [partVec_eq]
  generalize ((List.range 4).map (outcomeLanes w four v)).flatten = ix at small
  simp only [laneAt_packLanes _ (show j < 2048 / 16 from inside), List.getD_eq_getElem?_getD, List.getElem?_append]
  by_cases listed : j < ix.length
  · rw [if_pos listed, List.getElem?_eq_getElem listed]
    exact Nat.mod_eq_of_lt (small _ (List.getElem_mem listed))
  · rw [if_neg listed, List.getElem?_replicate, if_pos (by omega), List.getElem?_eq_none (by omega)]
    rfl

theorem counts_partVec {k : Nat} (outcome : k < 4) :
    (partVec w four v).2.toNat / 2 ^ (16 * k) % 2 ^ 16 = (outcomeLanes w four v k).length := by
  rw [partVec_eq, BitVec.toNat_ofNat]
  have field := field_packNat 16 ((List.range 4).map (fun k => (outcomeLanes w four v k).length)) k
  rw [← bitsAt_mod (k := 64) (by omega), List.getD_eq_getElem?_getD, List.getElem?_map, List.getElem?_range outcome] at field
  exact field.trans (Nat.mod_eq_of_lt (length_outcomeLanes_lt w four v k))

end

/-! ### VSHAPE and VEND (R200, R226) -/

section
variable {s : State} {blk : Block} {rest : List Block} {sel : BitVec 4}

theorem answers_vshape {a : BitVec 6} {x : BitVec 1} (head : s.me.eng.vecQ = blk :: rest) (free : blk.region = none)
    (on : selOn sel blk.sample = true) (register : a.toNat ≤ 55) (full : s.me.isEmpty a.toNat = false)
    (code : (s.me.srcVal a.toNat).toNat % 2 ^ 64 < 16) :
    Answers (.vshape a sel x) s (fun t => OnlyCore s t { s.me with
      sys := { s.me.sys with vshape := (s.me.srcVal a.toNat).toNat % 2 ^ 64 }
      eng := { s.me.eng with vecQ := { blk with next := blk.next + 1 } :: rest } }) := by
  have ready : s.me.srcReady a.toNat = true := by rw [Core.srcReady, if_neg (by omega), full]; rfl
  have tested : s.me.testSrc (a.toNat, isTrap x) = .ok () := testSrc_of_ready ready
  have reshaped : s.me.reshape blk rest a.toNat ((s.me.srcVal a.toNat).toNat % 2 ^ 64) = { s.me with
      sys := { s.me.sys with vshape := (s.me.srcVal a.toNat).toNat % 2 ^ 64 }
      eng := { s.me.eng with vecQ := { blk with next := blk.next + 1 } :: rest } } := by
    rw [Core.reshape, Core.popSrc, if_neg (by omega), Nat.mod_eq_of_lt code, nextVec_of_free free]
  have passes : require ((s.me.srcVal a.toNat).toNat % 2 ^ 64 < 16) .argrange ((s.me.srcVal a.toNat).toNat % 2 ^ 64) = .ok () :=
    if_pos (decide_eq_true code)
  have checks : (s.me.testSrc (a.toNat, isTrap x) >>= fun _ =>
      require ((s.me.srcVal a.toNat).toNat % 2 ^ 64 < 16) .argrange ((s.me.srcVal a.toNat).toNat % 2 ^ 64) >>= fun _ =>
        .ok (s.setMe (s.me.reshape blk rest a.toNat ((s.me.srcVal a.toNat).toNat % 2 ^ 64))))
      = .ok (s.setMe (s.me.reshape blk rest a.toNat ((s.me.srcVal a.toNat).toNat % 2 ^ 64))) := by
    rw [tested, passes]
    rfl
  have runs : exec (.vshape a sel x) s = _ :=
    (takeVec_of_on head free on).trans (congrArg (s.runWord s.actor.core 1 blk.next) checks)
  exact ⟨_, runs, reshaped ▸ onlyCore_noWaiter 1 (onlyCore_setMe s _)⟩

theorem answers_vend (head : s.me.eng.vecQ = blk :: rest) (free : blk.region = none) :
    Answers (.vend sel) s (fun t => OnlyCore s t { s.me with eng := { s.me.eng with vecQ := rest } }) := by
  have ended : s.me.endVec blk rest = { s.me with eng := { s.me.eng with vecQ := rest } } := by rw [Core.endVec, free]
  refine ⟨_, ?_, onlyCore_noWaiter 1 (onlyCore_setMe s _)⟩
  have runs : exec (.vend sel) s = execVend sel s := rfl
  rw [runs, execVend, takeVec_of_on head free rfl, ended]
  rfl

end

/-- Settles O28: each word starts with what its entry computes, VSHAPE writes its format and VEND takes its block away. -/
theorem vectorQueuesAndShape : Obligations.VectorQueuesAndShape := by
  intro s blk rest d a sel x v w A out lanes
  have outcomes (k : Nat) : outcomeLanes w (decide (v = 1)) A k = lanes k := by
    refine List.filter_congr fun i _ => ?_
    simp only [partOutcome, out, decide_eq_true_eq]
  refine ⟨fun ready room wide => ?part, fun ready signed => ?pushix, fun ready room => ?pushc, fun head free =>
    ⟨fun on register full code => answers_vshape head free on register full code, answers_vend head free⟩⟩
  case part =>
    refine ⟨(partVec w (decide (v = 1)) A).1, (partVec w (decide (v = 1)) A).2,
      answers_vecStarted (op := vopVpart d a x v) rfl rfl (decide_eq_true wide) (.inr room) ready, fun j inside => ?_,
      fun k outcome => ?_⟩
    · rw [laneAt_partVec _ _ _ inside, List.map_congr_left fun k _ => outcomes k]
    · rw [counts_partVec _ _ _ outcome, outcomes]
  case pushix =>
    refine ⟨indexEntry w A,
      answers_vecStarted (op := vopVpushix a x v) rfl rfl (decide_eq_true signed) (.inl rfl) ready, ?_⟩
    rw [indexEntry, lanesOf_eq]
    congr 2
    funext z
    exact Bool.eq_iff_iff.2 (by simp [sentinel])
  case pushc => exact answers_vecStarted (op := vopVpushc a x) rfl rfl rfl (.inr room) ready

end Sys2Proof.Machine
end
/-! ## Vector words in flight, held back, and their operands (O29) -/
section
namespace Sys2Proof.Machine

/-! ### Completion (R201, R204) -/

theorem listDrop_append {α : Type} (pre : List α) (x : α) (post : List α) :
    listDrop pre.length (pre ++ x :: post) = pre ++ post := by
  induction pre with
  | nil => rfl
  | cons y pre ih => exact congrArg (y :: ·) ih

section
variable {s : State} {pre fs : List VecFlight} {f : VecFlight} (flying : s.me.eng.vecFlight = pre ++ f :: fs)
include flying

/-- A word in flight that follows no earlier push to its queue completes. -/
theorem exec_completion_of_first (first : ∀ g ∈ pre, f.follows g = false) : exec (.vectorWordCompletion pre.length) s
    = .next (s.setMe ({ s.me with eng := { s.me.eng with vecFlight := pre ++ fs } }.complete f)) := by
  have runs : exec (.vectorWordCompletion pre.length) s = execVectorWordCompletion pre.length s := rfl
  have free : pre.any f.follows = false := List.any_eq_false.2 fun g hg => Bool.eq_false_iff.1 (first g hg)
  rw [runs, execVectorWordCompletion]
  simp [flying, free, listDrop_append]

/-- A push stays in flight while an earlier one to its queue does. -/
theorem exec_completion_of_follows {g : VecFlight} (earlier : g ∈ pre) (follows : f.follows g = true) :
    exec (.vectorWordCompletion pre.length) s = .next s := by
  have runs : exec (.vectorWordCompletion pre.length) s = execVectorWordCompletion pre.length s := rfl
  have held : pre.any f.follows = true := List.any_eq_true.2 ⟨g, earlier, follows⟩
  rw [runs, execVectorWordCompletion]
  simp [flying, held]

end

/-- A store of a word that pushes no count follows the stores to its queue alone. -/
theorem follows_of_store {f g : VecFlight} {q : Nat} (dest : f.dest = .store q) (quiet : f.post = none) :
    f.follows g = true ↔ g.dest = .store q := by
  rw [VecFlight.follows, dest, quiet]
  cases g.dest <;> simp [eq_comm]

theorem follows_of_index {f g : VecFlight} {m : Nat} {ix : List ℤ} (dest : f.dest = .index m ix) (quiet : f.post = none) :
    f.follows g = true ↔ ∃ k, g.dest = .index m k := by
  rw [VecFlight.follows, dest, quiet]
  cases g.dest <;> simp [eq_comm]

theorem follows_of_count {f g : VecFlight} {w : Word64} (dest : f.dest = .count) (pushes : f.post = some w) :
    f.follows g = true ↔ g.post ≠ none := by
  rw [VecFlight.follows, dest, pushes]
  simp [Option.isSome_iff_ne_none]

theorem follows_of_reg {f g : VecFlight} {n : Nat} (dest : f.dest = .reg n) (quiet : f.post = none) : f.follows g = false := by
  rw [VecFlight.follows, dest, quiet]
  rfl

theorem vectorResultsLand : Claim.VectorResultsLand := by
  intro s pre f fs l ls e left lands
  refine ⟨fun flying => ⟨fun n dest quiet => ?reg, fun q dest quiet => ⟨fun first => ?store, fun ⟨g, hg, same⟩ => ?storeWaits⟩,
    fun m ix dest quiet => ⟨fun first => ?index, fun ⟨g, hg, same⟩ => ?indexWaits⟩,
    fun w dest pushes => ⟨fun first => ?count, fun ⟨g, hg, same⟩ => ?countWaits⟩⟩, fun flying => ?load⟩
  case reg =>
    refine ⟨_, exec_completion_of_first flying fun g _ => follows_of_reg dest quiet, ?_⟩
    rw [Core.complete, dest, quiet]
    refine ⟨?_, ?_, fun k other => ⟨?_, ?_⟩, ?_⟩
    · rw [State.me_setMe]; exact Sparse.get_set_same n _ 0 _
    · rw [State.me_setMe, Core.isEmpty]; simp [Core.markFull, Marks.has_del]
    · rw [State.me_setMe]; exact Sparse.get_set_other _ 0 _ other
    · rw [State.me_setMe, Core.isEmpty]; simp [Core.markFull, Core.setV, Marks.has_del, other, Core.isEmpty]
    · rw [State.me_setMe]; exact onlyCore_setMe s _
  case store =>
    refine ⟨_, exec_completion_of_first flying fun g hg => Bool.eq_false_iff.2 fun h =>
      first g hg ((follows_of_store dest quiet).1 h), ?_⟩
    rw [Core.complete, dest, quiet]
    refine ⟨?_, fun r other => ?_, ?_⟩
    · rw [State.me_setMe]; exact Sparse.get_set_same q _ [] _
    · rw [State.me_setMe]; exact Sparse.get_set_other _ [] _ other
    · rw [State.me_setMe]; exact onlyCore_setMe s _
  case storeWaits => exact ⟨s, exec_completion_of_follows flying hg ((follows_of_store dest quiet).2 same), rfl⟩
  case index =>
    refine ⟨_, exec_completion_of_first flying fun g hg => Bool.eq_false_iff.2 fun h => ?_, ?_⟩
    · obtain ⟨k, same⟩ := (follows_of_index dest quiet).1 h
      exact first g hg k same
    rw [Core.complete, dest, quiet]
    refine ⟨?_, fun r other => ?_, ?_⟩
    · rw [State.me_setMe]; exact Sparse.get_set_same m _ [] _
    · rw [State.me_setMe]; exact Sparse.get_set_other _ [] _ other
    · rw [State.me_setMe]; exact onlyCore_setMe s _
  case indexWaits => exact ⟨s, exec_completion_of_follows flying hg ((follows_of_index dest quiet).2 same), rfl⟩
  case count =>
    refine ⟨_, exec_completion_of_first flying fun g hg => Bool.eq_false_iff.2 fun h =>
      (follows_of_count dest pushes).1 h (first g hg), ?_⟩
    rw [Core.complete, dest, pushes]
    exact onlyCore_setMe s _
  case countWaits => exact ⟨s, exec_completion_of_follows flying hg ((follows_of_count dest pushes).2 same), rfl⟩
  case load =>
    have runs : exec .loadQueueFill s = .next (s.setMe ({ s.me with eng := { s.me.eng with loads := ls } }.setLoadQ l.queue
        (s.me.loadQ l.queue ++ [l.data]))) := by
      have unfolded : exec .loadQueueFill s = execLoadQueueFill s := rfl
      rw [unfolded, execLoadQueueFill, flying]
    refine ⟨_, runs, ?_, ?_⟩
    · rw [State.me_setMe]; exact Sparse.get_set_same l.queue _ [] _
    · rw [State.me_setMe]; exact onlyCore_setMe s _

/-! ### Words that are passed over, trap or wait (R73, R84, R201, R212) -/

theorem vectorWordsTrapOrWait : Claim.VectorWordsTrapOrWait := by
  intro s blk rest i sel op e held waits word head free
  have runs {on : selOn sel blk.sample = true} {stop : Stop} (check : s.me.checkVec op = .error stop) :
      exec i s = s.runWord s.actor.core 1 blk.next (.error stop) := by
    rw [exec_of_vopOf word, State.runVec, takeVec_of_on head free on, check]
  have traps (on : selOn sel blk.sample = true) (t : Trap) (info : Nat) (check : s.me.checkVec op = trapN t info) :
      held t.code info :=
    ⟨_, runs (on := on) check, onlyCore_holdTrap s 1 t _ none blk.next⟩
  have delays (on : selOn sel blk.sample = true) (check : s.me.checkVec op = waitFor .other) : waits :=
    ⟨_, runs (on := on) check, onlyCore_engineWait_other s 1⟩
  refine ⟨fun off => ?disabled, fun on => ⟨fun n group => traps on _ _ (checkVec_of_group group),
    fun group refused => traps on _ _ (checkVec_of_format group refused), fun group accepted => ⟨?source, ?target⟩⟩⟩
  case disabled =>
    refine ⟨_, ?_, onlyCore_setMe s _⟩
    rw [exec_of_vopOf word, State.runVec, takeVec_of_off head free off, nextVec_of_free free]
  case source =>
    intro before r after sources ready missing
    have check : s.me.checkVec op = (s.me.testSrc r >>= fun _ => checkAll s.me.testSrc after >>= fun _ =>
        waitUnless (s.me.targetReady op.target && (!op.posts || s.me.countRoom)) .other) := by
      rw [checkVec_of_accepted group accepted, sources, checkAll_testSrc_append ready, checkAll]
      cases s.me.testSrc r <;> rfl
    have test : s.me.testSrc r = if r.2 then trapN .regempty r.1 else waitFor .other := by
      rw [Core.testSrc, missing]
      rfl
    constructor
    · intro bit
      refine traps on .regempty r.1 ?_
      rw [check, test, if_pos bit]
      rfl
    · intro bit
      refine delays on ?_
      rw [check, test, if_neg (Bool.eq_false_iff.1 bit)]
      rfl
  case target =>
    intro ready full
    have room : (s.me.targetReady op.target && (!op.posts || s.me.countRoom)) = false := by
      rcases full with target | ⟨posts, count⟩
      · rw [target, Bool.false_and]
      · rw [posts, count, Bool.not_true, Bool.or_false, Bool.and_false]
    refine delays on ?_
    rw [checkVec_of_accepted group accepted, checkAll_testSrc_of_ready ready, room]
    rfl

/-! ### Operands and formats (R65, R205, R206) -/

theorem fmtFloat_eq (c : Nat) : fmtFloat c = decide (8 ≤ c ∧ c ≤ 13) := (Bool.decide_and _ _).symm

theorem fmtQuant_eq (c : Nat) : fmtQuant c = decide (8 ≤ c ∧ c ≤ 11) := (Bool.decide_and _ _).symm

theorem fmtPart_eq (c : Nat) : fmtPart c = decide ((fmtOf c).bits ∈ [16, 32, 64]) := by
  have widths := bits_fmtOf c
  simp only [List.mem_cons, List.not_mem_nil, or_false] at widths
  rw [fmtPart]
  rcases widths with h | h | h | h <;> rw [h] <;> rfl

theorem vectorOperandsAndFormats : Claim.VectorOperandsAndFormats := by
  intro d a b sel q x y v m ra rb is arith float quant any
  have entry {i : Instr} {op : VOp} {srcs : List (Nat × Bool)} {ok : Nat → Bool} (word : vopOf i = some (sel, op))
      (sources : op.srcs = srcs) (group : op.group = none) (formats : ∀ c, op.accepts c = ok c) : is srcs ok i :=
    ⟨op, word, sources, group, fun c _ => formats c⟩
  simp only [List.forall_mem_cons, List.not_mem_nil, false_implies, implies_true, and_true]
  refine ⟨⟨?_, ?_, ?_, ?_, ?_⟩, ?mul, ⟨?_, ?_, ?_⟩, ⟨?exp, ?rcp, ?rsq⟩, ⟨?quant, ?topb⟩, ⟨?_, ?_, ?_, ?_, ?_, ?_, ?_, ?_, ?_⟩,
    ⟨?_, ?_, ?_, ?_, ?_, ?_⟩, ⟨?_, ?_⟩, ?_, ?_, ?_, ?part, ?sacc⟩
  case mul => exact entry rfl rfl rfl fun c => by rw [vopVmul, vop2]; split <;> rfl
  case exp => exact entry rfl rfl rfl fmtFloat_eq
  case rcp => exact entry rfl rfl rfl fmtFloat_eq
  case rsq => exact entry rfl rfl rfl fmtFloat_eq
  case quant => exact entry rfl rfl rfl fmtQuant_eq
  case topb => exact entry rfl rfl rfl fmtQuant_eq
  case part => exact entry rfl rfl rfl fmtPart_eq
  case sacc => exact ⟨_, rfl, fun _ => rfl, rfl, rfl⟩
  all_goals exact entry rfl rfl rfl fun _ => rfl

/-- Settles O29: a completion writes its one destination in the order of the pushes, a word's checks stop it in their order,
and every entry has the sources and formats of the table. -/
theorem vectorWordsCompleteTrapOrWait : Obligations.VectorWordsCompleteTrapOrWait :=
  ⟨vectorResultsLand, vectorWordsTrapOrWait, vectorOperandsAndFormats⟩

end Sys2Proof.Machine
end
/-! ## Fractions, logarithms and roundings as rational numbers (R240) -/
section
namespace Sys2Proof.Machine

theorem two_zpow_pos (e : ℤ) : (0 : ℚ) < 2 ^ e := zpow_pos (by norm_num) e

/-- A power of two with its exponent's magnitude as a natural number. -/
theorem two_zpow_eq (e : ℤ) : (2 : ℚ) ^ e = if 0 ≤ e then (2 : ℚ) ^ e.toNat else 1 / 2 ^ (-e).toNat := by
  split
  next up =>
    rw [← zpow_natCast, Int.toNat_of_nonneg up]
  next down =>
    rw [← zpow_natCast, Int.toNat_of_nonneg (by omega), zpow_neg, one_div, inv_inv]

theorem zpow_le_iff {a b : ℤ} : (2 : ℚ) ^ a ≤ 2 ^ b ↔ a ≤ b := zpow_le_zpow_iff_right₀ (by norm_num)

theorem zpow_lt_iff {a b : ℤ} : (2 : ℚ) ^ a < 2 ^ b ↔ a < b := zpow_lt_zpow_iff_right₀ (by norm_num)

/-! ### Values of fractions -/

theorem asFraction_den_pos (m : Nat) (e : ℤ) : 0 < (asFraction m e).2 := by
  unfold asFraction
  split
  · exact Nat.one_pos
  · exact Nat.two_pow_pos _

theorem asFraction_rat (m : Nat) (e : ℤ) : ((asFraction m e).1 : ℚ) / (asFraction m e).2 = m * 2 ^ e := by
  rw [two_zpow_eq, asFraction]
  split <;> simp [div_eq_mul_inv]

theorem asFraction_num_eq_zero {m : Nat} {e : ℤ} : (asFraction m e).1 = 0 ↔ m = 0 := by
  unfold asFraction
  split <;> simp

theorem abs_finiteRat (n : Bool) (m : Nat) (e : ℤ) : |finiteRat n m e| = m * 2 ^ e := by
  have nonneg : (0 : ℚ) ≤ m * 2 ^ e := mul_nonneg (Nat.cast_nonneg m) (two_zpow_pos e).le
  cases n
  · rw [finiteRat, if_neg Bool.false_ne_true, one_mul, abs_of_nonneg nonneg]
  · rw [finiteRat, if_pos rfl, neg_one_mul, neg_mul, abs_neg, abs_of_nonneg nonneg]

theorem finiteRat_false (m : Nat) (e : ℤ) : finiteRat false m e = m * 2 ^ e := by simp [finiteRat]

theorem finiteRat_true (m : Nat) (e : ℤ) : finiteRat true m e = -(m * 2 ^ e) := by simp [finiteRat]

theorem finiteRat_eq_zero {n : Bool} {m : Nat} {e : ℤ} : finiteRat n m e = 0 ↔ m = 0 := by
  rw [← abs_eq_zero, abs_finiteRat, mul_eq_zero, or_iff_left (two_zpow_pos e).ne', Nat.cast_eq_zero]

theorem inUnits_den_pos {num den : Nat} (pos : 0 < den) (k : ℤ) : 0 < (inUnits num den k).2 := by
  unfold inUnits
  split
  · exact Nat.mul_pos pos (Nat.two_pow_pos _)
  · exact pos

theorem inUnits_rat (num den : Nat) (k : ℤ) :
    ((inUnits num den k).1 : ℚ) / (inUnits num den k).2 = (num : ℚ) / den / 2 ^ k := by
  rw [two_zpow_eq, inUnits]
  split
  · push_cast
    rw [div_div]
  · push_cast
    rw [div_div_eq_mul_div, div_one, mul_div_right_comm]

/-! ### The binary logarithm -/

theorem floorLog_spec {num den : Nat} (hn : num ≠ 0) (hd : den ≠ 0) :
    (2 : ℚ) ^ floorLog num den ≤ num / den ∧ (num / den : ℚ) < 2 ^ (floorLog num den + 1) := by
  have pos : (0 : ℚ) < den := Nat.cast_pos.2 (Nat.pos_of_ne_zero hd)
  have nlow : (2 : ℚ) ^ (Nat.log2 num : ℤ) ≤ num := by
    rw [zpow_natCast]
    exact_mod_cast Nat.log2_self_le hn
  have nhigh : (num : ℚ) < 2 ^ (Nat.log2 num + 1 : ℤ) := by
    rw [← Nat.cast_succ, zpow_natCast]
    exact_mod_cast Nat.lt_log2_self
  have dlow : (2 : ℚ) ^ (Nat.log2 den : ℤ) ≤ den := by
    rw [zpow_natCast]
    exact_mod_cast Nat.log2_self_le hd
  have dhigh : (den : ℚ) < 2 ^ (Nat.log2 den + 1 : ℤ) := by
    rw [← Nat.cast_succ, zpow_natCast]
    exact_mod_cast Nat.lt_log2_self
  obtain ⟨l, hl⟩ : ∃ l : ℤ, l = (Nat.log2 num : ℤ) - Nat.log2 den := ⟨_, rfl⟩
  have high : (num / den : ℚ) < 2 ^ (l + 1) := by
    rw [div_lt_iff₀ pos]
    calc (num : ℚ) < 2 ^ (Nat.log2 num + 1 : ℤ) := nhigh
      _ = 2 ^ (l + 1) * 2 ^ (Nat.log2 den : ℤ) := by rw [← zpow_add₀ two_ne_zero]; congr 1; omega
      _ ≤ 2 ^ (l + 1) * den := mul_le_mul_of_nonneg_left dlow (two_zpow_pos _).le
  have low : (2 : ℚ) ^ (l - 1) ≤ num / den := by
    rw [le_div_iff₀ pos]
    calc (2 : ℚ) ^ (l - 1) * den ≤ 2 ^ (l - 1) * 2 ^ (Nat.log2 den + 1 : ℤ) :=
          mul_le_mul_of_nonneg_left dhigh.le (two_zpow_pos _).le
      _ = 2 ^ (Nat.log2 num : ℤ) := by rw [← zpow_add₀ two_ne_zero]; congr 1; omega
      _ ≤ num := nlow
  have below : (if 0 ≤ l then decide (num < den * 2 ^ l.toNat) else decide (num * 2 ^ (-l).toNat < den)) = true
      ↔ (num / den : ℚ) < 2 ^ l := by
    rw [two_zpow_eq, div_lt_iff₀ pos]
    split
    · rw [decide_eq_true_eq, mul_comm, ← Nat.cast_lt (α := ℚ)]
      push_cast
      rfl
    · rw [decide_eq_true_eq, one_div, inv_mul_eq_div, lt_div_iff₀ (by positivity), ← Nat.cast_lt (α := ℚ)]
      push_cast
      rfl
  rw [floorLog, ← hl]
  by_cases under : (num / den : ℚ) < 2 ^ l
  · rw [if_pos (below.2 under), sub_add_cancel]
    exact ⟨low, under⟩
  · rw [if_neg (mt below.1 under)]
    exact ⟨not_lt.1 under, high⟩

/-- The logarithm is the one exponent whose powers of two enclose the value. -/
theorem floorLog_unique {num den : Nat} (hn : num ≠ 0) (hd : den ≠ 0) {l : ℤ} (low : (2 : ℚ) ^ l ≤ num / den)
    (high : (num / den : ℚ) < 2 ^ (l + 1)) : floorLog num den = l := by
  obtain ⟨low', high'⟩ := floorLog_spec hn hd
  have up := zpow_lt_iff.1 (low.trans_lt high')
  have down := zpow_lt_iff.1 (low'.trans_lt high)
  omega

/-! ### Rounding a fraction to an integer -/

/-- A fraction lies between its quotient and the next integer. -/
theorem div_bounds {num den : Nat} (pos : 0 < den) :
    ((num / den : Nat) : ℚ) ≤ (num : ℚ) / den ∧ (num : ℚ) / den < (num / den : Nat) + 1 := by
  have hd : (0 : ℚ) < den := Nat.cast_pos.2 pos
  constructor
  · rw [le_div_iff₀ hd]
    exact_mod_cast Nat.div_mul_le_self num den
  · rw [div_lt_iff₀ hd]
    have := Nat.lt_mul_div_succ num pos
    rw [mul_comm] at this
    exact_mod_cast this

theorem roundQ_false (num den : Nat) : roundQ false num den = num / den := rfl

/-- To nearest: the quotient, or the next integer from the middle on; in the middle the even one. -/
theorem roundQ_true {num den : Nat} (pos : 0 < den) : let k := num / den
    roundQ true num den = if (num : ℚ) / den - k < k + 1 - num / den
      ∨ ((num : ℚ) / den - k = k + 1 - num / den ∧ k % 2 = 0) then k else k + 1 := by
  intro k
  have hd : (0 : ℚ) < den := Nat.cast_pos.2 pos
  have split : (num : ℚ) / den = k + (num % den : Nat) / den := by
    rw [div_eq_iff hd.ne', add_mul, div_mul_cancel₀ _ hd.ne']
    exact_mod_cast (Nat.div_add_mod' num den).symm
  have lower : (num : ℚ) / den - k < k + 1 - num / den ↔ 2 * (num % den) < den := by
    rw [split, ← Nat.cast_lt (α := ℚ)]
    push_cast
    rw [add_sub_cancel_left, show (k : ℚ) + 1 - (k + (num % den : Nat) / den) = 1 - (num % den : Nat) / den by ring,
      lt_sub_iff_add_lt, ← add_div, div_lt_one hd, two_mul]
  have middle : (num : ℚ) / den - k = k + 1 - num / den ↔ 2 * (num % den) = den := by
    rw [split, ← Nat.cast_inj (R := ℚ)]
    push_cast
    rw [add_sub_cancel_left, show (k : ℚ) + 1 - (k + (num % den : Nat) / den) = 1 - (num % den : Nat) / den by ring,
      eq_sub_iff_add_eq, ← add_div, div_eq_one_iff_eq hd.ne', two_mul]
  simp only [lower, middle, roundQ, Bool.true_and, Bool.or_eq_true, Bool.and_eq_true, decide_eq_true_eq]
  have parity := Nat.mod_two_eq_zero_or_one k
  by_cases up : den < 2 * (num % den) ∨ (2 * (num % den) = den ∧ k % 2 = 1)
  · rw [if_pos up, if_neg (by omega)]
  · rw [if_neg up, if_pos (by omega)]

theorem nearestInt_roundQ {num den : Nat} (pos : 0 < den) : NearestInt ((num : ℚ) / den) (roundQ true num den) := by
  obtain ⟨low, high⟩ := div_bounds (num := num) pos
  rw [roundQ_true pos]
  generalize (num : ℚ) / den = x at low high
  generalize num / den = k at low high
  unfold NearestInt
  split
  next down =>
    push_cast
    rw [abs_of_nonneg (sub_nonneg.2 low)]
    rcases down with less | ⟨tie, even⟩
    · exact ⟨by linarith, fun half => by linarith⟩
    · exact ⟨by linarith, fun _ => by omega⟩
  next up =>
    push_cast
    rw [abs_of_nonpos (by linarith)]
    push Not at up
    obtain ⟨more, odd⟩ := up
    exact ⟨by linarith, fun half => by have := odd (by linarith); omega⟩

/-- A whole number is its own rounding. -/
theorem roundQ_of_whole {num den k : Nat} (pos : 0 < den) (whole : (num : ℚ) / den = k) (rne : Bool) :
    roundQ rne num den = k := by
  have hd : (den : ℚ) ≠ 0 := Nat.cast_ne_zero.2 pos.ne'
  have product : num = k * den := by
    rw [div_eq_iff hd] at whole
    exact_mod_cast whole
  rw [roundQ, product, Nat.mul_mod_left, Nat.mul_div_cancel _ pos]
  simp [pos.ne]

/-- Rounded to nearest or towards zero, a whole number is the quotient or the next. -/
theorem roundQ_le (rne : Bool) (num den : Nat) : roundQ rne num den ≤ num / den + 1 := by
  unfold roundQ
  dsimp only
  split <;> omega

theorem le_roundQ (rne : Bool) (num den : Nat) : num / den ≤ roundQ rne num den := by
  unfold roundQ
  dsimp only
  split <;> omega

end Sys2Proof.Machine
end
/-! ## Codes of the floating-point formats, and their order (R209, R215, R233, R234) -/
section
namespace Sys2Proof.Machine

/-! ### Every rounded code fits its format -/

namespace FloatKind
variable (k : FloatKind)

theorem width_eq : k.width = k.width - 1 + 1 := by
  rw [width]
  omega

theorem two_pow_width : 2 ^ k.width = 2 * 2 ^ (k.width - 1) := by rw [← pow_succ', ← width_eq]

theorem maxCode_lt : k.maxCode < 2 ^ (k.width - 1) := by cases k <;> decide

theorem overCode_lt : k.overCode < 2 ^ (k.width - 1) := by cases k <;> decide

theorem nanCode_lt : k.nanCode < 2 ^ k.width := by cases k <;> decide

theorem signed_lt {c : Nat} (small : c < 2 ^ (k.width - 1)) (n : Bool) : k.signed n c < 2 ^ k.width := by
  rw [signed, bitVal, two_pow_width]
  split <;> omega

theorem encQ_lt (rne sat n : Bool) (num den : Nat) : k.encQ rne sat n num den < 2 ^ k.width := by
  have max := k.maxCode_lt
  have overflow := k.overCode_lt
  refine k.signed_lt ?_ n
  split_ifs <;> omega

theorem enc_lt (rne sat : Bool) (v : FVal) : k.enc rne sat v < 2 ^ k.width := by
  cases v with
  | nan => exact k.nanCode_lt
  | inf n =>
    refine k.signed_lt ?_ n
    split
    · exact k.maxCode_lt
    · exact k.overCode_lt
  | fin n m e => exact k.encQ_lt rne sat n _ _

/-- The significand of a code has at most 53 bits. -/
theorem significand_lt {c : Nat} {n : Bool} {m : Nat} {e : ℤ} (h : k.dec c = .fin n m e) : m < 2 ^ 53 := by
  have frac : 2 ^ k.frac ≤ 2 ^ 52 := by cases k <;> decide
  have low := Nat.mod_lt (c % 2 ^ (k.width - 1)) (Nat.two_pow_pos k.frac)
  unfold dec at h
  dsimp only at h
  split_ifs at h <;> cases h <;> omega

theorem flipSign_eq {x : Nat} (small : x < 2 ^ k.width) : k.flipSign x = (x + 2 ^ (k.width - 1)) % 2 ^ k.width := by
  rw [two_pow_width] at small ⊢
  rw [flipSign, signed, bitVal, bitAt]
  generalize 2 ^ (k.width - 1) = P at small
  by_cases low : x < P
  · simp [Nat.div_eq_of_lt low, Nat.mod_eq_of_lt low, Nat.mod_eq_of_lt (show x + P < 2 * P by omega)]
  · have one : x / P = 1 := Nat.div_eq_of_lt_le (by omega) (by omega)
    have rest : x % P = x - P := by rw [Nat.mod_eq_sub_mod (by omega), Nat.mod_eq_of_lt (by omega)]
    have wraps : (x + P) % (2 * P) = x - P := by
      rw [Nat.mod_eq_sub_mod (by omega), Nat.mod_eq_of_lt (by omega)]
      omega
    rw [one, rest, wraps]
    rfl

end FloatKind

/-- The float formats have the codes 8 to 13 (R67). -/
theorem code_of_flt {c : Nat} {k : FloatKind} (fmt : fmtOf c = .flt k) : 8 ≤ c ∧ c ≤ 13 := by
  unfold fmtOf at fmt
  split at fmt
  iterate 8 cases fmt
  iterate 6 exact ⟨by omega, by omega⟩
  all_goals cases fmt

/-! ### The order of values -/

/-- A finite value, exact in units of a power of two no larger than its own. -/
theorem units_rat {d e : ℤ} (low : d ≤ e) (n : Bool) (m : Nat) : (FVal.units d (.fin n m e) : ℚ) * 2 ^ d = finiteRat n m e := by
  have scale : (2 : ℚ) ^ (e - d).toNat * 2 ^ d = 2 ^ e := by
    rw [← zpow_natCast, ← zpow_add₀ two_ne_zero, Int.toNat_of_nonneg (by omega), sub_add_cancel]
  cases n <;> simp [FVal.units, finiteRat, mul_assoc, scale]

/-- Where a value that is no NaN stands among the numbers and the infinities. -/
def FVal.rank : FVal → WithBot (WithTop ℚ)
  | .nan => ⊥
  | .inf n => if n then ⊥ else ((⊤ : WithTop ℚ) : WithBot (WithTop ℚ))
  | .fin n m e => (((finiteRat n m e : ℚ) : WithTop ℚ) : WithBot (WithTop ℚ))

/-- The order of two values is that of their places. -/
theorem FVal.cmp_eq {x y : FVal} (hx : x.isNan = false) (hy : y.isNan = false) :
    x.cmp y = some (if x.rank < y.rank then -1 else if x.rank = y.rank then 0 else 1) := by
  cases x with
  | nan => cases hx
  | inf n =>
    cases y with
    | nan => cases hy
    | inf k => cases n <;> cases k <;> simp [FVal.cmp, FVal.rank]
    | fin k j f => cases n <;> simp [FVal.cmp, FVal.rank]
  | fin n m e =>
    cases y with
    | nan => cases hy
    | inf k => cases k <;> simp [FVal.cmp, FVal.rank]
    | fin k j f =>
      have scale := two_zpow_pos (min e f)
      simp only [FVal.cmp, FVal.rank, WithBot.coe_lt_coe, WithTop.coe_lt_coe, WithBot.coe_inj, WithTop.coe_inj,
        ← units_rat (min_le_left e f) n m, ← units_rat (min_le_right e f) k j, mul_lt_mul_iff_left₀ scale,
        mul_left_inj' scale.ne', Int.cast_lt, Int.cast_inj]

theorem FVal.cmp_nan_left (x : FVal) : FVal.nan.cmp x = none := rfl

theorem FVal.cmp_nan_right (x : FVal) : x.cmp .nan = none := by cases x <;> rfl

theorem FVal.eq_nan_of_isNan {x : FVal} (h : x.isNan = true) : x = .nan := by
  cases x with
  | nan => rfl
  | _ => cases h

theorem FVal.cmp_cases (x y : FVal) : x.cmp y = none ∨ x.cmp y = some (-1) ∨ x.cmp y = some 0 ∨ x.cmp y = some 1 := by
  by_cases hx : x.isNan = true
  · exact .inl (FVal.eq_nan_of_isNan hx ▸ FVal.cmp_nan_left y)
  by_cases hy : y.isNan = true
  · exact .inl (FVal.eq_nan_of_isNan hy ▸ FVal.cmp_nan_right x)
  rw [FVal.cmp_eq (Bool.eq_false_iff.2 hx) (Bool.eq_false_iff.2 hy)]
  split_ifs <;> simp

/-- The relations of VCMP (R216). -/
theorem relHolds_cmp (m : BitVec 2) (x y : FVal) : relHolds m.toNat (x.cmp y) = true ↔ CmpHolds m.toNat x y := by
  have variants : m = 0 ∨ m = 1 ∨ m = 2 ∨ m = 3 := by
    revert m
    decide
  unfold CmpHolds
  rcases FVal.cmp_cases x y with h | h | h | h <;> rw [h] <;> rcases variants with rfl | rfl | rfl | rfl <;> decide

/-! ### The order of codes, −0 below +0 -/

/-- Where a code stands: by its value, and a zero by its sign. -/
def codeKey (k : FloatKind) (x : Nat) : WithBot (WithTop ℚ) ×ₗ Bool := toLex ((k.dec x).rank, !(k.dec x).sign)

theorem floatLe_iff {k : FloatKind} {x y : Nat} (hx : (k.dec x).isNan = false) (hy : (k.dec y).isNan = false) :
    floatLe k x y = true ↔ codeKey k x ≤ codeKey k y := by
  rw [codeKey, codeKey, Prod.Lex.toLex_le_toLex, floatLe, FVal.cmp_eq hx hy]
  rcases lt_trichotomy (k.dec x).rank (k.dec y).rank with h | h | h
  · simp [h]
  · simp only [h, lt_irrefl, if_false, if_true, true_and, false_or]
    cases (k.dec x).sign <;> cases (k.dec y).sign <;> decide
  · simp [h.not_gt, h.ne']

/-- The second code is no smaller, or no larger, than the first. -/
def Beats (k : FloatKind) (max : Bool) (x y : Nat) : Prop := (if max then floatLe k x y else floatLe k y x) = true

theorem beats_iff {k : FloatKind} {x y : Nat} (max : Bool) (hx : (k.dec x).isNan = false) (hy : (k.dec y).isNan = false) :
    Beats k max x y ↔ if max then codeKey k x ≤ codeKey k y else codeKey k y ≤ codeKey k x := by
  cases max
  · exact floatLe_iff hy hx
  · exact floatLe_iff hx hy

theorem Beats.refl {k : FloatKind} {x : Nat} (max : Bool) (hx : (k.dec x).isNan = false) : Beats k max x x := by
  rw [beats_iff max hx hx]
  split <;> exact le_rfl

theorem Beats.trans {k : FloatKind} {max : Bool} {x y z : Nat} (hx : (k.dec x).isNan = false) (hy : (k.dec y).isNan = false)
    (hz : (k.dec z).isNan = false) (h : Beats k max x y) (h' : Beats k max y z) : Beats k max x z := by
  rw [beats_iff max hx hy] at h
  rw [beats_iff max hy hz] at h'
  rw [beats_iff max hx hz]
  cases max
  · exact le_trans (b := codeKey k y) h' h
  · exact le_trans (b := codeKey k y) h h'

/-- Of two codes that are no NaN the comparison picks one that beats both. -/
theorem beats_of_pick {k : FloatKind} {x y : Nat} (max : Bool) (hx : (k.dec x).isNan = false) (hy : (k.dec y).isNan = false) :
    (floatLe k x y = max → Beats k max x y) ∧ (floatLe k x y ≠ max → Beats k max y x) := by
  rw [beats_iff max hx hy, beats_iff max hy hx]
  have le := floatLe_iff hx hy
  cases max
  · refine ⟨fun h => ?_, fun h => ?_⟩
    · exact (le_total _ _).resolve_left fun h' => by rw [le.2 h'] at h; cases h
    · exact le.1 (Bool.eq_true_of_not_eq_false h)
  · refine ⟨fun h => le.1 h, fun h => ?_⟩
    exact (le_total _ _).resolve_left fun h' => h (le.2 h')

/-! ### VMIN, VMAX and the extreme of a register (R209, R215) -/

theorem minMaxCode_lane (k : FloatKind) (max num : Bool) {x y : Nat} (hx : x < 2 ^ k.width) (hy : y < 2 ^ k.width) :
    MinMaxCode k max num x y (minMaxLane (.flt k) max num x y % 2 ^ k.width) := by
  have nan := Nat.mod_eq_of_lt k.nanCode_lt
  have keepX := Nat.mod_eq_of_lt hx
  have keepY := Nat.mod_eq_of_lt hy
  rw [MinMaxCode, minMaxLane]
  cases nx : (k.dec x).isNan <;> cases ny : (k.dec y).isNan
  · obtain ⟨above, below⟩ := beats_of_pick max nx ny
    by_cases pick : floatLe k x y = max
    · simp only [pick, bne_self_eq_false, Bool.false_eq_true, false_and, or_self, if_false, Bool.and_self, Bool.or_self,
        Bool.false_and, keepY]
      exact ⟨.inr trivial, List.forall_mem_cons.2 ⟨above pick, List.forall_mem_singleton.2 (Beats.refl max ny)⟩⟩
    · simp only [bne_iff_ne.2 pick, Bool.false_eq_true, false_and, or_self, if_false, if_true, Bool.and_self, Bool.or_self,
        Bool.false_and, keepX]
      exact ⟨.inl trivial, List.forall_mem_cons.2 ⟨Beats.refl max nx, List.forall_mem_singleton.2 (below pick)⟩⟩
  · cases num <;> simp [nan, keepX]
  · cases num <;> simp [nan, keepY]
  · simp [nan]

/-- The code that is left of a list beats them all. -/
theorem beats_foldl {k : FloatKind} (max : Bool) {l : List Nat} {x : Nat} (numbers : ∀ y ∈ x :: l, (k.dec y).isNan = false) :
    let z := l.foldl (fun m y => if floatLe k m y = max then y else m) x
    z ∈ x :: l ∧ ∀ y ∈ x :: l, Beats k max y z := by
  induction l generalizing x with
  | nil => exact ⟨List.mem_cons_self, List.forall_mem_singleton.2 (.refl max (numbers x List.mem_cons_self))⟩
  | cons y l ih =>
    obtain ⟨hx, hy, hl⟩ : (k.dec x).isNan = false ∧ (k.dec y).isNan = false ∧ ∀ u ∈ l, (k.dec u).isNan = false := by
      simpa using numbers
    obtain ⟨above, below⟩ := beats_of_pick max hx hy
    have fromX : ∀ u ∈ x :: l, (k.dec u).isNan = false := List.forall_mem_cons.2 ⟨hx, hl⟩
    have fromY : ∀ u ∈ y :: l, (k.dec u).isNan = false := List.forall_mem_cons.2 ⟨hy, hl⟩
    rw [List.foldl_cons]
    by_cases pick : floatLe k x y = max
    · rw [if_pos pick]
      obtain ⟨mem, all⟩ := ih fromY
      exact ⟨List.mem_cons_of_mem x mem, List.forall_mem_cons.2
        ⟨(above pick).trans hx hy (fromY _ mem) (all y List.mem_cons_self), all⟩⟩
    · rw [if_neg pick]
      obtain ⟨mem, all⟩ := ih fromX
      refine ⟨?_, List.forall_mem_cons.2 ⟨all x List.mem_cons_self, List.forall_mem_cons.2
        ⟨(below pick).trans hy hx (fromX _ mem) (all x List.mem_cons_self), fun u hu => all u (List.mem_cons_of_mem x hu)⟩⟩⟩
      rcases List.mem_cons.1 mem with same | later
      · exact List.mem_cons.2 (.inl same)
      · exact List.mem_cons_of_mem x (List.mem_cons_of_mem y later)

/-- VRED's value of codes of a format (R215). -/
theorem redCode_redValue (k : FloatKind) (m : BitVec 2) {xs : List Nat} (some : xs ≠ []) (small : ∀ x ∈ xs, x < 2 ^ k.width) :
    RedCode k m.toNat xs (redValue (.flt k) m.toNat xs % 2 ^ k.width) := by
  have variants : m = 0 ∨ m = 1 ∨ m = 2 ∨ m = 3 := by
    revert m
    decide
  have best (max : Bool) : let z := extreme k max xs % 2 ^ k.width
      if xs.any (fun x => (k.dec x).isNan) then z = k.nanCode else z ∈ xs ∧ ∀ x ∈ xs, Beats k max x z := by
    obtain ⟨x, l, rfl⟩ := List.exists_cons_of_ne_nil some
    dsimp only [extreme]
    split
    next nan => exact Nat.mod_eq_of_lt k.nanCode_lt
    next numbers =>
      obtain ⟨mem, all⟩ := beats_foldl (k := k) max (l := l) (x := x) fun y hy =>
        Bool.eq_false_iff.2 fun h => numbers (List.any_eq_true.2 ⟨y, hy, h⟩)
      rw [Nat.mod_eq_of_lt (small _ mem)]
      exact ⟨mem, all⟩
  rcases variants with rfl | rfl | rfl | rfl
  · exact Nat.mod_eq_of_lt (k.enc_lt true false _)
  · exact best true
  · exact best false
  · exact Nat.mod_eq_of_lt (k.enc_lt true false _)

end Sys2Proof.Machine
end
/-! ## Exponentials, reciprocals and roots (R214) -/
section
namespace Sys2Proof.Machine

/-! ### The series -/

theorem le_expFrom (r term i k : Nat) : term ≤ expFrom r term i (k + 1) := Nat.le_add_right _ _

theorem expFrom_mono {r r' term term' : Nat} (hr : r ≤ r') (ht : term ≤ term') (i k : Nat) :
    expFrom r term i k ≤ expFrom r' term' i k := by
  induction k generalizing term term' i with
  | zero => exact le_rfl
  | succ k ih => exact Nat.add_le_add ht (ih (Nat.div_le_div_right (Nat.div_le_div_right (Nat.mul_le_mul ht hr))) (i + 1))

/-- The fixed-point ln 2 lies between 1/1.45 and 1/1.44, and the series for it stays below 2. -/
theorem fixLn2_bounds :
    144 * fixLn2 ≤ 100 * 2 ^ fixBits ∧ 100 * 2 ^ fixBits ≤ 145 * fixLn2 ∧ fixExp fixLn2 < 2 ^ (fixBits + 1) := by
  decide +kernel

theorem fixLn2_pos : 0 < fixLn2 := by
  have pos : 0 < 2 ^ fixBits := Nat.two_pow_pos fixBits
  have := fixLn2_bounds.2.1
  omega

/-- Up to ln 2 the series gives a value from 1 to 2. -/
theorem fixExp_bounds {r : Nat} (small : r ≤ fixLn2) : 2 ^ fixBits ≤ fixExp r ∧ fixExp r < 2 ^ (fixBits + 1) :=
  ⟨le_expFrom r _ 1 89, lt_of_le_of_lt (expFrom_mono small le_rfl 1 90) fixLn2_bounds.2.2⟩

/-- A scaled result lies between the powers of two that enclose its value. -/
theorem scaledResult_bounds {f : Nat} (low : 2 ^ fixBits ≤ f) (high : f < 2 ^ (fixBits + 1)) (n : ℤ) : let q := scaledResult n f
    0 < q.2 ∧ (2 : ℚ) ^ n ≤ q.1 / q.2 ∧ (q.1 / q.2 : ℚ) ≤ 2 ^ (n + 1) := by
  have value := asFraction_rat (2 * f + 1) (n - fixBits - 1)
  have scale := two_zpow_pos (n - fixBits - 1)
  have unit (z : ℤ) (p : Nat) (h : z = p + (n - fixBits - 1)) : (2 : ℚ) ^ z = (2 ^ p : Nat) * 2 ^ (n - fixBits - 1) := by
    rw [h, zpow_add₀ two_ne_zero, zpow_natCast]
    push_cast
    rfl
  refine ⟨asFraction_den_pos _ _, ?_, ?_⟩
  · rw [scaledResult, value, unit n (fixBits + 1) (by push_cast; ring)]
    refine mul_le_mul_of_nonneg_right ?_ scale.le
    have : 2 ^ (fixBits + 1) ≤ 2 * f + 1 := by rw [pow_succ]; omega
    exact_mod_cast this
  · rw [scaledResult, value, unit (n + 1) (fixBits + 2) (by push_cast; ring)]
    refine mul_le_mul_of_nonneg_right ?_ scale.le
    have : 2 * f + 1 ≤ 2 ^ (fixBits + 2) := by rw [pow_succ] at high ⊢; rw [pow_succ]; omega
    exact_mod_cast this

/-! ### The argument -/

section
variable {m : Nat} {e : ℤ}

/-- Fixed-point, the magnitude is cut below. -/
theorem fixOf_bounds (m : Nat) (e : ℤ) :
    (fixOf m e : ℚ) ≤ m * 2 ^ e * 2 ^ fixBits ∧ (m * 2 ^ e * 2 ^ fixBits : ℚ) < fixOf m e + 1 := by
  have bounds := div_bounds (num := (asFraction m (e + fixBits)).1) (asFraction_den_pos m (e + fixBits))
  rwa [asFraction_rat, zpow_add₀ two_ne_zero, zpow_natCast, ← mul_assoc] at bounds

/-- The whole part of the magnitude. -/
theorem fixOf_div (m : Nat) (e : ℤ) :
    ((fixOf m e / 2 ^ fixBits : Nat) : ℚ) ≤ m * 2 ^ e ∧ (m * 2 ^ e : ℚ) < (fixOf m e / 2 ^ fixBits : Nat) + 1 := by
  obtain ⟨low, high⟩ := fixOf_bounds m e
  have pos : (0 : ℚ) < 2 ^ fixBits := by positivity
  have down : ((fixOf m e / 2 ^ fixBits : Nat) : ℚ) * 2 ^ fixBits ≤ fixOf m e := by
    exact_mod_cast Nat.div_mul_le_self (fixOf m e) (2 ^ fixBits)
  have up : (fixOf m e : ℚ) + 1 ≤ ((fixOf m e / 2 ^ fixBits : Nat) + 1) * 2 ^ fixBits := by
    have := Nat.lt_mul_div_succ (fixOf m e) (Nat.two_pow_pos fixBits)
    rw [mul_comm] at this
    exact_mod_cast this
  exact ⟨le_of_mul_le_mul_right (down.trans low) pos, lt_of_mul_lt_mul_right (high.trans_le up) pos.le⟩

/-- The quotient by ln 2 lies about the exponent of e^x. -/
theorem fixOf_div_fixLn2 (m : Nat) (e : ℤ) : ((fixOf m e / fixLn2 : Nat) : ℚ) ≤ 1.45 * (m * 2 ^ e)
    ∧ (1.44 * (m * 2 ^ e) : ℚ) ≤ (fixOf m e / fixLn2 : Nat) + 1 := by
  obtain ⟨low, high⟩ := fixOf_bounds m e
  obtain ⟨below, above, -⟩ := fixLn2_bounds
  have below' : (144 * fixLn2 : ℚ) ≤ 100 * 2 ^ fixBits := by exact_mod_cast below
  have above' : (100 * 2 ^ fixBits : ℚ) ≤ 145 * fixLn2 := by exact_mod_cast above
  have pos : (0 : ℚ) < 2 ^ fixBits := by positivity
  have down : ((fixOf m e / fixLn2 : Nat) : ℚ) * fixLn2 ≤ fixOf m e := by
    exact_mod_cast Nat.div_mul_le_self (fixOf m e) fixLn2
  have up : (fixOf m e : ℚ) + 1 ≤ ((fixOf m e / fixLn2 : Nat) + 1) * fixLn2 := by
    have := Nat.lt_mul_div_succ (fixOf m e) fixLn2_pos
    rw [mul_comm] at this
    exact_mod_cast this
  have ln2 : (0 : ℚ) < fixLn2 := Nat.cast_pos.2 fixLn2_pos
  have whole : (0 : ℚ) ≤ (fixOf m e / fixLn2 : Nat) := Nat.cast_nonneg _
  generalize ((fixOf m e / fixLn2 : Nat) : ℚ) = i at *
  have nonneg : 0 ≤ (m * 2 ^ e : ℚ) := mul_nonneg (Nat.cast_nonneg m) (two_zpow_pos e).le
  generalize (m * 2 ^ e : ℚ) = a at *
  refine ⟨le_of_mul_le_mul_right ?_ ln2, le_of_mul_le_mul_right ?_ pos⟩
  · have := mul_le_mul_of_nonneg_left above' nonneg
    linarith
  · have := mul_le_mul_of_nonneg_left below' (show 0 ≤ i + 1 by linarith)
    linarith

/-- A value is an integer where its exponent or its significand says so. -/
theorem int_iff_whole : (∃ z : ℤ, (m * 2 ^ e : ℚ) = z) ↔ 0 ≤ e ∨ m % 2 ^ (-e).toNat = 0 := by
  constructor
  · rintro ⟨z, h⟩
    by_contra frac
    push Not at frac
    obtain ⟨neg, rest⟩ := frac
    rw [two_zpow_eq, if_neg (by omega), mul_one_div, div_eq_iff (by positivity)] at h
    have divides : (2 : ℤ) ^ (-e).toNat ∣ m := ⟨z, by rw [mul_comm]; exact_mod_cast h⟩
    exact rest (Nat.mod_eq_zero_of_dvd (by exact_mod_cast divides))
  · intro h
    by_cases up : 0 ≤ e
    · exact ⟨m * 2 ^ e.toNat, by rw [two_zpow_eq, if_pos up]; push_cast; rfl⟩
    · obtain ⟨t, ht⟩ := Nat.dvd_of_mod_eq_zero (h.resolve_left up)
      refine ⟨t, ?_⟩
      rw [two_zpow_eq, if_neg up, mul_one_div, div_eq_iff (by positivity), ht]
      push_cast
      ring

/-- Below 1,024 the exponential is not cut off. -/
theorem not_cut_of_small {n : Bool} (zero : m ≠ 0) (small : |finiteRat n m e| < 1024) : ¬ 0 ≤ e + Nat.log2 m - 12 := by
  intro cut
  rw [abs_finiteRat] at small
  have low : (2 : ℚ) ^ (Nat.log2 m : ℤ) ≤ m := by
    rw [zpow_natCast]
    exact_mod_cast Nat.log2_self_le zero
  have : (2 : ℚ) ^ ((Nat.log2 m : ℤ) + e) ≤ m * 2 ^ e := by
    rw [zpow_add₀ two_ne_zero]
    exact mul_le_mul_of_nonneg_right low (two_zpow_pos e).le
  have bound : (2 : ℚ) ^ ((Nat.log2 m : ℤ) + e) < 2 ^ (10 : ℤ) := lt_of_le_of_lt this (small.trans_eq (by norm_num))
  have := zpow_lt_iff.1 bound
  omega

/-! ### The exponential (R214) -/

/-- A fraction between two powers of two stands for the exponential whose exponent lies there. -/
theorem nearExp_of_bounds {base2 : Bool} {x : ℚ} {q : Nat × Nat} {j : ℤ} (some : x ≠ 0)
    (bounds : 0 < q.2 ∧ (2 : ℚ) ^ j ≤ q.1 / q.2 ∧ (q.1 / q.2 : ℚ) ≤ 2 ^ (j + 1))
    (exponent : if base2 then j = ⌊x⌋ ∧ (x = j → (q.1 / q.2 : ℚ) = 2 ^ j)
      else min (1.44 * x) (1.45 * x) ≤ j + 1 ∧ (j : ℚ) ≤ max (1.44 * x) (1.45 * x)) : NearExp base2 x q.1 q.2 :=
  ⟨bounds.1, fun zero => absurd zero some, j, bounds.2.1, bounds.2.2, exponent⟩

/-- A power of two to an integer is exact. -/
theorem nearExp_two_of_int {x : ℚ} {j : ℤ} (some : x ≠ 0) (int : x = j) :
    NearExp true x (asFraction 1 j).1 (asFraction 1 j).2 := by
  have value : ((asFraction 1 j).1 : ℚ) / (asFraction 1 j).2 = 2 ^ j := by rw [asFraction_rat, Nat.cast_one, one_mul]
  refine nearExp_of_bounds some ⟨asFraction_den_pos 1 j, value.ge, ?_⟩ ⟨?_, fun _ => value⟩
  · rw [value, zpow_le_iff]
    omega
  · rw [int, Int.floor_intCast]

theorem nearExp_expQ_two {n : Bool} (zero : m ≠ 0) (small : |finiteRat n m e| < 1024) :
    NearExp true (finiteRat n m e) (expQ true n m e).1 (expQ true n m e).2 := by
  have some : finiteRat n m e ≠ 0 := mt finiteRat_eq_zero.1 zero
  obtain ⟨low, high⟩ := fixOf_div m e
  rw [expQ, if_neg zero, if_neg (not_cut_of_small zero small), if_pos rfl]
  have series (r : Nat) (hr : r ≤ 2 ^ fixBits) := fixExp_bounds (Nat.div_le_of_le_mul (Nat.mul_le_mul_right fixLn2 hr))
  have rest : fixOf m e % 2 ^ fixBits ≤ 2 ^ fixBits := (Nat.mod_lt _ (Nat.two_pow_pos fixBits)).le
  generalize hi : fixOf m e / 2 ^ fixBits = i at low high ⊢
  by_cases whole : 0 ≤ e ∨ m % 2 ^ (-e).toNat = 0
  · obtain ⟨z, hz⟩ := int_iff_whole.2 whole
    have same : z = i := by
      rw [hz] at low high
      have : (i : ℤ) ≤ z := by exact_mod_cast low
      have : z < i + 1 := by exact_mod_cast high
      omega
    rw [if_pos whole]
    refine nearExp_two_of_int some ?_
    cases n
    · rw [finiteRat_false, hz, same]
      rfl
    · rw [finiteRat_true, hz, same]
      push_cast
      rfl
  · have above : (i : ℚ) < m * 2 ^ e := lt_of_le_of_ne low fun h => whole (int_iff_whole.1 ⟨i, h.symm⟩)
    rw [if_neg whole]
    cases n
    · obtain ⟨one, two⟩ := series _ rest
      refine nearExp_of_bounds some (scaledResult_bounds one two i) ?_
      rw [finiteRat_false]
      refine ⟨(Int.floor_eq_iff.2 ⟨low, high⟩).symm, fun h => absurd h ?_⟩
      exact above.ne'
    · obtain ⟨one, two⟩ := series (2 ^ fixBits - 1 - fixOf m e % 2 ^ fixBits) (by omega)
      refine nearExp_of_bounds some (scaledResult_bounds one two (-(i : ℤ) - 1)) ?_
      rw [finiteRat_true]
      refine ⟨(Int.floor_eq_iff.2 ⟨?_, ?_⟩).symm, fun h => absurd h ?_⟩
      · push_cast; linarith
      · push_cast; linarith
      · push_cast; exact fun h => by linarith

theorem nearExp_expQ_e {n : Bool} (zero : m ≠ 0) (small : |finiteRat n m e| < 1024) :
    NearExp false (finiteRat n m e) (expQ false n m e).1 (expQ false n m e).2 := by
  have some : finiteRat n m e ≠ 0 := mt finiteRat_eq_zero.1 zero
  obtain ⟨low, high⟩ := fixOf_div_fixLn2 m e
  have rest : fixOf m e % fixLn2 < fixLn2 := Nat.mod_lt _ fixLn2_pos
  rw [expQ, if_neg zero, if_neg (not_cut_of_small zero small), if_neg Bool.false_ne_true]
  cases n
  · obtain ⟨one, two⟩ := fixExp_bounds rest.le
    refine nearExp_of_bounds some (scaledResult_bounds one two (fixOf m e / fixLn2 : Nat)) ?_
    rw [finiteRat_false]
    exact ⟨(min_le_left _ _).trans high, low.trans (le_max_right _ _)⟩
  · generalize fixOf m e / fixLn2 = i at low high ⊢
    obtain ⟨one, two⟩ := fixExp_bounds (show fixLn2 - 1 - fixOf m e % fixLn2 ≤ fixLn2 by omega)
    refine nearExp_of_bounds some (scaledResult_bounds one two (-(i : ℤ) - 1)) ?_
    rw [finiteRat_true]
    refine ⟨(min_le_right _ _).trans ?_, le_trans ?_ (le_max_left _ _)⟩
    · push_cast; linarith
    · push_cast; linarith

/-- A fraction that stands for the exponential of a value below 1,024. -/
theorem nearExp_expQ {base2 n : Bool} (small : |finiteRat n m e| < 1024) :
    NearExp base2 (finiteRat n m e) (expQ base2 n m e).1 (expQ base2 n m e).2 := by
  by_cases zero : m = 0
  · rw [finiteRat_eq_zero.2 zero, expQ, if_pos zero]
    refine ⟨Nat.one_pos, fun _ => rfl, 0, by norm_num, by norm_num, ?_⟩
    cases base2 <;> norm_num
  · cases base2
    · exact nearExp_expQ_e zero small
    · exact nearExp_expQ_two zero small

theorem expCode_expOf (k : FloatKind) (base2 : Bool) (v : FVal) : ExpCode k base2 v (k.expOf base2 v % 2 ^ k.width) := by
  cases v with
  | nan => exact Nat.mod_eq_of_lt k.nanCode_lt
  | inf n =>
    cases n
    · exact Nat.mod_eq_of_lt (k.enc_lt true false (.inf false))
    · exact Nat.zero_mod _
  | fin n m e => exact fun small => ⟨_, _, nearExp_expQ small, Nat.mod_eq_of_lt (k.encQ_lt _ _ _ _ _)⟩

end

/-! ### Reciprocals and roots (R214) -/

theorem rcpCode_rcpOf (k : FloatKind) (v : FVal) : RcpCode k v (k.rcpOf v % 2 ^ k.width) := by
  cases v with
  | nan => exact Nat.mod_eq_of_lt k.nanCode_lt
  | inf n => exact Nat.mod_eq_of_lt (k.signed_lt (Nat.two_pow_pos _) n)
  | fin n m e =>
    by_cases zero : m = 0
    · rw [RcpCode, if_pos zero, FloatKind.rcpOf, if_pos zero]
      exact Nat.mod_eq_of_lt (k.signed_lt k.overCode_lt n)
    · rw [RcpCode, if_neg zero, FloatKind.rcpOf, if_neg zero]
      refine ⟨(asFraction m e).2, (asFraction m e).1, Nat.pos_of_ne_zero (mt asFraction_num_eq_zero.1 zero), ?_,
        Nat.mod_eq_of_lt (k.encQ_lt _ _ _ _ _)⟩
      rw [abs_finiteRat, ← asFraction_rat, one_div_div]

/-- Bit by bit from the top, the root found is the whole part of the square root. -/
theorem sqrtFrom_spec {n r k : Nat} (low : r * r ≤ n) (high : n < (r + 2 ^ k) * (r + 2 ^ k)) :
    sqrtFrom n r k * sqrtFrom n r k ≤ n ∧ n < (sqrtFrom n r k + 1) * (sqrtFrom n r k + 1) := by
  induction k generalizing r with
  | zero => exact ⟨low, high⟩
  | succ k ih =>
    rw [sqrtFrom]
    split
    next fits => exact ih fits (by rwa [Nat.add_assoc, ← two_mul, ← pow_succ'])
    next more => exact ih low (Nat.not_le.1 more)

/-- Half-way between a root's whole part and the next integer, the square is as near as the part is long. -/
theorem middle_of_root {r t : Nat} (below : r * r * t ≤ 2 ^ 512) (above : 2 ^ 512 < (r + 1) * (r + 1) * t) (wide : t < 2 ^ 54) :
    2 ^ 514 ≤ (2 * r + 1) * (2 * r + 1) * t + 2 ^ 314 ∧ (2 * r + 1) * (2 * r + 1) * t ≤ 2 ^ 514 + 2 ^ 314 := by
  have product : r * t ≤ 2 ^ 283 := by
    by_contra more
    have square : 2 ^ 283 * 2 ^ 283 < r * t * (r * t) := Nat.mul_lt_mul'' (Nat.not_le.1 more) (Nat.not_le.1 more)
    have regroup : r * t * (r * t) = r * r * t * t := by ring
    have bound : r * r * t * t ≤ 2 ^ 512 * 2 ^ 54 := Nat.mul_le_mul below wide.le
    have exponents : 2 ^ 512 * 2 ^ 54 = 2 ^ 283 * 2 ^ 283 := by rw [← pow_add, ← pow_add]
    rw [exponents, ← regroup] at bound
    exact absurd square (Nat.not_lt.2 bound)
  have short : t ≤ 2 ^ 283 := wide.le.trans (pow_le_pow_right₀ one_le_two (by decide))
  have middle : (2 * r + 1) * (2 * r + 1) * t = 4 * (r * r * t) + 4 * (r * t) + t := by ring
  have next : (r + 1) * (r + 1) * t = r * r * t + 2 * (r * t) + t := by ring
  rw [middle, show 2 ^ 514 = 2 ^ 2 * 2 ^ 512 from (pow_add 2 2 512), show 2 ^ 314 = 2 ^ 31 * 2 ^ 283 from (pow_add 2 31 283)]
  rw [next] at above
  generalize 2 ^ 512 = P at below above ⊢
  generalize 2 ^ 283 = R at product short ⊢
  omega

/-- The fraction squared, times the operand, lies within 2^−200 of 1. -/
theorem rsqrtQ_spec {m : Nat} (some : m ≠ 0) (small : m < 2 ^ 53) (e : ℤ) : let q := rsqrtQ m e
    0 < q.2 ∧ |(q.1 / q.2 : ℚ) ^ 2 * (m * 2 ^ e) - 1| ≤ 1 / 2 ^ 200 := by
  obtain ⟨t, h, ht, operand, bits⟩ : ∃ (t : Nat) (h : ℤ), t = (if e % 2 ≠ 0 then 2 * m else m) ∧
      (m * 2 ^ e : ℚ) = t * 2 ^ (2 * h) ∧ h = (if e % 2 ≠ 0 then e - 1 else e) / 2 := by
    refine ⟨_, _, rfl, ?_, rfl⟩
    split
    next odd =>
      rw [show 2 * ((e - 1) / 2) = e - 1 by omega, zpow_sub₀ two_ne_zero]
      push_cast
      ring
    next even => rw [show 2 * (e / 2) = e by omega]
  have pos : 0 < t := by rw [ht]; split <;> omega
  have wide : t < 2 ^ 54 := by rw [ht]; split <;> omega
  rw [operand, rsqrtQ, ← ht, ← bits]
  obtain ⟨low, high⟩ := sqrtFrom_spec (n := 2 ^ 512 / t) (r := 0) (k := 257) (Nat.zero_le _)
    
    (lt_of_le_of_lt (Nat.div_le_self _ _) (by rw [Nat.zero_add, ← pow_add]; exact pow_lt_pow_right₀ one_lt_two (by decide)))
  generalize sqrtFrom (2 ^ 512 / t) 0 257 = r at low high
  have below : r * r * t ≤ 2 ^ 512 := (Nat.le_div_iff_mul_le pos).1 low
  have above : 2 ^ 512 < (r + 1) * (r + 1) * t := (Nat.div_lt_iff_lt_mul pos).1 high
  have value (a c : Nat) : ((asFraction a (-h - c)).1 / (asFraction a (-h - c)).2 : ℚ) ^ 2 * (t * 2 ^ (2 * h))
      = a * a * t / 2 ^ (2 * c) := by
    have scale : ((2 : ℚ) ^ (-h - c)) ^ 2 * 2 ^ (2 * h) = 1 / 2 ^ (2 * c) := by
      rw [← zpow_natCast, ← zpow_mul, ← zpow_add₀ two_ne_zero, ← zpow_natCast, one_div, ← zpow_neg]
      congr 1
      push_cast
      ring
    calc _ = (a * a * t : ℚ) * (((2 : ℚ) ^ (-h - c)) ^ 2 * 2 ^ (2 * h)) := by rw [asFraction_rat]; ring
      _ = a * a * t / 2 ^ (2 * c) := by rw [scale, mul_one_div]
  dsimp only
  split
  next root =>
    refine ⟨asFraction_den_pos _ _, ?_⟩
    have one : (r * r * t : ℚ) / 2 ^ (2 * 256) = 1 := by
      rw [div_eq_one_iff_eq (by positivity)]
      exact_mod_cast root
    have := value r 256
    push_cast at this
    rw [this, one, sub_self, abs_zero]
    positivity
  next =>
    refine ⟨asFraction_den_pos _ _, ?_⟩
    obtain ⟨lower, upper⟩ := middle_of_root below above wide
    have := value (2 * r + 1) 257
    push_cast at this
    rw [this, show (1 : ℚ) / 2 ^ 200 = 2 ^ 314 / 2 ^ (2 * 257) by rw [div_eq_div_iff (by positivity) (by positivity), ← pow_add,
      one_mul], show ((2 * r + 1) * (2 * r + 1) * t : ℚ) / 2 ^ (2 * 257) - 1
        = ((2 * r + 1) * (2 * r + 1) * t - 2 ^ 514) / 2 ^ (2 * 257) by rw [sub_div, div_self (by positivity)],
      abs_div, abs_of_pos (show (0 : ℚ) < 2 ^ (2 * 257) by positivity)]
    refine div_le_div_of_nonneg_right (abs_le.2 ⟨?_, ?_⟩) (by positivity)
    · rw [neg_le_sub_iff_le_add]
      exact_mod_cast lower
    · rw [sub_le_iff_le_add']
      exact_mod_cast upper

theorem rsqCode_rsqOf (k : FloatKind) {c : Nat} : RsqCode k (k.dec c) (k.rsqOf (k.dec c) % 2 ^ k.width) := by
  cases v : k.dec c with
  | nan => exact Nat.mod_eq_of_lt k.nanCode_lt
  | inf n =>
    cases n
    · exact Nat.zero_mod _
    · exact Nat.mod_eq_of_lt k.nanCode_lt
  | fin n m e =>
    rw [RsqCode, FloatKind.rsqOf]
    by_cases zero : m = 0
    · rw [if_pos zero, if_pos zero]
      exact Nat.mod_eq_of_lt (k.signed_lt k.overCode_lt n)
    rw [if_neg zero, if_neg zero]
    cases n
    · obtain ⟨pos, near⟩ := rsqrtQ_spec zero (k.significand_lt v) e
      exact ⟨_, _, pos, by rwa [finiteRat_false], Nat.mod_eq_of_lt (k.encQ_lt _ _ _ _ _)⟩
    · exact Nat.mod_eq_of_lt k.nanCode_lt

end Sys2Proof.Machine
end
/-! ## Vector arithmetic under float formats (O25) -/
section
namespace Sys2Proof.Machine

/-- Settles O25: each word's lane function is the rule's on the codes' values, and a rounded code fits its lane. -/
theorem vectorFloatLanes : Obligations.VectorFloatLanes := by
  intro s blk rest d a b sel x y v m k w ca cb A B D fmt
  have code := code_of_flt fmt
  have arith : fmtArith s.me.sys.vshape = true := decide_eq_true code.2
  have float : fmtFloat s.me.sys.vshape = true := by simp [fmtFloat, code]
  have one (f : Nat → Nat) {i : Nat} (inside : i < 2048 / w) :
      laneAt w (mapLanes (Fmt.flt k).bits f (s.me.srcVal a.toNat)) i = f (ca i) % 2 ^ w := laneAt_mapLanes inside f _
  have func (g : FloatKind → FVal → Nat) {i : Nat} (inside : i < 2048 / w) :
      laneAt w (funcVec (.flt k) g (s.me.srcVal a.toNat)) i = g k (A i) % 2 ^ w := one _ inside
  have two (f : Nat → Nat → Nat) {i : Nat} (inside : i < 2048 / w) :
      laneAt w (zipLanes (Fmt.flt k).bits f (s.me.srcVal a.toNat) (s.me.srcVal b.toNat)) i = f (ca i) (cb i) % 2 ^ w :=
    laneAt_zipLanes inside f _ _
  refine ⟨fun ready => ⟨?add, ?sub, ?mul, ?min, ?max, ?cmp⟩, fun ready _ => ?fma,
    fun ready => ⟨?abs, ?neg, ?red, ?exp, ?rcp, ?rsq⟩⟩
  case add => exact vecLanes_of_by (vecLanesBy_vop2 rfl arith ready fun i inside => by rw [fmt, two _ inside]; rfl)
  case sub => exact vecLanes_of_by (vecLanesBy_vop2 rfl arith ready fun i inside => by rw [fmt, two _ inside]; rfl)
  case mul =>
    have variants : v = 0 ∨ v = 1 := by
      revert v
      decide
    refine vecLanes_of_by (vecLanesBy_vop2 rfl ?_ ready fun i inside => ?_)
    · rcases variants with rfl | rfl <;> exact arith
    · rw [fmt]
      rcases variants with rfl | rfl <;> exact two _ inside
  case min =>
    exact vecLanesBy_vop2 rfl arith ready fun i inside => by
      rw [fmt, two _ inside]
      exact minMaxCode_lane k false _ (laneAt_lt w _ i) (laneAt_lt w _ i)
  case max =>
    exact vecLanesBy_vop2 rfl arith ready fun i inside => by
      rw [fmt, two _ inside]
      exact minMaxCode_lane k true _ (laneAt_lt w _ i) (laneAt_lt w _ i)
  case cmp =>
    refine vecLanesBy_vop2 rfl arith ready fun i inside => ?_
    rw [fmt, cmpVec, two _ inside]
    have holds : relHolds m.toNat (laneOrder (.flt k) (ca i) (cb i)) = true ↔ CmpHolds m.toNat (A i) (B i) :=
      relHolds_cmp m (A i) (B i)
    constructor
    · intro h
      rw [if_pos (holds.2 h)]
      exact Nat.mod_eq_of_lt (Nat.sub_lt (Nat.two_pow_pos w) Nat.one_pos)
    · intro h
      rw [if_neg (mt holds.1 h), Nat.zero_mod]
  case fma =>
    refine vecLanes_of_by (vecLanesBy_vop3 rfl arith ready fun i inside => ?_)
    rw [fmt]
    refine (laneAt_zip3Lanes (w := w) inside _ _ _ _).trans ?_
    simp only [fmaLane, decide_eq_true_eq]
    rfl
  case abs => exact vecLanes_of_by (vecLanesBy_vop1 rfl arith ready fun i inside => by rw [fmt, one _ inside]; rfl)
  case neg =>
    refine vecLanes_of_by (vecLanesBy_vop1 rfl arith ready fun i inside => ?_)
    rw [fmt, one _ inside, ← k.flipSign_eq (laneAt_lt w _ i)]
    rfl
  case red =>
    refine vecLanesBy_vop1 rfl arith ready fun i inside => ?_
    rw [fmt, redVec, show (Fmt.flt k).bits = w from rfl, laneAt_singleton inside, lanesOf_eq]
    by_cases first : i = 0
    · rw [if_pos first, if_pos first]
      refine redCode_redValue k m ?_ fun z hz => ?_
      · rw [Ne, List.map_eq_nil_iff, List.range_eq_nil]
        exact (Nat.zero_lt_of_lt inside).ne'
      · obtain ⟨j, -, rfl⟩ := List.mem_map.1 hz
        exact laneAt_lt w _ j
    · rw [if_neg first, if_neg first]
  case exp => exact vecLanesBy_vop1 rfl float ready fun i inside => by rw [fmt, func _ inside]; exact expCode_expOf k _ _
  case rcp => exact vecLanesBy_vop1 rfl float ready fun i inside => by rw [fmt, func _ inside]; exact rcpCode_rcpOf k _
  case rsq => exact vecLanesBy_vop1 rfl float ready fun i inside => by rw [fmt, func _ inside]; exact rsqCode_rsqOf k

end Sys2Proof.Machine
end
/-! ## Codes that are rounded again, and sums of two values (R209, R213, R225, R240) -/
section
namespace Sys2Proof.Machine

/-! ### A code's own value rounds to the code -/

namespace FloatKind
variable (k : FloatKind)

theorem signed_mod {x : Nat} (small : x < 2 ^ k.width) :
    k.signed (bitAt x (k.width - 1)) (x % 2 ^ (k.width - 1)) = x := by
  rw [two_pow_width] at small
  rw [signed, bitVal, bitAt]
  generalize 2 ^ (k.width - 1) = P at small
  by_cases low : x < P
  · simp [Nat.div_eq_of_lt low, Nat.mod_eq_of_lt low]
  · have one : x / P = 1 := Nat.div_eq_of_lt_le (by omega) (by omega)
    have rest : x % P = x - P := by rw [Nat.mod_eq_sub_mod (by omega), Nat.mod_eq_of_lt (by omega)]
    simp [one, rest]
    omega

/-- A significand of the format's bits at an exponent of the format is its own code. -/
theorem roundMag_of_code (rne : Bool) {m s : Nat} (small : m < 2 ^ (k.frac + 1)) (normal : s = 0 ∨ 2 ^ k.frac ≤ m) :
    let q := asFraction m (1 - (k.bias : ℤ) - k.frac + s)
    k.roundMag rne q.1 q.2 = s * 2 ^ k.frac + m := by
  intro q
  by_cases zero : m = 0
  · have low : s = 0 := normal.resolve_right fun h => by have := Nat.two_pow_pos k.frac; omega
    rw [roundMag, if_pos (asFraction_num_eq_zero.2 zero), zero, low, Nat.zero_mul]
  obtain ⟨lo, hlo⟩ : ∃ lo : ℤ, lo = 1 - (k.bias : ℤ) - k.frac := ⟨_, rfl⟩
  have value : (q.1 : ℚ) / q.2 = m * 2 ^ (lo + s) := hlo ▸ asFraction_rat m _
  have num : q.1 ≠ 0 := mt asFraction_num_eq_zero.1 zero
  have den : 0 < q.2 := asFraction_den_pos _ _
  have high : (q.1 : ℚ) / q.2 < 2 ^ (lo + s + k.frac + 1) := by
    rw [value, show lo + s + k.frac + 1 = ((k.frac + 1 : Nat) : ℤ) + (lo + s) by push_cast; ring,
      zpow_add₀ two_ne_zero ((k.frac + 1 : Nat) : ℤ), zpow_natCast]
    have bound : (m : ℚ) < 2 ^ (k.frac + 1) := by exact_mod_cast small
    exact mul_lt_mul_of_pos_right bound (two_zpow_pos _)
  have unit : max lo (floorLog q.1 q.2 - k.frac) = lo + s := by
    rcases normal with sub | norm
    · have := zpow_lt_iff.1 ((floorLog_spec num den.ne').1.trans_lt high)
      omega
    · have low : (2 : ℚ) ^ (lo + s + k.frac) ≤ q.1 / q.2 := by
        rw [value, add_comm, zpow_add₀ two_ne_zero, zpow_natCast]
        exact mul_le_mul_of_nonneg_right (by exact_mod_cast norm) (two_zpow_pos _).le
      rw [floorLog_unique num den.ne' low high]
      omega
  have whole : ((inUnits q.1 q.2 (lo + s)).1 : ℚ) / (inUnits q.1 q.2 (lo + s)).2 = m := by
    rw [inUnits_rat, value, mul_div_cancel_right₀ _ (two_zpow_pos _).ne']
  rw [roundMag, if_neg num, ← hlo]
  dsimp only
  rw [unit, roundQ_of_whole (inUnits_den_pos den _) whole, add_sub_cancel_left, Int.toNat_natCast]

/-- A code up to the largest finite one keeps what was rounded. -/
theorem encQ_of_le {rne sat n : Bool} {num den c : Nat} (mag : k.roundMag rne num den = c) (finite : c ≤ k.maxCode) :
    k.encQ rne sat n num den = k.signed n c := by
  rw [encQ, mag, if_neg (Nat.not_lt.2 finite)]

theorem finite_of_number {c : Nat} (small : c < 2 ^ (k.width - 1)) (number : k.isNanCode c = false)
    (finite : ¬ (k ≠ .e4m3 ∧ c = k.infCode)) : c ≤ k.maxCode := by
  by_cases e4m3 : k = .e4m3
  · subst e4m3
    have top : c ≠ 0x7F := by simpa [isNanCode] using number
    have : c < 128 := small
    rw [maxCode, if_pos rfl]
    omega
  · have below : ¬ k.infCode < c := by simpa [isNanCode, e4m3] using number
    have other : c ≠ k.infCode := fun h => finite ⟨e4m3, h⟩
    rw [maxCode, if_neg e4m3]
    omega

theorem rne_dec {x : Nat} (small : x < 2 ^ k.width) (number : (k.dec x).isNan = false) : k.rne (k.dec x) = x := by
  obtain ⟨c, hc⟩ : ∃ c, c = x % 2 ^ (k.width - 1) := ⟨_, rfl⟩
  obtain ⟨n, hn⟩ : ∃ n, n = bitAt x (k.width - 1) := ⟨_, rfl⟩
  have code : k.signed n c = x := by rw [hc, hn, signed_mod k small]
  have low : c < 2 ^ (k.width - 1) := hc ▸ Nat.mod_lt _ (Nat.two_pow_pos _)
  have fraction := Nat.mod_lt c (Nat.two_pow_pos k.frac)
  have parts := Nat.div_add_mod' c (2 ^ k.frac)
  rw [dec, ← hc, ← hn] at number ⊢
  by_cases nan : k.isNanCode c = true
  · rw [if_pos nan] at number
    cases number
  rw [if_neg nan]
  by_cases inf : k ≠ .e4m3 ∧ c = k.infCode
  · obtain ⟨format, top⟩ := inf
    rw [if_pos ⟨format, top⟩, ← code, top]
    simp [rne, enc, overCode, format]
  have finite := k.finite_of_number low (Bool.eq_false_iff.2 nan) inf
  rw [if_neg inf]
  split
  next sub =>
    have mag := k.roundMag_of_code true (m := c % 2 ^ k.frac) (s := 0) (by rw [pow_succ]; omega) (.inl rfl)
    rw [Nat.cast_zero, add_zero, Nat.zero_mul, Nat.zero_add] at mag
    rw [sub, Nat.zero_mul, Nat.zero_add] at parts
    rw [parts] at mag ⊢
    exact (k.encQ_of_le mag finite).trans code
  next norm =>
    have mag := k.roundMag_of_code true (m := 2 ^ k.frac + c % 2 ^ k.frac) (s := c / 2 ^ k.frac - 1) (by rw [pow_succ]; omega)
      (.inr (Nat.le_add_right _ _))
    obtain ⟨e, he⟩ := Nat.exists_eq_succ_of_ne_zero norm
    rw [he] at parts mag ⊢
    have exponent : (1 - (k.bias : ℤ) - k.frac + ((e.succ - 1 : Nat) : ℤ)) = (e.succ : Nat) - k.bias - k.frac := by
      push_cast
      omega
    have same : (e.succ - 1) * 2 ^ k.frac + (2 ^ k.frac + c % 2 ^ k.frac) = c := by
      rw [Nat.succ_mul] at parts
      rw [Nat.succ_sub_one]
      omega
    rw [exponent, same] at mag
    exact (k.encQ_of_le mag finite).trans code

end FloatKind

/-! ### A sum of two values whose product keeps no sign of a zero -/

theorem units_plusZero (d : ℤ) (n : Bool) (m : Nat) (e : ℤ) :
    FVal.units d (.fin (n && m != 0) m e) = FVal.units d (.fin n m e) := by
  cases n
  · rfl
  · by_cases zero : m = 0 <;> simp [FVal.units, zero]

theorem units_neg {n : Bool} {m : Nat} (d e : ℤ) (h : (n && m != 0) = true) : FVal.units d (.fin n m e) < 0 := by
  obtain ⟨rfl, some⟩ : n = true ∧ m ≠ 0 := by simpa using h
  have : (0 : ℤ) < m * 2 ^ (e - d).toNat := by positivity
  simp [FVal.units, this]

theorem units_nonpos (d : ℤ) (m : Nat) (e : ℤ) : FVal.units d (.fin true m e) ≤ 0 := by
  simp only [FVal.units, if_true, Left.neg_nonpos_iff]
  positivity

theorem sum_inf_fin (s n : Bool) (m : Nat) (e : ℤ) : FVal.sum [.inf s, .fin n m e] = .inf s := by cases s <;> rfl

/-- The sum of two finite values, in units that do not depend on their signs. -/
theorem sum_fin_fin (j m : Nat) (f e : ℤ) : ∃ d, ∀ s n, FVal.sum [.fin s j f, .fin n m e] =
    let t := FVal.units d (.fin s j f) + FVal.units d (.fin n m e)
    if t = 0 then .fin (s && n) 0 0 else .fin (decide (t < 0)) t.natAbs d := by
  rcases j with _ | j <;> rcases m with _ | m
  · exact ⟨0, fun s n => by simp [FVal.sum, FVal.isNan, FVal.isInf, FVal.sign, lowestExp]⟩
  · exact ⟨e, fun s n => by simp [FVal.sum, FVal.isNan, FVal.isInf, FVal.sign, lowestExp]⟩
  · exact ⟨f, fun s n => by simp [FVal.sum, FVal.isNan, FVal.isInf, FVal.sign, lowestExp]⟩
  · exact ⟨min f e, fun s n => by simp [FVal.sum, FVal.isNan, FVal.isInf, FVal.sign, lowestExp]⟩

/-- With one of two terms an exact zero without a sign, the sum's zero has none. -/
theorem sum_plusZero (x : FVal) (n : Bool) (m : Nat) (e : ℤ) :
    FVal.sum [x, (FVal.fin n m e).plusZero] = FVal.total [x, .fin n m e] := by
  rw [FVal.total]
  cases x with
  | nan => rfl
  | inf s =>
    rw [FVal.plusZero, sum_inf_fin, sum_inf_fin]
    rfl
  | fin s j f =>
    obtain ⟨d, sum⟩ := sum_fin_fin j m f e
    rw [FVal.plusZero, sum, sum, units_plusZero]
    dsimp only
    split
    next zero =>
      have plus : (s && (n && m != 0)) = false := by
        by_contra signs
        obtain ⟨hs, hn⟩ : s = true ∧ (n && m != 0) = true := by simpa using signs
        have below := units_neg d e hn
        have := units_nonpos d j f
        rw [hs] at zero
        omega
      simp [plus, FVal.plusZero]
    next some => simp [some, FVal.plusZero]

end Sys2Proof.Machine
end
/-! ## Codes nearest to a value: LS20 and PB8 (R224, R236, R238, R247) -/
section
namespace Sys2Proof.Machine

/-! ### Neighbouring codes -/

/-- Two codes with no other code's value from one to the other. -/
structure Neighbours (code : Nat → Prop) (val : Nat → ℚ) (lo hi : Nat) : Prop where
  low : code lo
  high : code hi
  lt : val lo < val hi
  apart : ∀ q, code q → q = lo ∨ q = hi ∨ val q < val lo ∨ val hi < val q

section
variable {code : Nat → Prop} {val : Nat → ℚ} {lo hi : Nat} {x : ℚ}

theorem Neighbours.nearest_low (h : Neighbours code val lo hi) (above : val lo ≤ x)
    (near : x - val lo < val hi - x ∨ (x - val lo = val hi - x ∧ lo % 2 = 0 ∧ hi % 2 = 1)) : NearestCode code val x lo := by
  have lt := h.lt
  have below : x ≤ val hi := by rcases near with h | h <;> linarith
  refine ⟨h.low, fun q hq other => ?_⟩
  rw [abs_of_nonneg (sub_nonneg.2 above)]
  rcases h.apart q hq with rfl | rfl | under | past
  · exact absurd rfl other
  · rw [abs_of_nonpos (sub_nonpos.2 below), neg_sub]
    exact near.imp id fun ⟨tie, even, odd⟩ => ⟨tie, even, .inl odd⟩
  · rw [abs_of_nonneg (by linarith)]
    exact .inl (by linarith)
  · rw [abs_of_nonpos (by linarith)]
    exact .inl (by rcases near with h | h <;> linarith)

theorem Neighbours.nearest_high (h : Neighbours code val lo hi) (below : x ≤ val hi)
    (near : val hi - x < x - val lo ∨ (val hi - x = x - val lo ∧ hi % 2 = 0)) : NearestCode code val x hi := by
  have lt := h.lt
  have above : val lo ≤ x := by rcases near with h | h <;> linarith
  refine ⟨h.high, fun q hq other => ?_⟩
  rw [abs_of_nonpos (sub_nonpos.2 below), neg_sub]
  rcases h.apart q hq with rfl | rfl | under | past
  · rw [abs_of_nonneg (sub_nonneg.2 above)]
    exact near.imp id fun ⟨tie, even⟩ => ⟨tie, even, .inr lt⟩
  · exact absurd rfl other
  · rw [abs_of_nonneg (by linarith)]
    exact .inl (by rcases near with h | h <;> linarith)
  · rw [abs_of_nonpos (by linarith)]
    exact .inl (by linarith)

theorem Neighbours.floor_low (h : Neighbours code val lo hi) (nonneg : 0 ≤ x) (above : val lo ≤ x) (below : x < val hi) :
    FloorCode code val x lo := by
  have lt := h.lt
  rw [FloorCode, max_eq_left nonneg]
  refine ⟨h.low, above, fun q hq le => ?_⟩
  rcases h.apart q hq with rfl | rfl | under | past <;> linarith

/-- On a grid between two neighbours, rounding the multiple gives the nearest of them. -/
theorem Neighbours.nearest_round (h : Neighbours code val lo hi) {num den : Nat} {u : ℚ} (pos : 0 < den) (unit : 0 < u)
    (at_ : x = num / den * u) (at_low : val lo = (num / den : Nat) * u) (at_high : val hi = ((num / den : Nat) + 1) * u)
    (parity : lo % 2 = num / den % 2) (parity' : hi % 2 = (num / den + 1) % 2) :
    NearestCode code val x (if roundQ true num den = num / den then lo else hi) := by
  obtain ⟨low, high⟩ := div_bounds (num := num) pos
  have left : x - val lo = ((num : ℚ) / den - (num / den : Nat)) * u := by rw [at_, at_low]; ring
  have right : val hi - x = ((num / den : Nat) + 1 - (num : ℚ) / den) * u := by rw [at_, at_high]; ring
  have bits := Nat.mod_two_eq_zero_or_one (num / den)
  rw [roundQ_true pos]
  by_cases down : (num : ℚ) / den - (num / den : Nat) < (num / den : Nat) + 1 - num / den
      ∨ ((num : ℚ) / den - (num / den : Nat) = (num / den : Nat) + 1 - num / den ∧ num / den % 2 = 0)
  · rw [if_pos down, if_pos rfl]
    refine h.nearest_low (by rw [at_, at_low]; exact mul_le_mul_of_nonneg_right low unit.le) ?_
    rw [left, right]
    refine down.imp (fun lt => mul_lt_mul_of_pos_right lt unit) fun ⟨tie, even⟩ => ⟨by rw [tie], by omega, by omega⟩
  · rw [if_neg down, if_neg (by omega)]
    refine h.nearest_high (by rw [at_, at_high]; exact mul_le_mul_of_nonneg_right high.le unit.le) ?_
    rw [left, right]
    push Not at down
    obtain ⟨le, odd⟩ := down
    rcases le.lt_or_eq with lt | tie
    · exact .inl (mul_lt_mul_of_pos_right lt unit)
    · have := odd tie.symm
      exact .inr ⟨by rw [tie], by omega⟩

/-- From the largest value on, the nearest code is its own. -/
theorem code_of_top {top : Nat} (member : code top) (nonneg : 0 ≤ x) (above : val top ≤ x)
    (all : ∀ q, code q → q = top ∨ val q < val top) (rne : Bool) :
    if rne then NearestCode code val x top else FloorCode code val x top := by
  cases rne
  · rw [if_neg Bool.false_ne_true, FloorCode, max_eq_left nonneg]
    exact ⟨member, above, fun q hq _ => (all q hq).elim (fun same => same ▸ le_rfl) le_of_lt⟩
  · refine ⟨member, fun q hq other => .inl ?_⟩
    have under := (all q hq).resolve_left other
    rw [abs_of_nonneg (sub_nonneg.2 above), abs_of_nonneg (by linarith)]
    linarith

/-- Up to zero, the nearest code is that of zero. -/
theorem code_of_nonpos {none0 : Nat} (member : code none0) (is : val none0 = 0) (below : x ≤ 0)
    (all : ∀ q, code q → q = none0 ∨ 0 < val q) (rne : Bool) :
    if rne then NearestCode code val x none0 else FloorCode code val x none0 := by
  cases rne
  · rw [if_neg Bool.false_ne_true, FloorCode, max_eq_right below, is]
    exact ⟨member, le_rfl, fun q _ le => le⟩
  · refine ⟨member, fun q hq other => .inl ?_⟩
    have past := (all q hq).resolve_left other
    rw [is, sub_zero, abs_of_nonpos below, abs_of_nonpos (by linarith)]
    linarith

end

/-! ### A grid of significands and exponents -/

/-- The number with f bits of significand after a leading one that a code stands for, in units of the lowest. -/
def gridVal (f c : Nat) : Nat := (2 ^ f + c % 2 ^ f) * 2 ^ (c / 2 ^ f)

/-- A significand up to the next power of two, with an exponent. -/
theorem gridVal_eq {f k : Nat} (E : Nat) (small : k ≤ 2 ^ f) : gridVal f (E * 2 ^ f + k) = (2 ^ f + k) * 2 ^ E := by
  have pos := Nat.two_pow_pos f
  rcases small.lt_or_eq with lt | rfl
  · rw [gridVal, Nat.mul_comm E, Nat.mul_add_mod, Nat.mod_eq_of_lt lt, Nat.mul_add_div pos, Nat.div_eq_of_lt lt, Nat.add_zero]
  · rw [gridVal, ← Nat.succ_mul, Nat.mul_mod_left, Nat.mul_div_cancel _ pos, Nat.add_zero, pow_succ, ← two_mul]
    ring

theorem gridVal_strictMono (f : Nat) : StrictMono (gridVal f) := by
  refine strictMono_nat_of_lt_succ fun c => ?_
  have low := Nat.mod_lt c (Nat.two_pow_pos f)
  obtain ⟨E, k, hk, rfl⟩ : ∃ E k, k < 2 ^ f ∧ c = E * 2 ^ f + k := ⟨_, _, low, (Nat.div_add_mod' c _).symm⟩
  rw [Nat.add_assoc, gridVal_eq E hk.le, gridVal_eq E hk]
  exact Nat.mul_lt_mul_of_pos_right (by omega) (Nat.two_pow_pos E)

theorem gridVal_pos (f c : Nat) : 0 < gridVal f c := Nat.mul_pos (by have := Nat.two_pow_pos f; omega) (Nat.two_pow_pos _)

/-- A fraction's significand of f bits after the leading one. -/
theorem significand_bounds {num den : Nat} (hn : num ≠ 0) (hd : den ≠ 0) (f : Nat) :
    let q := inUnits num den (floorLog num den - f)
    (num / den : ℚ) = q.1 / q.2 * 2 ^ (floorLog num den - f) ∧ 2 ^ f ≤ q.1 / q.2 ∧ q.1 / q.2 < 2 ^ (f + 1) := by
  intro q
  have pos : 0 < q.2 := inUnits_den_pos (Nat.pos_of_ne_zero hd) _
  have scale := two_zpow_pos (floorLog num den - f)
  have value : (q.1 : ℚ) / q.2 = num / den / 2 ^ (floorLog num den - f) := inUnits_rat _ _ _
  obtain ⟨low, high⟩ := floorLog_spec hn hd
  have hpos : (0 : ℚ) < q.2 := Nat.cast_pos.2 pos
  refine ⟨by rw [value, div_mul_cancel₀ _ scale.ne'], (Nat.le_div_iff_mul_le pos).2 ?_, (Nat.div_lt_iff_lt_mul pos).2 ?_⟩
  · have : (2 : ℚ) ^ f ≤ q.1 / q.2 := by
      rw [value, le_div_iff₀ scale, ← zpow_natCast, ← zpow_add₀ two_ne_zero, add_sub_cancel]
      exact low
    rw [le_div_iff₀ hpos] at this
    exact_mod_cast this
  · have : (q.1 : ℚ) / q.2 < 2 ^ (f + 1) := by
      rw [value, div_lt_iff₀ scale, ← zpow_natCast, ← zpow_add₀ two_ne_zero]
      refine high.trans_eq (congrArg _ ?_)
      push_cast
      ring
    rw [div_lt_iff₀ hpos] at this
    exact_mod_cast this

end Sys2Proof.Machine
end

/-! ## The nearest LS20 code (R211, R236, R247) -/
section
namespace Sys2Proof.Machine

theorem ls20Code_iff {c : Nat} : Ls20Code c ↔ c = 0 ∨ (4096 ≤ c ∧ c ≤ 0xFEFFF) := by
  unfold Ls20Code
  omega

theorem ls20Rat_zero : ls20Rat 0 = 0 := rfl

theorem ls20Rat_grid {c : Nat} (normal : 4096 ≤ c) : ls20Rat c = gridVal 12 c * 2 ^ (-139 : ℤ) := by
  have scale : (2 : ℚ) ^ ((c / 4096 : ℤ) - 127) = 2 ^ (c / 4096) * 2 ^ (-139 : ℤ) * 4096 := by
    rw [show (4096 : ℚ) = 2 ^ (12 : ℤ) by norm_num, ← zpow_natCast, ← zpow_add₀ two_ne_zero, ← zpow_add₀ two_ne_zero]
    congr 1
    push_cast
    ring
  rw [ls20Rat, if_neg (by omega), scale, gridVal]
  push_cast
  ring

theorem ls20Rat_lt {c q : Nat} (normal : 4096 ≤ c) (lt : c < q) : ls20Rat c < ls20Rat q := by
  rw [ls20Rat_grid normal, ls20Rat_grid (normal.trans lt.le)]
  exact mul_lt_mul_of_pos_right (Nat.cast_lt.2 (gridVal_strictMono 12 lt)) (two_zpow_pos _)

theorem ls20Rat_pos {c : Nat} (normal : 4096 ≤ c) : 0 < ls20Rat c := by
  rw [ls20Rat_grid normal]
  exact mul_pos (Nat.cast_pos.2 (gridVal_pos 12 c)) (two_zpow_pos _)

/-- The least normal code is 2^−126. -/
theorem ls20Rat_least : ls20Rat 0x1000 = 2 ^ (-126 : ℤ) := by simp [ls20Rat]

/-- A significand of 13 bits and an exponent give the code's value. -/
theorem ls20Rat_significand {l : ℤ} {k : Nat} (range : -126 ≤ l) (low : 4096 ≤ k) (high : k ≤ 8192) :
    ls20Rat ((l + 126).toNat * 4096 + k) = k * 2 ^ (l - 12) := by
  obtain ⟨E, rfl⟩ : ∃ E : Nat, l = E - 126 := ⟨(l + 126).toNat, by omega⟩
  obtain ⟨j, rfl⟩ := Nat.exists_eq_add_of_le low
  have code : ((E : ℤ) - 126 + 126).toNat * 4096 + (4096 + j) = (E + 1) * 2 ^ 12 + j := by omega
  rw [code, ls20Rat_grid (by omega), gridVal_eq (E + 1) (by omega),
    show (E : ℤ) - 126 - 12 = (E + 1 : Nat) + (-139) by push_cast; ring, zpow_add₀ two_ne_zero, zpow_natCast]
  push_cast
  ring

theorem ls20_neighbours_zero : Neighbours Ls20Code ls20Rat 0 0x1000 where
  low := ls20Code_iff.2 (by omega)
  high := ls20Code_iff.2 (by omega)
  lt := ls20Rat_pos le_rfl
  apart q hq := by
    rcases ls20Code_iff.1 hq with rfl | ⟨normal, -⟩
    · exact .inl rfl
    · exact .inr (normal.eq_or_lt.imp Eq.symm fun lt => .inr (ls20Rat_lt le_rfl lt))

theorem ls20_neighbours {c : Nat} (normal : 4096 ≤ c) (small : c < 0xFEFFF) : Neighbours Ls20Code ls20Rat c (c + 1) where
  low := ls20Code_iff.2 (by omega)
  high := ls20Code_iff.2 (by omega)
  lt := ls20Rat_lt normal c.lt_succ_self
  apart q hq := by
    rcases ls20Code_iff.1 hq with rfl | ⟨normal', -⟩
    · exact .inr (.inr (.inl (ls20Rat_pos normal)))
    · rcases lt_trichotomy q c with lt | rfl | gt
      · exact .inr (.inr (.inl (ls20Rat_lt normal' lt)))
      · exact .inl rfl
      · exact .inr ((Nat.succ_le_of_lt gt).eq_or_lt.imp Eq.symm fun lt => .inr (ls20Rat_lt (by omega) lt))

theorem ls20_top {q : Nat} (hq : Ls20Code q) : q = 0xFEFFF ∨ ls20Rat q < ls20Rat 0xFEFFF := by
  rcases ls20Code_iff.1 hq with rfl | ⟨normal, small⟩
  · exact .inr (ls20Rat_pos (by omega))
  · exact small.eq_or_lt.imp id (ls20Rat_lt normal)

theorem ls20_bottom {q : Nat} (hq : Ls20Code q) : q = 0 ∨ 0 < ls20Rat q :=
  (ls20Code_iff.1 hq).imp id fun h => ls20Rat_pos h.1

/-- A positive value below the grid goes to zero or to the least normal code. -/
theorem ls20_small {x : ℚ} {l : ℤ} (low : (2 : ℚ) ^ l ≤ x) (high : x < 2 ^ (l + 1)) (under : l < -126) (rne : Bool) :
    let c := if rne && l = -127 then 0x1000 else 0
    if rne then NearestCode Ls20Code ls20Rat x c else FloorCode Ls20Code ls20Rat x c := by
  have pos : 0 < x := (two_zpow_pos l).trans_le low
  have below : x < ls20Rat 0x1000 := by
    rw [ls20Rat_least]
    exact high.trans_le (zpow_le_iff.2 (by omega))
  cases rne
  case false => exact ls20_neighbours_zero.floor_low pos.le pos.le below
  have half : ls20Rat 0x1000 = 2 ^ (-127 : ℤ) + 2 ^ (-127 : ℤ) := by
    rw [ls20Rat_least, ← two_mul, ← zpow_one_add₀ two_ne_zero]
    norm_num
  simp only [Bool.true_and, decide_eq_true_eq, if_true]
  by_cases last : l = -127
  · rw [if_pos last]
    rw [last] at low
    refine ls20_neighbours_zero.nearest_high below.le ?_
    rw [ls20Rat_zero, sub_zero]
    rcases low.lt_or_eq with lt | tie
    · exact .inl (by linarith)
    · exact .inr ⟨by linarith, rfl⟩
  · rw [if_neg last]
    have : x < 2 ^ (-127 : ℤ) := high.trans_le (zpow_le_iff.2 (by omega))
    refine ls20_neighbours_zero.nearest_low pos.le (.inl ?_)
    rw [ls20Rat_zero, sub_zero]
    linarith

theorem ls20Enc_code {num den : Nat} (hn : num ≠ 0) (hd : den ≠ 0) (rne : Bool) :
    if rne then NearestCode Ls20Code ls20Rat (num / den) (ls20Enc rne num den)
    else FloorCode Ls20Code ls20Rat (num / den) (ls20Enc rne num den) := by
  obtain ⟨low, high⟩ := floorLog_spec hn hd
  obtain ⟨value, large, small⟩ := significand_bounds hn hd 12
  have nonneg : (0 : ℚ) ≤ num / den := (two_zpow_pos _).le.trans low
  rw [ls20Enc, if_neg hn]
  generalize floorLog num den = l at *
  by_cases under : l < -126
  · rw [if_pos under]
    exact ls20_small low high under rne
  rw [if_neg under]
  have den_pos : 0 < (inUnits num den (l - 12)).2 := inUnits_den_pos (Nat.pos_of_ne_zero hd) _
  generalize inUnits num den (l - 12) = q at *
  have unit := two_zpow_pos (l - 12)
  obtain ⟨floor, ceil⟩ := div_bounds (num := q.1) den_pos
  have at_low := ls20Rat_significand (l := l) (k := q.1 / q.2) (by omega) large (by omega)
  have at_high := ls20Rat_significand (l := l) (k := q.1 / q.2 + 1) (by omega) (by omega) (by omega)
  have rounded := le_roundQ rne q.1 q.2
  have rounded' := roundQ_le rne q.1 q.2
  have above : ls20Rat ((l + 126).toNat * 4096 + q.1 / q.2) ≤ num / den := by
    rw [at_low, value]
    exact mul_le_mul_of_nonneg_right floor unit.le
  by_cases top : 0xFEFFF ≤ (l + 126).toNat * 4096 + q.1 / q.2
  · rw [show min _ ls20Max = 0xFEFFF from min_eq_right (by unfold ls20Max; omega)]
    refine code_of_top (ls20Code_iff.2 (by omega)) nonneg (le_trans ?_ above) (fun _ => ls20_top) rne
    exact top.eq_or_lt.elim (fun same => (congrArg ls20Rat same).le) fun lt => (ls20Rat_lt (by omega) lt).le
  · rw [show min _ ls20Max = (l + 126).toNat * 4096 + roundQ rne q.1 q.2 from min_eq_left (by unfold ls20Max; omega)]
    have pair := ls20_neighbours (c := (l + 126).toNat * 4096 + q.1 / q.2) (by omega) (by omega)
    cases rne
    case false =>
      refine pair.floor_low nonneg above ?_
      rw [Nat.add_assoc, at_high, value]
      exact mul_lt_mul_of_pos_right (by exact_mod_cast ceil) unit
    have near := pair.nearest_round den_pos unit value at_low (by rw [Nat.add_assoc, at_high]; push_cast; rfl)
      (by omega) (by omega)
    rw [if_pos rfl]
    convert near using 1
    split <;> omega

/-- A value as an LS20 code is the code of its rule. -/
theorem toLs20_enc (rne saturate : Bool) (v : FVal) : ToLs20 rne v (Fmt.ls20.enc rne saturate v) := by
  match v with
  | .nan => rfl
  | .inf n => rfl
  | .fin n m e =>
    have same : ∀ x : ℚ, ∀ c, (if rne then NearestCode Ls20Code ls20Rat (max x 0) c
        else FloorCode Ls20Code ls20Rat (max x 0) c) →
        (if rne then NearestCode Ls20Code ls20Rat (max x 0) c else FloorCode Ls20Code ls20Rat x c) := by
      intro x c
      cases rne
      · simp only [Bool.false_eq_true, if_false, FloorCode, max_assoc, max_self]
        exact id
      · exact id
    have zero : ∀ x : ℚ, x ≤ 0 → (if rne then NearestCode Ls20Code ls20Rat (max x 0) 0
        else FloorCode Ls20Code ls20Rat x 0) := fun x le => same x 0
      (code_of_nonpos (ls20Code_iff.2 (.inl rfl)) rfl (max_eq_right le).le (fun _ => ls20_bottom) rne)
    have nonneg : (0 : ℚ) ≤ m * 2 ^ e := mul_nonneg (Nat.cast_nonneg m) (two_zpow_pos e).le
    cases n
    case true => exact zero _ (by rw [finiteRat_true]; linarith)
    by_cases none0 : m = 0
    · have code : Fmt.ls20.enc rne saturate (.fin false m e) = 0 := by
        simp [Fmt.enc, ls20Enc, asFraction_num_eq_zero.2 none0]
      rw [code]
      exact zero _ (finiteRat_eq_zero.2 none0).le
    · refine same _ _ ?_
      rw [finiteRat_false, max_eq_left nonneg, ← asFraction_rat]
      exact ls20Enc_code (mt asFraction_num_eq_zero.1 none0) (asFraction_den_pos m e).ne' rne

theorem ls20Enc_le (rne : Bool) (num den : Nat) : ls20Enc rne num den ≤ ls20Max := by
  unfold ls20Enc
  split
  · exact Nat.zero_le _
  · dsimp only
    split
    · split <;> decide
    · exact min_le_right _ _

/-! ### The scale of a block -/

theorem ceilDiv_bounds {num den : Nat} (hd : 0 < den) :
    (num : ℚ) / den ≤ ceilDiv num den ∧ (ceilDiv num den : ℚ) - 1 < num / den := by
  have pos : (0 : ℚ) < den := Nat.cast_pos.2 hd
  have parts := Nat.div_add_mod (num + den - 1) den
  have small := Nat.mod_lt (num + den - 1) hd
  rw [ceilDiv, div_le_iff₀ pos, lt_div_iff₀ pos, sub_mul, one_mul, sub_lt_iff_lt_add, mul_comm]
  generalize (num + den - 1) / den = c at *
  exact ⟨by exact_mod_cast (by omega : num ≤ den * c), by exact_mod_cast (by omega : den * c < num + den)⟩

/-- The code for a scale: the smallest whose value is not below a positive value, or the largest of all. -/
structure ScaleCode (x : ℚ) (c : Nat) : Prop where
  code : Ls20Code c
  pos : c ≠ 0
  holds : x ≤ ls20Rat c ∨ (c = 0xFEFFF ∧ ls20Rat c < x)
  least : ∀ e, Ls20Code e → e < c → ls20Rat e < x

theorem ls20Above_scaleCode {num den : Nat} (hn : num ≠ 0) (hd : den ≠ 0) : ScaleCode (num / den) (ls20Above num den) := by
  obtain ⟨low, high⟩ := floorLog_spec hn hd
  obtain ⟨value, large, small⟩ := significand_bounds hn hd 12
  have pos : (0 : ℚ) < num / den := (two_zpow_pos _).trans_le low
  unfold ls20Above
  generalize floorLog num den = l at *
  by_cases under : l < -126
  · rw [if_pos under]
    refine ⟨ls20Code_iff.2 (by omega), by omega, .inl ?_, fun e he lt => ?_⟩
    · rw [ls20Rat_least]
      exact high.le.trans (zpow_le_iff.2 (by omega))
    · obtain rfl : e = 0 := (ls20Code_iff.1 he).resolve_right (by omega)
      exact pos
  rw [if_neg under]
  have den_pos : 0 < (inUnits num den (l - 12)).2 := inUnits_den_pos (Nat.pos_of_ne_zero hd) _
  generalize inUnits num den (l - 12) = q at *
  have unit := two_zpow_pos (l - 12)
  obtain ⟨floor, ceil⟩ := div_bounds (num := q.1) den_pos
  obtain ⟨up, down⟩ := ceilDiv_bounds (num := q.1) den_pos
  have lower : 4096 ≤ ceilDiv q.1 q.2 := large.trans (by exact_mod_cast floor.trans up)
  have upper : ceilDiv q.1 q.2 ≤ 8192 := by
    have : (ceilDiv q.1 q.2 : ℚ) < (q.1 / q.2 + 2 : Nat) := by push_cast; linarith
    have := Nat.cast_lt.1 this
    omega
  have at_code := ls20Rat_significand (by omega : -126 ≤ l) lower upper
  have above : (num / den : ℚ) ≤ ls20Rat ((l + 126).toNat * 4096 + ceilDiv q.1 q.2) := by
    rw [at_code, value]
    exact mul_le_mul_of_nonneg_right up unit.le
  have below : ∀ e, Ls20Code e → e < (l + 126).toNat * 4096 + ceilDiv q.1 q.2 → ls20Rat e < num / den := by
    intro e he lt
    rcases ls20Code_iff.1 he with rfl | ⟨normal, -⟩
    · exact pos
    rcases lower.eq_or_lt with least | more
    · refine lt_of_lt_of_le (ls20Rat_lt normal lt) ?_
      rwa [at_code, ← least, show ((4096 : Nat) : ℚ) = 2 ^ (12 : ℤ) by norm_num, ← zpow_add₀ two_ne_zero, add_sub_cancel]
    · have pred := ls20Rat_significand (l := l) (k := ceilDiv q.1 q.2 - 1) (by omega) (by omega) (by omega)
      calc ls20Rat e ≤ ls20Rat ((l + 126).toNat * 4096 + (ceilDiv q.1 q.2 - 1)) := by
            rcases (show e ≤ (l + 126).toNat * 4096 + (ceilDiv q.1 q.2 - 1) by omega).eq_or_lt with rfl | lt
            · exact le_rfl
            · exact (ls20Rat_lt normal lt).le
        _ < num / den := by
            rw [pred, value, Nat.cast_sub (by omega), Nat.cast_one]
            exact mul_lt_mul_of_pos_right down unit
  by_cases top : (l + 126).toNat * 4096 + ceilDiv q.1 q.2 ≤ 0xFEFFF
  · rw [show min _ ls20Max = _ from min_eq_left top]
    exact ⟨ls20Code_iff.2 (by omega), by omega, .inl above, below⟩
  · rw [show min _ ls20Max = 0xFEFFF from min_eq_right (by unfold ls20Max; omega)]
    exact ⟨ls20Code_iff.2 (by omega), by omega, .inr ⟨rfl, below _ (ls20Code_iff.2 (by omega)) (by omega)⟩,
      fun e he lt => below e he (by omega)⟩

end Sys2Proof.Machine
end

/-! ## The nearest probability byte (R224, R238, R247) -/
section
namespace Sys2Proof.Machine

/-- The place of a PB8 code in the order of values, and the code of a place. -/
def pbCode (n : Nat) : Nat := (63 - n / 4) * 4 + n % 4

theorem pbCode_lt (n : Nat) : pbCode n < 256 := by
  unfold pbCode
  omega

theorem pbCode_pbCode {n : Nat} (small : n < 256) : pbCode (pbCode n) = n := by
  unfold pbCode
  omega

theorem pbCode_mod (n : Nat) : pbCode n % 2 = n % 2 := by
  unfold pbCode
  omega

/-- Every byte but 0xFF is the code of a place, and place 3 is left out. -/
theorem pbCode_cases {q : Nat} (small : q < 256) : q = 0xFF ∨ ∃ n, n < 256 ∧ n ≠ 3 ∧ q = pbCode n := by
  by_cases zero : q = 0xFF
  · exact .inl zero
  · refine .inr ⟨pbCode q, pbCode_lt q, ?_, (pbCode_pbCode small).symm⟩
    unfold pbCode
    omega

theorem pb8Rat_zero : pb8Rat 0xFF = 0 := rfl

theorem pb8Rat_grid {n : Nat} (small : n < 256) (there : n ≠ 3) : pb8Rat (pbCode n) = gridVal 2 n * 2 ^ (-65 : ℤ) := by
  have quotient : pbCode n / 4 = 63 - n / 4 := by unfold pbCode; omega
  have fraction : pbCode n % 4 = n % 4 := by unfold pbCode; omega
  have scale : (2 : ℚ) ^ (63 - n / 4) * 2 ^ (n / 4) = 2 ^ 63 := by rw [← pow_add]; congr 1; omega
  have unit : (2 : ℚ) ^ (-65 : ℤ) = 1 / (4 * 2 ^ 63) := by norm_num
  rw [pb8Rat, if_neg (by unfold pbCode; omega), quotient, fraction, gridVal, unit, ← scale]
  push_cast
  field_simp

theorem pb8Rat_lt {n q : Nat} (small : q < 256) (there : n ≠ 3) (there' : q ≠ 3) (lt : n < q) :
    pb8Rat (pbCode n) < pb8Rat (pbCode q) := by
  rw [pb8Rat_grid (lt.trans small) there, pb8Rat_grid small there']
  exact mul_lt_mul_of_pos_right (Nat.cast_lt.2 (gridVal_strictMono 2 lt)) (two_zpow_pos _)

theorem pb8Rat_pos {n : Nat} (small : n < 256) (there : n ≠ 3) : 0 < pb8Rat (pbCode n) := by
  rw [pb8Rat_grid small there]
  exact mul_pos (Nat.cast_pos.2 (gridVal_pos 2 n)) (two_zpow_pos _)

/-- The least byte but zero is 2^−63. -/
theorem pb8Rat_least : pb8Rat 0xFC = 2 ^ (-63 : ℤ) := by norm_num [pb8Rat]

theorem pb8Rat_most : pb8Rat 0x03 = 7 / 4 := by norm_num [pb8Rat]

/-- A significand of 3 bits and an exponent give the byte's value. -/
theorem pb8Rat_significand {E k : Nat} (low : 4 ≤ k) (high : k ≤ 8) (small : E * 4 + k - 4 < 256) (there : E * 4 + k - 4 ≠ 3) :
    pb8Rat (pbCode (E * 4 + k - 4)) = k * 2 ^ ((E : ℤ) - 65) := by
  obtain ⟨j, rfl⟩ := Nat.exists_eq_add_of_le low
  rw [pb8Rat_grid small there, show E * 4 + (4 + j) - 4 = E * 2 ^ 2 + j by omega, gridVal_eq E (by omega), sub_eq_add_neg,
    zpow_add₀ two_ne_zero, zpow_natCast]
  push_cast
  ring

theorem pb8_neighbours_zero : Neighbours (· < 256) pb8Rat 0xFF 0xFC where
  low := by decide
  high := by decide
  lt := pb8Rat_pos (n := 0) (by omega) (by omega)
  apart q hq := by
    rcases pbCode_cases hq with rfl | ⟨n, small, there, rfl⟩
    · exact .inl rfl
    · rcases n.eq_zero_or_pos with rfl | pos
      · exact .inr (.inl rfl)
      · exact .inr (.inr (.inr (pb8Rat_lt (n := 0) small (by omega) there pos)))

theorem pb8_neighbours {a b : Nat} (lt : a < b) (small : b < 256) (there : a ≠ 3) (there' : b ≠ 3)
    (next : ∀ n, a < n → n < b → n = 3) : Neighbours (· < 256) pb8Rat (pbCode a) (pbCode b) where
  low := pbCode_lt a
  high := pbCode_lt b
  lt := pb8Rat_lt small there there' lt
  apart q hq := by
    rcases pbCode_cases hq with rfl | ⟨n, small', there'', rfl⟩
    · exact .inr (.inr (.inl (pb8Rat_pos (by omega) there)))
    · rcases lt_trichotomy n a with below | rfl | above
      · exact .inr (.inr (.inl (pb8Rat_lt (by omega) there'' there below)))
      · exact .inl rfl
      · rcases lt_trichotomy n b with inside | rfl | beyond
        · exact absurd (next n above inside) there''
        · exact .inr (.inl rfl)
        · exact .inr (.inr (.inr (pb8Rat_lt small' there' there'' beyond)))

theorem pb8_top {q : Nat} (hq : q < 256) : q = 0x03 ∨ pb8Rat q < pb8Rat 0x03 := by
  rcases pbCode_cases hq with rfl | ⟨n, small, there, rfl⟩
  · exact .inr (pb8Rat_pos (n := 255) (by omega) (by omega))
  · rcases (Nat.le_of_lt_succ small).eq_or_lt with rfl | lt
    · exact .inl rfl
    · exact .inr (pb8Rat_lt (q := 255) (by omega) there (by omega) lt)

theorem pb8_bottom {q : Nat} (hq : q < 256) : q = 0xFF ∨ 0 < pb8Rat q := by
  rcases pbCode_cases hq with rfl | ⟨n, small, there, rfl⟩
  · exact .inl rfl
  · exact .inr (pb8Rat_pos small there)

/-- A positive value below the grid goes to zero or to the least byte above it. -/
theorem pb8_small {x : ℚ} {l : ℤ} (low : (2 : ℚ) ^ l ≤ x) (high : x < 2 ^ (l + 1)) (under : l < -63) (rne : Bool) :
    let c := if rne && l = -64 then 0xFC else 0xFF
    if rne then NearestCode (· < 256) pb8Rat x c else FloorCode (· < 256) pb8Rat x c := by
  have pos : 0 < x := (two_zpow_pos l).trans_le low
  have below : x < pb8Rat 0xFC := by
    rw [pb8Rat_least]
    exact high.trans_le (zpow_le_iff.2 (by omega))
  cases rne
  case false => exact pb8_neighbours_zero.floor_low pos.le pos.le below
  have half : pb8Rat 0xFC = 2 ^ (-64 : ℤ) + 2 ^ (-64 : ℤ) := by
    rw [pb8Rat_least, ← two_mul, ← zpow_one_add₀ two_ne_zero]
    norm_num
  simp only [Bool.true_and, decide_eq_true_eq, if_true]
  by_cases last : l = -64
  · rw [if_pos last]
    rw [last] at low
    refine pb8_neighbours_zero.nearest_high below.le ?_
    rw [pb8Rat_zero, sub_zero]
    rcases low.lt_or_eq with lt | tie
    · exact .inl (by linarith)
    · exact .inr ⟨by linarith, rfl⟩
  · rw [if_neg last]
    have : x < 2 ^ (-64 : ℤ) := high.trans_le (zpow_le_iff.2 (by omega))
    refine pb8_neighbours_zero.nearest_low pos.le (.inl ?_)
    rw [pb8Rat_zero, sub_zero]
    linarith

/-- The place that 3 bits of significand and an exponent give, where place 3, whose code is that of zero, goes to its nearer
neighbour. -/
def pbPlace (rne : Bool) (E num den : Nat) : Nat :=
  let n := E * 4 + roundQ rne num den - 4
  if n = 3 then (if rne && E = 0 && decide (7 * den ≤ num) then 4 else 2) else n

section
variable {x : ℚ} {E num den : Nat} (pos : 0 < den) (value : x = num / den * 2 ^ ((E : ℤ) - 65))
include pos value

/-- Away from place 3, the place is the nearest or the one below. -/
theorem pbPlace_regular (large : 4 ≤ num / den) (small : num / den ≤ 7) (range : E * 4 + num / den - 4 < 255)
    (there : E * 4 + num / den - 4 ≠ 2) (there' : E * 4 + num / den - 4 ≠ 3) (rne : Bool) :
    if rne then NearestCode (· < 256) pb8Rat x (pbCode (pbPlace rne E num den))
    else FloorCode (· < 256) pb8Rat x (pbCode (pbPlace rne E num den)) := by
  have unit := two_zpow_pos ((E : ℤ) - 65)
  obtain ⟨floor, ceil⟩ := div_bounds (num := num) pos
  have at_low := pb8Rat_significand (E := E) large (by omega) (by omega) there'
  have at_high := pb8Rat_significand (E := E) (k := num / den + 1) (by omega) (by omega) (by omega) (by omega)
  have rounded := le_roundQ rne num den
  have rounded' := roundQ_le rne num den
  have pair := pb8_neighbours (a := E * 4 + num / den - 4) (b := E * 4 + (num / den + 1) - 4) (by omega) (by omega) there'
    (by omega) (fun n => by omega)
  have place : pbPlace rne E num den = E * 4 + roundQ rne num den - 4 := if_neg (by omega)
  rw [place]
  cases rne
  case false =>
    refine pair.floor_low (by rw [value]; positivity) ?_ ?_
    · rw [at_low, value]
      exact mul_le_mul_of_nonneg_right floor unit.le
    · rw [at_high, value]
      exact mul_lt_mul_of_pos_right (by exact_mod_cast ceil) unit
  have near := pair.nearest_round pos unit value at_low (by rw [at_high]; push_cast; rfl)
    (by rw [pbCode_mod]; omega) (by rw [pbCode_mod]; omega)
  rw [if_pos rfl]
  convert near using 1
  split
  next same => rw [same]
  next other => rw [show roundQ true num den = num / den + 1 by omega]

/-- Between places 2 and 4, from the middle on to the higher one. -/
theorem pbPlace_gap (least : E = 0) (large : 6 ≤ num / den) (small : num / den ≤ 7) (rne : Bool) :
    if rne then NearestCode (· < 256) pb8Rat x (pbCode (pbPlace rne E num den))
    else FloorCode (· < 256) pb8Rat x (pbCode (pbPlace rne E num den)) := by
  subst least
  have unit := two_zpow_pos (((0 : Nat) : ℤ) - 65)
  have hd : (0 : ℚ) < den := Nat.cast_pos.2 pos
  have at_low : pb8Rat (pbCode 2) = 6 * 2 ^ (((0 : Nat) : ℤ) - 65) := by norm_num [pb8Rat, pbCode]
  have at_high : pb8Rat (pbCode 4) = 8 * 2 ^ (((0 : Nat) : ℤ) - 65) := by norm_num [pb8Rat, pbCode]
  have low : (6 : ℚ) ≤ num / den := (by exact_mod_cast large : (6 : ℚ) ≤ (num / den : Nat)).trans (div_bounds pos).1
  have high : (num / den : ℚ) < 8 := (div_bounds pos).2.trans_le (by exact_mod_cast Nat.succ_le_succ small)
  have pair := pb8_neighbours (a := 2) (b := 4) (by omega) (by omega) (by omega) (by omega) (fun n => by omega)
  have above : pb8Rat (pbCode 2) ≤ x := by
    rw [at_low, value]
    exact mul_le_mul_of_nonneg_right low unit.le
  have below : x < pb8Rat (pbCode 4) := by
    rw [at_high, value]
    exact mul_lt_mul_of_pos_right high unit
  cases rne
  case false =>
    have place : pbPlace false 0 num den = 2 := by
      simp only [pbPlace, roundQ_false, Bool.false_and, Bool.false_eq_true, if_false]
      split <;> omega
    rw [place]
    exact pair.floor_low (by rw [value]; positivity) above below
  rw [if_pos rfl]
  have middle : 7 * den ≤ num ↔ (7 : ℚ) ≤ num / den := by
    rw [le_div_iff₀ hd]
    norm_cast
  by_cases upper : 7 * den ≤ num
  · have past := middle.1 upper
    have quotient : num / den = 7 := le_antisymm small ((Nat.le_div_iff_mul_le pos).2 upper)
    have rounded := le_roundQ true num den
    have rounded' := roundQ_le true num den
    have place : pbPlace true 0 num den = 4 := by
      simp only [pbPlace, upper, Bool.true_and, decide_true, if_true]
      split <;> omega
    rw [place]
    refine pair.nearest_high below.le ?_
    rw [at_low, at_high, value, ← sub_mul, ← sub_mul]
    rcases past.lt_or_eq with lt | tie
    · exact .inl (mul_lt_mul_of_pos_right (by linarith) unit)
    · exact .inr ⟨by rw [← tie]; norm_num, rfl⟩
  · have before := not_le.1 (mt middle.2 upper)
    have quotient : num / den = 6 := by
      have := (Nat.div_lt_iff_lt_mul pos).2 (not_le.1 upper)
      omega
    have rounded := le_roundQ true num den
    have rounded' := roundQ_le true num den
    have place : pbPlace true 0 num den = 2 := by
      simp only [pbPlace, upper, decide_false, Bool.and_false, Bool.false_eq_true, if_false]
      split <;> omega
    rw [place]
    refine pair.nearest_low above (.inl ?_)
    rw [at_low, at_high, value, ← sub_mul, ← sub_mul]
    exact mul_lt_mul_of_pos_right (by linarith) unit

end

theorem pb8Enc_eq_place {num den E : Nat} (hn : num ≠ 0) (top : ¬ 7 * den ≤ 4 * num) (rne : Bool)
    (exponent : floorLog num den = E - 63) : let q := inUnits num den (E - 65)
    pb8Enc rne num den = pbCode (pbPlace rne E q.1 q.2) := by
  dsimp only [pb8Enc]
  rw [if_neg hn, if_neg top, exponent, if_neg (by omega), show (E : ℤ) - 63 - 2 = E - 65 by ring,
    show ((E : ℤ) - 63 + 63).toNat = E by omega,
    show decide ((E : ℤ) - 63 = -63) = decide (E = 0) from decide_eq_decide.2 (by omega)]
  rfl

theorem pb8Enc_code {num den : Nat} (hn : num ≠ 0) (hd : den ≠ 0) (rne : Bool) :
    if rne then NearestCode (· < 256) pb8Rat (num / den) (pb8Enc rne num den)
    else FloorCode (· < 256) pb8Rat (num / den) (pb8Enc rne num den) := by
  have pos : (0 : ℚ) < den := Nat.cast_pos.2 (Nat.pos_of_ne_zero hd)
  have most : 7 * den ≤ 4 * num ↔ pb8Rat 0x03 ≤ num / den := by
    rw [pb8Rat_most, div_le_div_iff₀ four_pos pos, mul_comm (num : ℚ)]
    norm_cast
  obtain ⟨low, high⟩ := floorLog_spec hn hd
  obtain ⟨value, large, small⟩ := significand_bounds hn hd 2
  have nonneg : (0 : ℚ) ≤ num / den := (two_zpow_pos _).le.trans low
  by_cases top : 7 * den ≤ 4 * num
  · rw [pb8Enc, if_neg hn, if_pos top]
    exact code_of_top (by decide) nonneg (most.1 top) (fun _ => pb8_top) rne
  have under_top := not_le.1 (mt most.2 top)
  rw [pb8Rat_most] at under_top
  by_cases under : floorLog num den < -63
  · dsimp only [pb8Enc]
    rw [if_neg hn, if_neg top, if_pos under]
    exact pb8_small low high under rne
  obtain ⟨E, exponent⟩ : ∃ E : Nat, floorLog num den = E - 63 := ⟨(floorLog num den + 63).toNat, by omega⟩
  have bounded : floorLog num den < 1 := zpow_lt_iff.1 (low.trans_lt (by norm_num; linarith))
  rw [pb8Enc_eq_place hn top rne exponent]
  rw [exponent, show (E : ℤ) - 63 - (2 : Nat) = E - 65 by push_cast; ring] at value large small
  have den_pos : 0 < (inUnits num den ((E : ℤ) - 65)).2 := inUnits_den_pos (Nat.pos_of_ne_zero hd) _
  generalize inUnits num den ((E : ℤ) - 65) = q at *
  have range : E * 4 + q.1 / q.2 - 4 < 255 := by
    rcases (show E ≤ 63 by omega).eq_or_lt with rfl | lt
    · have : (q.1 / q.2 : ℚ) < 7 := by
        have unit : (2 : ℚ) ^ (((63 : Nat) : ℤ) - 65) = 1 / 4 := by norm_num
        rw [value, unit] at under_top
        linarith
      have := Nat.cast_lt.1 ((div_bounds den_pos).1.trans_lt this |>.trans_eq (by norm_num : (7 : ℚ) = (7 : Nat)))
      omega
    · omega
  by_cases gap : E * 4 + q.1 / q.2 - 4 = 2 ∨ E * 4 + q.1 / q.2 - 4 = 3
  · exact pbPlace_gap den_pos value (by omega) (by omega) (by omega) rne
  · exact pbPlace_regular den_pos value large (by omega) range (by omega) (by omega) rne

theorem pb8Enc_lt (rne : Bool) {num den : Nat} (hd : den ≠ 0) : pb8Enc rne num den < 256 := by
  by_cases hn : num = 0
  · rw [pb8Enc, if_pos hn]
    decide
  · have code := pb8Enc_code hn hd rne
    split at code
    · exact code.1
    · exact code.1

/-- A value as a probability byte is the code of its rule. -/
theorem toPb8_enc (rne saturate : Bool) (v : FVal) : ToPb8 rne v (Fmt.pb8.enc rne saturate v) := by
  match v with
  | .nan => rfl
  | .inf n => rfl
  | .fin n m e =>
    have none0 : ∀ x : ℚ, x ≤ 0 → (if rne then NearestCode (· < 256) pb8Rat x 0xFF
        else FloorCode (· < 256) pb8Rat x 0xFF) := fun x le =>
      code_of_nonpos (by decide) rfl le (fun _ => pb8_bottom) rne
    have nonneg : (0 : ℚ) ≤ m * 2 ^ e := mul_nonneg (Nat.cast_nonneg m) (two_zpow_pos e).le
    cases n
    case true => exact none0 _ (by rw [finiteRat_true]; linarith)
    by_cases zero : m = 0
    · have code : Fmt.pb8.enc rne saturate (.fin false m e) = 0xFF := by
        simp [Fmt.enc, pb8Enc, asFraction_num_eq_zero.2 zero]
      rw [code]
      exact none0 _ (finiteRat_eq_zero.2 zero).le
    · show if rne then NearestCode _ _ (finiteRat false m e) _ else FloorCode _ _ (finiteRat false m e) _
      rw [finiteRat_false, ← asFraction_rat]
      exact pb8Enc_code (mt asFraction_num_eq_zero.1 zero) (asFraction_den_pos m e).ne' rne

end Sys2Proof.Machine
end

/-! ## Conversions of lanes (VCVT: R210, R247) -/
section
namespace Sys2Proof.Machine

theorem sat_eq {lo hi : ℤ} (range : lo ≤ hi) (x : ℤ) : sat x lo hi = max lo (min x hi) := by
  unfold sat
  split
  · omega
  · split <;> omega

theorem nearestInt_neg {x : ℚ} {z : ℤ} (near : NearestInt x z) : NearestInt (-x) (-z) := by
  obtain ⟨close, even⟩ := near
  have same : |-x - ((-z : ℤ) : ℚ)| = |x - z| := by
    rw [← abs_neg]
    push_cast
    congr 1
    ring
  rw [NearestInt, same]
  exact ⟨close, fun tie => by have := even tie; omega⟩

/-- A finite value's integer is the one that its rule names. -/
theorem roundsToInt_roundInt (rne n : Bool) (m : Nat) (e : ℤ) : RoundsToInt rne (finiteRat n m e) (roundInt rne n m e) := by
  have pos := asFraction_den_pos m e
  have value := asFraction_rat m e
  have nonneg : (0 : ℚ) ≤ m * 2 ^ e := mul_nonneg (Nat.cast_nonneg m) (two_zpow_pos e).le
  have floor : ⌊(m * 2 ^ e : ℚ)⌋ = ((asFraction m e).1 / (asFraction m e).2 : Nat) := by
    rw [← value]
    exact Rat.floor_natCast_div_natCast _ _
  unfold RoundsToInt roundInt
  dsimp only
  cases rne
  case true =>
    have near := nearestInt_roundQ (num := (asFraction m e).1) pos
    rw [value] at near
    cases n
    · rw [finiteRat_false]
      exact near
    · rw [finiteRat_true]
      exact nearestInt_neg near
  rw [roundQ_false, ← floor, if_neg Bool.false_ne_true]
  cases n
  · rw [finiteRat_false, if_pos nonneg]
    rfl
  · rw [finiteRat_true, if_pos rfl]
    split
    next zero =>
      rw [show (m * 2 ^ e : ℚ) = 0 by linarith]
      simp
    next => exact Int.ceil_neg.symm

/-- A value as an integer of a format is the one of its rule. -/
theorem toIntLane_enc {g : Fmt} (integer : g.isInt = true) (rne saturate : Bool) (v : FVal) :
    ToIntLane g rne v (g.enc rne saturate v) := by
  have range : g.lo ≤ g.hi := by
    cases g with
    | sint w =>
      have : (1 : ℤ) ≤ 2 ^ (w - 1) := one_le_pow₀ one_le_two
      show -(2 ^ (w - 1) : ℤ) ≤ 2 ^ (w - 1) - 1
      omega
    | uint w => exact sub_nonneg.2 (one_le_pow₀ one_le_two)
    | _ => cases integer
  have code : g.enc rne saturate v = match v with
      | .nan => 0
      | .inf n => wrapInt g.bits (if n then g.lo else g.hi)
      | .fin n m e => wrapInt g.bits (sat (roundInt rne n m e) g.lo g.hi) := by
    cases g with
    | sint | uint => cases v <;> rfl
    | _ => cases integer
  rw [code]
  match v with
  | .nan => rfl
  | .inf n => rfl
  | .fin n m e => exact ⟨_, roundsToInt_roundInt rne n m e, congrArg (wrapInt g.bits) (sat_eq range _)⟩

theorem enc_lt_bits (g : Fmt) (rne saturate : Bool) (v : FVal) : g.enc rne saturate v < 2 ^ g.bits := by
  cases g with
  | flt k => exact k.enc_lt rne saturate v
  | pb8 =>
    match v with
    | .nan | .inf true | .fin true _ _ => exact (by decide : 0xFF < 2 ^ 8)
    | .inf false => exact (by decide : 0x03 < 2 ^ 8)
    | .fin false m e => exact pb8Enc_lt rne (asFraction_den_pos m e).ne'
  | ls20 =>
    match v with
    | .nan | .inf true | .fin true _ _ => exact (by decide : 0 < 2 ^ 32)
    | .inf false => exact (by decide : ls20Max < 2 ^ 32)
    | .fin false m e => exact (ls20Enc_le rne _ _).trans_lt (by decide : ls20Max < 2 ^ 32)
  | sint w | uint w =>
    match v with
    | .nan => exact Nat.two_pow_pos w
    | .inf n => exact wrapInt_lt w _
    | .fin n m e => exact wrapInt_lt w _

theorem convert_lt (f g : Fmt) (rne saturate : Bool) (x : Nat) : convert f g rne saturate x < 2 ^ g.bits := by
  unfold convert
  split
  · exact wrapInt_lt _ _
  · exact enc_lt_bits g rne saturate _

/-- A converted lane is the one that the table of conversions gives. -/
theorem converts_convert (f g : Fmt) (rne saturate : Bool) (x : Nat) :
    Converts f g rne saturate x (convert f g rne saturate x) := by
  have whole (integer : g.isInt = true) : if f.isInt && !saturate
      then convert f g rne saturate x = wrapInt g.bits (f.int x)
      else ToIntLane g rne (f.dec x) (convert f g rne saturate x) := by
    rw [convert, integer, Bool.and_true]
    split
    · rfl
    · exact toIntLane_enc integer rne saturate _
  have other (not_int : g.isInt = false) : convert f g rne saturate x = g.enc rne saturate (f.dec x) := by
    rw [convert, not_int, Bool.and_false, Bool.false_and, if_neg Bool.false_ne_true]
  cases g with
  | sint w | uint w => exact whole rfl
  | flt k => exact other rfl
  | pb8 => exact other rfl ▸ toPb8_enc rne saturate _
  | ls20 => exact other rfl ▸ toLs20_enc rne saturate _

/-- The lanes of a conversion: those that the source has, and zero above. -/
theorem laneAt_cvtVec (f t : Fmt) (var : Nat) (a : Vec) {k : Nat} (inside : k < 2048 / t.bits) :
    laneAt t.bits (cvtVec f t var a) k = if k < 2048 / f.bits
      then convert f t (var % 2 = 0) (2 ≤ var) (laneAt f.bits a k) else 0 := by
  rw [cvtVec, laneAt_packLanes _ inside, List.getD_eq_getElem?_getD, List.getElem?_map, List.getElem?_take,
    if_pos (show k < t.lanes from inside)]
  split
  next there =>
    rw [getElem?_lanesOf a there]
    exact Nat.mod_eq_of_lt (convert_lt _ _ _ _ _)
  next beyond =>
    rw [List.getElem?_eq_none (by rw [length_lanesOf]; omega)]
    exact Nat.zero_mod _

theorem conversionResults : Claim.ConversionResults := by
  intro s blk rest d a q sel x m f g ready
  refine vecLanesBy_vop1 rfl rfl ready fun k inside => ?_
  rw [laneAt_cvtVec _ _ _ _ inside]
  by_cases there : k < 2048 / f.bits
  · rw [if_pos there, if_pos there]
    exact converts_convert f g _ _ _
  · rw [if_neg there, if_neg there]

end Sys2Proof.Machine
end

/-! ## Scaled accumulation and the probability-byte words (VSACC, VTOPB8, VSHADD: R213, R224, R225) -/
section
namespace Sys2Proof.Machine

/-! ### VSACC -/

theorem ls20Dec_fin (x : Nat) : ∃ m e, ls20Dec x = .fin false m e := by
  unfold ls20Dec
  dsimp only
  split
  · exact ⟨_, _, rfl⟩
  · split <;> exact ⟨_, _, rfl⟩

/-- A lane of VSACC is the sum of its rule, rounded once. -/
theorem saccLane_eq (p acc sa sw : Nat) : saccLane p acc sa sw = FloatKind.fp32.rne (FVal.total
    [FloatKind.fp32.dec acc, (FVal.ofInt (signedOf 40 p)).mul ((ls20Dec sa).mul (ls20Dec sw))]) := by
  obtain ⟨m, e, scale⟩ := ls20Dec_fin sa
  obtain ⟨j, f, scale'⟩ := ls20Dec_fin sw
  rw [saccLane, scale, scale']
  exact congrArg FloatKind.fp32.rne (sum_plusZero _ _ _ _)

/-- Partial sum i is lane i of the first register, or lane i − 32 of the second. -/
theorem getElem?_partialSums {i : Nat} (inside : i < 64) (u v : Vec) :
    (lanesOf 64 u ++ lanesOf 64 v)[i]? = some (laneAt 64 (if i < 32 then u else v) (i % 32)) := by
  split
  next first =>
    rw [List.getElem?_append_left (by rw [length_lanesOf]; omega), getElem?_lanesOf u (by omega), Nat.mod_eq_of_lt first]
  next second =>
    rw [List.getElem?_append_right (by rw [length_lanesOf]; omega), length_lanesOf, getElem?_lanesOf v (by omega),
      show i - 2048 / 64 = i % 32 by omega]

theorem laneAt_saccVec {i : Nat} (inside : i < 64) (a0 a1 b0 b1 b2 : Vec) :
    laneAt 32 (saccVec a0 a1 b0 b1 b2) i = saccLane (laneAt 64 (if i < 32 then a0 else a1) (i % 32)) (laneAt 32 b0 i)
      (laneAt 32 b1 i) (laneAt 32 b2 i) % 2 ^ 32 := by
  have lane (v : Vec) : (lanesOf 32 v)[i]? = some (laneAt 32 v i) := getElem?_lanesOf v inside
  rw [saccVec, laneAt_packLanes _ inside, List.getD_eq_getElem?_getD, List.getElem?_zipWith, List.getElem?_zipWith,
    List.getElem?_zipWith, getElem?_partialSums inside, lane, lane, lane]
  rfl

theorem scaledAccumulation : Claim.ScaledAccumulation := by
  intro s blk rest d a b sel x y srcs lane ready fitsA fitsB
  have group : (vopVsacc d a b x y).group = none := by
    show (if 54 < a.toNat then some a.toNat else if 53 < b.toNat then some b.toNat else none) = none
    rw [if_neg (by omega), if_neg (by omega)]
  refine ⟨_, answers_vecWrote (op := vopVsacc d a b x y) rfl group rfl rfl rfl rfl ready, fun i inside => ?_⟩
  dsimp only
  rw [← saccLane_eq]
  refine (laneAt_saccVec inside _ _ _ _ _).trans ?_
  by_cases first : i < 32
  · rw [if_pos first, Nat.div_eq_of_lt first]
    rfl
  · rw [if_neg first, show i / 32 = 1 by omega]
    rfl

/-! ### VTOPB8 -/

theorem laneAt_topb8Vec (k : FloatKind) (v : Vec) {i : Nat} (inside : i < 256) : laneAt 8 (topb8Vec (.flt k) v) i
    = if i < 2048 / k.width then topb8Lane k (laneAt k.width v i) else 0 := by
  rw [topb8Vec, laneAt_packLanes _ inside, List.getD_eq_getElem?_getD, List.getElem?_map]
  split
  next there =>
    rw [getElem?_lanesOf v there]
    exact Nat.mod_eq_of_lt (enc_lt_bits .pb8 true false _)
  next beyond =>
    rw [List.getElem?_eq_none (by rw [length_lanesOf]; omega)]
    rfl

/-! ### VSHADD -/

/-- Every register has a byte for each lane. -/
theorem laneAt_shaddVec (f : Fmt) (u v z : Vec) {i : Nat} (inside : i < 2048 / f.bits) (bytes : i < 256) :
    laneAt f.bits (shaddVec f u v z) i
      = shaddLane f (laneAt f.bits u i) (laneAt f.bits v i) (laneAt 8 z i) % 2 ^ f.bits := by
  rw [shaddVec, laneAt_packLanes _ inside, List.getD_eq_getElem?_getD, List.getElem?_zipWith, List.getElem?_zipWith,
    getElem?_lanesOf u inside, getElem?_lanesOf v inside, getElem?_lanesOf z bytes]
  rfl

theorem shaddLane_of_isInt {f : Fmt} (integer : f.isInt = true) (d x p : Nat) :
    let e := p / 4
    let part := fun n (on : Bool) => if on then f.int x / 2 ^ n else 0
    shaddLane f d x p = wrapInt f.bits (f.int d + if p = 0xFF then 0
      else part e true + part (e + 1) (p.testBit 1) + part (e + 2) (p.testBit 0)) := by
  have lane : shaddLane f d x p = wrapInt f.bits (f.int d + shiftTerm (f.int x) p) := by
    cases f with
    | sint | uint => rfl
    | _ => cases integer
  rw [lane, shiftTerm, bitAt_eq_testBit, bitAt_eq_testBit]
  rfl

/-- With byte 0xFF a float lane stays, and a NaN becomes the NaN that the unit writes. -/
theorem shaddLane_of_flt (k : FloatKind) {d : Nat} (small : d < 2 ^ k.width) (x p : Nat) :
    shaddLane (.flt k) d x p = if p = 0xFF then (if (k.dec d).isNan then k.nanCode else d)
      else k.rne (FVal.total [k.dec d, (k.dec x).mul (pb8Dec p)]) := by
  rw [shaddLane]
  split
  · split
    next nan =>
      rw [FVal.eq_nan_of_isNan nan]
      rfl
    next number => exact k.rne_dec small (Bool.eq_false_of_not_eq_true number)
  · rfl

/-- The codes up to 13 are those of integers and of floats. -/
theorem isInt_or_flt_fmtOf {c : Nat} (small : c ≤ 13) : (fmtOf c).isInt = true ∨ ∃ k, fmtOf c = .flt k := by
  interval_cases c <;> simp [fmtOf, Fmt.isInt]

theorem probabilityByteResults : Claim.ProbabilityByteResults := by
  intro s blk rest d a b sel x y f w A D p
  constructor
  · intro k fmt small ready
    have code := code_of_flt fmt
    refine vecLanesBy_vop1 rfl (by simp [fmtQuant]; omega) ready fun i inside => ?_
    rw [show fmtOf s.me.sys.vshape = .flt k from fmt, laneAt_topb8Vec k _ inside]
    have width : w = k.width := congrArg Fmt.bits fmt
    by_cases there : i < 2048 / w
    · rw [if_pos there, if_pos (width ▸ there)]
      have lane : A i = laneAt k.width (s.me.srcVal a.toNat) i := congrArg (fun n => laneAt n _ i) width
      rw [lane]
      exact toPb8_enc true false _
    · rw [if_neg there, if_neg (width ▸ there)]
  · intro small ready port
    have arith : fmtArith s.me.sys.vshape = true := decide_eq_true small
    refine vecLanes_of_by (vecLanesBy_vop3 rfl arith ready fun i inside => ?_)
    have bytes : i < 256 := by
      have widths := bits_fmtOf s.me.sys.vshape
      simp only [List.mem_cons, List.not_mem_nil, or_false] at widths
      have inside : i < 2048 / (fmtOf s.me.sys.vshape).bits := inside
      rcases widths with h | h | h | h <;> rw [h] at inside <;> omega
    refine (laneAt_shaddVec f _ _ _ inside bytes).trans (congrArg (· % 2 ^ w) ?_)
    have lane : D i < 2 ^ f.bits := laneAt_lt _ _ i
    show shaddLane f (D i) (A i) (p i) = _
    have kind : f.isInt = true ∨ ∃ k, f = .flt k := isInt_or_flt_fmtOf small
    clear_value f
    rcases kind with integer | ⟨k, rfl⟩
    · refine (shaddLane_of_isInt integer _ _ _).trans ?_
      cases f with
      | sint | uint => rfl
      | _ => cases integer
    · exact shaddLane_of_flt k lane _ _

end Sys2Proof.Machine
end

/-! ## Quantisation of blocks (VQUANT: R211) -/
section
namespace Sys2Proof.Machine

/-! ### The layout of the result -/

theorem chunksOf_range {α : Type} {n : Nat} (some : 0 < n) (g : Nat → α) {J k : Nat} (enough : J ≤ k) :
    chunksOf n ((List.range (n * J)).map g) k = (List.range J).map fun j => (List.range n).map fun i => g (n * j + i) := by
  induction k generalizing J g with
  | zero =>
    obtain rfl : J = 0 := by omega
    rfl
  | succ k ih =>
    cases J with
    | zero => rfl
    | succ J =>
      have first : (List.range (n * (J + 1))).map g
          = (List.range n).map g ++ (List.range (n * J)).map fun i => g (n + i) := by
        rw [Nat.mul_succ, Nat.add_comm, List.range_add, List.map_append, List.map_map]
        rfl
      have more : ((List.range (n * (J + 1))).map g).isEmpty = false := by
        rw [List.isEmpty_eq_false_iff, Ne, List.map_eq_nil_iff, List.range_eq_nil]
        positivity
      rw [chunksOf, more, first, List.take_left' (by simp), List.drop_left' (by simp), ih _ (by omega), List.range_succ_eq_map,
        List.map_cons, List.map_map]
      simp [Function.comp_def, Nat.mul_succ, Nat.add_comm, Nat.add_left_comm]

theorem flatten_range {α : Type} {n : Nat} (some : 0 < n) (h : Nat → Nat → α) (J : Nat) :
    ((List.range J).map fun j => (List.range n).map (h j)).flatten
      = (List.range (n * J)).map fun t => h (t / n) (t % n) := by
  induction J with
  | zero => rfl
  | succ J ih =>
    rw [List.range_succ, List.map_append, List.flatten_append, ih, Nat.mul_succ, List.range_add, List.map_append, List.map_map,
      List.map_singleton, List.flatten_singleton]
    congr 1
    refine List.map_congr_left fun i hi => ?_
    have small := List.mem_range.1 hi
    simp [Nat.mul_add_div some, Nat.div_eq_of_lt small, Nat.mod_eq_of_lt small]

section
variable {bytes : List Nat} (fits : bytes.length ≤ 128) {scales : List Nat} {i : Nat}
include fits

theorem packNat_bytes_lt : packNat 8 bytes < 2 ^ 1024 :=
  (packNat_lt 8 bytes).trans_le (pow_le_pow_right₀ one_le_two (by omega))

theorem laneAt_low_half (inside : i < 128) :
    laneAt 8 (BitVec.ofNat 2048 (packNat 8 bytes + 2 ^ 1024 * packNat 32 scales)) i = bytes.getD i 0 % 2 ^ 8 := by
  have small := packNat_bytes_lt fits
  rw [laneAt_ofNat _ (by omega), ← bitsAt_mod (k := 1024) (by omega), Nat.add_mul_mod_self_left, Nat.mod_eq_of_lt small,
    field_packNat]

theorem laneAt_high_half (inside : i < 32) :
    laneAt 32 (BitVec.ofNat 2048 (packNat 8 bytes + 2 ^ 1024 * packNat 32 scales)) (32 + i)
      = scales.getD i 0 % 2 ^ 32 := by
  have small := packNat_bytes_lt fits
  rw [laneAt_ofNat _ (by omega), ← field_packNat, bitsAt, show 32 * (32 + i) = 1024 + 32 * i by ring, pow_add,
    ← Nat.div_div_eq_div_mul, Nat.add_mul_div_left _ _ (Nat.two_pow_pos 1024), Nat.div_eq_of_lt small, Nat.zero_add]
  rfl

end

/-! ### The values of a block -/

/-- A lane counts as a finite value. -/
theorem quantValue_fin (k : FloatKind) (x : Nat) :
    ∃ n m e, quantValue k x = .fin n m e ∧ finiteRat n m e = quantInput k x := by
  unfold quantValue quantInput
  cases k.dec x with
  | nan => exact ⟨false, 0, 0, rfl, by simp [finiteRat]⟩
  | inf n => cases k <;> cases n <;> exact ⟨_, _, _, rfl, rfl⟩
  | fin n m e => exact ⟨n, m, e, rfl, rfl⟩

theorem lowestExp_le (l : List FVal) (d : ℤ) :
    lowestExp d l ≤ d ∧ ∀ n m e, .fin n m e ∈ l → m ≠ 0 → lowestExp d l ≤ e := by
  induction l generalizing d with
  | nil => exact ⟨le_rfl, fun _ _ _ h => absurd h List.not_mem_nil⟩
  | cons v l ih =>
    obtain ⟨step, step_le, step_fin⟩ : ∃ d', d' ≤ d ∧ (∀ n m e, v = .fin n m e → m ≠ 0 → d' ≤ e)
        ∧ lowestExp d (v :: l) = lowestExp d' l := by
      cases v with
      | fin n m e =>
        by_cases zero : m = 0
        · exact ⟨d, le_rfl, fun _ _ _ same some => absurd zero (by cases same; exact some), by simp [lowestExp, zero]⟩
        · exact ⟨min d e, min_le_left _ _, fun _ _ _ same _ => by cases same; exact min_le_right _ _, by simp [lowestExp, zero]⟩
      | nan | inf => exact ⟨d, le_rfl, fun _ _ _ same => FVal.noConfusion same, rfl⟩
    obtain ⟨own, rest⟩ := step_fin
    obtain ⟨low, all⟩ := ih step
    rw [rest]
    refine ⟨low.trans step_le, fun n m e member some => ?_⟩
    rcases List.mem_cons.1 member with same | member
    · exact low.trans (own n m e same.symm some)
    · exact all n m e member some

theorem foldl_max_le_iff {l : List Nat} {a b : Nat} : l.foldl max a ≤ b ↔ a ≤ b ∧ ∀ x ∈ l, x ≤ b := by
  induction l generalizing a with
  | nil => simp
  | cons x l ih => simp [ih, and_assoc]

/-- In units of the block's lowest exponent, a value's magnitude is a whole number. -/
theorem magUnits_rat {k : FloatKind} {xs : List Nat} {x : Nat} (member : x ∈ xs) (d0 : ℤ) :
    let d := lowestExp d0 (xs.map (quantValue k))
    (magUnits d (quantValue k x) : ℚ) * 2 ^ d = |quantInput k x| := by
  intro d
  obtain ⟨n, m, e, value, input⟩ := quantValue_fin k x
  have scale := two_zpow_pos d
  have units : (FVal.units d (.fin n m e) : ℚ) * 2 ^ d = finiteRat n m e := by
    by_cases zero : m = 0
    · subst zero
      simp [FVal.units, finiteRat]
    · exact units_rat ((lowestExp_le _ d0).2 n m e (value ▸ List.mem_map_of_mem member) zero) n m
  rw [← input, ← units, value, magUnits, abs_mul, abs_of_pos scale, Nat.cast_natAbs, Int.cast_abs]

/-- A normal code's value as its significand and exponent. -/
theorem ls20Dec_of_code {c : Nat} (low : 4096 ≤ c) (high : c ≤ 0xFEFFF) :
    ∃ m e, 0 < m ∧ ls20Dec c = .fin false m e ∧ (m * 2 ^ e : ℚ) = ls20Rat c := by
  have exponent : bitsAt c 12 8 = c / 4096 := by
    unfold bitsAt
    omega
  have scale : (2 : ℚ) ^ ((c / 4096 : ℤ) - 127) = 2 ^ ((c / 4096 : ℤ) - 139) * 4096 := by
    rw [show (4096 : ℚ) = 2 ^ (12 : ℤ) by norm_num, ← zpow_add₀ two_ne_zero]
    congr 1
    ring
  refine ⟨4096 + c % 4096, (c / 4096 : ℤ) - 139, by omega, ?_, ?_⟩
  · rw [ls20Dec, exponent, if_neg (by omega), if_neg (by omega)]
    push_cast
    rfl
  · rw [ls20Rat, if_neg (by omega), scale]
    push_cast
    ring

/-! ### A block -/

/-- The mantissas and the scale of a block are those of its rule. -/
structure Quantised (k : FloatKind) (Q : Nat) (xs : List Nat) (mant : Nat → ℤ) (code : Nat) : Prop where
  zero : (∀ x ∈ xs, quantInput k x = 0) → code = 0 ∧ ∀ x ∈ xs, mant x = 0
  scale : ∀ b ∈ xs, quantInput k b ≠ 0 → (∀ x ∈ xs, |quantInput k x| ≤ |quantInput k b|) →
    ScaleCode (|quantInput k b| / Q) code ∧ ∀ x ∈ xs, ∃ z : ℤ, NearestInt (quantInput k x / ls20Rat code) z
      ∧ mant x = max (-(Q : ℤ)) (min z Q)

/-- The mantissa of a lane whose block is in units of 2^d, under a scale of significand sm and exponent se. -/
def quantMantissa (k : FloatKind) (Q : Nat) (d : ℤ) (sm : Nat) (se : ℤ) (x : Nat) : ℤ :=
  let v := quantValue k x
  let y := asFraction (magUnits d v) (d - se)
  let i : ℤ := roundQ true y.1 (y.2 * sm)
  sat (if v.sign then -i else i) (-Q) Q

/-- A mantissa is the value over the scale, rounded to nearest and saturated. -/
theorem quantMantissa_nearest {k : FloatKind} {x sm : Nat} {se d : ℤ} {r : ℚ} (Q : Nat)
    (mag : (magUnits d (quantValue k x) : ℚ) * 2 ^ d = |quantInput k x|) (pos : 0 < sm) (scale : sm * 2 ^ se = r) :
    ∃ z : ℤ, NearestInt (quantInput k x / r) z ∧ quantMantissa k Q d sm se x = max (-(Q : ℤ)) (min z Q) := by
  obtain ⟨y, hy⟩ : ∃ y, y = asFraction (magUnits d (quantValue k x)) (d - se) := ⟨_, rfl⟩
  have value : (y.1 : ℚ) / (y.2 * sm : Nat) = |quantInput k x| / r := by
    rw [hy, Nat.cast_mul, ← div_div, asFraction_rat, ← scale, ← mag, zpow_sub₀ two_ne_zero]
    field_simp
  have near : NearestInt (|quantInput k x| / r) (roundQ true y.1 (y.2 * sm)) := by
    rw [← value, hy]
    exact nearestInt_roundQ (Nat.mul_pos (asFraction_den_pos _ _) pos)
  refine ⟨if (quantValue k x).sign then -(roundQ true y.1 (y.2 * sm) : ℤ) else roundQ true y.1 (y.2 * sm), ?_, ?_⟩
  · obtain ⟨n, m, e, fin, input⟩ := quantValue_fin k x
    rw [← input, abs_finiteRat] at near
    rw [← input, fin, show (FVal.fin n m e).sign = n from rfl]
    cases n
    · rw [finiteRat_false]
      exact near
    · rw [finiteRat_true, neg_div]
      exact nearestInt_neg near
  · rw [hy]
    exact sat_eq (by omega) _

theorem quantBlock_quantised (k : FloatKind) {m : Nat} (wide : 2 ≤ m) (xs : List Nat) :
    ∃ mant code, quantBlock k m xs = (xs.map mant, code) ∧ Quantised k (2 ^ (m - 1) - 1) xs mant code := by
  obtain ⟨d, hd⟩ : ∃ d, d = lowestExp (1 - (k.bias : ℤ) - k.frac) (xs.map (quantValue k)) := ⟨_, rfl⟩
  obtain ⟨amax, ha⟩ : ∃ a, a = ((xs.map (quantValue k)).map (magUnits d)).foldl max 0 := ⟨_, rfl⟩
  have mag : ∀ x ∈ xs, (magUnits d (quantValue k x) : ℚ) * 2 ^ d = |quantInput k x| := fun x hx => by
    rw [hd]
    exact magUnits_rat hx _
  have most : ∀ {b}, amax ≤ b ↔ ∀ x ∈ xs, magUnits d (quantValue k x) ≤ b := by
    intro b
    rw [ha, foldl_max_le_iff, and_iff_right (Nat.zero_le b)]
    simp
  have unit := two_zpow_pos d
  have positive : 1 < 2 ^ (m - 1) := Nat.one_lt_two_pow (by omega)
  by_cases none0 : amax = 0
  · refine ⟨fun _ => 0, 0, ?_, fun _ => ⟨rfl, fun _ _ => rfl⟩, fun b hb some => absurd ?_ some⟩
    · dsimp only [quantBlock]
      rw [← hd, ← ha, if_pos none0]
    · have := mag b hb
      rw [Nat.le_zero.1 (most.1 none0.le b hb), Nat.cast_zero, zero_mul] at this
      exact abs_eq_zero.1 this.symm
  · have num : (asFraction amax d).1 ≠ 0 := mt asFraction_num_eq_zero.1 none0
    have den : (asFraction amax d).2 * (2 ^ (m - 1) - 1) ≠ 0 :=
      (Nat.mul_pos (asFraction_den_pos _ _) (by omega)).ne'
    have scale := ls20Above_scaleCode num den
    rw [Nat.cast_mul, ← div_div, asFraction_rat] at scale
    obtain ⟨code, hc⟩ : ∃ c, c = ls20Above (asFraction amax d).1 ((asFraction amax d).2 * (2 ^ (m - 1) - 1)) := ⟨_, rfl⟩
    rw [← hc] at scale
    have range := (ls20Code_iff.1 scale.code).resolve_left scale.pos
    obtain ⟨sm, se, sm_pos, dec, rat⟩ := ls20Dec_of_code range.1 range.2
    refine ⟨quantMantissa k (2 ^ (m - 1) - 1) d sm se, code, ?_, fun zero => absurd ?_ none0,
      fun b hb _ top => ⟨?_, fun x hx => ?_⟩⟩
    · dsimp only [quantBlock]
      rw [← hd, ← ha, if_neg none0, ← hc, dec]
      dsimp only
      rw [List.map_map]
      rfl
    · refine Nat.le_zero.1 (most.2 fun x hx => ?_)
      have := mag x hx
      rw [zero x hx, abs_zero, mul_eq_zero, or_iff_left unit.ne', Nat.cast_eq_zero] at this
      exact this.le
    · have same : amax = magUnits d (quantValue k b) := by
        refine le_antisymm (most.2 fun x hx => ?_) (most.1 le_rfl b hb)
        have := top x hx
        rw [← mag x hx, ← mag b hb, mul_le_mul_iff_left₀ unit] at this
        exact_mod_cast this
      rwa [same, mag b hb] at scale
    · exact quantMantissa_nearest _ (mag x hx) sm_pos rat

/-! ### The register -/

theorem quantVec_lanes (k : FloatKind) {m J : Nat} (wide : 2 ≤ m) (blocks : 2048 / k.width = 32 * J) (few : J ≤ 4) (a : Vec) :
    ∃ (mant : Nat → Nat → ℤ) (code : Nat → Nat),
      (∀ j, Quantised k (2 ^ (m - 1) - 1) ((List.range 32).map fun i => laneAt k.width a (32 * j + i)) (mant j) (code j))
      ∧ (∀ i, i < 128 → laneAt 8 (quantVec (.flt k) m a) i
          = if i < 32 * J then wrapInt 8 (mant (i / 32) (laneAt k.width a i)) else 0)
      ∧ ∀ j, j < 32 → laneAt 32 (quantVec (.flt k) m a) (32 + j) = if j < J then code j % 2 ^ 32 else 0 := by
  have block (j : Nat) := quantBlock_quantised k wide ((List.range 32).map fun i => laneAt k.width a (32 * j + i))
  choose mant code output right using block
  have outputs : (chunksOf 32 (lanesOf k.width a) 64).map (quantBlock k m) = (List.range J).map fun j =>
      ((List.range 32).map fun i => mant j (laneAt k.width a (32 * j + i)), code j) := by
    rw [lanesOf_eq, blocks, chunksOf_range (by omega) _ (by omega), List.map_map]
    refine List.map_congr_left fun j _ => ?_
    rw [Function.comp_apply, output, List.map_map]
    rfl
  have bytes : ((chunksOf 32 (lanesOf k.width a) 64).map (quantBlock k m) |>.map fun b => b.1.map (wrapInt 8)).flatten
      = (List.range (32 * J)).map fun i => wrapInt 8 (mant (i / 32) (laneAt k.width a i)) := by
    rw [outputs, List.map_map]
    simp only [Function.comp_def, List.map_map]
    rw [flatten_range (by omega) fun j i => wrapInt 8 (mant j (laneAt k.width a (32 * j + i)))]
    simp only [Nat.div_add_mod]
  have scales : ((chunksOf 32 (lanesOf k.width a) 64).map (quantBlock k m)).map Prod.snd = (List.range J).map code := by
    rw [outputs, List.map_map]
    rfl
  have getD_range {N i : Nat} (f : Nat → Nat) : ((List.range N).map f).getD i 0 = if i < N then f i else 0 := by
    rw [List.getD_eq_getElem?_getD, List.getElem?_map]
    split
    next there =>
      rw [List.getElem?_range there]
      rfl
    next beyond =>
      rw [List.getElem?_eq_none (by rw [List.length_range]; omega)]
      rfl
  have fits : ((List.range (32 * J)).map fun i => wrapInt 8 (mant (i / 32) (laneAt k.width a i))).length ≤ 128 := by
    rw [List.length_map, List.length_range]
    omega
  refine ⟨mant, code, right, fun i inside => ?_, fun j inside => ?_⟩
  · dsimp only [quantVec]
    rw [bytes, scales, laneAt_low_half fits inside, getD_range]
    split
    · exact wrapInt_mod 8 _
    · rfl
  · dsimp only [quantVec]
    rw [bytes, scales, laneAt_high_half fits inside, getD_range]
    split <;> rfl

/-- The formats that VQUANT takes have at most four blocks of 32 lanes in a register. -/
theorem blocks_of_quant {c : Nat} {k : FloatKind} (fmt : fmtOf c = .flt k) (small : c ≤ 11) :
    ∃ J, 2048 / k.width = 32 * J ∧ J ≤ 4 := by
  obtain ⟨low, -⟩ := code_of_flt fmt
  have width : k.width = (fmtOf c).bits := (congrArg Fmt.bits fmt).symm
  rw [width]
  interval_cases c
  · exact ⟨4, by decide⟩
  · exact ⟨4, by decide⟩
  · exact ⟨2, by decide⟩
  · exact ⟨1, by decide⟩

theorem quantisationResults : Claim.QuantisationResults := by
  intro s blk rest d a m sel x k fmt small low high ready n Q y
  have code8 := code_of_flt fmt
  have quant : fmtQuant s.me.sys.vshape = true := by simp [fmtQuant]; omega
  obtain ⟨J, blocks, few⟩ := blocks_of_quant fmt small
  obtain ⟨mant, code, right, bytes, scales⟩ := quantVec_lanes k low blocks few (s.me.srcVal a.toNat)
  have count : n / 32 = J := by omega
  have member {j i : Nat} (inside : i < 32) : laneAt k.width (s.me.srcVal a.toNat) (32 * j + i)
      ∈ (List.range 32).map fun i => laneAt k.width (s.me.srcVal a.toNat) (32 * j + i) :=
    List.mem_map.2 ⟨i, List.mem_range.2 inside, rfl⟩
  have whole : ((2 ^ (m.toNat - 1) - 1 : Nat) : ℤ) = Q := by
    rw [Nat.cast_sub Nat.one_le_two_pow]
    push_cast
    rfl
  have mantissa {j i : Nat} (hj : j < n / 32) (inside : i < 32) :
      laneAt 8 (quantVec (.flt k) m.toNat (s.me.srcVal a.toNat)) (32 * j + i)
        = wrapInt 8 (mant j (laneAt k.width (s.me.srcVal a.toNat) (32 * j + i))) := by
    rw [bytes _ (by omega), if_pos (by omega), show (32 * j + i) / 32 = j by omega]
  refine ⟨_, answers_vop1 rfl quant ready, ?_⟩
  rw [fmt]
  refine ⟨fun j hj => ⟨fun zero => ?_, fun b hb some top => ?_⟩, fun i past inside => ?_, fun i past inside => ?_⟩
  · obtain ⟨none0, zeros⟩ := (right j).zero (by simpa [y] using zero)
    refine ⟨?_, fun i inside => ?_⟩
    · rw [scales j (by omega), if_pos (by omega), none0]
      rfl
    · rw [mantissa hj inside, zeros _ (member inside)]
      rfl
  · obtain ⟨scale, mants⟩ := (right j).scale _ (member hb) some (by simpa [y] using top)
    have positive : (0 : ℚ) < (2 ^ (m.toNat - 1) - 1 : Nat) := by
      have := Nat.one_lt_two_pow (n := m.toNat - 1) (by omega)
      exact Nat.cast_pos.2 (by omega)
    have wholeQ : ((2 ^ (m.toNat - 1) - 1 : Nat) : ℚ) = Q := by rw [← whole]; rfl
    have range := ls20Code_iff.1 scale.code
    have same : laneAt 32 (quantVec (.flt k) m.toNat (s.me.srcVal a.toNat)) (32 + j) = code j := by
      rw [scales j (by omega), if_pos (by omega), Nat.mod_eq_of_lt (by omega)]
    rw [same]
    refine ⟨scale.code, scale.pos, ?_, fun e he lt => ?_, fun i inside => ?_⟩
    · rw [← wholeQ, ← div_le_iff₀ positive, ← lt_div_iff₀ positive]
      exact scale.holds
    · rw [← wholeQ, ← lt_div_iff₀ positive]
      exact scale.least e he lt
    · obtain ⟨z, near, value⟩ := mants _ (member inside)
      exact ⟨z, near, by rw [mantissa hj inside, value, whole]⟩
  · rw [bytes i inside, if_neg (by omega)]
  · rw [scales i inside, if_neg (by omega)]

/-- Settles O27: conversions, blocks with their scales, scaled sums and probability bytes, each by its lanes. -/
theorem vectorConversions : Obligations.VectorConversions :=
  ⟨conversionResults, quantisationResults, scaledAccumulation, probabilityByteResults⟩

end Sys2Proof.Machine
end
